-- ==== Sys2Proof/Word.lean ====
section
/-! DEFINITION. The word types of the model: the widths the spec gives registers, points and bytes. -/

namespace Sys2Proof

/-- One byte of memory or of a frame (00 R5, R6). -/
abbrev Byte := BitVec 8

/-- A halfword: one point in its 16-bit container (02 R37), or a Clalo halfword (08 R275). -/
abbrev Half := BitVec 16

/-- A 32-bit register, memory word or Clalo general register. -/
abbrev Word := BitVec 32

/-- A 64-bit access, message or step word. -/
abbrev DWord := BitVec 64

end Sys2Proof
end

