-- ==== Sys2Proof/Syntax.lean ====
section
/-! DEFINITION. The commands the block takes: one constructor for every row of the opcode table, and the
types of their operands. Data that reach the unit from outside (frames, levels, arrival times, results of
the board or of a standard the spec only names) are operands. -/

namespace Sys2Proof

/-- Who makes an access (01 R13, 09 R331). -/
inductive Initiator where
  | core (n : Nat)
  | pcie
  | spi
  | localBus
  | mover (m : Nat)
  | ringUnit (u : Nat)
  | switchCore
  | traceUnit
  | gateway
  | hardware
  deriving DecidableEq, Repr

/-- The two ring ports. -/
inductive RingPort where
  | e | w
  deriving DecidableEq, Repr

/-- What an error check finds in a word that is read (15 R508). -/
inductive Upset where
  | clean | corrected | uncorrectable
  deriving DecidableEq, Repr

/-- A write through port B of the SRAM: who or where (a mover, or a halfword's address), and whether a write through
port A reaches the same word in this tick (01 R18, 15 R506). -/
structure PortB where
  target : Nat
  collide : Bool
  deriving DecidableEq, Repr

/-- What the HELLO ordered sets of the neighbour carry (03 R84): the name of its port, its serial, the
rates it supports, and whether it belongs to a running ring. -/
structure Hello where
  port : RingPort
  serial : Nat
  full : Bool
  fallback : Bool
  running : Bool
  deriving DecidableEq, Repr

/-- The core that executes an instruction, and its condition code (08 R276). -/
structure Head where
  core : Nat
  cond : Nat
  deriving DecidableEq, Repr

/-- Two-register operations: the short form rd, rs and the long ALU3 form rd, ra, rb with its S bit. -/
inductive AluForm where
  | short (rd rs : Nat)
  | long (rd ra rb : Nat) (s : Bool)
  deriving DecidableEq, Repr

/-- A register and an immediate: short rd, u4 or long rd, ra and a 12-bit field. -/
inductive ImmForm where
  | short (rd u4 : Nat)
  | long (rd ra s12 : Nat)
  deriving DecidableEq, Repr

/-- Loads and stores: [g14 + 4 × u6], [rb], or the long [ra + s12]. -/
inductive MemForm where
  | sp (rd u6 : Nat)
  | reg (rd rb : Nat)
  | long (rd ra s12 : Nat)
  deriving DecidableEq, Repr

/-- Point loads and stores: short rd, rd + 1, [rb] or long rd, rq, [ra + 2 × s7] with SG. -/
inductive PointForm where
  | short (rd rb : Nat)
  | long (rd rq ra : Nat) (sg : Bool) (s7 : Nat)
  deriving DecidableEq, Repr

/-- SATP and SATPS: short rd or long rd, ra. -/
inductive SatForm where
  | short (rd : Nat)
  | long (rd ra : Nat)
  deriving DecidableEq, Repr

/-- CALL: short GMASK, ra or long MASK, ra. -/
inductive CallForm where
  | short (gmask ra : Nat)
  | long (mask ra : Nat)
  deriving DecidableEq, Repr

/-- POST: the system-group form with ra (`long` for its SYS form) or the long form rd, input, node. -/
inductive PostForm where
  | reg (long : Bool) (ra : Nat)
  | imm (rd input node : Nat)
  deriving DecidableEq, Repr

/-- A CAN frame as its fields (11, Receive Element), with the bytes of its data. -/
structure CanFrame where
  xtd : Bool
  rtr : Bool
  fdf : Bool
  brs : Bool
  esi : Bool
  dlc : Nat
  id : Nat
  data : List Byte
  deriving DecidableEq, Repr

/-- How a transmission attempt ends: sent, at this time; arbitration lost; or an error (11 R407, R408). `loop` is
the loop delay seen in the frame, in kernel cycles (11 R387). -/
inductive CanEnd where
  | sent (sec ns : Nat) (loop : Option Nat)
  | lost
  | error (loop : Option Nat)
  deriving DecidableEq, Repr

/-- What wakes a sleeping CAN controller (11 R416). -/
inductive CanWake where
  | edge
  | frame (f : CanFrame)
  | errcnt
  deriving DecidableEq, Repr

/-- A PCI Express request (16 R534 to R537): a memory read or write at a BAR offset, with its byte enables
(a byte that is not enabled is `false` or `none`); a request that hits no BAR; an I/O or AtomicOp request; a
read of dword `n` of the configuration space; a configuration write that sets Bus Master Enable, MSI-X
Enable and Function Mask, the device state, or the code of Max_Payload_Size. -/
inductive PcieReq where
  | read (bar off : Nat) (enables : List Bool)
  | write (bar off : Nat) (data : List (Option Byte))
  | miss
  | io
  | atomicOp
  | headerRead (n : Nat)
  | busMaster (en : Bool)
  | msix (en mask : Bool)
  | deviceState (d3 : Bool)
  | maxPayload (code : Nat)
  deriving DecidableEq, Repr

/-- State of the PCI Express link (16 R533; PCIE_STATUS.LINK_UP). -/
inductive PcieLink where
  | detect | l0 | l0s | l1
  deriving DecidableEq, Repr

/-- A gateway cycle on STAT or on one of the registers above it: both byte enables, and LB_A[3:1], 4 for STAT and 5 to 7
for what reads 0 and ignores writes (16 R554). -/
structure GwCycle where
  full : Bool
  sel : Nat := 4
  deriving DecidableEq, Repr

/-- What a start of the device meets on the board (17 R587, 18 R603, R609): the flash bytes 0 to 15, the
image in slot A and in slot B as the flash holds them (header and payload), the failure bitmap of the
power-up self-tests, and the SRAM spares that fail their test at power-up: 2 x bank + spare (15 R515). -/
structure Board where
  params : List Byte
  slotA : List Byte
  slotB : List Byte
  selfTest : Nat
  badSpares : List Nat := []
  deriving DecidableEq, Repr

/-- What the exit from DEEP meets: the board, and the LFXTAL periods since the power-down (12 R445). -/
structure DeepExit where
  board : Board
  periods : Nat
  deriving DecidableEq, Repr

/-- The commands: one constructor for every row of the opcode table. -/
inductive Instr where
  /-- REGISTER_WRITE: `who` writes `value` to the register at `addr`. -/
  | registerWrite (who : Initiator) (addr : Nat) (value : Word)
  /-- RCL_READ: `who` reads the register at `addr`, whose RCL fields clear. -/
  | rclRead (who : Initiator) (addr : Nat)
  /-- HOLD_TIME_END: at a boundary the missed-cycle count of local point `index` reaches HOLD. -/
  | holdTimeEnd (index : Nat)
  /-- LIVE_POINT_STALE: at a boundary the live-image point at fabric address `fabric` is missed. -/
  | livePointStale (fabric : Nat)
  /-- HOST_POINT_HELD: at a boundary the count c of host-commanded point `index` reaches 1. -/
  | hostPointHeld (index : Nat)
  /-- HOST_LOSS_TIMEOUT: at a boundary c of host-commanded point `index` reaches the timeout. -/
  | hostLossTimeout (index : Nat)
  /-- HOST_LINK_LOSS: the PCI Express link leaves L0, L0s and L1 for Detect. -/
  | hostLinkLoss
  /-- HOST_WD_EXPIRE: a boundary at which the heartbeat count may reach HOST_WD. -/
  | hostWdExpire
  /-- HOSTBEAT: a write of RING_PT_HOSTBEAT. -/
  | hostbeat (who : Initiator) (value : Word)
  /-- FORCE_SET: a write of RING_PT_FORCE with OP = 0b01. -/
  | forceSet (who : Initiator) (index value : Nat)
  /-- FORCE_RELEASE: a write of RING_PT_FORCE with OP = 0b10. -/
  | forceRelease (who : Initiator) (index : Nat)
  /-- SNAP_REQ: a write of CAD_IMG_CTRL with SNAP_REQ = 1 and SNAP_REL = 0. -/
  | snapReq (who : Initiator)
  /-- SNAP_REL: a write of CAD_IMG_CTRL with SNAP_REL = 1, and SNAP_REQ as `req`. -/
  | snapRel (who : Initiator) (ackSeq : Nat) (req : Bool)
  /-- RESULT_REGISTER_READ: a read of the result register at `addr`. -/
  | resultRegisterRead (who : Initiator) (addr : Nat)
  /-- LINK_SIGNAL_DETECT: a signal is detected on the receiver of port `p`. -/
  | linkSignalDetect (p : RingPort)
  /-- LINK_LOCK: the equaliser of port `p` has adapted and 64 sync headers were valid. -/
  | linkLock (p : RingPort)
  /-- RATE_ATTEMPT_TIMEOUT: 300 µs of a rate attempt of port `p` have passed without block lock. -/
  | rateAttemptTimeout (p : RingPort)
  /-- HELLO: the HELLO ordered sets of port `p` were exchanged in both directions. -/
  | hello (p : RingPort) (h : Hello)
  /-- ALIVE_SEND: port `p` sends its ALIVE ordered set. -/
  | aliveSend (p : RingPort)
  /-- ALIVE_TIMEOUT: port `p` has seen no ALIVE for 4 µs. -/
  | aliveTimeout (p : RingPort)
  /-- SYNC_HEADER_ERRORS: 16 invalid sync headers within 64 blocks on port `p`. -/
  | syncHeaderErrors (p : RingPort)
  /-- RETRAIN_E: a write of RING_LNK_CTRL with RETRAIN_E = 1, the RW fields as they stand. -/
  | retrainE (who : Initiator)
  /-- RETRAIN_W: a write of RING_LNK_CTRL with RETRAIN_W = 1, the RW fields as they stand. -/
  | retrainW (who : Initiator)
  /-- PROBE_SEND: port `p` sends a PROBE_REQ, which departs at unit time `t1` in 1/16 ns. -/
  | probeSend (p : RingPort) (t1 : Nat)
  /-- PROBE_REQ: a PROBE_REQ arrives on port `p` at `t2`; its answer departs at `t3` (1/16 ns). -/
  | probeReq (p : RingPort) (bytes : List Byte) (t2 t3 : Nat)
  /-- PROBE_RSP: a PROBE_RSP arrives on port `p` at `t4` (1/16 ns). -/
  | probeRsp (p : RingPort) (bytes : List Byte) (t4 : Nat)
  /-- ESTIMATE_UNKNOWN_LIMIT: the end of a cycle for an estimate that may be unknown for 16 cycles. -/
  | estimateUnknownLimit (p : RingPort)
  /-- LISTEN_END: the LISTEN period ends. -/
  | listenEnd
  /-- COLDSTART: a COLDSTART frame is complete on port `p`. -/
  | coldstart (p : RingPort) (bytes : List Byte)
  /-- COLDSTART_TIMEOUT: TIMEOUT has passed since the starter sent its frame. -/
  | coldstartTimeout
  /-- RATE_ORDER: a RATE ordered set arrives. -/
  | rateOrder
  /-- RESTART: a write of RING_COLD_CTRL with RESTART = 1, the RW fields as they stand. -/
  | restart (who : Initiator)
  /-- ENUM_PASS_START: the master may send the ENUM frame of the next pass. -/
  | enumPassStart
  /-- ENUM: an ENUM frame passes the unit, arriving on port `p`. -/
  | enum (p : RingPort) (bytes : List Byte)
  /-- ENUM_PASS_TIMEOUT: TIMEOUT has passed since the pass left the master. -/
  | enumPassTimeout
  /-- JOIN_ENUM_SEND: the idle segment in which the master may send a join ENUM frame. -/
  | joinEnumSend
  /-- LINK_DETACH: a write of RING_LNK_CTRL with DETACH = 1, the RW fields as they stand. -/
  | linkDetach (who : Initiator)
  /-- BRIDGE_ACCESS: `who` accesses `size` bytes at `addr` in a remote-unit window: a read (none) or a write. -/
  | bridgeAccess (who : Initiator) (addr size : Nat) (value : Option Nat)
  /-- BRIDGE_TIMEOUT: a cycle has ended, or 250 µs without one, for the outstanding request of tag `tag`. -/
  | bridgeTimeout (tag : Nat)
  /-- BRIDGE_REISSUE: the delay of a retried or withdrawn request has passed. -/
  | bridgeReissue (tag : Nat)
  /-- CYCLE_BOUNDARY: a cycle of this unit begins. -/
  | cycleBoundary
  /-- THROUGH_FRAME_RECEIVE: a through-frame copy arrives on port `p`; `t` is the unit time of its byte 0
  in 0.25 ns. -/
  | throughFrameReceive (p : RingPort) (bytes : List Byte) (t : Nat)
  /-- STATIC_FRAME_READ: 16 ticks before this unit's static frame of its `k`-th slot leaves. -/
  | staticFrameRead (k : Nat)
  /-- STATIC_FRAME_SEND: the start of this unit's `k`-th slot. -/
  | staticFrameSend (k : Nat)
  /-- STATIC_FRAME_RECEIVE: a static copy arrives on port `p`, byte 0 at `t` 0.25 ns after the cycle's start. -/
  | staticFrameReceive (p : RingPort) (bytes : List Byte) (t : Nat)
  /-- STATIC_SEGMENT_END: the static segment ends. -/
  | staticSegmentEnd
  /-- DYNAMIC_FRAME_SEND: the start of the minislot allocated to this unit. -/
  | dynamicFrameSend
  /-- DYNAMIC_FRAME_RECEIVE: a dynamic copy arrives on port `p`, byte 0 at `t` 0.25 ns after the cycle's
  start. -/
  | dynamicFrameReceive (p : RingPort) (bytes : List Byte) (t : Nat)
  /-- TS_LOAD: a write of RING_TS_LOAD with START = 1. -/
  | tsLoad (who : Initiator) (set : Nat)
  /-- TS_LOAD_COMPLETE: the copy of set `set` is complete and is checked. -/
  | tsLoadComplete (set : Nat)
  /-- TS_DROP: a write of RING_TS_LOAD with DROP = 1. -/
  | tsDrop (who : Initiator) (set : Nat)
  /-- MC_START: a write of RING_MC_CTRL with START = 1. -/
  | mcStart (who : Initiator) (next : Nat)
  /-- REFERENCE_CHECK: tick TH_TICKS of a cycle. -/
  | referenceCheck
  /-- HOLDOVER_LIMIT: HOLD_LIMIT cycles in HOLDOVER have passed. -/
  | holdoverLimit
  /-- TB_CAPTURE: a write of TB_CAPTURE. -/
  | tbCapture (who : Initiator) (set : Nat)
  /-- TB_STEP: a write of TB_STEP_NS. -/
  | tbStep (who : Initiator) (ns : Word)
  /-- TB_REF_WRITE: a write of TB_CTRL. -/
  | tbRefWrite (who : Initiator) (value : Word)
  /-- STEEP_FIRE: comparator `comp` reaches its target, `late` as in R204 or in time. -/
  | steepFire (comp : Nat) (late : Bool)
  /-- TOKEN_POST_APPLY: the first waiting post is applied and answered. -/
  | tokenPostApply
  /-- POST_RETRY: 16 ticks after its refusal the post of the `n`-th waiting retry is posted again. -/
  | postRetry (n : Nat)
  /-- POUR_POST: a write of POUR_POSTc. -/
  | pourPost (who : Initiator) (chan : Nat) (value : Word)
  /-- DISPATCH: one tick of the two dispatcher ports. -/
  | dispatch
  /-- SLOT_LOADED: slot `slot` ends its filling. -/
  | slotLoaded (slot : Nat)
  /-- OPERATION_TAKE: the agent of slot `slot` takes its LOADED operation. -/
  | operationTake (slot : Nat)
  /-- OPERATION_COMPLETE: the mover `m` has finished the last point of its operation. -/
  | operationComplete (m : Nat)
  /-- DETACHED_COMPLETE: the bound block ends the detached operation of `node` with `error`. -/
  | detachedComplete (node : Nat) (error : Bool)
  /-- POUR_HOLD: a write of POUR_CTRL with HOLD = 1 and EN as `en`. -/
  | pourHold (who : Initiator) (en : Bool)
  /-- SET_EN: a write of POUR_NODE_CTRL with SET_EN = 1. -/
  | setEn (who : Initiator) (node : Nat)
  /-- CLR_EN: a write of POUR_NODE_CTRL with CLR_EN = 1. -/
  | clrEn (who : Initiator) (node : Nat)
  /-- CONTEXT_TIMER_EXPIRE: timer `t` of context `ctx` reaches 0. -/
  | contextTimerExpire (ctx t : Nat)
  /-- MOVER_POINT_ISSUE: mover `m` issues the next point of its operation. -/
  | moverPointIssue (m : Nat)
  /-- MOVER_POINT_WRITE: the oldest issued point of mover `w.target` is computed and written. -/
  | moverPointWrite (w : PortB)
  /-- MOV_HOLD: a write of MOV_CTRL of mover `m` with HOLD = `hold`. -/
  | movHold (who : Initiator) (m : Nat) (hold : Bool)
  /-- MOV: rd = rs. -/
  | mov (h : Head) (rd rs : Nat)
  /-- ADD: short form with flags, or long form with S. -/
  | add (h : Head) (o : AluForm)
  /-- ADC: long form, flags with S. -/
  | adc (h : Head) (rd ra rb : Nat) (s : Bool)
  /-- SUB: short form with flags, or long form with S. -/
  | sub (h : Head) (o : AluForm)
  /-- SBC: long form, flags with S. -/
  | sbc (h : Head) (rd ra rb : Nat) (s : Bool)
  /-- AND: short form with flags, or long form with S. -/
  | and (h : Head) (o : AluForm)
  /-- OR: short form with flags, or long form with S. -/
  | or (h : Head) (o : AluForm)
  /-- XOR: short form with flags, or long form with S. -/
  | xor (h : Head) (o : AluForm)
  /-- BIC: long form, flags with S. -/
  | bic (h : Head) (rd ra rb : Nat) (s : Bool)
  /-- CMP: short or long form. -/
  | cmp (h : Head) (long : Bool) (rd rb : Nat)
  /-- TST: rd AND rs, not written. -/
  | tst (h : Head) (rd rs : Nat)
  /-- MOVI: rd = u4. -/
  | movi (h : Head) (rd u4 : Nat)
  /-- ADDI: short with flags, or long rd = ra + s12 without. -/
  | addi (h : Head) (o : ImmForm)
  /-- SUBI: rd = rd - u4. -/
  | subi (h : Head) (rd u4 : Nat)
  /-- CMPI: short with u4, long with s12. -/
  | cmpi (h : Head) (long : Bool) (rd imm : Nat)
  /-- ANDI: long form. -/
  | andi (h : Head) (rd ra u12 : Nat)
  /-- ORI: long form. -/
  | ori (h : Head) (rd ra u12 : Nat)
  /-- XORI: long form. -/
  | xori (h : Head) (rd ra u12 : Nat)
  /-- SETL: rd = u16. -/
  | setl (h : Head) (rd u16 : Nat)
  /-- SETH: rd[31:16] = u16. -/
  | seth (h : Head) (rd u16 : Nat)
  /-- LSLI: rd shifted by u4. -/
  | lsli (h : Head) (rd u4 : Nat)
  /-- LSRI: rd shifted by u4. -/
  | lsri (h : Head) (rd u4 : Nat)
  /-- ASRI: rd shifted by u4. -/
  | asri (h : Head) (rd u4 : Nat)
  /-- LSL: shift by a register. -/
  | lsl (h : Head) (o : AluForm)
  /-- LSR: shift by a register. -/
  | lsr (h : Head) (o : AluForm)
  /-- ASR: shift by a register. -/
  | asr (h : Head) (o : AluForm)
  /-- ROR: long form. -/
  | ror (h : Head) (rd ra rb : Nat) (s : Bool)
  /-- SHI: long form: LSL, LSR, ASR or ROR by n. -/
  | shi (h : Head) (rd ra kind n : Nat) (s : Bool)
  /-- BTST: Z from bit u4. -/
  | btst (h : Head) (rd u4 : Nat)
  /-- NEG: short form. -/
  | neg (h : Head) (rd : Nat)
  /-- NOT: short form. -/
  | not (h : Head) (rd : Nat)
  /-- SXTB: short form. -/
  | sxtb (h : Head) (rd : Nat)
  /-- SXTH: short form. -/
  | sxth (h : Head) (rd : Nat)
  /-- ZXTB: short form. -/
  | zxtb (h : Head) (rd : Nat)
  /-- ZXTH: short form. -/
  | zxth (h : Head) (rd : Nat)
  /-- MUL: short or long form. -/
  | mul (h : Head) (o : AluForm)
  /-- MULHS: long form. -/
  | mulhs (h : Head) (rd ra rb : Nat) (s : Bool)
  /-- MULHU: long form. -/
  | mulhu (h : Head) (rd ra rb : Nat) (s : Bool)
  /-- SATP: short or long form. -/
  | satp (h : Head) (o : SatForm)
  /-- SATPS: short or long form. -/
  | satps (h : Head) (o : SatForm)
  /-- QPREC: long form. -/
  | qprec (h : Head) (rd ra rb : Nat) (s : Bool)
  /-- PCOND: long form. -/
  | pcond (h : Head) (mode c : Nat)
  /-- PCLR: system group, short or SYS form. -/
  | pclr (h : Head) (long : Bool)
  /-- PSET: system group, short or SYS form. -/
  | pset (h : Head) (long : Bool)
  /-- PINV: system group, short or SYS form. -/
  | pinv (h : Head) (long : Bool)
  /-- LDW: load word. -/
  | ldw (h : Head) (o : MemForm)
  /-- LDH: load halfword (the sp form is no encoding of it). -/
  | ldh (h : Head) (o : MemForm)
  /-- LDHS: long form. -/
  | ldhs (h : Head) (rd ra s12 : Nat)
  /-- LDB: load byte. -/
  | ldb (h : Head) (o : MemForm)
  /-- LDBS: long form. -/
  | ldbs (h : Head) (rd ra s12 : Nat)
  /-- STW: store word. -/
  | stw (h : Head) (o : MemForm)
  /-- STH: store halfword. -/
  | sth (h : Head) (o : MemForm)
  /-- STB: store byte. -/
  | stb (h : Head) (o : MemForm)
  /-- LDP: load point. -/
  | ldp (h : Head) (o : PointForm)
  /-- STP: store point. -/
  | stp (h : Head) (o : PointForm)
  /-- LDX: context word at byte offset u. -/
  | ldx (h : Head) (long : Bool) (rd u : Nat)
  /-- STX: context word at byte offset u. -/
  | stx (h : Head) (long : Bool) (rd u : Nat)
  /-- B: s11 or s20, in halfwords, as its bit pattern. -/
  | b (h : Head) (long : Bool) (off : Nat)
  /-- BL: s20 as its bit pattern. -/
  | bl (h : Head) (off : Nat)
  /-- JMP: PC = rd. -/
  | jmp (h : Head) (rd : Nat)
  /-- JL: g15 = PC + 2, PC = rd. -/
  | jl (h : Head) (rd : Nat)
  /-- CALL: save registers and branch. -/
  | call (h : Head) (o : CallForm)
  /-- RET: restore and return. -/
  | ret (h : Head) (long : Bool)
  /-- MFS: rd = special register. -/
  | mfs (h : Head) (rd sr : Nat)
  /-- MTS: special register = rd. -/
  | mts (h : Head) (rd sr : Nat)
  /-- NOP: nothing. -/
  | nop (h : Head) (long : Bool)
  /-- WAIT: become idle. -/
  | wait (h : Head) (long : Bool)
  /-- DONE: end the operation. -/
  | done (h : Head) (long : Bool) (sel : Nat)
  /-- DETACH: hand the completion over. -/
  | detach (h : Head) (long : Bool)
  /-- RETE: return from a level. -/
  | rete (h : Head) (long : Bool)
  /-- BREAK: halt or vector 8. -/
  | brk (h : Head) (long : Bool)
  /-- FENCE: wait for the store buffer. -/
  | fence (h : Head) (long : Bool)
  /-- TRAP: raise TRAP. -/
  | trap (h : Head) (long : Bool) (n : Nat)
  /-- POST: post a token. -/
  | post (h : Head) (o : PostForm)
  /-- UNDEFINED_ENCODING: core `core` meets halfwords `h0`, `h1` that no table describes. -/
  | undefinedEncoding (core : Nat) (h0 h1 : Half)
  /-- STORE_BUFFER_ERROR: the boundary at which a failed buffered store of core `core` is taken. -/
  | storeBufferError (core : Nat)
  /-- CORE_RESET: a write of CC_CTRL of core `core` with RUN = 0 and DBG_EN as `dbg`. -/
  | coreReset (who : Initiator) (core : Nat) (dbg : Bool)
  /-- CORE_RELEASE: a write of CC_CTRL of core `core` with RUN = 1 and DBG_EN as `dbg`. -/
  | coreRelease (who : Initiator) (core : Nat) (dbg : Bool)
  /-- CC_RAM_ACCESS: a read (`value` none) or write of CC_RAM_DATA of core `core`. -/
  | ccRamAccess (who : Initiator) (core : Nat) (value : Option Word)
  /-- SOURCE_ASSERT: an event pulse or a rising level reaches source `key` (private: core × 64 + n;
  shared: 0x1000 + n). -/
  | sourceAssert (key : Nat)
  /-- SOURCE_DEASSERT: the level input of source `key` falls. -/
  | sourceDeassert (key : Nat)
  /-- INTERRUPT_TAKE: a take point of core `core`; a source that qualifies enters URGENT, or NORMAL. -/
  | interruptTake (core : Nat) (urgent : Bool)
  /-- IC_NNEXT_POP: a read of core `core`'s IC_NNEXT_POP. -/
  | icNnextPop (who : Initiator) (core : Nat)
  /-- IC_UNEXT_POP: a read of core `core`'s IC_UNEXT_POP. -/
  | icUnextPop (who : Initiator) (core : Nat)
  /-- IC_EOI: a write of `src` to core `core`'s IC_EOI. -/
  | icEoi (who : Initiator) (core src : Nat)
  /-- IC_SEOI: a write of `src` to IC_SEOI. -/
  | icSeoi (who : Initiator) (src : Nat)
  /-- PTRIG_TRIGGER: a write of IC_PTRIG of core `core` with CLR = 0. -/
  | ptrigTrigger (who : Initiator) (core src : Nat)
  /-- PTRIG_CLEAR: a write of IC_PTRIG of core `core` with CLR = 1. -/
  | ptrigClear (who : Initiator) (core src : Nat)
  /-- STRIG_TRIGGER: a write of IC_STRIG with CLR = 0. -/
  | strigTrigger (who : Initiator) (src : Nat)
  /-- STRIG_CLEAR: a write of IC_STRIG with CLR = 1. -/
  | strigClear (who : Initiator) (src : Nat)
  /-- IC_ROUTE_WRITE: a write of IC_ROUTEn. -/
  | icRouteWrite (who : Initiator) (src : Nat) (value : Word)
  /-- DOORBELL_SET: a write of IC_DB_SET_LO, or of IC_DB_SET_HI when `hi`. -/
  | doorbellSet (who : Initiator) (core : Nat) (hi : Bool) (bits : Word)
  /-- MBX_TX_LO: a write of MBX_TX_LOn. -/
  | mbxTxLo (who : Initiator) (chan : Nat) (value : Word)
  /-- MBX_TX_HI: a write of MBX_TX_HIn. -/
  | mbxTxHi (who : Initiator) (chan : Nat) (value : Word)
  /-- MBX_POP_HI: a read of MBX_POP_HIn. -/
  | mbxPopHi (who : Initiator) (chan : Nat)
  /-- MBX_STAGE_EXPIRE: 1 ms after its LO write the word staged for ring unit `unit` is freed. -/
  | mbxStageExpire (unit : Nat)
  /-- ENGINE_TICK: an engine tick of engine `e`; `pins` are the synchronised levels of its bank. -/
  | engineTick (e pins : Nat)
  /-- PE_GSTART: a write of PE_GSTART of group `g`, the bank's synchronised levels being `pins`. -/
  | peGstart (who : Initiator) (g mask pins : Nat)
  /-- PE_GRESTART: a write of PE_GRESTART of group `g`. -/
  | peGrestart (who : Initiator) (g mask : Nat)
  /-- STOP: a write of PE_ECTRL of engine `e` with STOP = 1. -/
  | stop (who : Initiator) (e : Nat)
  /-- ARM: a write of PE_ECTRL of engine `e` with ARM = 1. -/
  | arm (who : Initiator) (e : Nat)
  /-- DISARM: a write of PE_ECTRL of engine `e` with DISARM = 1. -/
  | disarm (who : Initiator) (e : Nat)
  /-- INLATCH: a write of PE_GCTRL of group `g` with INLATCH = 1, the levels being `pins`. -/
  | inlatch (who : Initiator) (g pins : Nat)
  /-- OUTLATCH: a write of PE_GCTRL of group `g` with OUTLATCH = 1. -/
  | outlatch (who : Initiator) (g : Nat)
  /-- PE_TX_PUSH: a write of PE_TX_PUSH of engine `e`. -/
  | peTxPush (who : Initiator) (e : Nat) (value : Word)
  /-- PE_RX_POP: a read of PE_RX_POP of engine `e`. -/
  | peRxPop (who : Initiator) (e : Nat)
  /-- PE_STAGE_WRITE: a write of PE_STAGE of engine `e`. -/
  | peStageWrite (who : Initiator) (e : Nat) (value : Word)
  /-- CAN_MODE_INIT: a write of CAN_CTRL of controller `c` with MODE = INIT. -/
  | canModeInit (who : Initiator) (c : Nat)
  /-- CAN_INIT_EFFECT: the bus is idle or the frame in progress has ended. -/
  | canInitEffect (c : Nat)
  /-- CAN_MODE_NORMAL: a write of CAN_CTRL with MODE = NORMAL. -/
  | canModeNormal (who : Initiator) (c : Nat)
  /-- CAN_MODE_LISTEN: a write of CAN_CTRL with MODE = LISTEN. -/
  | canModeListen (who : Initiator) (c : Nat)
  /-- CAN_MODE_LOOPBACK: a write of CAN_CTRL with MODE = LOOPBACK. -/
  | canModeLoopback (who : Initiator) (c : Nat)
  /-- CAN_MODE_SLEEP: a write of CAN_CTRL with MODE = SLEEP. -/
  | canModeSleep (who : Initiator) (c : Nat)
  /-- CAN_SLEEP_EFFECT: the bus is idle after intermission. -/
  | canSleepEffect (c : Nat)
  /-- CAN_BUS_INTEGRATED: 11 consecutive recessive bits were seen. -/
  | canBusIntegrated (c : Nat)
  /-- CAN_FRAME_VALID: a received frame is valid; `sec`, `ns` are the time of its start-of-frame edge. -/
  | canFrameValid (c : Nat) (f : CanFrame) (sec ns : Nat)
  /-- STRAINER_SEARCH: the search of controller `c` ends `wait` ticks after validity. -/
  | strainerSearch (c wait : Nat)
  /-- CAN_RXF_ACK: a write of CAN_RXF0_ACK or CAN_RXF1_ACK. -/
  | canRxfAck (who : Initiator) (c : Nat) (fifo1 : Bool) (get : Nat)
  /-- CAN_TXREQ: a write of CAN_TXREQ. -/
  | canTxreq (who : Initiator) (c : Nat) (bufs : Word)
  /-- CAN_TXABORT: a write of CAN_TXABORT. -/
  | canTxabort (who : Initiator) (c : Nat) (bufs : Word)
  /-- CAN_ARBITRATION: the start of an arbitration. -/
  | canArbitration (c : Nat)
  /-- CAN_TX_END: the attempt on the bus ends. -/
  | canTxEnd (c : Nat) (e : CanEnd)
  /-- CAN_BUS_ERROR: an error of code `kind` is detected; TEC and REC rise by what ISO 11898-1 gives. -/
  | canBusError (c kind : Nat) (dataPhase : Bool) (tec rec : Nat)
  /-- RECOVER: a write of CAN_CTRL with RECOVER = 1. -/
  | recover (who : Initiator) (c : Nat)
  /-- CAN_RECOVERY_END: 128 occurrences of 11 recessive bits were seen. -/
  | canRecoveryEnd (c : Nat)
  /-- CAN_WAKE: a wake event reaches a sleeping controller. -/
  | canWake (c : Nat) (w : CanWake) (periods : Nat)
  /-- CAN_LOOP_RESTART: a write of CAN_LOOP with RESTART = 1. -/
  | canLoopRestart (who : Initiator) (c : Nat)
  /-- STR_DATA_LO_WRITE: a write of STR_DATA_LO. -/
  | strDataLoWrite (who : Initiator) (value : Word)
  /-- STR_DATA_HI_WRITE: a write of STR_DATA_HI. -/
  | strDataHiWrite (who : Initiator) (value : Word)
  /-- STR_DATA_HI_READ: a read of STR_DATA_HI. -/
  | strDataHiRead (who : Initiator)
  /-- WAKE_N_SEEN: WAKE_N is sampled low twice; `periods` LFXTAL periods after power-down complete. -/
  | wakeNSeen (periods : Nat)
  /-- WKUP_SEEN: input WKUP`k` meets its SENSE for FILT samples. -/
  | wkupSeen (k periods : Nat)
  /-- RING_DETECT: the detector of `port` finds line activity twice. -/
  | ringDetect (port : RingPort) (periods : Nat)
  /-- HOST_WAKE: 0 PCI Express, 1 SPI host port, 2 local bus. -/
  | hostWake (which periods : Nat)
  /-- WAKE_TIMER_EXPIRE: WK_TIMER periods have passed since power-down complete. -/
  | wakeTimerExpire (periods : Nat)
  /-- WAKE_PULSE_END: WAKE_PULSE ms have passed. -/
  | wakePulseEnd
  /-- MAXAWAKE_EXPIRE: the maximum awake time has passed. -/
  | maxawakeExpire
  /-- KA_SEND: the first dynamic segment of a KA_INTERVAL. -/
  | kaSend
  /-- KA_SET: a write of WK_KA_SET. -/
  | kaSet (who : Initiator) (bits : Word)
  /-- KA_INTERVAL_END: a KA_INTERVAL ends. -/
  | kaIntervalEnd
  /-- WK_TOKEN_WRITE: a write of WK_TOKEN. -/
  | wkTokenWrite (who : Initiator) (value : Word)
  /-- TOKEN_FORWARD: the dynamic segment in which a stored token goes on. -/
  | tokenForward
  /-- COMMIT_POINT: the start of a cycle whose number may be CCYCLE. -/
  | commitPoint
  /-- POWER_DOWN_ABORT: 20 µs after the commit point. -/
  | powerDownAbort
  /-- POWER_DOWN_COMPLETE: Kettle has entered the target state. -/
  | powerDownComplete
  /-- DWELL_END: the first LFXTAL edge 50 µs or more after power-down complete. -/
  | dwellEnd (periods : Nat)
  /-- NAP_EXIT_COMPLETE: 180 µs after the wake decision; `periods` LFXTAL periods were spent asleep. -/
  | napExitComplete (periods : Nat)
  /-- MAC_RX_FILTER: a frame (`data`, without FCS) begins to arrive at MAC `m`; `t` is the time, in 1/16 ns,
  at which its first bit after the start-of-frame delimiter crosses the balls. -/
  | macRxFilter (m : Nat) (data : List Byte) (t : Nat)
  /-- MAC_RX_END: the frame `f` ends at its MAC; `symbol` and `fcsBad` say what the receiver saw. -/
  | macRxEnd (f : Nat) (symbol fcsBad : Bool)
  /-- MAC_LINK_CHANGE: the link of MAC `m` is `up` at `speed`, with `half` and `sync` as reported. -/
  | macLinkChange (m : Nat) (up : Bool) (speed : Nat) (half sync : Bool)
  /-- MAC_RXR_GET: a write of MAC_RXRq_PTR. -/
  | macRxrGet (who : Initiator) (m q get : Nat)
  /-- MAC_TXR_TAIL: a write of MAC_TXRq_PTR. -/
  | macTxrTail (who : Initiator) (m q tail : Nat)
  /-- LSO_SEGMENT_ENQUEUE: the next segment of transmit ring `ring` (MAC m ring q: 8m + q, switch ring q:
  32 + q, host ring q: 40 + q). -/
  | lsoSegmentEnqueue (ring : Nat)
  /-- MAC_TX_START: MAC `m` may start the head frame of queue `q`, whose time stamp would be `t` in 1/16 ns. -/
  | macTxStart (m q t : Nat)
  /-- MAC_TX_END: the last FCS byte of the frame on MAC `m`'s wire leaves. -/
  | macTxEnd (m : Nat)
  /-- MAC_TXTS_POP: a read of MAC_TXTS_POP. -/
  | macTxtsPop (who : Initiator) (m : Nat)
  /-- GCL_ENTRY_START: entry `k` of the active list of MAC `m` begins. -/
  | gclEntryStart (m k : Nat)
  /-- GCL_CYCLE_START: a list cycle of MAC `m` starts. -/
  | gclCycleStart (m : Nat)
  /-- GCL_ARM: a write of MAC_GCL_CTRL with ARM = 1. -/
  | gclArm (who : Initiator) (m : Nat)
  /-- GCL_DISARM: a write of MAC_GCL_CTRL with DISARM = 1. -/
  | gclDisarm (who : Initiator) (m : Nat)
  /-- MAC_ENABLE: a write of MAC_CTRL with EN = 1. -/
  | macEnable (who : Initiator) (m : Nat)
  /-- SWITCH_LOOKUP: the first 64 bytes of frame `f` have arrived. -/
  | switchLookup (f : Nat)
  /-- SWITCH_ENQUEUE: 16 ticks later frame `f` enters the queues of its mask. -/
  | switchEnqueue (f : Nat)
  /-- CELL_ALLOCATE: frame `f` needs its next cell. -/
  | cellAllocate (f : Nat)
  /-- PUSH_OUT: a frame of class `cls` needs a cell and the pool is empty. -/
  | pushOut (cls : Nat)
  /-- SWITCH_FRAME_END: the last byte of frame `f` has arrived. -/
  | switchFrameEnd (f : Nat)
  /-- SWITCH_EGRESS: port `p` (4 to 7) serves its queues. -/
  | switchEgress (p : Nat)
  /-- SWITCH_DELIVER: the frame that port `p` serves is written to its receive ring. -/
  | switchDeliver (p : Nat)
  /-- CELL_FREE: the tick after frame `f`'s reference count reached 0. -/
  | cellFree (f : Nat)
  /-- AGE_TICK: a second of unit time has passed. -/
  | ageTick
  /-- FDB_READ: a write of SW_FDB_SEL with OP = 1. -/
  | fdbRead (who : Initiator) (index : Nat)
  /-- FDB_WRITE: a write of SW_FDB_SEL with OP = 2. -/
  | fdbWrite (who : Initiator) (index : Nat)
  /-- FDB_FLUSH: a write of SW_FDB_SEL with OP = 3. -/
  | fdbFlush (who : Initiator) (index : Nat)
  /-- SW_TXR_TAIL: a write of SW_TXRq_PTR, or of PCIE_HTXRq_PTR when `host`. -/
  | swTxrTail (who : Initiator) (host : Bool) (q tail : Nat)
  /-- ECC_WRITEBACK: port B is free and the SRAM halfword at `w.target` is written back. -/
  | eccWriteback (w : PortB)
  /-- BT_REGION_START: INTERVAL ticks have passed; the test engine saves its next region. -/
  | btRegionStart
  /-- BT_RESTORE: the patterns of the saved region are done; `fail` says one read back wrong. -/
  | btRestore (fail : Bool)
  /-- ZERO_FILL_PAGE: the Caddy zero-fills free page `page`. -/
  | zeroFillPage (page : Nat)
  /-- SCRUB_READ: patrol scrubbing reads the 64-bit word at raw-window address `addr` and finds `ecc`. -/
  | scrubRead (addr : Nat) (ecc : Upset)
  /-- CAD_PAGE_POP: a read of CAD_PAGE_POP. -/
  | cadPagePop (who : Initiator)
  /-- CAD_CELL_POP: a read of CAD_CELL_POP. -/
  | cadCellPop (who : Initiator)
  /-- CAD_PAGE_FREE: a write of CAD_PAGE_FREE. -/
  | cadPageFree (who : Initiator) (num : Nat)
  /-- CAD_CELL_FREE: a write of CAD_CELL_FREE. -/
  | cadCellFree (who : Initiator) (num : Nat)
  /-- CARVE_CREATE: a write of CAD_CARVEn_PAGES with PAGES not 0. -/
  | carveCreate (who : Initiator) (n pages : Nat)
  /-- CARVE_RELEASE: a write of CAD_CARVEn_PAGES with PAGES = 0. -/
  | carveRelease (who : Initiator) (n : Nat)
  /-- MSIX_SEND: the bridge may send one MSI-X message. -/
  | msixSend
  /-- LB_HNEXT_POP: a read of LB_HNEXT_POP. -/
  | lbHnextPop (who : Initiator)
  /-- PCIE_REQUEST: a request arrives on the PCI Express link. -/
  | pcieRequest (r : PcieReq)
  /-- PCIE_PERST: PCIE_PERST_N falls (`low`) or rises. -/
  | pciePerst (low : Bool)
  /-- PCIE_LINK_CHANGE: the link enters this state, with this width and rate code. -/
  | pcieLinkChange (link : PcieLink) (lanes rate : Nat)
  /-- SPI_READ: SIZE and COUNT - 1 as byte 1 gives them, and the internal address. -/
  | spiRead (size count addr : Nat)
  /-- SPI_WRITE: as SPI_READ, with the bytes that arrived before SPIH_CS_N rises. -/
  | spiWrite (size count addr : Nat) (data : List Byte)
  /-- SPI_STATUS: a STATUS transaction. -/
  | spiStatus
  /-- SPI_UNKNOWN_COMMAND: a transaction begins with another command byte. -/
  | spiUnknownCommand (byte : Nat)
  /-- SPI_CS_RISE: SPIH_CS_N rises. -/
  | spiCsRise
  /-- LB_CYCLE: a cycle with LB_CS_N low at byte address `a`, LB_BE_N low for the bytes of `be`, LB_OE_N low
  (`oe`), LB_WE_N low with data; `collide`: it meets a same-tick port A write. -/
  | lbCycle (a be : Nat) (oe : Bool) (data : Option Half) (collide : Bool)
  /-- ADDR_LO: a gateway cycle on ADDR_LO, a read (none) or a write; `full`: both byte enables. -/
  | addrLo (full : Bool) (value : Option Half)
  /-- ADDR_HI: as ADDR_LO, on ADDR_HI. -/
  | addrHi (full : Bool) (value : Option Half)
  /-- DATA_LO_READ: a gateway read of DATA_LO. -/
  | dataLoRead (full : Bool)
  /-- DATA_LO_WRITE: a gateway write of DATA_LO. -/
  | dataLoWrite (full : Bool) (value : Half)
  /-- DATA_HI_READ: a gateway read of DATA_HI. -/
  | dataHiRead (full : Bool)
  /-- DATA_HI_WRITE: a gateway write of DATA_HI. -/
  | dataHiWrite (full : Bool) (value : Half)
  /-- STAT_READ: a gateway read of STAT, or of LB_A[3:1] = 5 to 7. -/
  | statRead (cyc : GwCycle)
  /-- STAT_WRITE: a gateway write of STAT, or of LB_A[3:1] = 5 to 7. -/
  | statWrite (cyc : GwCycle) (value : Half)
  /-- LB_DUAL_SELECT: a cycle with both chip selects low. -/
  | lbDualSelect
  /-- FLASH_TRANSACTION: a write of LB_FL_CMD with START = 1 and the other fields as in `value`. -/
  | flashTransaction (who : Initiator) (value : Word)
  /-- FLASH_DONE: the running transaction ends; `data` are the bytes a read took from the flash. -/
  | flashDone (data : List Byte)
  /-- SEM_POP: a read of BR_SEM_POPn. -/
  | semPop (who : Initiator) (n : Nat)
  /-- SEM_RELEASE: a write of BR_SEM_PEEKn with REL = 1. -/
  | semRelease (who : Initiator) (n : Nat)
  /-- SUPPLIES_VALID: the last monitored rail becomes valid; `b` is what the start then meets. -/
  | suppliesValid (b : Board)
  /-- POWER_ON_RESET: VDD_AO becomes valid. -/
  | powerOnReset
  /-- BROWNOUT: a monitored rail other than VDD_AO falls below its threshold for 2 µs. -/
  | brownout
  /-- PIN_RESET: RESET_N has been low for 1 µs. -/
  | pinReset
  /-- KET_RST: a write of KET_RST. -/
  | ketRst (who : Initiator) (key : Nat) (b : Board)
  /-- CLKLOSS: REFCLK is lost for 2 µs. -/
  | clkloss
  /-- THERMAL_RESET: the sensor reads 135 °C or more. -/
  | thermalReset
  /-- RING_REFCLK_LOSS: RING_REFCLK is lost. -/
  | ringRefclkLoss
  /-- WDOG_KICK: a write of KET_WDOG with KICK = 1 and the other fields as in `value`. -/
  | wdogKick (who : Initiator) (value : Word)
  /-- WDOG_EXPIRE: TIMEOUT ms have passed without a kick. -/
  | wdogExpire (b : Board)
  /-- KETTLE_GRANT: Kettle answers the grant request of domain `d`. -/
  | kettleGrant (d : Nat)
  /-- KETTLE_EVALUATE: the 1 ms evaluation, the sensor reading `temp` as status point TEMP holds it. -/
  | kettleEvaluate (temp : Nat)
  /-- DOMAIN_RAMP_DONE: domain `d` ends its ramp. -/
  | domainRampDone (d : Nat)
  /-- DOZE_STOP: the cores of domain `d` (7 to 11) have been idle for DOZE_US. -/
  | dozeStop (d : Nat)
  /-- CLUSTER_GATE: cluster `c` (0 to 3) has been stopped for OFF_US. -/
  | clusterGate (c : Nat)
  /-- KET_STATE_REQ: a write of KET_STATE_REQ with ENTER = 1 and TARGET = `deep`. -/
  | ketStateReq (who : Initiator) (deep : Bool)
  /-- DEEP_EXIT: 2.5 ms and the start-up after the wake decision in DEEP. -/
  | deepExit (x : DeepExit)
  /-- REFCLK_RETURN: REFCLK returns and the PLL relocks. -/
  | refclkReturn (b : Board)
  /-- RING_REFCLK_RETURN: RING_REFCLK returns. -/
  | ringRefclkReturn
  /-- THERMAL_RESET_RELEASE: the sensor reads 115 °C or less. -/
  | thermalResetRelease (b : Board)
  /-- RESET_N_RELEASE: RESET_N returns high. -/
  | resetNRelease (b : Board)
  /-- THERMAL_WARN: the sensor reading `temp` may have reached KET_THERM.WARN. -/
  | thermalWarn (temp : Nat)
  /-- LFXTAL_TAKEOVER: the LFXTAL oscillator has run for 1,024 periods. -/
  | lfxtalTakeover
  /-- RANDOM: KEEP serves a request of service 1. -/
  | random
  /-- DERIVE: KEEP serves a request of service 2. -/
  | derive
  /-- RING_KEYS: KEEP serves a request of service 3. -/
  | ringKeys
  /-- LC_REQUEST: KEEP serves a request of service 4; `b` is what the reset that follows meets. -/
  | lcRequest (b : Board)
  /-- DEBUG_OPEN: KEEP serves a request of service 5. -/
  | debugOpen
  /-- OTP_PROGRAM: KEEP serves a request of service 6. -/
  | otpProgram
  /-- SVN_COMMIT: KEEP serves a request of service 7. -/
  | svnCommit
  /-- SELFTEST: KEEP serves a request of service 8; `bitmap` is what the tests find. -/
  | selftest (bitmap : Nat)
  /-- KEEPER_BAD_SERVICE: KEEP serves a request of a reserved service. -/
  | keeperBadService
  /-- SEC_HOST_IMG: a write of SEC_HOST_IMG. -/
  | secHostImg (who : Initiator) (value : Word)
  /-- RBG_HEALTH_FAIL: a health test of the noise source fails. -/
  | rbgHealthFail
  /-- ALARM_WINDOW_CLOSE: WINDOW ms after T_FIRST the entry with this key closes. -/
  | alarmWindowClose (unit page code aux : Nat)
  /-- GAP: a tick in which a GAP record may be offered. -/
  | gap
  /-- TRACE_BUFFER_WRITE: the trace unit may write its oldest record to the buffer. -/
  | traceBufferWrite
  /-- TRC_SW_COMMIT: a write of TRC_SW_COMMIT. -/
  | trcSwCommit (who : Initiator) (cls : Nat)
  /-- SRST: a write of PAGE_CTRL with SRST = 1 (EN unchanged) to page `page`. -/
  | srst (who : Initiator) (page : Nat)
  /-- SOFT_RESET_END: 16 ticks after its start the soft reset of page `page` ends. -/
  | softResetEnd (page : Nat)
  /-- PAGE_EN_WRITE: a write of PAGE_CTRL of page `page` with EN = `en` and SRST = 0. -/
  | pageEnWrite (who : Initiator) (page : Nat) (en : Bool)
  /-- LOCK: a write of PAGE_CTRL.LOCK = 1 to page `page`, EN unchanged. -/
  | lock (who : Initiator) (page : Nat)
  /-- INT_FORCE: a write of INT_FORCE of page `page`. -/
  | intForce (who : Initiator) (page : Nat) (bits : Word)
  /-- ERR_CAPTURE_CLEAR: a write of ERR_CAPTURE of page `page` with VALID = 1. -/
  | errCaptureClear (who : Initiator) (page : Nat)
  /-- BANK_RAIL_CLASS_DETECT: 20 µs after VDD_IO of bank `bank` rose through 1.0 V it measures `mv` mV, or the
  rail falls to `mv` < 1,000 mV. -/
  | bankRailClassDetect (bank mv : Nat)
  deriving DecidableEq, Repr

end Sys2Proof
end

