-- ==== Sys2Proof/Decode.lean ====
section
/-! DEFINITION. The Clalo instruction encodings (08 R275 to R279): a decoder of one or two halfwords, total
and rejecting what no row of Short Forms, System Group or Long Forms describes, and the encoder of the same
tables. The opcode table gives its rows no bits, so `decodeTableWord` reads no command from a word. -/

namespace Sys2Proof

/-- The rows of the opcode table give no bits: a word spells no command. -/
def decodeTableWord (_nbits _w : Nat) : Option Instr := none

/-! ### Decoder -/

/-- The system group, in its short or its SYS form (System Group). -/
def decodeSys (h : Head) (long : Bool) (sysop arg : Nat) : Option Instr :=
  match sysop with
  | 0 =>
    match arg with
    | 0 => some (.nop h long)
    | 1 => some (.wait h long)
    | 2 => some (.detach h long)
    | 3 => some (.rete h long)
    | 4 => some (.brk h long)
    | 5 => some (.fence h long)
    | _ => none
  | 1 => if arg < 4 then some (.done h long arg) else none
  | 2 => some (.trap h long arg)
  | 3 => some (.post h (.reg long arg))
  | 4 =>
    match arg with
    | 0 => some (.pclr h long)
    | 1 => some (.pset h long)
    | 2 => some (.pinv h long)
    | _ => none
  | _ => none

/-- MAJ 000: two registers. -/
def decodeMaj0 (h : Head) (op rd rs : Nat) : Option Instr :=
  match op with
  | 0 => some (.mov h rd rs)
  | 1 => some (.add h (.short rd rs))
  | 2 => some (.sub h (.short rd rs))
  | 3 => some (.and h (.short rd rs))
  | 4 => some (.or h (.short rd rs))
  | 5 => some (.xor h (.short rd rs))
  | 6 => some (.cmp h false rd rs)
  | _ => some (.tst h rd rs)

/-- MAJ 001: a register and u4. -/
def decodeMaj1 (h : Head) (op rd u4 : Nat) : Option Instr :=
  match op with
  | 0 => some (.movi h rd u4)
  | 1 => some (.addi h (.short rd u4))
  | 2 => some (.subi h rd u4)
  | 3 => some (.cmpi h false rd u4)
  | 4 => some (.lsli h rd u4)
  | 5 => some (.lsri h rd u4)
  | 6 => some (.asri h rd u4)
  | _ => some (.btst h rd u4)

/-- MAJ 011: loads (`l` = 1) and stores by a register; an odd rd of a point form is undefined. -/
def decodeMaj3 (h : Head) (l sz rd rb : Nat) : Option Instr :=
  match sz with
  | 0 => some (if l = 1 then .ldb h (.reg rd rb) else .stb h (.reg rd rb))
  | 1 => some (if l = 1 then .ldh h (.reg rd rb) else .sth h (.reg rd rb))
  | 2 => some (if l = 1 then .ldw h (.reg rd rb) else .stw h (.reg rd rb))
  | _ =>
    if rd % 2 = 0 then some (if l = 1 then .ldp h (.short rd rb) else .stp h (.short rd rb)) else none

/-- MAJ 101, SUB 2: one register. -/
def decodeUnary (h : Head) (fn rd : Nat) : Option Instr :=
  match fn with
  | 0 => some (.neg h rd)
  | 1 => some (.not h rd)
  | 2 => some (.sxtb h rd)
  | 3 => some (.sxth h rd)
  | 4 => some (.zxtb h rd)
  | 5 => some (.zxth h rd)
  | 6 => some (.satp h (.short rd))
  | 7 => some (.satps h (.short rd))
  | 8 => some (.jmp h rd)
  | 9 => some (.jl h rd)
  | _ => none

/-- MAJ 101, by SUB, [7:4] and [3:0]. -/
def decodeMaj5 (h : Head) (sub x y : Nat) : Option Instr :=
  match sub with
  | 0 => some (.call h (.short x y))
  | 1 => if x = 0 ∧ y = 0 then some (.ret h false) else none
  | 2 => decodeUnary h y x
  | 3 => some (.lsl h (.short x y))
  | 4 => some (.lsr h (.short x y))
  | 5 => some (.asr h (.short x y))
  | 6 => some (.mul h (.short x y))
  | _ => decodeSys h false x y

/-- A short form (Short Forms). -/
def decodeShort (core w : Nat) : Option Instr :=
  let h : Head := ⟨core, w / 2048 % 4⟩
  let op := w / 256 % 8
  let x := w / 16 % 16
  let y := w % 16
  let l := w / 1024 % 2
  let r6 := w / 64 % 16
  let u6 := w % 64
  match w / 8192 with
  | 0 => decodeMaj0 h op x y
  | 1 => decodeMaj1 h op x y
  | 2 => some (if l = 1 then .ldw h (.sp r6 u6) else .stw h (.sp r6 u6))
  | 3 => decodeMaj3 h l (w / 256 % 4) x y
  | 4 => some (.b h false (w % 2048))
  | 5 => decodeMaj5 h op x y
  | 6 => some (if l = 1 then .ldx h false r6 (4 * u6) else .stx h false r6 (4 * u6))
  | _ => none

/-- LOP 0x00, by FN (ALU Functions). -/
def decodeAlu3 (h : Head) (fn rd ra rb : Nat) (s : Bool) : Option Instr :=
  match fn with
  | 0 => some (.add h (.long rd ra rb s))
  | 1 => some (.adc h rd ra rb s)
  | 2 => some (.sub h (.long rd ra rb s))
  | 3 => some (.sbc h rd ra rb s)
  | 4 => some (.and h (.long rd ra rb s))
  | 5 => some (.or h (.long rd ra rb s))
  | 6 => some (.xor h (.long rd ra rb s))
  | 7 => some (.bic h rd ra rb s)
  | 8 => some (.lsl h (.long rd ra rb s))
  | 9 => some (.lsr h (.long rd ra rb s))
  | 10 => some (.asr h (.long rd ra rb s))
  | 11 => some (.ror h rd ra rb s)
  | 12 => some (.mul h (.long rd ra rb s))
  | 13 => some (.mulhs h rd ra rb s)
  | 14 => some (.mulhu h rd ra rb s)
  | _ => some (.qprec h rd ra rb s)

/-- LOP 0x01 to 0x08: immediates and compares; `w` is the second halfword. -/
def decodeImm (h : Head) (lop rd w : Nat) : Option Instr :=
  let ra := w / 4096
  let u12 := w % 4096
  match lop with
  | 1 => some (.addi h (.long rd ra u12))
  | 2 => some (.andi h rd ra u12)
  | 3 => some (.ori h rd ra u12)
  | 4 => some (.xori h rd ra u12)
  | 5 => some (.setl h rd w)
  | 6 => some (.seth h rd w)
  | 7 => if u12 = 0 then some (.cmp h true rd ra) else none
  | _ => if ra = 0 then some (.cmpi h true rd u12) else none

/-- LOP 0x0A to 0x13: loads and stores. -/
def decodeMem (h : Head) (lop rd w : Nat) : Option Instr :=
  let ra := w / 4096
  let s12 := w % 4096
  let rq := w / 256 % 16
  let sg := w / 128 % 2 == 1
  let s7 := w % 128
  match lop with
  | 10 => some (.ldw h (.long rd ra s12))
  | 11 => some (.ldh h (.long rd ra s12))
  | 12 => some (.ldhs h rd ra s12)
  | 13 => some (.ldb h (.long rd ra s12))
  | 14 => some (.ldbs h rd ra s12)
  | 15 => some (.stw h (.long rd ra s12))
  | 16 => some (.sth h (.long rd ra s12))
  | 17 => some (.stb h (.long rd ra s12))
  | 18 => some (.ldp h (.long rd rq ra sg s7))
  | _ => if sg then none else some (.stp h (.long rd rq ra false s7))

/-- LOP 0x14 to 0x1F: branches, calls, the context window, posts, saturation, special registers, the system
group and shifts. -/
def decodeRest (h : Head) (lop rd w : Nat) : Option Instr :=
  match lop with
  | 20 => some (.b h true (rd * 65536 + w))
  | 21 => some (.bl h (rd * 65536 + w))
  | 22 => some (.call h (.long w rd))
  | 23 => if rd = 0 ∧ w = 0 then some (.ret h true) else none
  | 24 => if w < 256 then some (.ldx h true rd w) else none
  | 25 => if w < 256 then some (.stx h true rd w) else none
  | 26 => if w < 16384 then some (.post h (.imm rd (w / 4096) (w % 4096))) else none
  | 27 =>
    if w / 2 % 2048 = 0 then
      some (if w % 2 = 1 then .satps h (.long rd (w / 4096)) else .satp h (.long rd (w / 4096)))
    else none
  | 28 => if w < 256 then some (.mfs h rd w) else none
  | 29 => if w < 256 then some (.mts h rd w) else none
  | 30 => if rd = 0 ∧ w < 256 then decodeSys h true (w / 16) (w % 16) else none
  | _ => if w / 32 % 16 = 0 then some (.shi h rd (w / 4096) (w / 1024 % 4) (w % 32) (w / 512 % 2 == 1)) else none

/-- A long form (Long Forms): `v` and `w` are its halfwords. -/
def decodeLong (core v w : Nat) : Option Instr :=
  let h : Head := ⟨core, v / 512 % 16⟩
  let lop := v / 16 % 32
  let rd := v % 16
  if lop = 0 then
    if w % 8 = 0 then decodeAlu3 h (w / 16 % 16) rd (w / 4096) (w / 256 % 16) (w / 8 % 2 == 1) else none
  else if lop ≤ 8 then decodeImm h lop rd w
  else if lop = 9 then
    if rd = 0 ∧ w < 64 then some (.pcond h (w / 16) (w % 16)) else none
  else if lop ≤ 19 then decodeMem h lop rd w
  else decodeRest h lop rd w

/-- The instruction that core `core` reads from a halfword and the one after it (R275): none for an encoding
that no table describes (R279). -/
def decodeClalo (core : Nat) (h0 h1 : Half) : Option Instr :=
  if h0.toNat / 8192 = 7 then decodeLong core h0.toNat h1.toNat else decodeShort core h0.toNat

/-! ### Encoder -/

/-- A short form: MAJ, condition, and the fields in [10:0]. -/
def shortWord (h : Head) (maj x : Nat) : Option (Half × Option Half) :=
  some (BitVec.ofNat 16 (maj * 8192 + h.cond % 4 * 2048 + x % 2048), none)

/-- A long form: condition, LOP, H0[3:0] and the second halfword. -/
def longWord (h : Head) (lop rd w : Nat) : Option (Half × Option Half) :=
  some (BitVec.ofNat 16 (57344 + h.cond % 16 * 512 + lop * 16 + rd % 16), some (BitVec.ofNat 16 w))

/-- The system group in either form. -/
def sysWord (h : Head) (long : Bool) (sysop arg : Nat) : Option (Half × Option Half) :=
  if long then longWord h 30 0 (sysop * 16 + arg) else shortWord h 5 (7 * 256 + sysop * 16 + arg)

/-- ALU3 with function `fn`. -/
def alu3Word (h : Head) (fn rd ra rb : Nat) (s : Bool) : Option (Half × Option Half) :=
  longWord h 0 rd (ra * 4096 + rb * 256 + fn * 16 + if s then 8 else 0)

/-- A two-form operation: short `maj`, `op`, or ALU3 with `fn`. -/
def aluWord (h : Head) (maj op fn : Nat) : AluForm → Option (Half × Option Half)
  | .short rd rs => shortWord h maj (op * 256 + rd * 16 + rs)
  | .long rd ra rb s => alu3Word h fn rd ra rb s

/-- A load (`l` = 1) or store: size code `sz` of the register form, LOP of the long form; only words have
the [g14 + 4 × u6] form. -/
def memWord (h : Head) (l sz lop : Nat) : MemForm → Option (Half × Option Half)
  | .sp rd u6 => if sz = 2 then shortWord h 2 (l * 1024 + rd * 64 + u6) else none
  | .reg rd rb => shortWord h 3 (l * 1024 + sz * 256 + rd * 16 + rb)
  | .long rd ra s12 => longWord h lop rd (ra * 4096 + s12)

/-- LDP or STP. -/
def pointWord (h : Head) (l lop : Nat) : PointForm → Option (Half × Option Half)
  | .short rd rb => shortWord h 3 (l * 1024 + 3 * 256 + rd * 16 + rb)
  | .long rd rq ra sg s7 => longWord h lop rd (ra * 4096 + rq * 256 + (if sg then 128 else 0) + s7)

/-- SATP (`sg` = 0) or SATPS. -/
def satWord (h : Head) (fn sg : Nat) : SatForm → Option (Half × Option Half)
  | .short rd => shortWord h 5 (2 * 256 + rd * 16 + fn)
  | .long rd ra => longWord h 27 rd (ra * 4096 + sg)

/-- Halfwords of a Clalo instruction; none for every other command and for a form that has no encoding. -/
def encodeClalo (i : Instr) : Option (Half × Option Half) :=
  match i with
  | .mov h rd rs => shortWord h 0 (rd * 16 + rs)
  | .add h o => aluWord h 0 1 0 o
  | .sub h o => aluWord h 0 2 2 o
  | .and h o => aluWord h 0 3 4 o
  | .or h o => aluWord h 0 4 5 o
  | .xor h o => aluWord h 0 5 6 o
  | .adc h rd ra rb s => alu3Word h 1 rd ra rb s
  | .sbc h rd ra rb s => alu3Word h 3 rd ra rb s
  | .bic h rd ra rb s => alu3Word h 7 rd ra rb s
  | .ror h rd ra rb s => alu3Word h 11 rd ra rb s
  | .mulhs h rd ra rb s => alu3Word h 13 rd ra rb s
  | .mulhu h rd ra rb s => alu3Word h 14 rd ra rb s
  | .qprec h rd ra rb s => alu3Word h 15 rd ra rb s
  | .cmp h long rd rb => if long then longWord h 7 rd (rb * 4096) else shortWord h 0 (6 * 256 + rd * 16 + rb)
  | .tst h rd rs => shortWord h 0 (7 * 256 + rd * 16 + rs)
  | .movi h rd u4 => shortWord h 1 (0 * 256 + rd * 16 + u4)
  | .subi h rd u4 => shortWord h 1 (2 * 256 + rd * 16 + u4)
  | .lsli h rd u4 => shortWord h 1 (4 * 256 + rd * 16 + u4)
  | .lsri h rd u4 => shortWord h 1 (5 * 256 + rd * 16 + u4)
  | .asri h rd u4 => shortWord h 1 (6 * 256 + rd * 16 + u4)
  | .btst h rd u4 => shortWord h 1 (7 * 256 + rd * 16 + u4)
  | .addi h (.short rd u4) => shortWord h 1 (256 + rd * 16 + u4)
  | .addi h (.long rd ra s12) => longWord h 1 rd (ra * 4096 + s12)
  | .cmpi h long rd imm => if long then longWord h 8 rd imm else shortWord h 1 (3 * 256 + rd * 16 + imm)
  | .andi h rd ra u12 => longWord h 2 rd (ra * 4096 + u12)
  | .ori h rd ra u12 => longWord h 3 rd (ra * 4096 + u12)
  | .xori h rd ra u12 => longWord h 4 rd (ra * 4096 + u12)
  | .setl h rd u16 => longWord h 5 rd u16
  | .seth h rd u16 => longWord h 6 rd u16
  | .lsl h o => aluWord h 5 3 8 o
  | .lsr h o => aluWord h 5 4 9 o
  | .asr h o => aluWord h 5 5 10 o
  | .mul h o => aluWord h 5 6 12 o
  | .shi h rd ra kind n s => longWord h 31 rd (ra * 4096 + kind * 1024 + (if s then 512 else 0) + n)
  | .neg h rd => shortWord h 5 (2 * 256 + rd * 16 + 0)
  | .not h rd => shortWord h 5 (2 * 256 + rd * 16 + 1)
  | .sxtb h rd => shortWord h 5 (2 * 256 + rd * 16 + 2)
  | .sxth h rd => shortWord h 5 (2 * 256 + rd * 16 + 3)
  | .zxtb h rd => shortWord h 5 (2 * 256 + rd * 16 + 4)
  | .zxth h rd => shortWord h 5 (2 * 256 + rd * 16 + 5)
  | .jmp h rd => shortWord h 5 (2 * 256 + rd * 16 + 8)
  | .jl h rd => shortWord h 5 (2 * 256 + rd * 16 + 9)
  | .satp h o => satWord h 6 0 o
  | .satps h o => satWord h 7 1 o
  | .pcond h mode c => longWord h 9 0 (mode * 16 + c)
  | .pclr h long => sysWord h long 4 0
  | .pset h long => sysWord h long 4 1
  | .pinv h long => sysWord h long 4 2
  | .ldw h o => memWord h 1 2 10 o
  | .ldh h o => memWord h 1 1 11 o
  | .ldb h o => memWord h 1 0 13 o
  | .stw h o => memWord h 0 2 15 o
  | .sth h o => memWord h 0 1 16 o
  | .stb h o => memWord h 0 0 17 o
  | .ldhs h rd ra s12 => longWord h 12 rd (ra * 4096 + s12)
  | .ldbs h rd ra s12 => longWord h 14 rd (ra * 4096 + s12)
  | .ldp h o => pointWord h 1 18 o
  | .stp h o => pointWord h 0 19 o
  | .ldx h long rd u => if long then longWord h 24 rd u else shortWord h 6 (1024 + rd * 64 + u / 4)
  | .stx h long rd u => if long then longWord h 25 rd u else shortWord h 6 (rd * 64 + u / 4)
  | .b h long off => if long then longWord h 20 (off / 65536) (off % 65536) else shortWord h 4 off
  | .bl h off => longWord h 21 (off / 65536) (off % 65536)
  | .call h (.short gm ra) => shortWord h 5 (gm * 16 + ra)
  | .call h (.long mask ra) => longWord h 22 ra mask
  | .ret h long => if long then longWord h 23 0 0 else shortWord h 5 256
  | .mfs h rd sr => longWord h 28 rd sr
  | .mts h rd sr => longWord h 29 rd sr
  | .nop h long => sysWord h long 0 0
  | .wait h long => sysWord h long 0 1
  | .detach h long => sysWord h long 0 2
  | .rete h long => sysWord h long 0 3
  | .brk h long => sysWord h long 0 4
  | .fence h long => sysWord h long 0 5
  | .done h long sel => sysWord h long 1 sel
  | .trap h long n => sysWord h long 2 n
  | .post h (.reg long ra) => sysWord h long 3 ra
  | .post h (.imm rd input node) => longWord h 26 rd (input * 4096 + node)
  | _ => none

/-- The Clalo instruction that stands at the start of its halfwords. -/
def decodeHalves (core : Nat) (x : Half × Option Half) : Option Instr := decodeClalo core x.1 (x.2.getD 0)

end Sys2Proof
end

