-- ==== Sys2Proof/Config.lean ====
section
/-! DEFINITION. What an implementation fixes and the spec leaves open: opaque constants without a body
(no proof can see their values), and the numbers of the device. -/

namespace Sys2Proof.Config

/-- A fresh free value (log 2): applied to the counter `State.fresh`. -/
opaque freeWord : Nat → BitVec 64

/-- Which free page or cell a grant takes (15 R522, R524: not defined): a candidate, used when it is
allowed, from the counter `State.fresh`. -/
opaque freeChoice : Nat → Nat

/-- A free value for `detachCode`. -/
opaque detachValue : Byte

/-- Code of the REPORT that requests a planned detach (03 R115: not given); it is none of the codes 1 to 4 that 04
R156 gives other reports. -/
def detachCode : Byte := if 1 ≤ detachValue.toNat ∧ detachValue.toNat ≤ 4 then detachValue + 4 else detachValue

/-- Contents of the boot ROM, which the spec does not print (01 R19). -/
opaque bootRom : Nat → Byte

/-- What the gateway computes tags with in an epoch whose key it lacks (18 R606: not said). -/
opaque noKey : BitVec 16 → BitVec 128

/-- Byte `i` of the n-th 64-byte block of the random bit generator (18 R608). -/
opaque drbg : Nat → Nat → Byte

end Sys2Proof.Config
end

