-- ==== Sys2Proof/Machine/Regs.lean ====
section
/-! DEFINITION. The register pages (20 R626, R627), the common layout and every register of the
spec's register tables: offset, stride, and each field's bits, access code (00 R9) and reset value.
The names are the spec's: `R.TB_CTRL.REF` is field REF of register TB_CTRL. A register that the spec
repeats (STP_CTRLn) has a stride and a count; a field's place is computed from page, instance and
index in `Fld.addr`. -/

namespace Sys2Proof.Machine

/-- Access codes of 00 R9. A POP or PEEK address is `ro` here; its side effect is the block's. -/
inductive Acc where
  | rw | ro | w1c | w1s | rcl | wo
  deriving DecidableEq, Repr

/-- One field of one register: first page of its block, offset, stride between repetitions, bits,
access code and reset value. -/
structure Fld where
  page : Nat
  off : Nat
  stride : Nat
  hi : Nat
  lo : Nat
  acc : Acc
  reset : Nat
  deriving DecidableEq, Repr

/-- One register of a block's table: its fields, reserved fields left out. -/
structure RegDesc where
  off : Nat
  stride : Nat
  count : Nat
  fields : List Fld
  deriving DecidableEq, Repr

/-- Internal address of the register that holds field `f`, in instance `inst` of its block and at
repetition `idx` (01 R19: page p lies at 0xF000_0000 + p × 0x1000). -/
def Fld.addr (f : Fld) (inst idx : Nat) : Nat :=
  0xF0000000 + (f.page + inst) * 0x1000 + f.off + f.stride * idx

/-! Common layout, every page (page number 0 stands here for any page). -/
abbrev R.PAGE_ID.TYPE : Fld := ⟨0, 0x000, 0, 31, 24, .ro, 0⟩
abbrev R.PAGE_ID.INST : Fld := ⟨0, 0x000, 0, 23, 16, .ro, 0⟩
abbrev R.PAGE_ID.VERSION : Fld := ⟨0, 0x000, 0, 15, 0, .ro, 0⟩
abbrev R.PAGE_ID.desc : RegDesc := ⟨0x000, 0, 1, [R.PAGE_ID.TYPE, R.PAGE_ID.INST, R.PAGE_ID.VERSION]⟩
abbrev R.PAGE_ID.all : Fld := ⟨0, 0x000, 0, 31, 0, .ro, 0⟩
abbrev R.PAGE_CAPS.SRC : Fld := ⟨0, 0x004, 0, 25, 16, .ro, 0⟩
abbrev R.PAGE_CAPS.REMOTE : Fld := ⟨0, 0x004, 0, 4, 4, .ro, 0⟩
abbrev R.PAGE_CAPS.AO : Fld := ⟨0, 0x004, 0, 3, 3, .ro, 0⟩
abbrev R.PAGE_CAPS.LOCK : Fld := ⟨0, 0x004, 0, 2, 2, .ro, 1⟩
abbrev R.PAGE_CAPS.SRST : Fld := ⟨0, 0x004, 0, 1, 1, .ro, 0⟩
abbrev R.PAGE_CAPS.INTR : Fld := ⟨0, 0x004, 0, 0, 0, .ro, 0⟩
abbrev R.PAGE_CAPS.desc : RegDesc := ⟨0x004, 0, 1, [R.PAGE_CAPS.SRC, R.PAGE_CAPS.REMOTE, R.PAGE_CAPS.AO, R.PAGE_CAPS.LOCK, R.PAGE_CAPS.SRST, R.PAGE_CAPS.INTR]⟩
abbrev R.PAGE_CAPS.all : Fld := ⟨0, 0x004, 0, 31, 0, .ro, 0⟩
abbrev R.PAGE_CTRL.LOCK : Fld := ⟨0, 0x008, 0, 31, 31, .w1s, 0⟩
abbrev R.PAGE_CTRL.SRST : Fld := ⟨0, 0x008, 0, 1, 1, .wo, 0⟩
abbrev R.PAGE_CTRL.EN : Fld := ⟨0, 0x008, 0, 0, 0, .rw, 1⟩
abbrev R.PAGE_CTRL.desc : RegDesc := ⟨0x008, 0, 1, [R.PAGE_CTRL.LOCK, R.PAGE_CTRL.SRST, R.PAGE_CTRL.EN]⟩
abbrev R.PAGE_CTRL.all : Fld := ⟨0, 0x008, 0, 31, 0, .ro, 0⟩
abbrev R.PAGE_STATUS.DOM_ON : Fld := ⟨0, 0x00C, 0, 2, 2, .ro, 0⟩
abbrev R.PAGE_STATUS.HELD : Fld := ⟨0, 0x00C, 0, 1, 1, .ro, 0⟩
abbrev R.PAGE_STATUS.LOCKED : Fld := ⟨0, 0x00C, 0, 0, 0, .ro, 0⟩
abbrev R.PAGE_STATUS.desc : RegDesc := ⟨0x00C, 0, 1, [R.PAGE_STATUS.DOM_ON, R.PAGE_STATUS.HELD, R.PAGE_STATUS.LOCKED]⟩
abbrev R.PAGE_STATUS.all : Fld := ⟨0, 0x00C, 0, 31, 0, .ro, 0⟩
abbrev R.INT_STATUS.BITS : Fld := ⟨0, 0x010, 0, 31, 0, .w1c, 0⟩
abbrev R.INT_STATUS.desc : RegDesc := ⟨0x010, 0, 1, [R.INT_STATUS.BITS]⟩
abbrev R.INT_STATUS.all : Fld := ⟨0, 0x010, 0, 31, 0, .ro, 0⟩
abbrev R.INT_ENABLE.BITS : Fld := ⟨0, 0x014, 0, 31, 0, .rw, 0⟩
abbrev R.INT_ENABLE.desc : RegDesc := ⟨0x014, 0, 1, [R.INT_ENABLE.BITS]⟩
abbrev R.INT_ENABLE.all : Fld := ⟨0, 0x014, 0, 31, 0, .ro, 0⟩
abbrev R.INT_FORCE.BITS : Fld := ⟨0, 0x018, 0, 31, 0, .wo, 0⟩
abbrev R.INT_FORCE.desc : RegDesc := ⟨0x018, 0, 1, [R.INT_FORCE.BITS]⟩
abbrev R.INT_FORCE.all : Fld := ⟨0, 0x018, 0, 31, 0, .ro, 0⟩
abbrev R.ERR_CAPTURE.VALID : Fld := ⟨0, 0x01C, 0, 31, 31, .w1c, 0⟩
abbrev R.ERR_CAPTURE.WRITE : Fld := ⟨0, 0x01C, 0, 30, 30, .ro, 0⟩
abbrev R.ERR_CAPTURE.SIZE : Fld := ⟨0, 0x01C, 0, 29, 28, .ro, 0⟩
abbrev R.ERR_CAPTURE.CAUSE : Fld := ⟨0, 0x01C, 0, 27, 24, .ro, 0⟩
abbrev R.ERR_CAPTURE.OVER : Fld := ⟨0, 0x01C, 0, 23, 16, .ro, 0⟩
abbrev R.ERR_CAPTURE.STAMP : Fld := ⟨0, 0x01C, 0, 15, 0, .ro, 0⟩
abbrev R.ERR_CAPTURE.desc : RegDesc := ⟨0x01C, 0, 1, [R.ERR_CAPTURE.VALID, R.ERR_CAPTURE.WRITE, R.ERR_CAPTURE.SIZE, R.ERR_CAPTURE.CAUSE, R.ERR_CAPTURE.OVER, R.ERR_CAPTURE.STAMP]⟩
abbrev R.ERR_CAPTURE.all : Fld := ⟨0, 0x01C, 0, 31, 0, .ro, 0⟩
abbrev R.ERR_ADDR.ADDR : Fld := ⟨0, 0x020, 0, 31, 0, .ro, 0⟩
abbrev R.ERR_ADDR.desc : RegDesc := ⟨0x020, 0, 1, [R.ERR_ADDR.ADDR]⟩
abbrev R.ERR_ADDR.all : Fld := ⟨0, 0x020, 0, 31, 0, .ro, 0⟩

/-! Page type identity. -/

/-! Page type kettle. -/
abbrev R.kettle_INT.THERMAL : Fld := ⟨1, 0x010, 0, 2, 2, .w1c, 0⟩
abbrev R.kettle_INT.OVER : Fld := ⟨1, 0x010, 0, 1, 1, .w1c, 0⟩
abbrev R.kettle_INT.THROTTLE : Fld := ⟨1, 0x010, 0, 0, 0, .w1c, 0⟩
abbrev R.kettle_INT.desc : RegDesc := ⟨0x010, 0, 1, [R.kettle_INT.THERMAL, R.kettle_INT.OVER, R.kettle_INT.THROTTLE]⟩
abbrev R.kettle_INT.all : Fld := ⟨1, 0x010, 0, 31, 0, .ro, 0⟩
abbrev R.KET_CTRL.MIN_DUTY : Fld := ⟨1, 0x040, 0, 19, 16, .rw, 2⟩
abbrev R.KET_CTRL.CAP : Fld := ⟨1, 0x040, 0, 10, 0, .rw, 1200⟩
abbrev R.KET_CTRL.desc : RegDesc := ⟨0x040, 0, 1, [R.KET_CTRL.MIN_DUTY, R.KET_CTRL.CAP]⟩
abbrev R.KET_CTRL.all : Fld := ⟨1, 0x040, 0, 31, 0, .ro, 0⟩
abbrev R.KET_STATUS.STATE : Fld := ⟨1, 0x044, 0, 31, 30, .ro, 0⟩
abbrev R.KET_STATUS.RESUME : Fld := ⟨1, 0x044, 0, 29, 28, .ro, 0⟩
abbrev R.KET_STATUS.OVER : Fld := ⟨1, 0x044, 0, 27, 27, .ro, 0⟩
abbrev R.KET_STATUS.LFX_OK : Fld := ⟨1, 0x044, 0, 26, 26, .ro, 0⟩
abbrev R.KET_STATUS.DUTY : Fld := ⟨1, 0x044, 0, 20, 16, .ro, 16⟩
abbrev R.KET_STATUS.GRANTED : Fld := ⟨1, 0x044, 0, 10, 0, .ro, 0⟩
abbrev R.KET_STATUS.desc : RegDesc := ⟨0x044, 0, 1, [R.KET_STATUS.STATE, R.KET_STATUS.RESUME, R.KET_STATUS.OVER, R.KET_STATUS.LFX_OK, R.KET_STATUS.DUTY, R.KET_STATUS.GRANTED]⟩
abbrev R.KET_STATUS.all : Fld := ⟨1, 0x044, 0, 31, 0, .ro, 0⟩
abbrev R.KET_DOM.STATE : Fld := ⟨1, 0x048, 0, 23, 0, .ro, 0⟩
abbrev R.KET_DOM.desc : RegDesc := ⟨0x048, 0, 1, [R.KET_DOM.STATE]⟩
abbrev R.KET_DOM.all : Fld := ⟨1, 0x048, 0, 31, 0, .ro, 0⟩
abbrev R.KET_GATE.OFF_EN : Fld := ⟨1, 0x04C, 0, 31, 28, .rw, 0⟩
abbrev R.KET_GATE.OFF_US : Fld := ⟨1, 0x04C, 0, 27, 8, .rw, 1000⟩
abbrev R.KET_GATE.DOZE_US : Fld := ⟨1, 0x04C, 0, 7, 0, .rw, 10⟩
abbrev R.KET_GATE.desc : RegDesc := ⟨0x04C, 0, 1, [R.KET_GATE.OFF_EN, R.KET_GATE.OFF_US, R.KET_GATE.DOZE_US]⟩
abbrev R.KET_GATE.all : Fld := ⟨1, 0x04C, 0, 31, 0, .ro, 0⟩
abbrev R.KET_STATE_REQ.ENTER : Fld := ⟨1, 0x050, 0, 31, 31, .wo, 0⟩
abbrev R.KET_STATE_REQ.TARGET : Fld := ⟨1, 0x050, 0, 0, 0, .wo, 0⟩
abbrev R.KET_STATE_REQ.desc : RegDesc := ⟨0x050, 0, 1, [R.KET_STATE_REQ.ENTER, R.KET_STATE_REQ.TARGET]⟩
abbrev R.KET_STATE_REQ.all : Fld := ⟨1, 0x050, 0, 31, 0, .ro, 0⟩
abbrev R.KET_RST.KEY : Fld := ⟨1, 0x054, 0, 7, 0, .wo, 0⟩
abbrev R.KET_RST.desc : RegDesc := ⟨0x054, 0, 1, [R.KET_RST.KEY]⟩
abbrev R.KET_RST.all : Fld := ⟨1, 0x054, 0, 31, 0, .ro, 0⟩
abbrev R.KET_RESET_CAUSE.CAUSE : Fld := ⟨1, 0x058, 0, 8, 0, .w1c, 1⟩
abbrev R.KET_RESET_CAUSE.desc : RegDesc := ⟨0x058, 0, 1, [R.KET_RESET_CAUSE.CAUSE]⟩
abbrev R.KET_RESET_CAUSE.all : Fld := ⟨1, 0x058, 0, 31, 0, .ro, 0⟩
abbrev R.KET_WDOG.EN : Fld := ⟨1, 0x05C, 0, 31, 31, .w1s, 0⟩
abbrev R.KET_WDOG.KICK : Fld := ⟨1, 0x05C, 0, 30, 30, .wo, 0⟩
abbrev R.KET_WDOG.TIMEOUT : Fld := ⟨1, 0x05C, 0, 15, 0, .rw, 100⟩
abbrev R.KET_WDOG.desc : RegDesc := ⟨0x05C, 0, 1, [R.KET_WDOG.EN, R.KET_WDOG.KICK, R.KET_WDOG.TIMEOUT]⟩
abbrev R.KET_WDOG.all : Fld := ⟨1, 0x05C, 0, 31, 0, .ro, 0⟩
abbrev R.KET_THERM.WARN : Fld := ⟨1, 0x060, 0, 7, 0, .rw, 115⟩
abbrev R.KET_THERM.desc : RegDesc := ⟨0x060, 0, 1, [R.KET_THERM.WARN]⟩
abbrev R.KET_THERM.all : Fld := ⟨1, 0x060, 0, 31, 0, .ro, 0⟩
abbrev R.KET_COSTd.LEAK : Fld := ⟨1, 0x100, 4, 31, 16, .rw, 0⟩
abbrev R.KET_COSTd.DYN : Fld := ⟨1, 0x100, 4, 15, 0, .rw, 0⟩
abbrev R.KET_COSTd.desc : RegDesc := ⟨0x100, 4, 12, [R.KET_COSTd.LEAK, R.KET_COSTd.DYN]⟩
abbrev R.KET_COSTd.all : Fld := ⟨1, 0x100, 4, 31, 0, .ro, 0⟩

/-! Page type wakeUnit. -/
abbrev R.wakeUnit_INT.MAXAWAKE : Fld := ⟨2, 0x010, 0, 4, 4, .w1c, 0⟩
abbrev R.wakeUnit_INT.KA_IDLE : Fld := ⟨2, 0x010, 0, 3, 3, .w1c, 0⟩
abbrev R.wakeUnit_INT.TOKEN_BACK : Fld := ⟨2, 0x010, 0, 2, 2, .w1c, 0⟩
abbrev R.wakeUnit_INT.ABORT : Fld := ⟨2, 0x010, 0, 1, 1, .w1c, 0⟩
abbrev R.wakeUnit_INT.WOKE : Fld := ⟨2, 0x010, 0, 0, 0, .w1c, 0⟩
abbrev R.wakeUnit_INT.desc : RegDesc := ⟨0x010, 0, 1, [R.wakeUnit_INT.MAXAWAKE, R.wakeUnit_INT.KA_IDLE, R.wakeUnit_INT.TOKEN_BACK, R.wakeUnit_INT.ABORT, R.wakeUnit_INT.WOKE]⟩
abbrev R.wakeUnit_INT.all : Fld := ⟨2, 0x010, 0, 31, 0, .ro, 0⟩
abbrev R.WK_CTRL.KA_BIT : Fld := ⟨2, 0x040, 0, 31, 27, .rw, 0⟩
abbrev R.WK_CTRL.COMMIT_MARGIN : Fld := ⟨2, 0x040, 0, 26, 24, .rw, 4⟩
abbrev R.WK_CTRL.KA_INTERVAL : Fld := ⟨2, 0x040, 0, 23, 16, .rw, 8⟩
abbrev R.WK_CTRL.KA_DWELL : Fld := ⟨2, 0x040, 0, 15, 12, .rw, 2⟩
abbrev R.WK_CTRL.WAKE_PULSE : Fld := ⟨2, 0x040, 0, 11, 8, .rw, 1⟩
abbrev R.WK_CTRL.INH_DEEP : Fld := ⟨2, 0x040, 0, 6, 6, .rw, 1⟩
abbrev R.WK_CTRL.TARGET : Fld := ⟨2, 0x040, 0, 5, 4, .rw, 0⟩
abbrev R.WK_CTRL.COORD : Fld := ⟨2, 0x040, 0, 3, 3, .rw, 0⟩
abbrev R.WK_CTRL.MODE : Fld := ⟨2, 0x040, 0, 1, 0, .rw, 0⟩
abbrev R.WK_CTRL.desc : RegDesc := ⟨0x040, 0, 1, [R.WK_CTRL.KA_BIT, R.WK_CTRL.COMMIT_MARGIN, R.WK_CTRL.KA_INTERVAL, R.WK_CTRL.KA_DWELL, R.WK_CTRL.WAKE_PULSE, R.WK_CTRL.INH_DEEP, R.WK_CTRL.TARGET, R.WK_CTRL.COORD, R.WK_CTRL.MODE]⟩
abbrev R.WK_CTRL.all : Fld := ⟨2, 0x040, 0, 31, 0, .ro, 0⟩
abbrev R.WK_EN.TIMER : Fld := ⟨2, 0x044, 0, 20, 20, .rw, 0⟩
abbrev R.WK_EN.HOST : Fld := ⟨2, 0x044, 0, 19, 19, .rw, 0⟩
abbrev R.WK_EN.RING_WE : Fld := ⟨2, 0x044, 0, 18, 17, .rw, 0⟩
abbrev R.WK_EN.CAN : Fld := ⟨2, 0x044, 0, 16, 5, .rw, 0⟩
abbrev R.WK_EN.WKUP : Fld := ⟨2, 0x044, 0, 4, 1, .rw, 0⟩
abbrev R.WK_EN.WAKE_N : Fld := ⟨2, 0x044, 0, 0, 0, .rw, 1⟩
abbrev R.WK_EN.desc : RegDesc := ⟨0x044, 0, 1, [R.WK_EN.TIMER, R.WK_EN.HOST, R.WK_EN.RING_WE, R.WK_EN.CAN, R.WK_EN.WKUP, R.WK_EN.WAKE_N]⟩
abbrev R.WK_EN.all : Fld := ⟨2, 0x044, 0, 31, 0, .ro, 0⟩
abbrev R.WK_PEND.TIMER : Fld := ⟨2, 0x048, 0, 20, 20, .w1c, 0⟩
abbrev R.WK_PEND.HOST : Fld := ⟨2, 0x048, 0, 19, 19, .w1c, 0⟩
abbrev R.WK_PEND.RING_WE : Fld := ⟨2, 0x048, 0, 18, 17, .w1c, 0⟩
abbrev R.WK_PEND.CAN : Fld := ⟨2, 0x048, 0, 16, 5, .w1c, 0⟩
abbrev R.WK_PEND.WKUP : Fld := ⟨2, 0x048, 0, 4, 1, .w1c, 0⟩
abbrev R.WK_PEND.WAKE_N : Fld := ⟨2, 0x048, 0, 0, 0, .w1c, 0⟩
abbrev R.WK_PEND.desc : RegDesc := ⟨0x048, 0, 1, [R.WK_PEND.TIMER, R.WK_PEND.HOST, R.WK_PEND.RING_WE, R.WK_PEND.CAN, R.WK_PEND.WKUP, R.WK_PEND.WAKE_N]⟩
abbrev R.WK_PEND.all : Fld := ⟨2, 0x048, 0, 31, 0, .ro, 0⟩
abbrev R.WK_WKUP_CFG.CFG : Fld := ⟨2, 0x04C, 0, 15, 0, .rw, 0⟩
abbrev R.WK_WKUP_CFG.desc : RegDesc := ⟨0x04C, 0, 1, [R.WK_WKUP_CFG.CFG]⟩
abbrev R.WK_WKUP_CFG.all : Fld := ⟨2, 0x04C, 0, 31, 0, .ro, 0⟩
abbrev R.WK_STAY.REQ : Fld := ⟨2, 0x050, 0, 31, 0, .rw, 0⟩
abbrev R.WK_STAY.desc : RegDesc := ⟨0x050, 0, 1, [R.WK_STAY.REQ]⟩
abbrev R.WK_STAY.all : Fld := ⟨2, 0x050, 0, 31, 0, .ro, 0⟩
abbrev R.WK_MAXAWAKE.EXPIRED : Fld := ⟨2, 0x054, 0, 31, 31, .ro, 0⟩
abbrev R.WK_MAXAWAKE.SECONDS : Fld := ⟨2, 0x054, 0, 16, 0, .rw, 0⟩
abbrev R.WK_MAXAWAKE.desc : RegDesc := ⟨0x054, 0, 1, [R.WK_MAXAWAKE.EXPIRED, R.WK_MAXAWAKE.SECONDS]⟩
abbrev R.WK_MAXAWAKE.all : Fld := ⟨2, 0x054, 0, 31, 0, .ro, 0⟩
abbrev R.WK_TIMER.PERIODS : Fld := ⟨2, 0x058, 0, 31, 0, .rw, 0⟩
abbrev R.WK_TIMER.desc : RegDesc := ⟨0x058, 0, 1, [R.WK_TIMER.PERIODS]⟩
abbrev R.WK_TIMER.all : Fld := ⟨2, 0x058, 0, 31, 0, .ro, 0⟩
abbrev R.WK_KA_SET.BITS : Fld := ⟨2, 0x05C, 0, 31, 0, .w1s, 0⟩
abbrev R.WK_KA_SET.desc : RegDesc := ⟨0x05C, 0, 1, [R.WK_KA_SET.BITS]⟩
abbrev R.WK_KA_SET.all : Fld := ⟨2, 0x05C, 0, 31, 0, .ro, 0⟩
abbrev R.WK_KA_VEC.BITS : Fld := ⟨2, 0x060, 0, 31, 0, .ro, 0⟩
abbrev R.WK_KA_VEC.desc : RegDesc := ⟨0x060, 0, 1, [R.WK_KA_VEC.BITS]⟩
abbrev R.WK_KA_VEC.all : Fld := ⟨2, 0x060, 0, 31, 0, .ro, 0⟩
abbrev R.WK_TOKEN.COMMIT : Fld := ⟨2, 0x064, 0, 31, 31, .rw, 0⟩
abbrev R.WK_TOKEN.VETO : Fld := ⟨2, 0x064, 0, 30, 30, .rw, 0⟩
abbrev R.WK_TOKEN.ROUND : Fld := ⟨2, 0x064, 0, 27, 16, .rw, 0⟩
abbrev R.WK_TOKEN.CCYCLE : Fld := ⟨2, 0x064, 0, 15, 0, .rw, 0⟩
abbrev R.WK_TOKEN.desc : RegDesc := ⟨0x064, 0, 1, [R.WK_TOKEN.COMMIT, R.WK_TOKEN.VETO, R.WK_TOKEN.ROUND, R.WK_TOKEN.CCYCLE]⟩
abbrev R.WK_TOKEN.all : Fld := ⟨2, 0x064, 0, 31, 0, .ro, 0⟩
abbrev R.WK_STATUS.STATE : Fld := ⟨2, 0x068, 0, 31, 29, .ro, 0⟩
abbrev R.WK_STATUS.VETO : Fld := ⟨2, 0x068, 0, 28, 28, .ro, 1⟩
abbrev R.WK_STATUS.CAN_BUSY : Fld := ⟨2, 0x068, 0, 27, 27, .ro, 0⟩
abbrev R.WK_STATUS.CCYCLE : Fld := ⟨2, 0x068, 0, 15, 0, .ro, 0⟩
abbrev R.WK_STATUS.desc : RegDesc := ⟨0x068, 0, 1, [R.WK_STATUS.STATE, R.WK_STATUS.VETO, R.WK_STATUS.CAN_BUSY, R.WK_STATUS.CCYCLE]⟩
abbrev R.WK_STATUS.all : Fld := ⟨2, 0x068, 0, 31, 0, .ro, 0⟩
abbrev R.WK_REC.KIND : Fld := ⟨2, 0x06C, 0, 31, 28, .ro, 0⟩
abbrev R.WK_REC.DETAIL : Fld := ⟨2, 0x06C, 0, 27, 24, .ro, 0⟩
abbrev R.WK_REC.LATE_KIND : Fld := ⟨2, 0x06C, 0, 23, 20, .ro, 0⟩
abbrev R.WK_REC.desc : RegDesc := ⟨0x06C, 0, 1, [R.WK_REC.KIND, R.WK_REC.DETAIL, R.WK_REC.LATE_KIND]⟩
abbrev R.WK_REC.all : Fld := ⟨2, 0x06C, 0, 31, 0, .ro, 0⟩
abbrev R.WK_REC_TIME.PERIODS : Fld := ⟨2, 0x070, 0, 31, 0, .ro, 0⟩
abbrev R.WK_REC_TIME.desc : RegDesc := ⟨0x070, 0, 1, [R.WK_REC_TIME.PERIODS]⟩
abbrev R.WK_REC_TIME.all : Fld := ⟨2, 0x070, 0, 31, 0, .ro, 0⟩
abbrev R.WK_CNT.ABORTS : Fld := ⟨2, 0x074, 0, 31, 24, .rcl, 0⟩
abbrev R.WK_CNT.LATE : Fld := ⟨2, 0x074, 0, 23, 16, .rcl, 0⟩
abbrev R.WK_CNT.SLEEPS : Fld := ⟨2, 0x074, 0, 15, 0, .rcl, 0⟩
abbrev R.WK_CNT.desc : RegDesc := ⟨0x074, 0, 1, [R.WK_CNT.ABORTS, R.WK_CNT.LATE, R.WK_CNT.SLEEPS]⟩
abbrev R.WK_CNT.all : Fld := ⟨2, 0x074, 0, 31, 0, .ro, 0⟩

/-! Page type keeper. -/
abbrev R.keeper_INT.RBG_FAIL : Fld := ⟨3, 0x010, 0, 3, 3, .w1c, 0⟩
abbrev R.keeper_INT.ST_FAIL : Fld := ⟨3, 0x010, 0, 2, 2, .w1c, 0⟩
abbrev R.keeper_INT.BOOT_FAIL : Fld := ⟨3, 0x010, 0, 1, 1, .w1c, 0⟩
abbrev R.keeper_INT.DBG_OPEN : Fld := ⟨3, 0x010, 0, 0, 0, .w1c, 0⟩
abbrev R.keeper_INT.desc : RegDesc := ⟨0x010, 0, 1, [R.keeper_INT.RBG_FAIL, R.keeper_INT.ST_FAIL, R.keeper_INT.BOOT_FAIL, R.keeper_INT.DBG_OPEN]⟩
abbrev R.keeper_INT.all : Fld := ⟨3, 0x010, 0, 31, 0, .ro, 0⟩
abbrev R.SEC_STATUS.LC : Fld := ⟨3, 0x040, 0, 31, 29, .ro, 0⟩
abbrev R.SEC_STATUS.DBG_OPEN : Fld := ⟨3, 0x040, 0, 28, 28, .ro, 0⟩
abbrev R.SEC_STATUS.PERMS : Fld := ⟨3, 0x040, 0, 27, 26, .ro, 0⟩
abbrev R.SEC_STATUS.ST_DONE : Fld := ⟨3, 0x040, 0, 25, 25, .ro, 0⟩
abbrev R.SEC_STATUS.ST_FAIL : Fld := ⟨3, 0x040, 0, 24, 24, .ro, 0⟩
abbrev R.SEC_STATUS.RBG_FAIL : Fld := ⟨3, 0x040, 0, 23, 23, .ro, 0⟩
abbrev R.SEC_STATUS.BOOT_OK : Fld := ⟨3, 0x040, 0, 22, 22, .ro, 0⟩
abbrev R.SEC_STATUS.BOOT_SLOT : Fld := ⟨3, 0x040, 0, 21, 21, .ro, 0⟩
abbrev R.SEC_STATUS.SVN : Fld := ⟨3, 0x040, 0, 15, 8, .ro, 0⟩
abbrev R.SEC_STATUS.ROLLBACK : Fld := ⟨3, 0x040, 0, 6, 0, .ro, 0⟩
abbrev R.SEC_STATUS.desc : RegDesc := ⟨0x040, 0, 1, [R.SEC_STATUS.LC, R.SEC_STATUS.DBG_OPEN, R.SEC_STATUS.PERMS, R.SEC_STATUS.ST_DONE, R.SEC_STATUS.ST_FAIL, R.SEC_STATUS.RBG_FAIL, R.SEC_STATUS.BOOT_OK, R.SEC_STATUS.BOOT_SLOT, R.SEC_STATUS.SVN, R.SEC_STATUS.ROLLBACK]⟩
abbrev R.SEC_STATUS.all : Fld := ⟨3, 0x040, 0, 31, 0, .ro, 0⟩
abbrev R.SEC_BOOT_ERR.SLOT_B : Fld := ⟨3, 0x044, 0, 15, 8, .ro, 0⟩
abbrev R.SEC_BOOT_ERR.SLOT_A : Fld := ⟨3, 0x044, 0, 7, 0, .ro, 0⟩
abbrev R.SEC_BOOT_ERR.desc : RegDesc := ⟨0x044, 0, 1, [R.SEC_BOOT_ERR.SLOT_B, R.SEC_BOOT_ERR.SLOT_A]⟩
abbrev R.SEC_BOOT_ERR.all : Fld := ⟨3, 0x044, 0, 31, 0, .ro, 0⟩
abbrev R.SEC_SERIAL_LO.SERIAL : Fld := ⟨3, 0x048, 0, 31, 0, .ro, 0⟩
abbrev R.SEC_SERIAL_LO.desc : RegDesc := ⟨0x048, 0, 1, [R.SEC_SERIAL_LO.SERIAL]⟩
abbrev R.SEC_SERIAL_LO.all : Fld := ⟨3, 0x048, 0, 31, 0, .ro, 0⟩
abbrev R.SEC_SERIAL_HI.SERIAL : Fld := ⟨3, 0x04C, 0, 31, 0, .ro, 0⟩
abbrev R.SEC_SERIAL_HI.desc : RegDesc := ⟨0x04C, 0, 1, [R.SEC_SERIAL_HI.SERIAL]⟩
abbrev R.SEC_SERIAL_HI.all : Fld := ⟨3, 0x04C, 0, 31, 0, .ro, 0⟩
abbrev R.SEC_DBG_NONCE_LO.NONCE : Fld := ⟨3, 0x050, 0, 31, 0, .ro, 0⟩
abbrev R.SEC_DBG_NONCE_LO.desc : RegDesc := ⟨0x050, 0, 1, [R.SEC_DBG_NONCE_LO.NONCE]⟩
abbrev R.SEC_DBG_NONCE_LO.all : Fld := ⟨3, 0x050, 0, 31, 0, .ro, 0⟩
abbrev R.SEC_DBG_NONCE_HI.NONCE : Fld := ⟨3, 0x054, 0, 31, 0, .ro, 0⟩
abbrev R.SEC_DBG_NONCE_HI.desc : RegDesc := ⟨0x054, 0, 1, [R.SEC_DBG_NONCE_HI.NONCE]⟩
abbrev R.SEC_DBG_NONCE_HI.all : Fld := ⟨3, 0x054, 0, 31, 0, .ro, 0⟩
abbrev R.SEC_HOST_IMG.ADDR : Fld := ⟨3, 0x058, 0, 31, 2, .rw, 0⟩
abbrev R.SEC_HOST_IMG.desc : RegDesc := ⟨0x058, 0, 1, [R.SEC_HOST_IMG.ADDR]⟩
abbrev R.SEC_HOST_IMG.all : Fld := ⟨3, 0x058, 0, 31, 0, .ro, 0⟩
abbrev R.SEC_OTP_ADDR.WORD : Fld := ⟨3, 0x060, 0, 8, 0, .rw, 0⟩
abbrev R.SEC_OTP_ADDR.desc : RegDesc := ⟨0x060, 0, 1, [R.SEC_OTP_ADDR.WORD]⟩
abbrev R.SEC_OTP_ADDR.all : Fld := ⟨3, 0x060, 0, 31, 0, .ro, 0⟩
abbrev R.SEC_OTP_DATA.DATA : Fld := ⟨3, 0x064, 0, 31, 0, .ro, 0⟩
abbrev R.SEC_OTP_DATA.desc : RegDesc := ⟨0x064, 0, 1, [R.SEC_OTP_DATA.DATA]⟩
abbrev R.SEC_OTP_DATA.all : Fld := ⟨3, 0x064, 0, 31, 0, .ro, 0⟩
abbrev R.SEC_SVC_CNT.SERVED : Fld := ⟨3, 0x068, 0, 31, 16, .rcl, 0⟩
abbrev R.SEC_SVC_CNT.REFUSED : Fld := ⟨3, 0x068, 0, 15, 0, .rcl, 0⟩
abbrev R.SEC_SVC_CNT.desc : RegDesc := ⟨0x068, 0, 1, [R.SEC_SVC_CNT.SERVED, R.SEC_SVC_CNT.REFUSED]⟩
abbrev R.SEC_SVC_CNT.all : Fld := ⟨3, 0x068, 0, 31, 0, .ro, 0⟩

/-! Page type trace. -/
abbrev R.trace_INT.OVF : Fld := ⟨4, 0x010, 0, 3, 3, .w1c, 0⟩
abbrev R.trace_INT.FULL : Fld := ⟨4, 0x010, 0, 2, 2, .w1c, 0⟩
abbrev R.trace_INT.GAP : Fld := ⟨4, 0x010, 0, 1, 1, .w1c, 0⟩
abbrev R.trace_INT.ALARM : Fld := ⟨4, 0x010, 0, 0, 0, .w1c, 0⟩
abbrev R.trace_INT.desc : RegDesc := ⟨0x010, 0, 1, [R.trace_INT.OVF, R.trace_INT.FULL, R.trace_INT.GAP, R.trace_INT.ALARM]⟩
abbrev R.trace_INT.all : Fld := ⟨4, 0x010, 0, 31, 0, .ro, 0⟩
abbrev R.TRC_CTRL.EN : Fld := ⟨4, 0x040, 0, 31, 31, .rw, 1⟩
abbrev R.TRC_CTRL.BUF_EN : Fld := ⟨4, 0x040, 0, 30, 30, .rw, 0⟩
abbrev R.TRC_CTRL.RING_EN : Fld := ⟨4, 0x040, 0, 29, 29, .rw, 0⟩
abbrev R.TRC_CTRL.COLLECT : Fld := ⟨4, 0x040, 0, 28, 28, .rw, 0⟩
abbrev R.TRC_CTRL.WINDOW : Fld := ⟨4, 0x040, 0, 15, 0, .rw, 1000⟩
abbrev R.TRC_CTRL.desc : RegDesc := ⟨0x040, 0, 1, [R.TRC_CTRL.EN, R.TRC_CTRL.BUF_EN, R.TRC_CTRL.RING_EN, R.TRC_CTRL.COLLECT, R.TRC_CTRL.WINDOW]⟩
abbrev R.TRC_CTRL.all : Fld := ⟨4, 0x040, 0, 31, 0, .ro, 0⟩
abbrev R.TRC_CLASS_EN.DEBUG : Fld := ⟨4, 0x044, 0, 2, 2, .rw, 0⟩
abbrev R.TRC_CLASS_EN.TRACE : Fld := ⟨4, 0x044, 0, 1, 1, .rw, 0⟩
abbrev R.TRC_CLASS_EN.EVENT : Fld := ⟨4, 0x044, 0, 0, 0, .rw, 1⟩
abbrev R.TRC_CLASS_EN.desc : RegDesc := ⟨0x044, 0, 1, [R.TRC_CLASS_EN.DEBUG, R.TRC_CLASS_EN.TRACE, R.TRC_CLASS_EN.EVENT]⟩
abbrev R.TRC_CLASS_EN.all : Fld := ⟨4, 0x044, 0, 31, 0, .ro, 0⟩
abbrev R.TRC_BUF_BASE.BASE : Fld := ⟨4, 0x048, 0, 31, 5, .rw, 0⟩
abbrev R.TRC_BUF_BASE.desc : RegDesc := ⟨0x048, 0, 1, [R.TRC_BUF_BASE.BASE]⟩
abbrev R.TRC_BUF_BASE.all : Fld := ⟨4, 0x048, 0, 31, 0, .ro, 0⟩
abbrev R.TRC_BUF_SIZE.SIZE : Fld := ⟨4, 0x04C, 0, 18, 0, .rw, 0⟩
abbrev R.TRC_BUF_SIZE.desc : RegDesc := ⟨0x04C, 0, 1, [R.TRC_BUF_SIZE.SIZE]⟩
abbrev R.TRC_BUF_SIZE.all : Fld := ⟨4, 0x04C, 0, 31, 0, .ro, 0⟩
abbrev R.TRC_BUF_GET.INDEX : Fld := ⟨4, 0x050, 0, 17, 0, .rw, 0⟩
abbrev R.TRC_BUF_GET.desc : RegDesc := ⟨0x050, 0, 1, [R.TRC_BUF_GET.INDEX]⟩
abbrev R.TRC_BUF_GET.all : Fld := ⟨4, 0x050, 0, 31, 0, .ro, 0⟩
abbrev R.TRC_BUF_PUT.INDEX : Fld := ⟨4, 0x054, 0, 17, 0, .ro, 0⟩
abbrev R.TRC_BUF_PUT.desc : RegDesc := ⟨0x054, 0, 1, [R.TRC_BUF_PUT.INDEX]⟩
abbrev R.TRC_BUF_PUT.all : Fld := ⟨4, 0x054, 0, 31, 0, .ro, 0⟩
abbrev R.TRC_RING.DEST : Fld := ⟨4, 0x058, 0, 26, 16, .rw, 1⟩
abbrev R.TRC_RING.BYTES : Fld := ⟨4, 0x058, 0, 10, 0, .rw, 264⟩
abbrev R.TRC_RING.desc : RegDesc := ⟨0x058, 0, 1, [R.TRC_RING.DEST, R.TRC_RING.BYTES]⟩
abbrev R.TRC_RING.all : Fld := ⟨4, 0x058, 0, 31, 0, .ro, 0⟩
abbrev R.TRC_FILL.QUEUE : Fld := ⟨4, 0x05C, 0, 24, 16, .ro, 0⟩
abbrev R.TRC_FILL.OPEN : Fld := ⟨4, 0x05C, 0, 6, 0, .ro, 0⟩
abbrev R.TRC_FILL.desc : RegDesc := ⟨0x05C, 0, 1, [R.TRC_FILL.QUEUE, R.TRC_FILL.OPEN]⟩
abbrev R.TRC_FILL.all : Fld := ⟨4, 0x05C, 0, 31, 0, .ro, 0⟩
abbrev R.TRC_DROP_A.HI : Fld := ⟨4, 0x060, 0, 31, 16, .rcl, 0⟩
abbrev R.TRC_DROP_A.LO : Fld := ⟨4, 0x060, 0, 15, 0, .rcl, 0⟩
abbrev R.TRC_DROP_A.desc : RegDesc := ⟨0x060, 0, 1, [R.TRC_DROP_A.HI, R.TRC_DROP_A.LO]⟩
abbrev R.TRC_DROP_A.all : Fld := ⟨4, 0x060, 0, 31, 0, .ro, 0⟩
abbrev R.TRC_DROP_B.HI : Fld := ⟨4, 0x064, 0, 31, 16, .rcl, 0⟩
abbrev R.TRC_DROP_B.LO : Fld := ⟨4, 0x064, 0, 15, 0, .rcl, 0⟩
abbrev R.TRC_DROP_B.desc : RegDesc := ⟨0x064, 0, 1, [R.TRC_DROP_B.HI, R.TRC_DROP_B.LO]⟩
abbrev R.TRC_DROP_B.all : Fld := ⟨4, 0x064, 0, 31, 0, .ro, 0⟩
abbrev R.TRC_ALARMS.COUNT : Fld := ⟨4, 0x068, 0, 31, 0, .rcl, 0⟩
abbrev R.TRC_ALARMS.desc : RegDesc := ⟨0x068, 0, 1, [R.TRC_ALARMS.COUNT]⟩
abbrev R.TRC_ALARMS.all : Fld := ⟨4, 0x068, 0, 31, 0, .ro, 0⟩
abbrev R.TRC_SW_DATAk.DATA : Fld := ⟨4, 0x070, 4, 31, 0, .wo, 0⟩
abbrev R.TRC_SW_DATAk.desc : RegDesc := ⟨0x070, 4, 4, [R.TRC_SW_DATAk.DATA]⟩
abbrev R.TRC_SW_DATAk.all : Fld := ⟨4, 0x070, 4, 31, 0, .ro, 0⟩
abbrev R.TRC_SW_COMMIT.CLASS : Fld := ⟨4, 0x080, 0, 31, 30, .wo, 0⟩
abbrev R.TRC_SW_COMMIT.desc : RegDesc := ⟨0x080, 0, 1, [R.TRC_SW_COMMIT.CLASS]⟩
abbrev R.TRC_SW_COMMIT.all : Fld := ⟨4, 0x080, 0, 31, 0, .ro, 0⟩

/-! Page type pcie. -/
abbrev R.pcie_INT.LINK : Fld := ⟨5, 0x010, 0, 3, 3, .w1c, 0⟩
abbrev R.pcie_INT.HTXERR : Fld := ⟨5, 0x010, 0, 2, 2, .w1c, 0⟩
abbrev R.pcie_INT.HRXDROP : Fld := ⟨5, 0x010, 0, 1, 1, .w1c, 0⟩
abbrev R.pcie_INT.HRX : Fld := ⟨5, 0x010, 0, 0, 0, .w1c, 0⟩
abbrev R.pcie_INT.desc : RegDesc := ⟨0x010, 0, 1, [R.pcie_INT.LINK, R.pcie_INT.HTXERR, R.pcie_INT.HRXDROP, R.pcie_INT.HRX]⟩
abbrev R.pcie_INT.all : Fld := ⟨5, 0x010, 0, 31, 0, .ro, 0⟩
abbrev R.PCIE_CTRL.RA_EN : Fld := ⟨5, 0x040, 0, 0, 0, .rw, 1⟩
abbrev R.PCIE_CTRL.desc : RegDesc := ⟨0x040, 0, 1, [R.PCIE_CTRL.RA_EN]⟩
abbrev R.PCIE_CTRL.all : Fld := ⟨5, 0x040, 0, 31, 0, .ro, 0⟩
abbrev R.PCIE_STATUS.LINK_UP : Fld := ⟨5, 0x044, 0, 31, 31, .ro, 0⟩
abbrev R.PCIE_STATUS.LANES : Fld := ⟨5, 0x044, 0, 30, 29, .ro, 0⟩
abbrev R.PCIE_STATUS.RATE : Fld := ⟨5, 0x044, 0, 28, 27, .ro, 0⟩
abbrev R.PCIE_STATUS.DSTATE : Fld := ⟨5, 0x044, 0, 26, 25, .ro, 0⟩
abbrev R.PCIE_STATUS.MSIX_EN : Fld := ⟨5, 0x044, 0, 24, 24, .ro, 0⟩
abbrev R.PCIE_STATUS.FMASK : Fld := ⟨5, 0x044, 0, 23, 23, .ro, 0⟩
abbrev R.PCIE_STATUS.BME : Fld := ⟨5, 0x044, 0, 22, 22, .ro, 0⟩
abbrev R.PCIE_STATUS.desc : RegDesc := ⟨0x044, 0, 1, [R.PCIE_STATUS.LINK_UP, R.PCIE_STATUS.LANES, R.PCIE_STATUS.RATE, R.PCIE_STATUS.DSTATE, R.PCIE_STATUS.MSIX_EN, R.PCIE_STATUS.FMASK, R.PCIE_STATUS.BME]⟩
abbrev R.PCIE_STATUS.all : Fld := ⟨5, 0x044, 0, 31, 0, .ro, 0⟩
abbrev R.PCIE_ERRCNT.RDERR : Fld := ⟨5, 0x048, 0, 31, 16, .rcl, 0⟩
abbrev R.PCIE_ERRCNT.WRERR : Fld := ⟨5, 0x048, 0, 15, 0, .rcl, 0⟩
abbrev R.PCIE_ERRCNT.desc : RegDesc := ⟨0x048, 0, 1, [R.PCIE_ERRCNT.RDERR, R.PCIE_ERRCNT.WRERR]⟩
abbrev R.PCIE_ERRCNT.all : Fld := ⟨5, 0x048, 0, 31, 0, .ro, 0⟩
abbrev R.PCIE_HTXRq_BASE.BASE : Fld := ⟨5, 0x200, 16, 31, 5, .rw, 0⟩
abbrev R.PCIE_HTXRq_BASE.desc : RegDesc := ⟨0x200, 16, 8, [R.PCIE_HTXRq_BASE.BASE]⟩
abbrev R.PCIE_HTXRq_BASE.all : Fld := ⟨5, 0x200, 16, 31, 0, .ro, 0⟩
abbrev R.PCIE_HRXRq_BASE.BASE : Fld := ⟨5, 0x280, 16, 31, 5, .rw, 0⟩
abbrev R.PCIE_HRXRq_BASE.desc : RegDesc := ⟨0x280, 16, 8, [R.PCIE_HRXRq_BASE.BASE]⟩
abbrev R.PCIE_HRXRq_BASE.all : Fld := ⟨5, 0x280, 16, 31, 0, .ro, 0⟩
abbrev R.PCIE_HTXRq_SIZE.SIZE : Fld := ⟨5, 0x204, 16, 10, 0, .rw, 0⟩
abbrev R.PCIE_HTXRq_SIZE.desc : RegDesc := ⟨0x204, 16, 8, [R.PCIE_HTXRq_SIZE.SIZE]⟩
abbrev R.PCIE_HTXRq_SIZE.all : Fld := ⟨5, 0x204, 16, 31, 0, .ro, 0⟩
abbrev R.PCIE_HRXRq_SIZE.SIZE : Fld := ⟨5, 0x284, 16, 10, 0, .rw, 0⟩
abbrev R.PCIE_HRXRq_SIZE.desc : RegDesc := ⟨0x284, 16, 8, [R.PCIE_HRXRq_SIZE.SIZE]⟩
abbrev R.PCIE_HRXRq_SIZE.all : Fld := ⟨5, 0x284, 16, 31, 0, .ro, 0⟩
abbrev R.PCIE_HTXRq_PTR.TAIL_or_GET : Fld := ⟨5, 0x208, 16, 25, 16, .rw, 0⟩
abbrev R.PCIE_HTXRq_PTR.HEAD_or_PUT : Fld := ⟨5, 0x208, 16, 9, 0, .ro, 0⟩
abbrev R.PCIE_HTXRq_PTR.desc : RegDesc := ⟨0x208, 16, 8, [R.PCIE_HTXRq_PTR.TAIL_or_GET, R.PCIE_HTXRq_PTR.HEAD_or_PUT]⟩
abbrev R.PCIE_HTXRq_PTR.all : Fld := ⟨5, 0x208, 16, 31, 0, .ro, 0⟩
abbrev R.PCIE_HRXRq_PTR.TAIL_or_GET : Fld := ⟨5, 0x288, 16, 25, 16, .rw, 0⟩
abbrev R.PCIE_HRXRq_PTR.HEAD_or_PUT : Fld := ⟨5, 0x288, 16, 9, 0, .ro, 0⟩
abbrev R.PCIE_HRXRq_PTR.desc : RegDesc := ⟨0x288, 16, 8, [R.PCIE_HRXRq_PTR.TAIL_or_GET, R.PCIE_HRXRq_PTR.HEAD_or_PUT]⟩
abbrev R.PCIE_HRXRq_PTR.all : Fld := ⟨5, 0x288, 16, 31, 0, .ro, 0⟩
abbrev R.MSIX_ADDRv.ADDR : Fld := ⟨5, 0x800, 16, 31, 2, .rw, 0⟩
abbrev R.MSIX_ADDRv.desc : RegDesc := ⟨0x800, 16, 64, [R.MSIX_ADDRv.ADDR]⟩
abbrev R.MSIX_ADDRv.all : Fld := ⟨5, 0x800, 16, 31, 0, .ro, 0⟩
abbrev R.MSIX_UPPERv.ADDR : Fld := ⟨5, 0x804, 16, 31, 0, .rw, 0⟩
abbrev R.MSIX_UPPERv.desc : RegDesc := ⟨0x804, 16, 64, [R.MSIX_UPPERv.ADDR]⟩
abbrev R.MSIX_UPPERv.all : Fld := ⟨5, 0x804, 16, 31, 0, .ro, 0⟩
abbrev R.MSIX_DATAv.DATA : Fld := ⟨5, 0x808, 16, 31, 0, .rw, 0⟩
abbrev R.MSIX_DATAv.desc : RegDesc := ⟨0x808, 16, 64, [R.MSIX_DATAv.DATA]⟩
abbrev R.MSIX_DATAv.all : Fld := ⟨5, 0x808, 16, 31, 0, .ro, 0⟩
abbrev R.MSIX_CTRLv.MASK : Fld := ⟨5, 0x80C, 16, 0, 0, .rw, 1⟩
abbrev R.MSIX_CTRLv.desc : RegDesc := ⟨0x80C, 16, 64, [R.MSIX_CTRLv.MASK]⟩
abbrev R.MSIX_CTRLv.all : Fld := ⟨5, 0x80C, 16, 31, 0, .ro, 0⟩
abbrev R.MSIX_PBAk.BITS : Fld := ⟨5, 0xC00, 4, 31, 0, .ro, 0⟩
abbrev R.MSIX_PBAk.desc : RegDesc := ⟨0xC00, 4, 2, [R.MSIX_PBAk.BITS]⟩
abbrev R.MSIX_PBAk.all : Fld := ⟨5, 0xC00, 4, 31, 0, .ro, 0⟩

/-! Page type localBus. -/
abbrev R.localBus_INT.FL_DONE : Fld := ⟨6, 0x010, 0, 1, 1, .w1c, 0⟩
abbrev R.localBus_INT.HERR : Fld := ⟨6, 0x010, 0, 0, 0, .w1c, 0⟩
abbrev R.localBus_INT.desc : RegDesc := ⟨0x010, 0, 1, [R.localBus_INT.FL_DONE, R.localBus_INT.HERR]⟩
abbrev R.localBus_INT.all : Fld := ⟨6, 0x010, 0, 31, 0, .ro, 0⟩
abbrev R.LB_CTRL.IRQ_EN : Fld := ⟨6, 0x040, 0, 2, 2, .rw, 0⟩
abbrev R.LB_CTRL.SPI_EN : Fld := ⟨6, 0x040, 0, 1, 1, .rw, 1⟩
abbrev R.LB_CTRL.LB_EN : Fld := ⟨6, 0x040, 0, 0, 0, .rw, 1⟩
abbrev R.LB_CTRL.desc : RegDesc := ⟨0x040, 0, 1, [R.LB_CTRL.IRQ_EN, R.LB_CTRL.SPI_EN, R.LB_CTRL.LB_EN]⟩
abbrev R.LB_CTRL.all : Fld := ⟨6, 0x040, 0, 31, 0, .ro, 0⟩
abbrev R.LB_ERRCNT.SPI : Fld := ⟨6, 0x044, 0, 31, 16, .rcl, 0⟩
abbrev R.LB_ERRCNT.LB : Fld := ⟨6, 0x044, 0, 15, 0, .rcl, 0⟩
abbrev R.LB_ERRCNT.desc : RegDesc := ⟨0x044, 0, 1, [R.LB_ERRCNT.SPI, R.LB_ERRCNT.LB]⟩
abbrev R.LB_ERRCNT.all : Fld := ⟨6, 0x044, 0, 31, 0, .ro, 0⟩
abbrev R.LB_HNEXT_PEEK.NONE : Fld := ⟨6, 0x048, 0, 31, 31, .ro, 1⟩
abbrev R.LB_HNEXT_PEEK.SRC : Fld := ⟨6, 0x048, 0, 9, 0, .ro, 0⟩
abbrev R.LB_HNEXT_PEEK.desc : RegDesc := ⟨0x048, 0, 1, [R.LB_HNEXT_PEEK.NONE, R.LB_HNEXT_PEEK.SRC]⟩
abbrev R.LB_HNEXT_PEEK.all : Fld := ⟨6, 0x048, 0, 31, 0, .ro, 0⟩
abbrev R.LB_HNEXT_POP.NONE : Fld := ⟨6, 0x04C, 0, 31, 31, .ro, 1⟩
abbrev R.LB_HNEXT_POP.SRC : Fld := ⟨6, 0x04C, 0, 9, 0, .ro, 0⟩
abbrev R.LB_HNEXT_POP.desc : RegDesc := ⟨0x04C, 0, 1, [R.LB_HNEXT_POP.NONE, R.LB_HNEXT_POP.SRC]⟩
abbrev R.LB_HNEXT_POP.all : Fld := ⟨6, 0x04C, 0, 31, 0, .ro, 0⟩
abbrev R.LB_FL_CFG.DIV : Fld := ⟨6, 0x060, 0, 15, 8, .rw, 15⟩
abbrev R.LB_FL_CFG.DUMMY : Fld := ⟨6, 0x060, 0, 7, 3, .rw, 0⟩
abbrev R.LB_FL_CFG.ADDR4 : Fld := ⟨6, 0x060, 0, 2, 2, .rw, 0⟩
abbrev R.LB_FL_CFG.LINES : Fld := ⟨6, 0x060, 0, 1, 0, .rw, 0⟩
abbrev R.LB_FL_CFG.desc : RegDesc := ⟨0x060, 0, 1, [R.LB_FL_CFG.DIV, R.LB_FL_CFG.DUMMY, R.LB_FL_CFG.ADDR4, R.LB_FL_CFG.LINES]⟩
abbrev R.LB_FL_CFG.all : Fld := ⟨6, 0x060, 0, 31, 0, .ro, 0⟩
abbrev R.LB_FL_CMD.START : Fld := ⟨6, 0x064, 0, 31, 31, .wo, 0⟩
abbrev R.LB_FL_CMD.BUSY : Fld := ⟨6, 0x064, 0, 30, 30, .ro, 0⟩
abbrev R.LB_FL_CMD.WRITE : Fld := ⟨6, 0x064, 0, 29, 29, .rw, 0⟩
abbrev R.LB_FL_CMD.NOADDR : Fld := ⟨6, 0x064, 0, 28, 28, .rw, 0⟩
abbrev R.LB_FL_CMD.LEN : Fld := ⟨6, 0x064, 0, 13, 8, .rw, 0⟩
abbrev R.LB_FL_CMD.OPCODE : Fld := ⟨6, 0x064, 0, 7, 0, .rw, 0⟩
abbrev R.LB_FL_CMD.desc : RegDesc := ⟨0x064, 0, 1, [R.LB_FL_CMD.START, R.LB_FL_CMD.BUSY, R.LB_FL_CMD.WRITE, R.LB_FL_CMD.NOADDR, R.LB_FL_CMD.LEN, R.LB_FL_CMD.OPCODE]⟩
abbrev R.LB_FL_CMD.all : Fld := ⟨6, 0x064, 0, 31, 0, .ro, 0⟩
abbrev R.LB_FL_ADDR.ADDR : Fld := ⟨6, 0x068, 0, 31, 0, .rw, 0⟩
abbrev R.LB_FL_ADDR.desc : RegDesc := ⟨0x068, 0, 1, [R.LB_FL_ADDR.ADDR]⟩
abbrev R.LB_FL_ADDR.all : Fld := ⟨6, 0x068, 0, 31, 0, .ro, 0⟩
abbrev R.LB_FL_DATAn.DATA : Fld := ⟨6, 0x080, 4, 31, 0, .rw, 0⟩
abbrev R.LB_FL_DATAn.desc : RegDesc := ⟨0x080, 4, 8, [R.LB_FL_DATAn.DATA]⟩
abbrev R.LB_FL_DATAn.all : Fld := ⟨6, 0x080, 4, 31, 0, .ro, 0⟩

/-! Page type sram. -/
abbrev R.sram_INT.REPAIR_FULL : Fld := ⟨7, 0x010, 0, 3, 3, .w1c, 0⟩
abbrev R.sram_INT.BT_FAIL : Fld := ⟨7, 0x010, 0, 2, 2, .w1c, 0⟩
abbrev R.sram_INT.ECC_UNCORR : Fld := ⟨7, 0x010, 0, 1, 1, .w1c, 0⟩
abbrev R.sram_INT.ECC_CORR : Fld := ⟨7, 0x010, 0, 0, 0, .w1c, 0⟩
abbrev R.sram_INT.desc : RegDesc := ⟨0x010, 0, 1, [R.sram_INT.REPAIR_FULL, R.sram_INT.BT_FAIL, R.sram_INT.ECC_UNCORR, R.sram_INT.ECC_CORR]⟩
abbrev R.sram_INT.all : Fld := ⟨7, 0x010, 0, 31, 0, .ro, 0⟩
abbrev R.SRAM_BANK_COLLIDE.MODE : Fld := ⟨7, 0x040, 0, 31, 0, .rw, 0⟩
abbrev R.SRAM_BANK_COLLIDE.desc : RegDesc := ⟨0x040, 0, 1, [R.SRAM_BANK_COLLIDE.MODE]⟩
abbrev R.SRAM_BANK_COLLIDE.all : Fld := ⟨7, 0x040, 0, 31, 0, .ro, 0⟩
abbrev R.SRAM_COLL_CNT.BUSY : Fld := ⟨7, 0x044, 0, 31, 16, .rcl, 0⟩
abbrev R.SRAM_COLL_CNT.WW : Fld := ⟨7, 0x044, 0, 15, 0, .rcl, 0⟩
abbrev R.SRAM_COLL_CNT.desc : RegDesc := ⟨0x044, 0, 1, [R.SRAM_COLL_CNT.BUSY, R.SRAM_COLL_CNT.WW]⟩
abbrev R.SRAM_COLL_CNT.all : Fld := ⟨7, 0x044, 0, 31, 0, .ro, 0⟩
abbrev R.SRAM_ECC_CNT.UNCORR : Fld := ⟨7, 0x048, 0, 31, 16, .rcl, 0⟩
abbrev R.SRAM_ECC_CNT.CORR : Fld := ⟨7, 0x048, 0, 15, 0, .rcl, 0⟩
abbrev R.SRAM_ECC_CNT.desc : RegDesc := ⟨0x048, 0, 1, [R.SRAM_ECC_CNT.UNCORR, R.SRAM_ECC_CNT.CORR]⟩
abbrev R.SRAM_ECC_CNT.all : Fld := ⟨7, 0x048, 0, 31, 0, .ro, 0⟩
abbrev R.SRAM_ECC_ADDR.ADDR : Fld := ⟨7, 0x04C, 0, 31, 0, .ro, 0⟩
abbrev R.SRAM_ECC_ADDR.desc : RegDesc := ⟨0x04C, 0, 1, [R.SRAM_ECC_ADDR.ADDR]⟩
abbrev R.SRAM_ECC_ADDR.all : Fld := ⟨7, 0x04C, 0, 31, 0, .ro, 0⟩
abbrev R.SRAM_PFA_LO.PF : Fld := ⟨7, 0x050, 0, 31, 0, .rw, 4294967295⟩
abbrev R.SRAM_PFA_LO.desc : RegDesc := ⟨0x050, 0, 1, [R.SRAM_PFA_LO.PF]⟩
abbrev R.SRAM_PFA_LO.all : Fld := ⟨7, 0x050, 0, 31, 0, .ro, 0⟩
abbrev R.SRAM_PFA_HI.PF : Fld := ⟨7, 0x054, 0, 31, 0, .rw, 2147483647⟩
abbrev R.SRAM_PFA_HI.desc : RegDesc := ⟨0x054, 0, 1, [R.SRAM_PFA_HI.PF]⟩
abbrev R.SRAM_PFA_HI.all : Fld := ⟨7, 0x054, 0, 31, 0, .ro, 0⟩
abbrev R.SRAM_BT_CTRL.EN : Fld := ⟨7, 0x060, 0, 31, 31, .rw, 0⟩
abbrev R.SRAM_BT_CTRL.INTERVAL : Fld := ⟨7, 0x060, 0, 19, 0, .rw, 4096⟩
abbrev R.SRAM_BT_CTRL.desc : RegDesc := ⟨0x060, 0, 1, [R.SRAM_BT_CTRL.EN, R.SRAM_BT_CTRL.INTERVAL]⟩
abbrev R.SRAM_BT_CTRL.all : Fld := ⟨7, 0x060, 0, 31, 0, .ro, 0⟩
abbrev R.SRAM_BT_MASK.BANKS : Fld := ⟨7, 0x064, 0, 31, 0, .rw, 4294967295⟩
abbrev R.SRAM_BT_MASK.desc : RegDesc := ⟨0x064, 0, 1, [R.SRAM_BT_MASK.BANKS]⟩
abbrev R.SRAM_BT_MASK.all : Fld := ⟨7, 0x064, 0, 31, 0, .ro, 0⟩
abbrev R.SRAM_BT_STATUS.PASSES : Fld := ⟨7, 0x068, 0, 31, 16, .rcl, 0⟩
abbrev R.SRAM_BT_STATUS.REGION : Fld := ⟨7, 0x068, 0, 13, 0, .ro, 0⟩
abbrev R.SRAM_BT_STATUS.desc : RegDesc := ⟨0x068, 0, 1, [R.SRAM_BT_STATUS.PASSES, R.SRAM_BT_STATUS.REGION]⟩
abbrev R.SRAM_BT_STATUS.all : Fld := ⟨7, 0x068, 0, 31, 0, .ro, 0⟩
abbrev R.SRAM_BT_FAIL.COUNT : Fld := ⟨7, 0x06C, 0, 31, 16, .rcl, 0⟩
abbrev R.SRAM_BT_FAIL.LAST : Fld := ⟨7, 0x06C, 0, 13, 0, .ro, 0⟩
abbrev R.SRAM_BT_FAIL.desc : RegDesc := ⟨0x06C, 0, 1, [R.SRAM_BT_FAIL.COUNT, R.SRAM_BT_FAIL.LAST]⟩
abbrev R.SRAM_BT_FAIL.all : Fld := ⟨7, 0x06C, 0, 31, 0, .ro, 0⟩
abbrev R.SRAM_REPAIRb.V1 : Fld := ⟨7, 0x100, 4, 31, 31, .ro, 0⟩
abbrev R.SRAM_REPAIRb.REG1 : Fld := ⟨7, 0x100, 4, 24, 16, .ro, 0⟩
abbrev R.SRAM_REPAIRb.V0 : Fld := ⟨7, 0x100, 4, 15, 15, .ro, 0⟩
abbrev R.SRAM_REPAIRb.REG0 : Fld := ⟨7, 0x100, 4, 8, 0, .ro, 0⟩
abbrev R.SRAM_REPAIRb.desc : RegDesc := ⟨0x100, 4, 32, [R.SRAM_REPAIRb.V1, R.SRAM_REPAIRb.REG1, R.SRAM_REPAIRb.V0, R.SRAM_REPAIRb.REG0]⟩
abbrev R.SRAM_REPAIRb.all : Fld := ⟨7, 0x100, 4, 31, 0, .ro, 0⟩

/-! Page type caddy. -/
abbrev R.CAD_IMG_CTRL.ACK_SEQ : Fld := ⟨8, 0x040, 0, 15, 8, .wo, 0⟩
abbrev R.CAD_IMG_CTRL.SNAP_REL : Fld := ⟨8, 0x040, 0, 2, 2, .wo, 0⟩
abbrev R.CAD_IMG_CTRL.SNAP_REQ : Fld := ⟨8, 0x040, 0, 1, 1, .wo, 0⟩
abbrev R.CAD_IMG_CTRL.IMG_EN : Fld := ⟨8, 0x040, 0, 0, 0, .ro, 0⟩
abbrev R.CAD_IMG_CTRL.desc : RegDesc := ⟨0x040, 0, 1, [R.CAD_IMG_CTRL.ACK_SEQ, R.CAD_IMG_CTRL.SNAP_REL, R.CAD_IMG_CTRL.SNAP_REQ, R.CAD_IMG_CTRL.IMG_EN]⟩
abbrev R.CAD_IMG_CTRL.all : Fld := ⟨8, 0x040, 0, 31, 0, .ro, 0⟩
abbrev R.CAD_SNAP_STATUS.VALID : Fld := ⟨8, 0x044, 0, 31, 31, .ro, 0⟩
abbrev R.CAD_SNAP_STATUS.REREAD : Fld := ⟨8, 0x044, 0, 30, 30, .ro, 0⟩
abbrev R.CAD_SNAP_STATUS.ABORT : Fld := ⟨8, 0x044, 0, 29, 29, .ro, 0⟩
abbrev R.CAD_SNAP_STATUS.SEQ : Fld := ⟨8, 0x044, 0, 23, 16, .ro, 0⟩
abbrev R.CAD_SNAP_STATUS.CYCLE : Fld := ⟨8, 0x044, 0, 15, 0, .ro, 0⟩
abbrev R.CAD_SNAP_STATUS.desc : RegDesc := ⟨0x044, 0, 1, [R.CAD_SNAP_STATUS.VALID, R.CAD_SNAP_STATUS.REREAD, R.CAD_SNAP_STATUS.ABORT, R.CAD_SNAP_STATUS.SEQ, R.CAD_SNAP_STATUS.CYCLE]⟩
abbrev R.CAD_SNAP_STATUS.all : Fld := ⟨8, 0x044, 0, 31, 0, .ro, 0⟩
abbrev R.CAD_IPT_SEL.IMG : Fld := ⟨8, 0x048, 0, 14, 14, .rw, 0⟩
abbrev R.CAD_IPT_SEL.SLOT : Fld := ⟨8, 0x048, 0, 13, 0, .rw, 0⟩
abbrev R.CAD_IPT_SEL.desc : RegDesc := ⟨0x048, 0, 1, [R.CAD_IPT_SEL.IMG, R.CAD_IPT_SEL.SLOT]⟩
abbrev R.CAD_IPT_SEL.all : Fld := ⟨8, 0x048, 0, 31, 0, .ro, 0⟩
abbrev R.CAD_IPT_DATA.BACKED : Fld := ⟨8, 0x04C, 0, 31, 31, .ro, 0⟩
abbrev R.CAD_IPT_DATA.SHARED : Fld := ⟨8, 0x04C, 0, 30, 30, .ro, 0⟩
abbrev R.CAD_IPT_DATA.POISON : Fld := ⟨8, 0x04C, 0, 29, 29, .ro, 0⟩
abbrev R.CAD_IPT_DATA.PPN : Fld := ⟨8, 0x04C, 0, 15, 0, .ro, 0⟩
abbrev R.CAD_IPT_DATA.desc : RegDesc := ⟨0x04C, 0, 1, [R.CAD_IPT_DATA.BACKED, R.CAD_IPT_DATA.SHARED, R.CAD_IPT_DATA.POISON, R.CAD_IPT_DATA.PPN]⟩
abbrev R.CAD_IPT_DATA.all : Fld := ⟨8, 0x04C, 0, 31, 0, .ro, 0⟩
abbrev R.CAD_IMG_PAGES.SNAP : Fld := ⟨8, 0x050, 0, 31, 16, .ro, 0⟩
abbrev R.CAD_IMG_PAGES.LIVE : Fld := ⟨8, 0x050, 0, 15, 0, .ro, 0⟩
abbrev R.CAD_IMG_PAGES.desc : RegDesc := ⟨0x050, 0, 1, [R.CAD_IMG_PAGES.SNAP, R.CAD_IMG_PAGES.LIVE]⟩
abbrev R.CAD_IMG_PAGES.all : Fld := ⟨8, 0x050, 0, 31, 0, .ro, 0⟩
abbrev R.caddy_INT.SNAP_ABORT : Fld := ⟨8, 0x010, 0, 3, 3, .w1c, 0⟩
abbrev R.caddy_INT.ALLOC_FAIL : Fld := ⟨8, 0x010, 0, 2, 2, .w1c, 0⟩
abbrev R.caddy_INT.ECC_UNCORR : Fld := ⟨8, 0x010, 0, 1, 1, .w1c, 0⟩
abbrev R.caddy_INT.ECC_CORR : Fld := ⟨8, 0x010, 0, 0, 0, .w1c, 0⟩
abbrev R.caddy_INT.desc : RegDesc := ⟨0x010, 0, 1, [R.caddy_INT.SNAP_ABORT, R.caddy_INT.ALLOC_FAIL, R.caddy_INT.ECC_UNCORR, R.caddy_INT.ECC_CORR]⟩
abbrev R.caddy_INT.all : Fld := ⟨8, 0x010, 0, 31, 0, .ro, 0⟩
abbrev R.CAD_PAGE_PEEK.EMPTY : Fld := ⟨8, 0x080, 0, 31, 31, .ro, 1⟩
abbrev R.CAD_PAGE_PEEK.PAGE : Fld := ⟨8, 0x080, 0, 15, 0, .ro, 0⟩
abbrev R.CAD_PAGE_PEEK.desc : RegDesc := ⟨0x080, 0, 1, [R.CAD_PAGE_PEEK.EMPTY, R.CAD_PAGE_PEEK.PAGE]⟩
abbrev R.CAD_PAGE_PEEK.all : Fld := ⟨8, 0x080, 0, 31, 0, .ro, 0⟩
abbrev R.CAD_PAGE_POP.EMPTY : Fld := ⟨8, 0x084, 0, 31, 31, .ro, 1⟩
abbrev R.CAD_PAGE_POP.PAGE : Fld := ⟨8, 0x084, 0, 15, 0, .ro, 0⟩
abbrev R.CAD_PAGE_POP.desc : RegDesc := ⟨0x084, 0, 1, [R.CAD_PAGE_POP.EMPTY, R.CAD_PAGE_POP.PAGE]⟩
abbrev R.CAD_PAGE_POP.all : Fld := ⟨8, 0x084, 0, 31, 0, .ro, 0⟩
abbrev R.CAD_CELL_PEEK.EMPTY : Fld := ⟨8, 0x088, 0, 31, 31, .ro, 1⟩
abbrev R.CAD_CELL_PEEK.CELL : Fld := ⟨8, 0x088, 0, 17, 0, .ro, 0⟩
abbrev R.CAD_CELL_PEEK.desc : RegDesc := ⟨0x088, 0, 1, [R.CAD_CELL_PEEK.EMPTY, R.CAD_CELL_PEEK.CELL]⟩
abbrev R.CAD_CELL_PEEK.all : Fld := ⟨8, 0x088, 0, 31, 0, .ro, 0⟩
abbrev R.CAD_CELL_POP.EMPTY : Fld := ⟨8, 0x08C, 0, 31, 31, .ro, 1⟩
abbrev R.CAD_CELL_POP.CELL : Fld := ⟨8, 0x08C, 0, 17, 0, .ro, 0⟩
abbrev R.CAD_CELL_POP.desc : RegDesc := ⟨0x08C, 0, 1, [R.CAD_CELL_POP.EMPTY, R.CAD_CELL_POP.CELL]⟩
abbrev R.CAD_CELL_POP.all : Fld := ⟨8, 0x08C, 0, 31, 0, .ro, 0⟩
abbrev R.CAD_PAGE_FREE.NUM : Fld := ⟨8, 0x090, 0, 17, 0, .wo, 0⟩
abbrev R.CAD_PAGE_FREE.desc : RegDesc := ⟨0x090, 0, 1, [R.CAD_PAGE_FREE.NUM]⟩
abbrev R.CAD_PAGE_FREE.all : Fld := ⟨8, 0x090, 0, 31, 0, .ro, 0⟩
abbrev R.CAD_CELL_FREE.NUM : Fld := ⟨8, 0x094, 0, 17, 0, .wo, 0⟩
abbrev R.CAD_CELL_FREE.desc : RegDesc := ⟨0x094, 0, 1, [R.CAD_CELL_FREE.NUM]⟩
abbrev R.CAD_CELL_FREE.all : Fld := ⟨8, 0x094, 0, 31, 0, .ro, 0⟩
abbrev R.CAD_FREE.FREE : Fld := ⟨8, 0x098, 0, 16, 0, .ro, 65536⟩
abbrev R.CAD_FREE.desc : RegDesc := ⟨0x098, 0, 1, [R.CAD_FREE.FREE]⟩
abbrev R.CAD_FREE.all : Fld := ⟨8, 0x098, 0, 31, 0, .ro, 0⟩
abbrev R.CAD_POOLp.MIN : Fld := ⟨8, 0x0A0, 4, 31, 16, .rw, 0⟩
abbrev R.CAD_POOLp.MAX : Fld := ⟨8, 0x0A0, 4, 15, 0, .rw, 65535⟩
abbrev R.CAD_POOLp.desc : RegDesc := ⟨0x0A0, 4, 4, [R.CAD_POOLp.MIN, R.CAD_POOLp.MAX]⟩
abbrev R.CAD_POOLp.all : Fld := ⟨8, 0x0A0, 4, 31, 0, .ro, 0⟩
abbrev R.CAD_USED01.ODD : Fld := ⟨8, 0x0B0, 0, 31, 16, .ro, 0⟩
abbrev R.CAD_USED01.EVEN : Fld := ⟨8, 0x0B0, 0, 15, 0, .ro, 0⟩
abbrev R.CAD_USED01.desc : RegDesc := ⟨0x0B0, 0, 1, [R.CAD_USED01.ODD, R.CAD_USED01.EVEN]⟩
abbrev R.CAD_USED01.all : Fld := ⟨8, 0x0B0, 0, 31, 0, .ro, 0⟩
abbrev R.CAD_USED23.ODD : Fld := ⟨8, 0x0B4, 0, 31, 16, .ro, 0⟩
abbrev R.CAD_USED23.EVEN : Fld := ⟨8, 0x0B4, 0, 15, 0, .ro, 0⟩
abbrev R.CAD_USED23.desc : RegDesc := ⟨0x0B4, 0, 1, [R.CAD_USED23.ODD, R.CAD_USED23.EVEN]⟩
abbrev R.CAD_USED23.all : Fld := ⟨8, 0x0B4, 0, 31, 0, .ro, 0⟩
abbrev R.CAD_ALLOC_FAIL.IMAGE_SNAP : Fld := ⟨8, 0x0B8, 0, 31, 16, .rcl, 0⟩
abbrev R.CAD_ALLOC_FAIL.GEN_CELL : Fld := ⟨8, 0x0B8, 0, 15, 0, .rcl, 0⟩
abbrev R.CAD_ALLOC_FAIL.desc : RegDesc := ⟨0x0B8, 0, 1, [R.CAD_ALLOC_FAIL.IMAGE_SNAP, R.CAD_ALLOC_FAIL.GEN_CELL]⟩
abbrev R.CAD_ALLOC_FAIL.all : Fld := ⟨8, 0x0B8, 0, 31, 0, .ro, 0⟩
abbrev R.CAD_ECC_CNT.UNCORR : Fld := ⟨8, 0x0BC, 0, 31, 16, .rcl, 0⟩
abbrev R.CAD_ECC_CNT.CORR : Fld := ⟨8, 0x0BC, 0, 15, 0, .rcl, 0⟩
abbrev R.CAD_ECC_CNT.desc : RegDesc := ⟨0x0BC, 0, 1, [R.CAD_ECC_CNT.UNCORR, R.CAD_ECC_CNT.CORR]⟩
abbrev R.CAD_ECC_CNT.all : Fld := ⟨8, 0x0BC, 0, 31, 0, .ro, 0⟩
abbrev R.CAD_SCRUB.EN : Fld := ⟨8, 0x0C0, 0, 31, 31, .rw, 0⟩
abbrev R.CAD_SCRUB.MS : Fld := ⟨8, 0x0C0, 0, 15, 0, .rw, 1000⟩
abbrev R.CAD_SCRUB.desc : RegDesc := ⟨0x0C0, 0, 1, [R.CAD_SCRUB.EN, R.CAD_SCRUB.MS]⟩
abbrev R.CAD_SCRUB.all : Fld := ⟨8, 0x0C0, 0, 31, 0, .ro, 0⟩
abbrev R.CAD_PATTR_SEL.PAGE : Fld := ⟨8, 0x0C4, 0, 15, 0, .rw, 0⟩
abbrev R.CAD_PATTR_SEL.desc : RegDesc := ⟨0x0C4, 0, 1, [R.CAD_PATTR_SEL.PAGE]⟩
abbrev R.CAD_PATTR_SEL.all : Fld := ⟨8, 0x0C4, 0, 31, 0, .ro, 0⟩
abbrev R.CAD_PATTR_DATA.ATTR : Fld := ⟨8, 0x0C8, 0, 15, 0, .ro, 0⟩
abbrev R.CAD_PATTR_DATA.desc : RegDesc := ⟨0x0C8, 0, 1, [R.CAD_PATTR_DATA.ATTR]⟩
abbrev R.CAD_PATTR_DATA.all : Fld := ⟨8, 0x0C8, 0, 31, 0, .ro, 0⟩
abbrev R.CAD_CARVEn_BASE.TYPE : Fld := ⟨8, 0x100, 8, 23, 22, .rw, 0⟩
abbrev R.CAD_CARVEn_BASE.PF : Fld := ⟨8, 0x100, 8, 21, 21, .rw, 0⟩
abbrev R.CAD_CARVEn_BASE.RO : Fld := ⟨8, 0x100, 8, 20, 20, .rw, 0⟩
abbrev R.CAD_CARVEn_BASE.BASE : Fld := ⟨8, 0x100, 8, 15, 0, .rw, 0⟩
abbrev R.CAD_CARVEn_BASE.desc : RegDesc := ⟨0x100, 8, 8, [R.CAD_CARVEn_BASE.TYPE, R.CAD_CARVEn_BASE.PF, R.CAD_CARVEn_BASE.RO, R.CAD_CARVEn_BASE.BASE]⟩
abbrev R.CAD_CARVEn_BASE.all : Fld := ⟨8, 0x100, 8, 31, 0, .ro, 0⟩
abbrev R.CAD_CARVEn_PAGES.READY : Fld := ⟨8, 0x104, 8, 31, 31, .ro, 0⟩
abbrev R.CAD_CARVEn_PAGES.PAGES : Fld := ⟨8, 0x104, 8, 16, 0, .rw, 0⟩
abbrev R.CAD_CARVEn_PAGES.desc : RegDesc := ⟨0x104, 8, 8, [R.CAD_CARVEn_PAGES.READY, R.CAD_CARVEn_PAGES.PAGES]⟩
abbrev R.CAD_CARVEn_PAGES.all : Fld := ⟨8, 0x104, 8, 31, 0, .ro, 0⟩

/-! Page type pour. -/
abbrev R.POUR_CTRL.HOLD : Fld := ⟨9, 0x040, 0, 1, 1, .rw, 0⟩
abbrev R.POUR_CTRL.EN : Fld := ⟨9, 0x040, 0, 0, 0, .rw, 0⟩
abbrev R.POUR_CTRL.desc : RegDesc := ⟨0x040, 0, 1, [R.POUR_CTRL.HOLD, R.POUR_CTRL.EN]⟩
abbrev R.POUR_CTRL.all : Fld := ⟨9, 0x040, 0, 31, 0, .ro, 0⟩
abbrev R.POUR_STATUS.INFLIGHT : Fld := ⟨9, 0x044, 0, 24, 16, .ro, 0⟩
abbrev R.POUR_STATUS.DEFERRED : Fld := ⟨9, 0x044, 0, 1, 1, .ro, 0⟩
abbrev R.POUR_STATUS.IDLE : Fld := ⟨9, 0x044, 0, 0, 0, .ro, 1⟩
abbrev R.POUR_STATUS.desc : RegDesc := ⟨0x044, 0, 1, [R.POUR_STATUS.INFLIGHT, R.POUR_STATUS.DEFERRED, R.POUR_STATUS.IDLE]⟩
abbrev R.POUR_STATUS.all : Fld := ⟨9, 0x044, 0, 31, 0, .ro, 0⟩
abbrev R.POUR_FILL01.ODD : Fld := ⟨9, 0x048, 0, 25, 16, .ro, 0⟩
abbrev R.POUR_FILL01.EVEN : Fld := ⟨9, 0x048, 0, 9, 0, .ro, 0⟩
abbrev R.POUR_FILL01.desc : RegDesc := ⟨0x048, 0, 1, [R.POUR_FILL01.ODD, R.POUR_FILL01.EVEN]⟩
abbrev R.POUR_FILL01.all : Fld := ⟨9, 0x048, 0, 31, 0, .ro, 0⟩
abbrev R.POUR_FILL23.ODD : Fld := ⟨9, 0x04C, 0, 25, 16, .ro, 0⟩
abbrev R.POUR_FILL23.EVEN : Fld := ⟨9, 0x04C, 0, 9, 0, .ro, 0⟩
abbrev R.POUR_FILL23.desc : RegDesc := ⟨0x04C, 0, 1, [R.POUR_FILL23.ODD, R.POUR_FILL23.EVEN]⟩
abbrev R.POUR_FILL23.all : Fld := ⟨9, 0x04C, 0, 31, 0, .ro, 0⟩
abbrev R.POUR_FILL45.ODD : Fld := ⟨9, 0x050, 0, 25, 16, .ro, 0⟩
abbrev R.POUR_FILL45.EVEN : Fld := ⟨9, 0x050, 0, 9, 0, .ro, 0⟩
abbrev R.POUR_FILL45.desc : RegDesc := ⟨0x050, 0, 1, [R.POUR_FILL45.ODD, R.POUR_FILL45.EVEN]⟩
abbrev R.POUR_FILL45.all : Fld := ⟨9, 0x050, 0, 31, 0, .ro, 0⟩
abbrev R.POUR_FILL67.ODD : Fld := ⟨9, 0x054, 0, 25, 16, .ro, 0⟩
abbrev R.POUR_FILL67.EVEN : Fld := ⟨9, 0x054, 0, 9, 0, .ro, 0⟩
abbrev R.POUR_FILL67.desc : RegDesc := ⟨0x054, 0, 1, [R.POUR_FILL67.ODD, R.POUR_FILL67.EVEN]⟩
abbrev R.POUR_FILL67.all : Fld := ⟨9, 0x054, 0, 31, 0, .ro, 0⟩
abbrev R.POUR_SLOTS.LOADED : Fld := ⟨9, 0x058, 0, 20, 0, .ro, 0⟩
abbrev R.POUR_SLOTS.desc : RegDesc := ⟨0x058, 0, 1, [R.POUR_SLOTS.LOADED]⟩
abbrev R.POUR_SLOTS.all : Fld := ⟨9, 0x058, 0, 31, 0, .ro, 0⟩
abbrev R.POUR_REFUSE.FULL : Fld := ⟨9, 0x060, 0, 31, 16, .rcl, 0⟩
abbrev R.POUR_REFUSE.COUNT_MAX : Fld := ⟨9, 0x060, 0, 15, 0, .rcl, 0⟩
abbrev R.POUR_REFUSE.desc : RegDesc := ⟨0x060, 0, 1, [R.POUR_REFUSE.FULL, R.POUR_REFUSE.COUNT_MAX]⟩
abbrev R.POUR_REFUSE.all : Fld := ⟨9, 0x060, 0, 31, 0, .ro, 0⟩
abbrev R.POUR_DROP.DROPPED : Fld := ⟨9, 0x064, 0, 31, 16, .rcl, 0⟩
abbrev R.POUR_DROP.RETRIED : Fld := ⟨9, 0x064, 0, 15, 0, .rcl, 0⟩
abbrev R.POUR_DROP.desc : RegDesc := ⟨0x064, 0, 1, [R.POUR_DROP.DROPPED, R.POUR_DROP.RETRIED]⟩
abbrev R.POUR_DROP.all : Fld := ⟨9, 0x064, 0, 31, 0, .ro, 0⟩
abbrev R.POUR_RETURN.RETURNED : Fld := ⟨9, 0x068, 0, 31, 16, .rcl, 0⟩
abbrev R.POUR_RETURN.ABORTED : Fld := ⟨9, 0x068, 0, 15, 0, .rcl, 0⟩
abbrev R.POUR_RETURN.desc : RegDesc := ⟨0x068, 0, 1, [R.POUR_RETURN.RETURNED, R.POUR_RETURN.ABORTED]⟩
abbrev R.POUR_RETURN.all : Fld := ⟨9, 0x068, 0, 31, 0, .ro, 0⟩
abbrev R.POUR_MISC.LAPSED : Fld := ⟨9, 0x06C, 0, 31, 16, .rcl, 0⟩
abbrev R.POUR_MISC.MISROUTE : Fld := ⟨9, 0x06C, 0, 15, 0, .rcl, 0⟩
abbrev R.POUR_MISC.desc : RegDesc := ⟨0x06C, 0, 1, [R.POUR_MISC.LAPSED, R.POUR_MISC.MISROUTE]⟩
abbrev R.POUR_MISC.all : Fld := ⟨9, 0x06C, 0, 31, 0, .ro, 0⟩
abbrev R.POUR_STALL.TICKS : Fld := ⟨9, 0x070, 0, 31, 0, .rcl, 0⟩
abbrev R.POUR_STALL.desc : RegDesc := ⟨0x070, 0, 1, [R.POUR_STALL.TICKS]⟩
abbrev R.POUR_STALL.all : Fld := ⟨9, 0x070, 0, 31, 0, .ro, 0⟩
abbrev R.POUR_NODE_SEL.NODE : Fld := ⟨9, 0x080, 0, 11, 0, .rw, 0⟩
abbrev R.POUR_NODE_SEL.desc : RegDesc := ⟨0x080, 0, 1, [R.POUR_NODE_SEL.NODE]⟩
abbrev R.POUR_NODE_SEL.all : Fld := ⟨9, 0x080, 0, 31, 0, .ro, 0⟩
abbrev R.POUR_NODE_STATE.STATE : Fld := ⟨9, 0x084, 0, 31, 29, .ro, 0⟩
abbrev R.POUR_NODE_STATE.EN : Fld := ⟨9, 0x084, 0, 28, 28, .ro, 0⟩
abbrev R.POUR_NODE_STATE.COUNT : Fld := ⟨9, 0x084, 0, 15, 0, .ro, 0⟩
abbrev R.POUR_NODE_STATE.desc : RegDesc := ⟨0x084, 0, 1, [R.POUR_NODE_STATE.STATE, R.POUR_NODE_STATE.EN, R.POUR_NODE_STATE.COUNT]⟩
abbrev R.POUR_NODE_STATE.all : Fld := ⟨9, 0x084, 0, 31, 0, .ro, 0⟩
abbrev R.POUR_NODE_CTRL.SET_EN : Fld := ⟨9, 0x088, 0, 31, 31, .wo, 0⟩
abbrev R.POUR_NODE_CTRL.CLR_EN : Fld := ⟨9, 0x088, 0, 30, 30, .wo, 0⟩
abbrev R.POUR_NODE_CTRL.NODE : Fld := ⟨9, 0x088, 0, 11, 0, .wo, 0⟩
abbrev R.POUR_NODE_CTRL.desc : RegDesc := ⟨0x088, 0, 1, [R.POUR_NODE_CTRL.SET_EN, R.POUR_NODE_CTRL.CLR_EN, R.POUR_NODE_CTRL.NODE]⟩
abbrev R.POUR_NODE_CTRL.all : Fld := ⟨9, 0x088, 0, 31, 0, .ro, 0⟩
abbrev R.POUR_CTX_SEL.HELD : Fld := ⟨9, 0x08C, 0, 31, 31, .ro, 0⟩
abbrev R.POUR_CTX_SEL.CTX : Fld := ⟨9, 0x08C, 0, 7, 0, .rw, 0⟩
abbrev R.POUR_CTX_SEL.desc : RegDesc := ⟨0x08C, 0, 1, [R.POUR_CTX_SEL.HELD, R.POUR_CTX_SEL.CTX]⟩
abbrev R.POUR_CTX_SEL.all : Fld := ⟨9, 0x08C, 0, 31, 0, .ro, 0⟩
abbrev R.POUR_POSTc.INPUT : Fld := ⟨9, 0x100, 8, 13, 12, .wo, 0⟩
abbrev R.POUR_POSTc.NODE : Fld := ⟨9, 0x100, 8, 11, 0, .wo, 0⟩
abbrev R.POUR_POSTc.desc : RegDesc := ⟨0x100, 8, 16, [R.POUR_POSTc.INPUT, R.POUR_POSTc.NODE]⟩
abbrev R.POUR_POSTc.all : Fld := ⟨9, 0x100, 8, 31, 0, .ro, 0⟩
abbrev R.POUR_POST_RESc.RESULT : Fld := ⟨9, 0x104, 8, 1, 0, .ro, 0⟩
abbrev R.POUR_POST_RESc.desc : RegDesc := ⟨0x104, 8, 16, [R.POUR_POST_RESc.RESULT]⟩
abbrev R.POUR_POST_RESc.all : Fld := ⟨9, 0x104, 8, 31, 0, .ro, 0⟩
abbrev R.POUR_CTX_WINn.DATA : Fld := ⟨9, 0x800, 4, 31, 0, .rw, 0⟩
abbrev R.POUR_CTX_WINn.desc : RegDesc := ⟨0x800, 4, 64, [R.POUR_CTX_WINn.DATA]⟩
abbrev R.POUR_CTX_WINn.all : Fld := ⟨9, 0x800, 4, 31, 0, .ro, 0⟩

/-! Page type mailbox. -/
abbrev R.MBX_ERR.STAGE_FULL : Fld := ⟨10, 0x040, 0, 15, 0, .rcl, 0⟩
abbrev R.MBX_ERR.desc : RegDesc := ⟨0x040, 0, 1, [R.MBX_ERR.STAGE_FULL]⟩
abbrev R.MBX_ERR.all : Fld := ⟨10, 0x040, 0, 31, 0, .ro, 0⟩
abbrev R.MBX_CFGn.EN : Fld := ⟨10, 0x100, 32, 31, 31, .rw, 0⟩
abbrev R.MBX_CFGn.RX_CLASS : Fld := ⟨10, 0x100, 32, 15, 12, .rw, 0⟩
abbrev R.MBX_CFGn.RX_NUM : Fld := ⟨10, 0x100, 32, 11, 0, .rw, 0⟩
abbrev R.MBX_CFGn.desc : RegDesc := ⟨0x100, 32, 64, [R.MBX_CFGn.EN, R.MBX_CFGn.RX_CLASS, R.MBX_CFGn.RX_NUM]⟩
abbrev R.MBX_CFGn.all : Fld := ⟨10, 0x100, 32, 31, 0, .ro, 0⟩
abbrev R.MBX_STATUSn.OVERFLOW : Fld := ⟨10, 0x104, 32, 31, 24, .rcl, 0⟩
abbrev R.MBX_STATUSn.UNDERRUN : Fld := ⟨10, 0x104, 32, 23, 16, .rcl, 0⟩
abbrev R.MBX_STATUSn.NOSENDER : Fld := ⟨10, 0x104, 32, 15, 8, .rcl, 0⟩
abbrev R.MBX_STATUSn.COUNT : Fld := ⟨10, 0x104, 32, 2, 0, .ro, 0⟩
abbrev R.MBX_STATUSn.desc : RegDesc := ⟨0x104, 32, 64, [R.MBX_STATUSn.OVERFLOW, R.MBX_STATUSn.UNDERRUN, R.MBX_STATUSn.NOSENDER, R.MBX_STATUSn.COUNT]⟩
abbrev R.MBX_STATUSn.all : Fld := ⟨10, 0x104, 32, 31, 0, .ro, 0⟩
abbrev R.MBX_TX_LOn.PAYLOAD_LO : Fld := ⟨10, 0x108, 32, 31, 0, .wo, 0⟩
abbrev R.MBX_TX_LOn.desc : RegDesc := ⟨0x108, 32, 64, [R.MBX_TX_LOn.PAYLOAD_LO]⟩
abbrev R.MBX_TX_LOn.all : Fld := ⟨10, 0x108, 32, 31, 0, .ro, 0⟩
abbrev R.MBX_TX_HIn.PAYLOAD_HI : Fld := ⟨10, 0x10C, 32, 15, 0, .wo, 0⟩
abbrev R.MBX_TX_HIn.desc : RegDesc := ⟨0x10C, 32, 64, [R.MBX_TX_HIn.PAYLOAD_HI]⟩
abbrev R.MBX_TX_HIn.all : Fld := ⟨10, 0x10C, 32, 31, 0, .ro, 0⟩
abbrev R.MBX_PEEK_LOn.PAYLOAD_LO : Fld := ⟨10, 0x110, 32, 31, 0, .ro, 0⟩
abbrev R.MBX_PEEK_LOn.desc : RegDesc := ⟨0x110, 32, 64, [R.MBX_PEEK_LOn.PAYLOAD_LO]⟩
abbrev R.MBX_PEEK_LOn.all : Fld := ⟨10, 0x110, 32, 31, 0, .ro, 0⟩
abbrev R.MBX_PEEK_HIn.STAMP : Fld := ⟨10, 0x114, 32, 31, 16, .ro, 0⟩
abbrev R.MBX_PEEK_HIn.PAYLOAD_HI : Fld := ⟨10, 0x114, 32, 15, 0, .ro, 0⟩
abbrev R.MBX_PEEK_HIn.desc : RegDesc := ⟨0x114, 32, 64, [R.MBX_PEEK_HIn.STAMP, R.MBX_PEEK_HIn.PAYLOAD_HI]⟩
abbrev R.MBX_PEEK_HIn.all : Fld := ⟨10, 0x114, 32, 31, 0, .ro, 0⟩
abbrev R.MBX_POP_HIn.STAMP : Fld := ⟨10, 0x118, 32, 31, 16, .ro, 0⟩
abbrev R.MBX_POP_HIn.PAYLOAD_HI : Fld := ⟨10, 0x118, 32, 15, 0, .ro, 0⟩
abbrev R.MBX_POP_HIn.desc : RegDesc := ⟨0x118, 32, 64, [R.MBX_POP_HIn.STAMP, R.MBX_POP_HIn.PAYLOAD_HI]⟩
abbrev R.MBX_POP_HIn.all : Fld := ⟨10, 0x118, 32, 31, 0, .ro, 0⟩

/-! Page type icShared. -/
abbrev R.IC_SENk.EN : Fld := ⟨11, 0x040, 4, 31, 0, .rw, 0⟩
abbrev R.IC_SENk.desc : RegDesc := ⟨0x040, 4, 16, [R.IC_SENk.EN]⟩
abbrev R.IC_SENk.all : Fld := ⟨11, 0x040, 4, 31, 0, .ro, 0⟩
abbrev R.IC_SPENDk.STATE : Fld := ⟨11, 0x080, 4, 31, 0, .ro, 0⟩
abbrev R.IC_SPENDk.desc : RegDesc := ⟨0x080, 4, 16, [R.IC_SPENDk.STATE]⟩
abbrev R.IC_SPENDk.all : Fld := ⟨11, 0x080, 4, 31, 0, .ro, 0⟩
abbrev R.IC_SACTk.STATE : Fld := ⟨11, 0x0C0, 4, 31, 0, .ro, 0⟩
abbrev R.IC_SACTk.desc : RegDesc := ⟨0x0C0, 4, 16, [R.IC_SACTk.STATE]⟩
abbrev R.IC_SACTk.all : Fld := ⟨11, 0x0C0, 4, 31, 0, .ro, 0⟩
abbrev R.IC_STRIG.CLR : Fld := ⟨11, 0x100, 0, 15, 15, .wo, 0⟩
abbrev R.IC_STRIG.SRC : Fld := ⟨11, 0x100, 0, 9, 0, .wo, 0⟩
abbrev R.IC_STRIG.desc : RegDesc := ⟨0x100, 0, 1, [R.IC_STRIG.CLR, R.IC_STRIG.SRC]⟩
abbrev R.IC_STRIG.all : Fld := ⟨11, 0x100, 0, 31, 0, .ro, 0⟩
abbrev R.IC_SEOI.SRC : Fld := ⟨11, 0x104, 0, 9, 0, .wo, 0⟩
abbrev R.IC_SEOI.desc : RegDesc := ⟨0x104, 0, 1, [R.IC_SEOI.SRC]⟩
abbrev R.IC_SEOI.all : Fld := ⟨11, 0x104, 0, 31, 0, .ro, 0⟩
abbrev R.IC_ROUTEn.URGENT : Fld := ⟨11, 0x800, 4, 31, 31, .rw, 0⟩
abbrev R.IC_ROUTEn.SENDER : Fld := ⟨11, 0x800, 4, 30, 30, .rw, 0⟩
abbrev R.IC_ROUTEn.HOST : Fld := ⟨11, 0x800, 4, 29, 29, .rw, 0⟩
abbrev R.IC_ROUTEn.TARGET : Fld := ⟨11, 0x800, 4, 5, 0, .rw, 16⟩
abbrev R.IC_ROUTEn.desc : RegDesc := ⟨0x800, 4, 512, [R.IC_ROUTEn.URGENT, R.IC_ROUTEn.SENDER, R.IC_ROUTEn.HOST, R.IC_ROUTEn.TARGET]⟩
abbrev R.IC_ROUTEn.all : Fld := ⟨11, 0x800, 4, 31, 0, .ro, 0⟩

/-! Page type mover. -/
abbrev R.MOV_CTRL.HOLD : Fld := ⟨12, 0x040, 0, 0, 0, .rw, 0⟩
abbrev R.MOV_CTRL.desc : RegDesc := ⟨0x040, 0, 1, [R.MOV_CTRL.HOLD]⟩
abbrev R.MOV_CTRL.all : Fld := ⟨12, 0x040, 0, 31, 0, .ro, 0⟩
abbrev R.MOV_STATUS.BUSY : Fld := ⟨12, 0x044, 0, 31, 31, .ro, 0⟩
abbrev R.MOV_STATUS.NODE : Fld := ⟨12, 0x044, 0, 27, 16, .ro, 0⟩
abbrev R.MOV_STATUS.NEXT : Fld := ⟨12, 0x044, 0, 9, 0, .ro, 0⟩
abbrev R.MOV_STATUS.desc : RegDesc := ⟨0x044, 0, 1, [R.MOV_STATUS.BUSY, R.MOV_STATUS.NODE, R.MOV_STATUS.NEXT]⟩
abbrev R.MOV_STATUS.all : Fld := ⟨12, 0x044, 0, 31, 0, .ro, 0⟩
abbrev R.MOV_POINTS.POINTS : Fld := ⟨12, 0x048, 0, 31, 0, .rcl, 0⟩
abbrev R.MOV_POINTS.desc : RegDesc := ⟨0x048, 0, 1, [R.MOV_POINTS.POINTS]⟩
abbrev R.MOV_POINTS.all : Fld := ⟨12, 0x048, 0, 31, 0, .ro, 0⟩
abbrev R.MOV_EXC.RANGE : Fld := ⟨12, 0x04C, 0, 31, 16, .rcl, 0⟩
abbrev R.MOV_EXC.SKIP : Fld := ⟨12, 0x04C, 0, 15, 0, .rcl, 0⟩
abbrev R.MOV_EXC.desc : RegDesc := ⟨0x04C, 0, 1, [R.MOV_EXC.RANGE, R.MOV_EXC.SKIP]⟩
abbrev R.MOV_EXC.all : Fld := ⟨12, 0x04C, 0, 31, 0, .ro, 0⟩
abbrev R.MOV_ERRCNT.ERR : Fld := ⟨12, 0x050, 0, 15, 0, .rcl, 0⟩
abbrev R.MOV_ERRCNT.desc : RegDesc := ⟨0x050, 0, 1, [R.MOV_ERRCNT.ERR]⟩
abbrev R.MOV_ERRCNT.all : Fld := ⟨12, 0x050, 0, 31, 0, .ro, 0⟩

/-! Page type ringLink. -/
abbrev R.RING_LNK_CTRL.ERR_MAX : Fld := ⟨16, 0x040, 0, 23, 16, .rw, 4⟩
abbrev R.RING_LNK_CTRL.DETACH : Fld := ⟨16, 0x040, 0, 5, 5, .w1s, 0⟩
abbrev R.RING_LNK_CTRL.FB_EN : Fld := ⟨16, 0x040, 0, 4, 4, .rw, 1⟩
abbrev R.RING_LNK_CTRL.RATE : Fld := ⟨16, 0x040, 0, 3, 3, .rw, 0⟩
abbrev R.RING_LNK_CTRL.RETRAIN_W : Fld := ⟨16, 0x040, 0, 2, 2, .wo, 0⟩
abbrev R.RING_LNK_CTRL.RETRAIN_E : Fld := ⟨16, 0x040, 0, 1, 1, .wo, 0⟩
abbrev R.RING_LNK_CTRL.EN : Fld := ⟨16, 0x040, 0, 0, 0, .rw, 1⟩
abbrev R.RING_LNK_CTRL.desc : RegDesc := ⟨0x040, 0, 1, [R.RING_LNK_CTRL.ERR_MAX, R.RING_LNK_CTRL.DETACH, R.RING_LNK_CTRL.FB_EN, R.RING_LNK_CTRL.RATE, R.RING_LNK_CTRL.RETRAIN_W, R.RING_LNK_CTRL.RETRAIN_E, R.RING_LNK_CTRL.EN]⟩
abbrev R.RING_LNK_CTRL.all : Fld := ⟨16, 0x040, 0, 31, 0, .ro, 0⟩
abbrev R.RING_LNK_STATUS.STATE_W : Fld := ⟨16, 0x044, 0, 31, 29, .ro, 0⟩
abbrev R.RING_LNK_STATUS.MISCABLE_W : Fld := ⟨16, 0x044, 0, 28, 28, .ro, 0⟩
abbrev R.RING_LNK_STATUS.RATE_MISMATCH_W : Fld := ⟨16, 0x044, 0, 27, 27, .ro, 0⟩
abbrev R.RING_LNK_STATUS.FB_W : Fld := ⟨16, 0x044, 0, 26, 26, .ro, 0⟩
abbrev R.RING_LNK_STATUS.STATE_E : Fld := ⟨16, 0x044, 0, 15, 13, .ro, 0⟩
abbrev R.RING_LNK_STATUS.MISCABLE_E : Fld := ⟨16, 0x044, 0, 12, 12, .ro, 0⟩
abbrev R.RING_LNK_STATUS.RATE_MISMATCH_E : Fld := ⟨16, 0x044, 0, 11, 11, .ro, 0⟩
abbrev R.RING_LNK_STATUS.FB_E : Fld := ⟨16, 0x044, 0, 10, 10, .ro, 0⟩
abbrev R.RING_LNK_STATUS.DOWN_CNT : Fld := ⟨16, 0x044, 0, 7, 0, .rcl, 0⟩
abbrev R.RING_LNK_STATUS.desc : RegDesc := ⟨0x044, 0, 1, [R.RING_LNK_STATUS.STATE_W, R.RING_LNK_STATUS.MISCABLE_W, R.RING_LNK_STATUS.RATE_MISMATCH_W, R.RING_LNK_STATUS.FB_W, R.RING_LNK_STATUS.STATE_E, R.RING_LNK_STATUS.MISCABLE_E, R.RING_LNK_STATUS.RATE_MISMATCH_E, R.RING_LNK_STATUS.FB_E, R.RING_LNK_STATUS.DOWN_CNT]⟩
abbrev R.RING_LNK_STATUS.all : Fld := ⟨16, 0x044, 0, 31, 0, .ro, 0⟩
abbrev R.RING_LDELAY_E.KNOWN : Fld := ⟨16, 0x048, 0, 31, 31, .ro, 0⟩
abbrev R.RING_LDELAY_E.PROBES : Fld := ⟨16, 0x048, 0, 29, 28, .ro, 0⟩
abbrev R.RING_LDELAY_E.OUTLIERS : Fld := ⟨16, 0x048, 0, 27, 25, .ro, 0⟩
abbrev R.RING_LDELAY_E.DELAY : Fld := ⟨16, 0x048, 0, 19, 0, .ro, 0⟩
abbrev R.RING_LDELAY_E.desc : RegDesc := ⟨0x048, 0, 1, [R.RING_LDELAY_E.KNOWN, R.RING_LDELAY_E.PROBES, R.RING_LDELAY_E.OUTLIERS, R.RING_LDELAY_E.DELAY]⟩
abbrev R.RING_LDELAY_E.all : Fld := ⟨16, 0x048, 0, 31, 0, .ro, 0⟩
abbrev R.RING_LDELAY_W.KNOWN : Fld := ⟨16, 0x04C, 0, 31, 31, .ro, 0⟩
abbrev R.RING_LDELAY_W.PROBES : Fld := ⟨16, 0x04C, 0, 29, 28, .ro, 0⟩
abbrev R.RING_LDELAY_W.OUTLIERS : Fld := ⟨16, 0x04C, 0, 27, 25, .ro, 0⟩
abbrev R.RING_LDELAY_W.DELAY : Fld := ⟨16, 0x04C, 0, 19, 0, .ro, 0⟩
abbrev R.RING_LDELAY_W.desc : RegDesc := ⟨0x04C, 0, 1, [R.RING_LDELAY_W.KNOWN, R.RING_LDELAY_W.PROBES, R.RING_LDELAY_W.OUTLIERS, R.RING_LDELAY_W.DELAY]⟩
abbrev R.RING_LDELAY_W.all : Fld := ⟨16, 0x04C, 0, 31, 0, .ro, 0⟩
abbrev R.RING_COLD_CTRL.RESTART : Fld := ⟨16, 0x050, 0, 31, 31, .wo, 0⟩
abbrev R.RING_COLD_CTRL.PRIO : Fld := ⟨16, 0x050, 0, 27, 24, .rw, 0⟩
abbrev R.RING_COLD_CTRL.TIMEOUT : Fld := ⟨16, 0x050, 0, 23, 16, .rw, 40⟩
abbrev R.RING_COLD_CTRL.LISTEN : Fld := ⟨16, 0x050, 0, 15, 8, .rw, 20⟩
abbrev R.RING_COLD_CTRL.COLD_EN : Fld := ⟨16, 0x050, 0, 0, 0, .rw, 0⟩
abbrev R.RING_COLD_CTRL.desc : RegDesc := ⟨0x050, 0, 1, [R.RING_COLD_CTRL.RESTART, R.RING_COLD_CTRL.PRIO, R.RING_COLD_CTRL.TIMEOUT, R.RING_COLD_CTRL.LISTEN, R.RING_COLD_CTRL.COLD_EN]⟩
abbrev R.RING_COLD_CTRL.all : Fld := ⟨16, 0x050, 0, 31, 0, .ro, 0⟩
abbrev R.RING_ENUM_CTRL.BASE : Fld := ⟨16, 0x054, 0, 26, 16, .rw, 1⟩
abbrev R.RING_ENUM_CTRL.AUTO_STICKY : Fld := ⟨16, 0x054, 0, 0, 0, .rw, 1⟩
abbrev R.RING_ENUM_CTRL.desc : RegDesc := ⟨0x054, 0, 1, [R.RING_ENUM_CTRL.BASE, R.RING_ENUM_CTRL.AUTO_STICKY]⟩
abbrev R.RING_ENUM_CTRL.all : Fld := ⟨16, 0x054, 0, 31, 0, .ro, 0⟩
abbrev R.RING_ENUM_STATUS.STATE : Fld := ⟨16, 0x058, 0, 31, 29, .ro, 0⟩
abbrev R.RING_ENUM_STATUS.CONFLICT : Fld := ⟨16, 0x058, 0, 28, 28, .ro, 0⟩
abbrev R.RING_ENUM_STATUS.UNITS : Fld := ⟨16, 0x058, 0, 27, 16, .ro, 0⟩
abbrev R.RING_ENUM_STATUS.HOPS : Fld := ⟨16, 0x058, 0, 10, 0, .ro, 0⟩
abbrev R.RING_ENUM_STATUS.desc : RegDesc := ⟨0x058, 0, 1, [R.RING_ENUM_STATUS.STATE, R.RING_ENUM_STATUS.CONFLICT, R.RING_ENUM_STATUS.UNITS, R.RING_ENUM_STATUS.HOPS]⟩
abbrev R.RING_ENUM_STATUS.all : Fld := ⟨16, 0x058, 0, 31, 0, .ro, 0⟩
abbrev R.RING_STICKY.ADDR : Fld := ⟨16, 0x05C, 0, 10, 0, .rw, 0⟩
abbrev R.RING_STICKY.desc : RegDesc := ⟨0x05C, 0, 1, [R.RING_STICKY.ADDR]⟩
abbrev R.RING_STICKY.all : Fld := ⟨16, 0x05C, 0, 31, 0, .ro, 0⟩
abbrev R.RING_FAULT.ACTIVE : Fld := ⟨16, 0x060, 0, 31, 31, .ro, 0⟩
abbrev R.RING_FAULT.ISLAND : Fld := ⟨16, 0x060, 0, 30, 30, .ro, 0⟩
abbrev R.RING_FAULT.EAST_OF : Fld := ⟨16, 0x060, 0, 26, 16, .ro, 0⟩
abbrev R.RING_FAULT.WEST_OF : Fld := ⟨16, 0x060, 0, 10, 0, .ro, 0⟩
abbrev R.RING_FAULT.desc : RegDesc := ⟨0x060, 0, 1, [R.RING_FAULT.ACTIVE, R.RING_FAULT.ISLAND, R.RING_FAULT.EAST_OF, R.RING_FAULT.WEST_OF]⟩
abbrev R.RING_FAULT.all : Fld := ⟨16, 0x060, 0, 31, 0, .ro, 0⟩
abbrev R.RING_COPY_CNT.LOST_BOTH : Fld := ⟨16, 0x064, 0, 31, 16, .rcl, 0⟩
abbrev R.RING_COPY_CNT.LOST_ONE : Fld := ⟨16, 0x064, 0, 15, 0, .rcl, 0⟩
abbrev R.RING_COPY_CNT.desc : RegDesc := ⟨0x064, 0, 1, [R.RING_COPY_CNT.LOST_BOTH, R.RING_COPY_CNT.LOST_ONE]⟩
abbrev R.RING_COPY_CNT.all : Fld := ⟨16, 0x064, 0, 31, 0, .ro, 0⟩

/-! Page type ringCycle. -/
abbrev R.RING_CYC_STATUS.SEG : Fld := ⟨17, 0x040, 0, 31, 29, .ro, 4⟩
abbrev R.RING_CYC_STATUS.ACTIVE_SET : Fld := ⟨17, 0x040, 0, 28, 26, .ro, 0⟩
abbrev R.RING_CYC_STATUS.SILENCED : Fld := ⟨17, 0x040, 0, 25, 25, .ro, 0⟩
abbrev R.RING_CYC_STATUS.STRANDED : Fld := ⟨17, 0x040, 0, 24, 24, .ro, 0⟩
abbrev R.RING_CYC_STATUS.desc : RegDesc := ⟨0x040, 0, 1, [R.RING_CYC_STATUS.SEG, R.RING_CYC_STATUS.ACTIVE_SET, R.RING_CYC_STATUS.SILENCED, R.RING_CYC_STATUS.STRANDED]⟩
abbrev R.RING_CYC_STATUS.all : Fld := ⟨17, 0x040, 0, 31, 0, .ro, 0⟩
abbrev R.RING_CYC_NUM.CYCLE : Fld := ⟨17, 0x044, 0, 31, 0, .ro, 0⟩
abbrev R.RING_CYC_NUM.desc : RegDesc := ⟨0x044, 0, 1, [R.RING_CYC_NUM.CYCLE]⟩
abbrev R.RING_CYC_NUM.all : Fld := ⟨17, 0x044, 0, 31, 0, .ro, 0⟩
abbrev R.RING_TS_LOAD.START : Fld := ⟨17, 0x048, 0, 31, 31, .wo, 0⟩
abbrev R.RING_TS_LOAD.DROP : Fld := ⟨17, 0x048, 0, 30, 30, .wo, 0⟩
abbrev R.RING_TS_LOAD.SET : Fld := ⟨17, 0x048, 0, 2, 0, .rw, 0⟩
abbrev R.RING_TS_LOAD.desc : RegDesc := ⟨0x048, 0, 1, [R.RING_TS_LOAD.START, R.RING_TS_LOAD.DROP, R.RING_TS_LOAD.SET]⟩
abbrev R.RING_TS_LOAD.all : Fld := ⟨17, 0x048, 0, 31, 0, .ro, 0⟩
abbrev R.RING_TS_ADDR.ADDR : Fld := ⟨17, 0x04C, 0, 31, 6, .rw, 0⟩
abbrev R.RING_TS_ADDR.desc : RegDesc := ⟨0x04C, 0, 1, [R.RING_TS_ADDR.ADDR]⟩
abbrev R.RING_TS_ADDR.all : Fld := ⟨17, 0x04C, 0, 31, 0, .ro, 0⟩
abbrev R.RING_TS_STATUS.STATE : Fld := ⟨17, 0x050, 0, 31, 0, .ro, 0⟩
abbrev R.RING_TS_STATUS.desc : RegDesc := ⟨0x050, 0, 1, [R.RING_TS_STATUS.STATE]⟩
abbrev R.RING_TS_STATUS.all : Fld := ⟨17, 0x050, 0, 31, 0, .ro, 0⟩
abbrev R.RING_TS_ERR.ERR : Fld := ⟨17, 0x054, 0, 31, 24, .ro, 0⟩
abbrev R.RING_TS_ERR.SET : Fld := ⟨17, 0x054, 0, 23, 21, .ro, 0⟩
abbrev R.RING_TS_ERR.SECTION : Fld := ⟨17, 0x054, 0, 15, 0, .ro, 0⟩
abbrev R.RING_TS_ERR.desc : RegDesc := ⟨0x054, 0, 1, [R.RING_TS_ERR.ERR, R.RING_TS_ERR.SET, R.RING_TS_ERR.SECTION]⟩
abbrev R.RING_TS_ERR.all : Fld := ⟨17, 0x054, 0, 31, 0, .ro, 0⟩
abbrev R.RING_MC_CTRL.START : Fld := ⟨17, 0x058, 0, 31, 31, .wo, 0⟩
abbrev R.RING_MC_CTRL.NEXT_SET : Fld := ⟨17, 0x058, 0, 2, 0, .rw, 0⟩
abbrev R.RING_MC_CTRL.desc : RegDesc := ⟨0x058, 0, 1, [R.RING_MC_CTRL.START, R.RING_MC_CTRL.NEXT_SET]⟩
abbrev R.RING_MC_CTRL.all : Fld := ⟨17, 0x058, 0, 31, 0, .ro, 0⟩
abbrev R.RING_MC_STATUS.STATE : Fld := ⟨17, 0x05C, 0, 31, 30, .ro, 0⟩
abbrev R.RING_MC_STATUS.REASON : Fld := ⟨17, 0x05C, 0, 29, 27, .ro, 0⟩
abbrev R.RING_MC_STATUS.ACKS : Fld := ⟨17, 0x05C, 0, 26, 16, .ro, 0⟩
abbrev R.RING_MC_STATUS.EXPECTED : Fld := ⟨17, 0x05C, 0, 10, 0, .ro, 0⟩
abbrev R.RING_MC_STATUS.desc : RegDesc := ⟨0x05C, 0, 1, [R.RING_MC_STATUS.STATE, R.RING_MC_STATUS.REASON, R.RING_MC_STATUS.ACKS, R.RING_MC_STATUS.EXPECTED]⟩
abbrev R.RING_MC_STATUS.all : Fld := ⟨17, 0x05C, 0, 31, 0, .ro, 0⟩
abbrev R.RING_EDGE_CNT.DISCARD : Fld := ⟨17, 0x060, 0, 31, 16, .rcl, 0⟩
abbrev R.RING_EDGE_CNT.EDGE : Fld := ⟨17, 0x060, 0, 15, 0, .rcl, 0⟩
abbrev R.RING_EDGE_CNT.desc : RegDesc := ⟨0x060, 0, 1, [R.RING_EDGE_CNT.DISCARD, R.RING_EDGE_CNT.EDGE]⟩
abbrev R.RING_EDGE_CNT.all : Fld := ⟨17, 0x060, 0, 31, 0, .ro, 0⟩
abbrev R.RING_DYN_STATUS.DEFER : Fld := ⟨17, 0x064, 0, 31, 24, .rcl, 0⟩
abbrev R.RING_DYN_STATUS.NOALLOC : Fld := ⟨17, 0x064, 0, 23, 16, .rcl, 0⟩
abbrev R.RING_DYN_STATUS.desc : RegDesc := ⟨0x064, 0, 1, [R.RING_DYN_STATUS.DEFER, R.RING_DYN_STATUS.NOALLOC]⟩
abbrev R.RING_DYN_STATUS.all : Fld := ⟨17, 0x064, 0, 31, 0, .ro, 0⟩
abbrev R.RING_AUTH_STATUS.FAIL : Fld := ⟨17, 0x068, 0, 31, 16, .rcl, 0⟩
abbrev R.RING_AUTH_STATUS.EPOCH : Fld := ⟨17, 0x068, 0, 15, 0, .ro, 0⟩
abbrev R.RING_AUTH_STATUS.desc : RegDesc := ⟨0x068, 0, 1, [R.RING_AUTH_STATUS.FAIL, R.RING_AUTH_STATUS.EPOCH]⟩
abbrev R.RING_AUTH_STATUS.all : Fld := ⟨17, 0x068, 0, 31, 0, .ro, 0⟩

/-! Page type ringBridge. -/
abbrev R.BR_CTRL.TIMEOUT : Fld := ⟨18, 0x060, 0, 15, 8, .rw, 8⟩
abbrev R.BR_CTRL.RETRY_MAX : Fld := ⟨18, 0x060, 0, 4, 0, .rw, 16⟩
abbrev R.BR_CTRL.desc : RegDesc := ⟨0x060, 0, 1, [R.BR_CTRL.TIMEOUT, R.BR_CTRL.RETRY_MAX]⟩
abbrev R.BR_CTRL.all : Fld := ⟨18, 0x060, 0, 31, 0, .ro, 0⟩
abbrev R.BR_STATUS.RETRIES : Fld := ⟨18, 0x064, 0, 31, 24, .rcl, 0⟩
abbrev R.BR_STATUS.CROSSINGS : Fld := ⟨18, 0x064, 0, 23, 16, .rcl, 0⟩
abbrev R.BR_STATUS.TIMEOUTS : Fld := ⟨18, 0x064, 0, 15, 8, .rcl, 0⟩
abbrev R.BR_STATUS.ERRORS : Fld := ⟨18, 0x064, 0, 7, 0, .rcl, 0⟩
abbrev R.BR_STATUS.desc : RegDesc := ⟨0x064, 0, 1, [R.BR_STATUS.RETRIES, R.BR_STATUS.CROSSINGS, R.BR_STATUS.TIMEOUTS, R.BR_STATUS.ERRORS]⟩
abbrev R.BR_STATUS.all : Fld := ⟨18, 0x064, 0, 31, 0, .ro, 0⟩
abbrev R.BR_SEM_PEEKn.HELD : Fld := ⟨18, 0x100, 8, 31, 31, .ro, 0⟩
abbrev R.BR_SEM_PEEKn.GRANTED : Fld := ⟨18, 0x100, 8, 30, 30, .ro, 0⟩
abbrev R.BR_SEM_PEEKn.REL : Fld := ⟨18, 0x100, 8, 29, 29, .ro, 0⟩
abbrev R.BR_SEM_PEEKn.OWNER : Fld := ⟨18, 0x100, 8, 15, 0, .ro, 0⟩
abbrev R.BR_SEM_PEEKn.desc : RegDesc := ⟨0x100, 8, 32, [R.BR_SEM_PEEKn.HELD, R.BR_SEM_PEEKn.GRANTED, R.BR_SEM_PEEKn.REL, R.BR_SEM_PEEKn.OWNER]⟩
abbrev R.BR_SEM_PEEKn.all : Fld := ⟨18, 0x100, 8, 31, 0, .ro, 0⟩
abbrev R.BR_SEM_POPn.HELD : Fld := ⟨18, 0x104, 8, 31, 31, .ro, 0⟩
abbrev R.BR_SEM_POPn.GRANTED : Fld := ⟨18, 0x104, 8, 30, 30, .ro, 0⟩
abbrev R.BR_SEM_POPn.REL : Fld := ⟨18, 0x104, 8, 29, 29, .wo, 0⟩
abbrev R.BR_SEM_POPn.OWNER : Fld := ⟨18, 0x104, 8, 15, 0, .ro, 0⟩
abbrev R.BR_SEM_POPn.desc : RegDesc := ⟨0x104, 8, 32, [R.BR_SEM_POPn.HELD, R.BR_SEM_POPn.GRANTED, R.BR_SEM_POPn.REL, R.BR_SEM_POPn.OWNER]⟩
abbrev R.BR_SEM_POPn.all : Fld := ⟨18, 0x104, 8, 31, 0, .ro, 0⟩
abbrev R.BR_WINw.FAR_BASE : Fld := ⟨18, 0x040, 4, 31, 20, .rw, 0⟩
abbrev R.BR_WINw.EN : Fld := ⟨18, 0x040, 4, 19, 19, .rw, 0⟩
abbrev R.BR_WINw.UNIT : Fld := ⟨18, 0x040, 4, 10, 0, .rw, 0⟩
abbrev R.BR_WINw.desc : RegDesc := ⟨0x040, 4, 8, [R.BR_WINw.FAR_BASE, R.BR_WINw.EN, R.BR_WINw.UNIT]⟩
abbrev R.BR_WINw.all : Fld := ⟨18, 0x040, 4, 31, 0, .ro, 0⟩

/-! Page type gatewayPoint. -/
abbrev R.RING_PT_CTRL.HOST_WD : Fld := ⟨19, 0x040, 0, 23, 16, .rw, 0⟩
abbrev R.RING_PT_CTRL.HOST_LOSS_TIMEOUT : Fld := ⟨19, 0x040, 0, 15, 8, .rw, 4⟩
abbrev R.RING_PT_CTRL.HOST_LOST : Fld := ⟨19, 0x040, 0, 0, 0, .ro, 0⟩
abbrev R.RING_PT_CTRL.desc : RegDesc := ⟨0x040, 0, 1, [R.RING_PT_CTRL.HOST_WD, R.RING_PT_CTRL.HOST_LOSS_TIMEOUT, R.RING_PT_CTRL.HOST_LOST]⟩
abbrev R.RING_PT_CTRL.all : Fld := ⟨19, 0x040, 0, 31, 0, .ro, 0⟩
abbrev R.RING_PT_HOSTBEAT.BEAT : Fld := ⟨19, 0x044, 0, 0, 0, .wo, 0⟩
abbrev R.RING_PT_HOSTBEAT.desc : RegDesc := ⟨0x044, 0, 1, [R.RING_PT_HOSTBEAT.BEAT]⟩
abbrev R.RING_PT_HOSTBEAT.all : Fld := ⟨19, 0x044, 0, 31, 0, .ro, 0⟩
abbrev R.RING_PT_FORCE.OP : Fld := ⟨19, 0x048, 0, 31, 30, .wo, 0⟩
abbrev R.RING_PT_FORCE.VALUE : Fld := ⟨19, 0x048, 0, 27, 16, .wo, 0⟩
abbrev R.RING_PT_FORCE.INDEX : Fld := ⟨19, 0x048, 0, 11, 0, .wo, 0⟩
abbrev R.RING_PT_FORCE.desc : RegDesc := ⟨0x048, 0, 1, [R.RING_PT_FORCE.OP, R.RING_PT_FORCE.VALUE, R.RING_PT_FORCE.INDEX]⟩
abbrev R.RING_PT_FORCE.all : Fld := ⟨19, 0x048, 0, 31, 0, .ro, 0⟩

/-! Page type timeBase. -/
abbrev R.TB_CTRL.HOLD_LIMIT : Fld := ⟨20, 0x040, 0, 31, 16, .rw, 4000⟩
abbrev R.TB_CTRL.REF : Fld := ⟨20, 0x040, 0, 1, 0, .rw, 0⟩
abbrev R.TB_CTRL.desc : RegDesc := ⟨0x040, 0, 1, [R.TB_CTRL.HOLD_LIMIT, R.TB_CTRL.REF]⟩
abbrev R.TB_CTRL.all : Fld := ⟨20, 0x040, 0, 31, 0, .ro, 0⟩
abbrev R.TB_SERVO.STEP_WIN : Fld := ⟨20, 0x044, 0, 31, 16, .rw, 1000⟩
abbrev R.TB_SERVO.KI_SHIFT : Fld := ⟨20, 0x044, 0, 11, 8, .rw, 4⟩
abbrev R.TB_SERVO.KP_SHIFT : Fld := ⟨20, 0x044, 0, 3, 0, .rw, 1⟩
abbrev R.TB_SERVO.desc : RegDesc := ⟨0x044, 0, 1, [R.TB_SERVO.STEP_WIN, R.TB_SERVO.KI_SHIFT, R.TB_SERVO.KP_SHIFT]⟩
abbrev R.TB_SERVO.all : Fld := ⟨20, 0x044, 0, 31, 0, .ro, 0⟩
abbrev R.TB_STATUS.STATE : Fld := ⟨20, 0x048, 0, 31, 29, .ro, 0⟩
abbrev R.TB_STATUS.TIME_SET : Fld := ⟨20, 0x048, 0, 28, 28, .ro, 0⟩
abbrev R.TB_STATUS.SILENT : Fld := ⟨20, 0x048, 0, 23, 16, .ro, 0⟩
abbrev R.TB_STATUS.STEPS : Fld := ⟨20, 0x048, 0, 15, 8, .rcl, 0⟩
abbrev R.TB_STATUS.REFUSED : Fld := ⟨20, 0x048, 0, 7, 0, .rcl, 0⟩
abbrev R.TB_STATUS.desc : RegDesc := ⟨0x048, 0, 1, [R.TB_STATUS.STATE, R.TB_STATUS.TIME_SET, R.TB_STATUS.SILENT, R.TB_STATUS.STEPS, R.TB_STATUS.REFUSED]⟩
abbrev R.TB_STATUS.all : Fld := ⟨20, 0x048, 0, 31, 0, .ro, 0⟩
abbrev R.TB_CAPTURE.SET : Fld := ⟨20, 0x04C, 0, 2, 0, .wo, 0⟩
abbrev R.TB_CAPTURE.desc : RegDesc := ⟨0x04C, 0, 1, [R.TB_CAPTURE.SET]⟩
abbrev R.TB_CAPTURE.all : Fld := ⟨20, 0x04C, 0, 31, 0, .ro, 0⟩
abbrev R.TB_RATE.RATE : Fld := ⟨20, 0x050, 0, 31, 0, .rw, 0⟩
abbrev R.TB_RATE.desc : RegDesc := ⟨0x050, 0, 1, [R.TB_RATE.RATE]⟩
abbrev R.TB_RATE.all : Fld := ⟨20, 0x050, 0, 31, 0, .ro, 0⟩
abbrev R.TB_STEP_SEC.SEC : Fld := ⟨20, 0x054, 0, 31, 0, .rw, 0⟩
abbrev R.TB_STEP_SEC.desc : RegDesc := ⟨0x054, 0, 1, [R.TB_STEP_SEC.SEC]⟩
abbrev R.TB_STEP_SEC.all : Fld := ⟨20, 0x054, 0, 31, 0, .ro, 0⟩
abbrev R.TB_STEP_NS.NS : Fld := ⟨20, 0x058, 0, 31, 0, .wo, 0⟩
abbrev R.TB_STEP_NS.desc : RegDesc := ⟨0x058, 0, 1, [R.TB_STEP_NS.NS]⟩
abbrev R.TB_STEP_NS.all : Fld := ⟨20, 0x058, 0, 31, 0, .ro, 0⟩
abbrev R.TB_CAPs_SEC_HI.SEC : Fld := ⟨20, 0x100, 16, 31, 0, .ro, 0⟩
abbrev R.TB_CAPs_SEC_HI.desc : RegDesc := ⟨0x100, 16, 8, [R.TB_CAPs_SEC_HI.SEC]⟩
abbrev R.TB_CAPs_SEC_HI.all : Fld := ⟨20, 0x100, 16, 31, 0, .ro, 0⟩
abbrev R.TB_CAPs_SEC_LO.SEC : Fld := ⟨20, 0x104, 16, 31, 0, .ro, 0⟩
abbrev R.TB_CAPs_SEC_LO.desc : RegDesc := ⟨0x104, 16, 8, [R.TB_CAPs_SEC_LO.SEC]⟩
abbrev R.TB_CAPs_SEC_LO.all : Fld := ⟨20, 0x104, 16, 31, 0, .ro, 0⟩
abbrev R.TB_CAPs_NS.NS : Fld := ⟨20, 0x108, 16, 29, 0, .ro, 0⟩
abbrev R.TB_CAPs_NS.desc : RegDesc := ⟨0x108, 16, 8, [R.TB_CAPs_NS.NS]⟩
abbrev R.TB_CAPs_NS.all : Fld := ⟨20, 0x108, 16, 31, 0, .ro, 0⟩
abbrev R.TB_CAPs_FRAC.CYCLE : Fld := ⟨20, 0x10C, 16, 31, 16, .ro, 0⟩
abbrev R.TB_CAPs_FRAC.FRAC : Fld := ⟨20, 0x10C, 16, 15, 0, .ro, 0⟩
abbrev R.TB_CAPs_FRAC.desc : RegDesc := ⟨0x10C, 16, 8, [R.TB_CAPs_FRAC.CYCLE, R.TB_CAPs_FRAC.FRAC]⟩
abbrev R.TB_CAPs_FRAC.all : Fld := ⟨20, 0x10C, 16, 31, 0, .ro, 0⟩
abbrev R.TB_ING_LATp.LAT : Fld := ⟨20, 0x080, 16, 15, 0, .rw, 0⟩
abbrev R.TB_ING_LATp.desc : RegDesc := ⟨0x080, 16, 4, [R.TB_ING_LATp.LAT]⟩
abbrev R.TB_ING_LATp.all : Fld := ⟨20, 0x080, 16, 31, 0, .ro, 0⟩
abbrev R.TB_EGR_LATp.LAT : Fld := ⟨20, 0x084, 16, 15, 0, .rw, 0⟩
abbrev R.TB_EGR_LATp.desc : RegDesc := ⟨0x084, 16, 4, [R.TB_EGR_LATp.LAT]⟩
abbrev R.TB_EGR_LATp.all : Fld := ⟨20, 0x084, 16, 31, 0, .ro, 0⟩
abbrev R.TB_ASYMp.EN : Fld := ⟨20, 0x088, 16, 31, 31, .rw, 0⟩
abbrev R.TB_ASYMp.ASYM : Fld := ⟨20, 0x088, 16, 19, 0, .rw, 0⟩
abbrev R.TB_ASYMp.desc : RegDesc := ⟨0x088, 16, 4, [R.TB_ASYMp.EN, R.TB_ASYMp.ASYM]⟩
abbrev R.TB_ASYMp.all : Fld := ⟨20, 0x088, 16, 31, 0, .ro, 0⟩
abbrev R.TB_TC_RATE.RATE : Fld := ⟨20, 0x0C0, 0, 31, 0, .rw, 0⟩
abbrev R.TB_TC_RATE.desc : RegDesc := ⟨0x0C0, 0, 1, [R.TB_TC_RATE.RATE]⟩
abbrev R.TB_TC_RATE.all : Fld := ⟨20, 0x0C0, 0, 31, 0, .ro, 0⟩
abbrev R.TB_TC_STATUS.CORRECTED : Fld := ⟨20, 0x0C4, 0, 31, 16, .rcl, 0⟩
abbrev R.TB_TC_STATUS.NOFIX : Fld := ⟨20, 0x0C4, 0, 15, 8, .rcl, 0⟩
abbrev R.TB_TC_STATUS.OVERFLOW : Fld := ⟨20, 0x0C4, 0, 7, 0, .rcl, 0⟩
abbrev R.TB_TC_STATUS.desc : RegDesc := ⟨0x0C4, 0, 1, [R.TB_TC_STATUS.CORRECTED, R.TB_TC_STATUS.NOFIX, R.TB_TC_STATUS.OVERFLOW]⟩
abbrev R.TB_TC_STATUS.all : Fld := ⟨20, 0x0C4, 0, 31, 0, .ro, 0⟩

/-! Page type steep. -/
abbrev R.STP_FIRED_LO.FIRED : Fld := ⟨21, 0x040, 0, 31, 0, .w1c, 0⟩
abbrev R.STP_FIRED_LO.desc : RegDesc := ⟨0x040, 0, 1, [R.STP_FIRED_LO.FIRED]⟩
abbrev R.STP_FIRED_LO.all : Fld := ⟨21, 0x040, 0, 31, 0, .ro, 0⟩
abbrev R.STP_FIRED_HI.FIRED : Fld := ⟨21, 0x044, 0, 31, 0, .w1c, 0⟩
abbrev R.STP_FIRED_HI.desc : RegDesc := ⟨0x044, 0, 1, [R.STP_FIRED_HI.FIRED]⟩
abbrev R.STP_FIRED_HI.all : Fld := ⟨21, 0x044, 0, 31, 0, .ro, 0⟩
abbrev R.STP_LATE_LO.LATE : Fld := ⟨21, 0x048, 0, 31, 0, .w1c, 0⟩
abbrev R.STP_LATE_LO.desc : RegDesc := ⟨0x048, 0, 1, [R.STP_LATE_LO.LATE]⟩
abbrev R.STP_LATE_LO.all : Fld := ⟨21, 0x048, 0, 31, 0, .ro, 0⟩
abbrev R.STP_LATE_HI.LATE : Fld := ⟨21, 0x04C, 0, 31, 0, .w1c, 0⟩
abbrev R.STP_LATE_HI.desc : RegDesc := ⟨0x04C, 0, 1, [R.STP_LATE_HI.LATE]⟩
abbrev R.STP_LATE_HI.all : Fld := ⟨21, 0x04C, 0, 31, 0, .ro, 0⟩
abbrev R.STP_IEN_LO.IEN : Fld := ⟨21, 0x050, 0, 31, 0, .rw, 0⟩
abbrev R.STP_IEN_LO.desc : RegDesc := ⟨0x050, 0, 1, [R.STP_IEN_LO.IEN]⟩
abbrev R.STP_IEN_LO.all : Fld := ⟨21, 0x050, 0, 31, 0, .ro, 0⟩
abbrev R.STP_IEN_HI.IEN : Fld := ⟨21, 0x054, 0, 31, 0, .rw, 0⟩
abbrev R.STP_IEN_HI.desc : RegDesc := ⟨0x054, 0, 1, [R.STP_IEN_HI.IEN]⟩
abbrev R.STP_IEN_HI.all : Fld := ⟨21, 0x054, 0, 31, 0, .ro, 0⟩
abbrev R.STP_STATUS.REFUSED : Fld := ⟨21, 0x058, 0, 31, 16, .rcl, 0⟩
abbrev R.STP_STATUS.HELD : Fld := ⟨21, 0x058, 0, 15, 0, .rcl, 0⟩
abbrev R.STP_STATUS.desc : RegDesc := ⟨0x058, 0, 1, [R.STP_STATUS.REFUSED, R.STP_STATUS.HELD]⟩
abbrev R.STP_STATUS.all : Fld := ⟨21, 0x058, 0, 31, 0, .ro, 0⟩
abbrev R.STP_CTRLn.EN : Fld := ⟨21, 0x100, 16, 31, 31, .rw, 0⟩
abbrev R.STP_CTRLn.MODE : Fld := ⟨21, 0x100, 16, 30, 30, .rw, 0⟩
abbrev R.STP_CTRLn.SILENT_HOLD : Fld := ⟨21, 0x100, 16, 29, 29, .rw, 0⟩
abbrev R.STP_CTRLn.PERIOD : Fld := ⟨21, 0x100, 16, 28, 26, .rw, 0⟩
abbrev R.STP_CTRLn.PHASE : Fld := ⟨21, 0x100, 16, 25, 19, .rw, 0⟩
abbrev R.STP_CTRLn.ACTION : Fld := ⟨21, 0x100, 16, 15, 12, .rw, 0⟩
abbrev R.STP_CTRLn.desc : RegDesc := ⟨0x100, 16, 64, [R.STP_CTRLn.EN, R.STP_CTRLn.MODE, R.STP_CTRLn.SILENT_HOLD, R.STP_CTRLn.PERIOD, R.STP_CTRLn.PHASE, R.STP_CTRLn.ACTION]⟩
abbrev R.STP_CTRLn.all : Fld := ⟨21, 0x100, 16, 31, 0, .ro, 0⟩
abbrev R.STP_TIMEn.TIME : Fld := ⟨21, 0x104, 16, 29, 0, .rw, 0⟩
abbrev R.STP_TIMEn.desc : RegDesc := ⟨0x104, 16, 64, [R.STP_TIMEn.TIME]⟩
abbrev R.STP_TIMEn.all : Fld := ⟨21, 0x104, 16, 31, 0, .ro, 0⟩
abbrev R.STP_SECn.SEC : Fld := ⟨21, 0x108, 16, 31, 0, .rw, 0⟩
abbrev R.STP_SECn.desc : RegDesc := ⟨0x108, 16, 64, [R.STP_SECn.SEC]⟩
abbrev R.STP_SECn.all : Fld := ⟨21, 0x108, 16, 31, 0, .ro, 0⟩
abbrev R.STP_ARGn.ARG : Fld := ⟨21, 0x10C, 16, 13, 0, .rw, 0⟩
abbrev R.STP_ARGn.desc : RegDesc := ⟨0x10C, 16, 64, [R.STP_ARGn.ARG]⟩
abbrev R.STP_ARGn.all : Fld := ⟨21, 0x10C, 16, 31, 0, .ro, 0⟩

/-! Page type switchCore. -/
abbrev R.switchCore_INT.LEARN_FULL : Fld := ⟨22, 0x010, 0, 4, 4, .w1c, 0⟩
abbrev R.switchCore_INT.NOBUF : Fld := ⟨22, 0x010, 0, 3, 3, .w1c, 0⟩
abbrev R.switchCore_INT.TXERR : Fld := ⟨22, 0x010, 0, 2, 2, .w1c, 0⟩
abbrev R.switchCore_INT.RXDROP : Fld := ⟨22, 0x010, 0, 1, 1, .w1c, 0⟩
abbrev R.switchCore_INT.RX : Fld := ⟨22, 0x010, 0, 0, 0, .w1c, 0⟩
abbrev R.switchCore_INT.desc : RegDesc := ⟨0x010, 0, 1, [R.switchCore_INT.LEARN_FULL, R.switchCore_INT.NOBUF, R.switchCore_INT.TXERR, R.switchCore_INT.RXDROP, R.switchCore_INT.RX]⟩
abbrev R.switchCore_INT.all : Fld := ⟨22, 0x010, 0, 31, 0, .ro, 0⟩
abbrev R.SW_CTRL.EN : Fld := ⟨22, 0x040, 0, 31, 31, .rw, 0⟩
abbrev R.SW_CTRL.MCAST : Fld := ⟨22, 0x040, 0, 23, 16, .rw, 31⟩
abbrev R.SW_CTRL.FLOOD : Fld := ⟨22, 0x040, 0, 15, 8, .rw, 31⟩
abbrev R.SW_CTRL.desc : RegDesc := ⟨0x040, 0, 1, [R.SW_CTRL.EN, R.SW_CTRL.MCAST, R.SW_CTRL.FLOOD]⟩
abbrev R.SW_CTRL.all : Fld := ⟨22, 0x040, 0, 31, 0, .ro, 0⟩
abbrev R.SW_AGE.TIME : Fld := ⟨22, 0x044, 0, 7, 0, .rw, 60⟩
abbrev R.SW_AGE.desc : RegDesc := ⟨0x044, 0, 1, [R.SW_AGE.TIME]⟩
abbrev R.SW_AGE.all : Fld := ⟨22, 0x044, 0, 31, 0, .ro, 0⟩
abbrev R.SW_CELLS.FREE : Fld := ⟨22, 0x048, 0, 12, 0, .ro, 4096⟩
abbrev R.SW_CELLS.desc : RegDesc := ⟨0x048, 0, 1, [R.SW_CELLS.FREE]⟩
abbrev R.SW_CELLS.all : Fld := ⟨22, 0x048, 0, 31, 0, .ro, 0⟩
abbrev R.SW_RP_CTRL.BYTES : Fld := ⟨22, 0x04C, 0, 10, 0, .rw, 1564⟩
abbrev R.SW_RP_CTRL.desc : RegDesc := ⟨0x04C, 0, 1, [R.SW_RP_CTRL.BYTES]⟩
abbrev R.SW_RP_CTRL.all : Fld := ⟨22, 0x04C, 0, 31, 0, .ro, 0⟩
abbrev R.SW_RP_STATUS.TOOBIG : Fld := ⟨22, 0x050, 0, 31, 16, .rcl, 0⟩
abbrev R.SW_RP_STATUS.BADFCS : Fld := ⟨22, 0x050, 0, 15, 0, .rcl, 0⟩
abbrev R.SW_RP_STATUS.desc : RegDesc := ⟨0x050, 0, 1, [R.SW_RP_STATUS.TOOBIG, R.SW_RP_STATUS.BADFCS]⟩
abbrev R.SW_RP_STATUS.all : Fld := ⟨22, 0x050, 0, 31, 0, .ro, 0⟩
abbrev R.SW_FDB_SEL.OP : Fld := ⟨22, 0x054, 0, 31, 30, .wo, 0⟩
abbrev R.SW_FDB_SEL.INDEX : Fld := ⟨22, 0x054, 0, 9, 0, .rw, 0⟩
abbrev R.SW_FDB_SEL.desc : RegDesc := ⟨0x054, 0, 1, [R.SW_FDB_SEL.OP, R.SW_FDB_SEL.INDEX]⟩
abbrev R.SW_FDB_SEL.all : Fld := ⟨22, 0x054, 0, 31, 0, .ro, 0⟩
abbrev R.SW_FDB_DATA0.MAC_LO : Fld := ⟨22, 0x058, 0, 31, 0, .rw, 0⟩
abbrev R.SW_FDB_DATA0.desc : RegDesc := ⟨0x058, 0, 1, [R.SW_FDB_DATA0.MAC_LO]⟩
abbrev R.SW_FDB_DATA0.all : Fld := ⟨22, 0x058, 0, 31, 0, .ro, 0⟩
abbrev R.SW_FDB_DATA1.VID : Fld := ⟨22, 0x05C, 0, 27, 16, .rw, 0⟩
abbrev R.SW_FDB_DATA1.MAC_HI : Fld := ⟨22, 0x05C, 0, 15, 0, .rw, 0⟩
abbrev R.SW_FDB_DATA1.desc : RegDesc := ⟨0x05C, 0, 1, [R.SW_FDB_DATA1.VID, R.SW_FDB_DATA1.MAC_HI]⟩
abbrev R.SW_FDB_DATA1.all : Fld := ⟨22, 0x05C, 0, 31, 0, .ro, 0⟩
abbrev R.SW_FDB_DATA2.VALID : Fld := ⟨22, 0x060, 0, 31, 31, .rw, 0⟩
abbrev R.SW_FDB_DATA2.STATIC : Fld := ⟨22, 0x060, 0, 30, 30, .rw, 0⟩
abbrev R.SW_FDB_DATA2.UNIT : Fld := ⟨22, 0x060, 0, 26, 16, .rw, 0⟩
abbrev R.SW_FDB_DATA2.PORTMASK : Fld := ⟨22, 0x060, 0, 15, 8, .rw, 0⟩
abbrev R.SW_FDB_DATA2.AGE : Fld := ⟨22, 0x060, 0, 7, 0, .rw, 0⟩
abbrev R.SW_FDB_DATA2.desc : RegDesc := ⟨0x060, 0, 1, [R.SW_FDB_DATA2.VALID, R.SW_FDB_DATA2.STATIC, R.SW_FDB_DATA2.UNIT, R.SW_FDB_DATA2.PORTMASK, R.SW_FDB_DATA2.AGE]⟩
abbrev R.SW_FDB_DATA2.all : Fld := ⟨22, 0x060, 0, 31, 0, .ro, 0⟩
abbrev R.SW_FDB_STATUS.LEARN_FULL : Fld := ⟨22, 0x064, 0, 31, 16, .rcl, 0⟩
abbrev R.SW_FDB_STATUS.USED : Fld := ⟨22, 0x064, 0, 10, 0, .ro, 0⟩
abbrev R.SW_FDB_STATUS.desc : RegDesc := ⟨0x064, 0, 1, [R.SW_FDB_STATUS.LEARN_FULL, R.SW_FDB_STATUS.USED]⟩
abbrev R.SW_FDB_STATUS.all : Fld := ⟨22, 0x064, 0, 31, 0, .ro, 0⟩
abbrev R.SW_RXDROP.NODESC : Fld := ⟨22, 0x068, 0, 31, 16, .rcl, 0⟩
abbrev R.SW_RXDROP.TOOBIG : Fld := ⟨22, 0x068, 0, 15, 0, .rcl, 0⟩
abbrev R.SW_RXDROP.desc : RegDesc := ⟨0x068, 0, 1, [R.SW_RXDROP.NODESC, R.SW_RXDROP.TOOBIG]⟩
abbrev R.SW_RXDROP.all : Fld := ⟨22, 0x068, 0, 31, 0, .ro, 0⟩
abbrev R.SW_MARKq.EN : Fld := ⟨22, 0x070, 4, 31, 31, .rw, 0⟩
abbrev R.SW_MARKq.THR : Fld := ⟨22, 0x070, 4, 11, 0, .rw, 0⟩
abbrev R.SW_MARKq.desc : RegDesc := ⟨0x070, 4, 8, [R.SW_MARKq.EN, R.SW_MARKq.THR]⟩
abbrev R.SW_MARKq.all : Fld := ⟨22, 0x070, 4, 31, 0, .ro, 0⟩
abbrev R.SW_PCFGp.LEARN : Fld := ⟨22, 0x100, 32, 31, 31, .rw, 0⟩
abbrev R.SW_PCFGp.DEFCLS : Fld := ⟨22, 0x100, 32, 26, 24, .rw, 0⟩
abbrev R.SW_PCFGp.PCPMAP : Fld := ⟨22, 0x100, 32, 23, 0, .rw, 16434824⟩
abbrev R.SW_PCFGp.desc : RegDesc := ⟨0x100, 32, 8, [R.SW_PCFGp.LEARN, R.SW_PCFGp.DEFCLS, R.SW_PCFGp.PCPMAP]⟩
abbrev R.SW_PCFGp.all : Fld := ⟨22, 0x100, 32, 31, 0, .ro, 0⟩
abbrev R.SW_PRXp.FRAMES : Fld := ⟨22, 0x104, 32, 31, 0, .rcl, 0⟩
abbrev R.SW_PRXp.desc : RegDesc := ⟨0x104, 32, 8, [R.SW_PRXp.FRAMES]⟩
abbrev R.SW_PRXp.all : Fld := ⟨22, 0x104, 32, 31, 0, .ro, 0⟩
abbrev R.SW_PTXp.FRAMES : Fld := ⟨22, 0x108, 32, 31, 0, .rcl, 0⟩
abbrev R.SW_PTXp.desc : RegDesc := ⟨0x108, 32, 8, [R.SW_PTXp.FRAMES]⟩
abbrev R.SW_PTXp.all : Fld := ⟨22, 0x108, 32, 31, 0, .ro, 0⟩
abbrev R.SW_PDROPp.NOBUF : Fld := ⟨22, 0x10C, 32, 31, 16, .rcl, 0⟩
abbrev R.SW_PDROPp.NOROUTE : Fld := ⟨22, 0x10C, 32, 15, 0, .rcl, 0⟩
abbrev R.SW_PDROPp.desc : RegDesc := ⟨0x10C, 32, 8, [R.SW_PDROPp.NOBUF, R.SW_PDROPp.NOROUTE]⟩
abbrev R.SW_PDROPp.all : Fld := ⟨22, 0x10C, 32, 31, 0, .ro, 0⟩
abbrev R.SW_PPUSHp.PUSHED : Fld := ⟨22, 0x110, 32, 31, 16, .rcl, 0⟩
abbrev R.SW_PPUSHp.MARKED : Fld := ⟨22, 0x110, 32, 15, 8, .rcl, 0⟩
abbrev R.SW_PPUSHp.NOTECT : Fld := ⟨22, 0x110, 32, 7, 0, .rcl, 0⟩
abbrev R.SW_PPUSHp.desc : RegDesc := ⟨0x110, 32, 8, [R.SW_PPUSHp.PUSHED, R.SW_PPUSHp.MARKED, R.SW_PPUSHp.NOTECT]⟩
abbrev R.SW_PPUSHp.all : Fld := ⟨22, 0x110, 32, 31, 0, .ro, 0⟩
abbrev R.SW_TXRq_BASE.BASE : Fld := ⟨22, 0x200, 16, 31, 5, .rw, 0⟩
abbrev R.SW_TXRq_BASE.desc : RegDesc := ⟨0x200, 16, 8, [R.SW_TXRq_BASE.BASE]⟩
abbrev R.SW_TXRq_BASE.all : Fld := ⟨22, 0x200, 16, 31, 0, .ro, 0⟩
abbrev R.SW_RXRq_BASE.BASE : Fld := ⟨22, 0x280, 16, 31, 5, .rw, 0⟩
abbrev R.SW_RXRq_BASE.desc : RegDesc := ⟨0x280, 16, 8, [R.SW_RXRq_BASE.BASE]⟩
abbrev R.SW_RXRq_BASE.all : Fld := ⟨22, 0x280, 16, 31, 0, .ro, 0⟩
abbrev R.SW_TXRq_SIZE.SIZE : Fld := ⟨22, 0x204, 16, 10, 0, .rw, 0⟩
abbrev R.SW_TXRq_SIZE.desc : RegDesc := ⟨0x204, 16, 8, [R.SW_TXRq_SIZE.SIZE]⟩
abbrev R.SW_TXRq_SIZE.all : Fld := ⟨22, 0x204, 16, 31, 0, .ro, 0⟩
abbrev R.SW_RXRq_SIZE.SIZE : Fld := ⟨22, 0x284, 16, 10, 0, .rw, 0⟩
abbrev R.SW_RXRq_SIZE.desc : RegDesc := ⟨0x284, 16, 8, [R.SW_RXRq_SIZE.SIZE]⟩
abbrev R.SW_RXRq_SIZE.all : Fld := ⟨22, 0x284, 16, 31, 0, .ro, 0⟩
abbrev R.SW_TXRq_PTR.TAIL : Fld := ⟨22, 0x208, 16, 25, 16, .rw, 0⟩
abbrev R.SW_TXRq_PTR.HEAD : Fld := ⟨22, 0x208, 16, 9, 0, .ro, 0⟩
abbrev R.SW_TXRq_PTR.desc : RegDesc := ⟨0x208, 16, 8, [R.SW_TXRq_PTR.TAIL, R.SW_TXRq_PTR.HEAD]⟩
abbrev R.SW_TXRq_PTR.all : Fld := ⟨22, 0x208, 16, 31, 0, .ro, 0⟩
abbrev R.SW_RXRq_PTR.GET : Fld := ⟨22, 0x288, 16, 25, 16, .rw, 0⟩
abbrev R.SW_RXRq_PTR.PUT : Fld := ⟨22, 0x288, 16, 9, 0, .ro, 0⟩
abbrev R.SW_RXRq_PTR.desc : RegDesc := ⟨0x288, 16, 8, [R.SW_RXRq_PTR.GET, R.SW_RXRq_PTR.PUT]⟩
abbrev R.SW_RXRq_PTR.all : Fld := ⟨22, 0x288, 16, 31, 0, .ro, 0⟩

/-! Page type strainer. -/
abbrev R.STR_ADDR.INC : Fld := ⟨23, 0x040, 0, 31, 31, .rw, 0⟩
abbrev R.STR_ADDR.INDEX : Fld := ⟨23, 0x040, 0, 10, 0, .rw, 0⟩
abbrev R.STR_ADDR.desc : RegDesc := ⟨0x040, 0, 1, [R.STR_ADDR.INC, R.STR_ADDR.INDEX]⟩
abbrev R.STR_ADDR.all : Fld := ⟨23, 0x040, 0, 31, 0, .ro, 0⟩
abbrev R.STR_DATA_LO.DATA : Fld := ⟨23, 0x044, 0, 31, 0, .rw, 0⟩
abbrev R.STR_DATA_LO.desc : RegDesc := ⟨0x044, 0, 1, [R.STR_DATA_LO.DATA]⟩
abbrev R.STR_DATA_LO.all : Fld := ⟨23, 0x044, 0, 31, 0, .ro, 0⟩
abbrev R.STR_DATA_HI.DATA : Fld := ⟨23, 0x048, 0, 31, 0, .rw, 0⟩
abbrev R.STR_DATA_HI.desc : RegDesc := ⟨0x048, 0, 1, [R.STR_DATA_HI.DATA]⟩
abbrev R.STR_DATA_HI.all : Fld := ⟨23, 0x048, 0, 31, 0, .ro, 0⟩
abbrev R.STR_STATUS.MAXWAIT : Fld := ⟨23, 0x04C, 0, 31, 16, .rcl, 0⟩
abbrev R.STR_STATUS.desc : RegDesc := ⟨0x04C, 0, 1, [R.STR_STATUS.MAXWAIT]⟩
abbrev R.STR_STATUS.all : Fld := ⟨23, 0x04C, 0, 31, 0, .ro, 0⟩

/-! Page type mac. -/
abbrev R.mac_INT.RXDROP : Fld := ⟨24, 0x010, 0, 5, 5, .w1c, 0⟩
abbrev R.mac_INT.RX : Fld := ⟨24, 0x010, 0, 4, 4, .w1c, 0⟩
abbrev R.mac_INT.TXERR : Fld := ⟨24, 0x010, 0, 3, 3, .w1c, 0⟩
abbrev R.mac_INT.TXTS : Fld := ⟨24, 0x010, 0, 2, 2, .w1c, 0⟩
abbrev R.mac_INT.GSWAP : Fld := ⟨24, 0x010, 0, 1, 1, .w1c, 0⟩
abbrev R.mac_INT.LINK : Fld := ⟨24, 0x010, 0, 0, 0, .w1c, 0⟩
abbrev R.mac_INT.desc : RegDesc := ⟨0x010, 0, 1, [R.mac_INT.RXDROP, R.mac_INT.RX, R.mac_INT.TXERR, R.mac_INT.TXTS, R.mac_INT.GSWAP, R.mac_INT.LINK]⟩
abbrev R.mac_INT.all : Fld := ⟨24, 0x010, 0, 31, 0, .ro, 0⟩
abbrev R.MAC_CTRL.EN : Fld := ⟨24, 0x040, 0, 31, 31, .rw, 0⟩
abbrev R.MAC_CTRL.IF : Fld := ⟨24, 0x040, 0, 30, 30, .rw, 0⟩
abbrev R.MAC_CTRL.SPEED : Fld := ⟨24, 0x040, 0, 29, 28, .rw, 2⟩
abbrev R.MAC_CTRL.INBAND : Fld := ⟨24, 0x040, 0, 27, 27, .rw, 0⟩
abbrev R.MAC_CTRL.TXDLY : Fld := ⟨24, 0x040, 0, 26, 26, .rw, 0⟩
abbrev R.MAC_CTRL.RXDLY : Fld := ⟨24, 0x040, 0, 25, 25, .rw, 0⟩
abbrev R.MAC_CTRL.TS_ALL : Fld := ⟨24, 0x040, 0, 24, 24, .rw, 0⟩
abbrev R.MAC_CTRL.MAXLEN : Fld := ⟨24, 0x040, 0, 11, 0, .rw, 1522⟩
abbrev R.MAC_CTRL.desc : RegDesc := ⟨0x040, 0, 1, [R.MAC_CTRL.EN, R.MAC_CTRL.IF, R.MAC_CTRL.SPEED, R.MAC_CTRL.INBAND, R.MAC_CTRL.TXDLY, R.MAC_CTRL.RXDLY, R.MAC_CTRL.TS_ALL, R.MAC_CTRL.MAXLEN]⟩
abbrev R.MAC_CTRL.all : Fld := ⟨24, 0x040, 0, 31, 0, .ro, 0⟩
abbrev R.MAC_STATUS.LINK : Fld := ⟨24, 0x044, 0, 31, 31, .ro, 0⟩
abbrev R.MAC_STATUS.SPEED : Fld := ⟨24, 0x044, 0, 30, 29, .ro, 0⟩
abbrev R.MAC_STATUS.HALF : Fld := ⟨24, 0x044, 0, 28, 28, .ro, 0⟩
abbrev R.MAC_STATUS.SYNC : Fld := ⟨24, 0x044, 0, 27, 27, .ro, 0⟩
abbrev R.MAC_STATUS.desc : RegDesc := ⟨0x044, 0, 1, [R.MAC_STATUS.LINK, R.MAC_STATUS.SPEED, R.MAC_STATUS.HALF, R.MAC_STATUS.SYNC]⟩
abbrev R.MAC_STATUS.all : Fld := ⟨24, 0x044, 0, 31, 0, .ro, 0⟩
abbrev R.MAC_FILT.BCAST : Fld := ⟨24, 0x048, 0, 1, 1, .rw, 1⟩
abbrev R.MAC_FILT.MODE : Fld := ⟨24, 0x048, 0, 0, 0, .rw, 0⟩
abbrev R.MAC_FILT.desc : RegDesc := ⟨0x048, 0, 1, [R.MAC_FILT.BCAST, R.MAC_FILT.MODE]⟩
abbrev R.MAC_FILT.all : Fld := ⟨24, 0x048, 0, 31, 0, .ro, 0⟩
abbrev R.MAC_PD.RXQ : Fld := ⟨24, 0x04C, 0, 6, 4, .rw, 0⟩
abbrev R.MAC_PD.TXQ : Fld := ⟨24, 0x04C, 0, 2, 0, .rw, 0⟩
abbrev R.MAC_PD.desc : RegDesc := ⟨0x04C, 0, 1, [R.MAC_PD.RXQ, R.MAC_PD.TXQ]⟩
abbrev R.MAC_PD.all : Fld := ⟨24, 0x04C, 0, 31, 0, .ro, 0⟩
abbrev R.MAC_RXCNT.FRAMES : Fld := ⟨24, 0x050, 0, 31, 0, .rcl, 0⟩
abbrev R.MAC_RXCNT.desc : RegDesc := ⟨0x050, 0, 1, [R.MAC_RXCNT.FRAMES]⟩
abbrev R.MAC_RXCNT.all : Fld := ⟨24, 0x050, 0, 31, 0, .ro, 0⟩
abbrev R.MAC_TXCNT.FRAMES : Fld := ⟨24, 0x054, 0, 31, 0, .rcl, 0⟩
abbrev R.MAC_TXCNT.desc : RegDesc := ⟨0x054, 0, 1, [R.MAC_TXCNT.FRAMES]⟩
abbrev R.MAC_TXCNT.all : Fld := ⟨24, 0x054, 0, 31, 0, .ro, 0⟩
abbrev R.MAC_RXDROP_A.HI : Fld := ⟨24, 0x058, 0, 31, 16, .rcl, 0⟩
abbrev R.MAC_RXDROP_A.LO : Fld := ⟨24, 0x058, 0, 15, 0, .rcl, 0⟩
abbrev R.MAC_RXDROP_A.desc : RegDesc := ⟨0x058, 0, 1, [R.MAC_RXDROP_A.HI, R.MAC_RXDROP_A.LO]⟩
abbrev R.MAC_RXDROP_A.all : Fld := ⟨24, 0x058, 0, 31, 0, .ro, 0⟩
abbrev R.MAC_RXDROP_B.HI : Fld := ⟨24, 0x05C, 0, 31, 16, .rcl, 0⟩
abbrev R.MAC_RXDROP_B.LO : Fld := ⟨24, 0x05C, 0, 15, 0, .rcl, 0⟩
abbrev R.MAC_RXDROP_B.desc : RegDesc := ⟨0x05C, 0, 1, [R.MAC_RXDROP_B.HI, R.MAC_RXDROP_B.LO]⟩
abbrev R.MAC_RXDROP_B.all : Fld := ⟨24, 0x05C, 0, 31, 0, .ro, 0⟩
abbrev R.MAC_RXDROP_C.HI : Fld := ⟨24, 0x060, 0, 31, 16, .rcl, 0⟩
abbrev R.MAC_RXDROP_C.LO : Fld := ⟨24, 0x060, 0, 15, 0, .rcl, 0⟩
abbrev R.MAC_RXDROP_C.desc : RegDesc := ⟨0x060, 0, 1, [R.MAC_RXDROP_C.HI, R.MAC_RXDROP_C.LO]⟩
abbrev R.MAC_RXDROP_C.all : Fld := ⟨24, 0x060, 0, 31, 0, .ro, 0⟩
abbrev R.MAC_RXDROP_D.HI : Fld := ⟨24, 0x064, 0, 31, 16, .rcl, 0⟩
abbrev R.MAC_RXDROP_D.LO : Fld := ⟨24, 0x064, 0, 15, 0, .rcl, 0⟩
abbrev R.MAC_RXDROP_D.desc : RegDesc := ⟨0x064, 0, 1, [R.MAC_RXDROP_D.HI, R.MAC_RXDROP_D.LO]⟩
abbrev R.MAC_RXDROP_D.all : Fld := ⟨24, 0x064, 0, 31, 0, .ro, 0⟩
abbrev R.MAC_TXDROP.TSLOST : Fld := ⟨24, 0x068, 0, 31, 24, .rcl, 0⟩
abbrev R.MAC_TXDROP.LINKDOWN : Fld := ⟨24, 0x068, 0, 23, 12, .rcl, 0⟩
abbrev R.MAC_TXDROP.GCL : Fld := ⟨24, 0x068, 0, 11, 0, .rcl, 0⟩
abbrev R.MAC_TXDROP.desc : RegDesc := ⟨0x068, 0, 1, [R.MAC_TXDROP.TSLOST, R.MAC_TXDROP.LINKDOWN, R.MAC_TXDROP.GCL]⟩
abbrev R.MAC_TXDROP.all : Fld := ⟨24, 0x068, 0, 31, 0, .ro, 0⟩
abbrev R.MAC_TXTS_SEC_HI.SEC : Fld := ⟨24, 0x070, 0, 31, 0, .ro, 0⟩
abbrev R.MAC_TXTS_SEC_HI.desc : RegDesc := ⟨0x070, 0, 1, [R.MAC_TXTS_SEC_HI.SEC]⟩
abbrev R.MAC_TXTS_SEC_HI.all : Fld := ⟨24, 0x070, 0, 31, 0, .ro, 0⟩
abbrev R.MAC_TXTS_SEC_LO.SEC : Fld := ⟨24, 0x074, 0, 31, 0, .ro, 0⟩
abbrev R.MAC_TXTS_SEC_LO.desc : RegDesc := ⟨0x074, 0, 1, [R.MAC_TXTS_SEC_LO.SEC]⟩
abbrev R.MAC_TXTS_SEC_LO.all : Fld := ⟨24, 0x074, 0, 31, 0, .ro, 0⟩
abbrev R.MAC_TXTS_NS.NS : Fld := ⟨24, 0x078, 0, 29, 0, .ro, 0⟩
abbrev R.MAC_TXTS_NS.desc : RegDesc := ⟨0x078, 0, 1, [R.MAC_TXTS_NS.NS]⟩
abbrev R.MAC_TXTS_NS.all : Fld := ⟨24, 0x078, 0, 31, 0, .ro, 0⟩
abbrev R.MAC_TXTS_PEEK.EMPTY : Fld := ⟨24, 0x07C, 0, 31, 31, .ro, 1⟩
abbrev R.MAC_TXTS_PEEK.Q : Fld := ⟨24, 0x07C, 0, 29, 27, .ro, 0⟩
abbrev R.MAC_TXTS_PEEK.INDEX : Fld := ⟨24, 0x07C, 0, 25, 16, .ro, 0⟩
abbrev R.MAC_TXTS_PEEK.FRAC : Fld := ⟨24, 0x07C, 0, 15, 0, .ro, 0⟩
abbrev R.MAC_TXTS_PEEK.desc : RegDesc := ⟨0x07C, 0, 1, [R.MAC_TXTS_PEEK.EMPTY, R.MAC_TXTS_PEEK.Q, R.MAC_TXTS_PEEK.INDEX, R.MAC_TXTS_PEEK.FRAC]⟩
abbrev R.MAC_TXTS_PEEK.all : Fld := ⟨24, 0x07C, 0, 31, 0, .ro, 0⟩
abbrev R.MAC_TXTS_POP.EMPTY : Fld := ⟨24, 0x080, 0, 31, 31, .ro, 1⟩
abbrev R.MAC_TXTS_POP.Q : Fld := ⟨24, 0x080, 0, 29, 27, .ro, 0⟩
abbrev R.MAC_TXTS_POP.INDEX : Fld := ⟨24, 0x080, 0, 25, 16, .ro, 0⟩
abbrev R.MAC_TXTS_POP.FRAC : Fld := ⟨24, 0x080, 0, 15, 0, .ro, 0⟩
abbrev R.MAC_TXTS_POP.desc : RegDesc := ⟨0x080, 0, 1, [R.MAC_TXTS_POP.EMPTY, R.MAC_TXTS_POP.Q, R.MAC_TXTS_POP.INDEX, R.MAC_TXTS_POP.FRAC]⟩
abbrev R.MAC_TXTS_POP.all : Fld := ⟨24, 0x080, 0, 31, 0, .ro, 0⟩
abbrev R.MAC_GCL_CTRL.EN : Fld := ⟨24, 0x0C0, 0, 31, 31, .rw, 0⟩
abbrev R.MAC_GCL_CTRL.ARM : Fld := ⟨24, 0x0C0, 0, 30, 30, .w1s, 0⟩
abbrev R.MAC_GCL_CTRL.DISARM : Fld := ⟨24, 0x0C0, 0, 29, 29, .wo, 0⟩
abbrev R.MAC_GCL_CTRL.BANK : Fld := ⟨24, 0x0C0, 0, 28, 28, .ro, 0⟩
abbrev R.MAC_GCL_CTRL.IDLE_GATES : Fld := ⟨24, 0x0C0, 0, 7, 0, .rw, 255⟩
abbrev R.MAC_GCL_CTRL.desc : RegDesc := ⟨0x0C0, 0, 1, [R.MAC_GCL_CTRL.EN, R.MAC_GCL_CTRL.ARM, R.MAC_GCL_CTRL.DISARM, R.MAC_GCL_CTRL.BANK, R.MAC_GCL_CTRL.IDLE_GATES]⟩
abbrev R.MAC_GCL_CTRL.all : Fld := ⟨24, 0x0C0, 0, 31, 0, .ro, 0⟩
abbrev R.MAC_GCL_CFG.MODE : Fld := ⟨24, 0x0C4, 0, 31, 31, .rw, 0⟩
abbrev R.MAC_GCL_CFG.COUNT : Fld := ⟨24, 0x0C4, 0, 8, 0, .rw, 0⟩
abbrev R.MAC_GCL_CFG.desc : RegDesc := ⟨0x0C4, 0, 1, [R.MAC_GCL_CFG.MODE, R.MAC_GCL_CFG.COUNT]⟩
abbrev R.MAC_GCL_CFG.all : Fld := ⟨24, 0x0C4, 0, 31, 0, .ro, 0⟩
abbrev R.MAC_GCL_CYCLE.VALUE : Fld := ⟨24, 0x0C8, 0, 31, 0, .rw, 0⟩
abbrev R.MAC_GCL_CYCLE.desc : RegDesc := ⟨0x0C8, 0, 1, [R.MAC_GCL_CYCLE.VALUE]⟩
abbrev R.MAC_GCL_CYCLE.all : Fld := ⟨24, 0x0C8, 0, 31, 0, .ro, 0⟩
abbrev R.MAC_GCL_BASE_SEC.VALUE : Fld := ⟨24, 0x0CC, 0, 31, 0, .rw, 0⟩
abbrev R.MAC_GCL_BASE_SEC.desc : RegDesc := ⟨0x0CC, 0, 1, [R.MAC_GCL_BASE_SEC.VALUE]⟩
abbrev R.MAC_GCL_BASE_SEC.all : Fld := ⟨24, 0x0CC, 0, 31, 0, .ro, 0⟩
abbrev R.MAC_GCL_BASE_NS.VALUE : Fld := ⟨24, 0x0D0, 0, 31, 0, .rw, 0⟩
abbrev R.MAC_GCL_BASE_NS.desc : RegDesc := ⟨0x0D0, 0, 1, [R.MAC_GCL_BASE_NS.VALUE]⟩
abbrev R.MAC_GCL_BASE_NS.all : Fld := ⟨24, 0x0D0, 0, 31, 0, .ro, 0⟩
abbrev R.MAC_GCL_STATUS.ENTRY : Fld := ⟨24, 0x0D4, 0, 16, 8, .ro, 0⟩
abbrev R.MAC_GCL_STATUS.GATES : Fld := ⟨24, 0x0D4, 0, 7, 0, .ro, 255⟩
abbrev R.MAC_GCL_STATUS.desc : RegDesc := ⟨0x0D4, 0, 1, [R.MAC_GCL_STATUS.ENTRY, R.MAC_GCL_STATUS.GATES]⟩
abbrev R.MAC_GCL_STATUS.all : Fld := ⟨24, 0x0D4, 0, 31, 0, .ro, 0⟩
abbrev R.MAC_ADDRn_HI.EN : Fld := ⟨24, 0x100, 8, 31, 31, .rw, 0⟩
abbrev R.MAC_ADDRn_HI.ADDR_HI : Fld := ⟨24, 0x100, 8, 15, 0, .rw, 0⟩
abbrev R.MAC_ADDRn_HI.desc : RegDesc := ⟨0x100, 8, 16, [R.MAC_ADDRn_HI.EN, R.MAC_ADDRn_HI.ADDR_HI]⟩
abbrev R.MAC_ADDRn_HI.all : Fld := ⟨24, 0x100, 8, 31, 0, .ro, 0⟩
abbrev R.MAC_ADDRn_LO.ADDR_LO : Fld := ⟨24, 0x104, 8, 31, 0, .rw, 0⟩
abbrev R.MAC_ADDRn_LO.desc : RegDesc := ⟨0x104, 8, 16, [R.MAC_ADDRn_LO.ADDR_LO]⟩
abbrev R.MAC_ADDRn_LO.all : Fld := ⟨24, 0x104, 8, 31, 0, .ro, 0⟩
abbrev R.MAC_TXRq_BASE.BASE : Fld := ⟨24, 0x200, 16, 31, 5, .rw, 0⟩
abbrev R.MAC_TXRq_BASE.desc : RegDesc := ⟨0x200, 16, 8, [R.MAC_TXRq_BASE.BASE]⟩
abbrev R.MAC_TXRq_BASE.all : Fld := ⟨24, 0x200, 16, 31, 0, .ro, 0⟩
abbrev R.MAC_RXRq_BASE.BASE : Fld := ⟨24, 0x280, 16, 31, 5, .rw, 0⟩
abbrev R.MAC_RXRq_BASE.desc : RegDesc := ⟨0x280, 16, 8, [R.MAC_RXRq_BASE.BASE]⟩
abbrev R.MAC_RXRq_BASE.all : Fld := ⟨24, 0x280, 16, 31, 0, .ro, 0⟩
abbrev R.MAC_TXRq_SIZE.SIZE : Fld := ⟨24, 0x204, 16, 10, 0, .rw, 0⟩
abbrev R.MAC_TXRq_SIZE.desc : RegDesc := ⟨0x204, 16, 8, [R.MAC_TXRq_SIZE.SIZE]⟩
abbrev R.MAC_TXRq_SIZE.all : Fld := ⟨24, 0x204, 16, 31, 0, .ro, 0⟩
abbrev R.MAC_RXRq_SIZE.SIZE : Fld := ⟨24, 0x284, 16, 10, 0, .rw, 0⟩
abbrev R.MAC_RXRq_SIZE.desc : RegDesc := ⟨0x284, 16, 8, [R.MAC_RXRq_SIZE.SIZE]⟩
abbrev R.MAC_RXRq_SIZE.all : Fld := ⟨24, 0x284, 16, 31, 0, .ro, 0⟩
abbrev R.MAC_TXRq_PTR.TAIL : Fld := ⟨24, 0x208, 16, 25, 16, .rw, 0⟩
abbrev R.MAC_TXRq_PTR.HEAD : Fld := ⟨24, 0x208, 16, 9, 0, .ro, 0⟩
abbrev R.MAC_TXRq_PTR.desc : RegDesc := ⟨0x208, 16, 8, [R.MAC_TXRq_PTR.TAIL, R.MAC_TXRq_PTR.HEAD]⟩
abbrev R.MAC_TXRq_PTR.all : Fld := ⟨24, 0x208, 16, 31, 0, .ro, 0⟩
abbrev R.MAC_RXRq_PTR.GET : Fld := ⟨24, 0x288, 16, 25, 16, .rw, 0⟩
abbrev R.MAC_RXRq_PTR.PUT : Fld := ⟨24, 0x288, 16, 9, 0, .ro, 0⟩
abbrev R.MAC_RXRq_PTR.desc : RegDesc := ⟨0x288, 16, 8, [R.MAC_RXRq_PTR.GET, R.MAC_RXRq_PTR.PUT]⟩
abbrev R.MAC_RXRq_PTR.all : Fld := ⟨24, 0x288, 16, 31, 0, .ro, 0⟩
abbrev R.MAC_GCL_INTn.VALUE : Fld := ⟨24, 0x800, 8, 31, 0, .rw, 0⟩
abbrev R.MAC_GCL_INTn.desc : RegDesc := ⟨0x800, 8, 256, [R.MAC_GCL_INTn.VALUE]⟩
abbrev R.MAC_GCL_INTn.all : Fld := ⟨24, 0x800, 8, 31, 0, .ro, 0⟩
abbrev R.MAC_GCL_GATEn.VALUE : Fld := ⟨24, 0x804, 8, 31, 0, .rw, 0⟩
abbrev R.MAC_GCL_GATEn.desc : RegDesc := ⟨0x804, 8, 256, [R.MAC_GCL_GATEn.VALUE]⟩
abbrev R.MAC_GCL_GATEn.all : Fld := ⟨24, 0x804, 8, 31, 0, .ro, 0⟩

/-! Page type can. -/
abbrev R.can_INT.WAKE : Fld := ⟨28, 0x010, 0, 11, 11, .w1c, 0⟩
abbrev R.can_INT.BUSOFF : Fld := ⟨28, 0x010, 0, 10, 10, .w1c, 0⟩
abbrev R.can_INT.PASSIVE : Fld := ⟨28, 0x010, 0, 9, 9, .w1c, 0⟩
abbrev R.can_INT.WARN : Fld := ⟨28, 0x010, 0, 8, 8, .w1c, 0⟩
abbrev R.can_INT.PROTO : Fld := ⟨28, 0x010, 0, 7, 7, .w1c, 0⟩
abbrev R.can_INT.TXFAIL : Fld := ⟨28, 0x010, 0, 6, 6, .w1c, 0⟩
abbrev R.can_INT.TXDONE : Fld := ⟨28, 0x010, 0, 5, 5, .w1c, 0⟩
abbrev R.can_INT.PRIO_RX : Fld := ⟨28, 0x010, 0, 4, 4, .w1c, 0⟩
abbrev R.can_INT.F1_LOSS : Fld := ⟨28, 0x010, 0, 3, 3, .w1c, 0⟩
abbrev R.can_INT.F1_NEW : Fld := ⟨28, 0x010, 0, 2, 2, .w1c, 0⟩
abbrev R.can_INT.F0_LOSS : Fld := ⟨28, 0x010, 0, 1, 1, .w1c, 0⟩
abbrev R.can_INT.F0_NEW : Fld := ⟨28, 0x010, 0, 0, 0, .w1c, 0⟩
abbrev R.can_INT.desc : RegDesc := ⟨0x010, 0, 1, [R.can_INT.WAKE, R.can_INT.BUSOFF, R.can_INT.PASSIVE, R.can_INT.WARN, R.can_INT.PROTO, R.can_INT.TXFAIL, R.can_INT.TXDONE, R.can_INT.PRIO_RX, R.can_INT.F1_LOSS, R.can_INT.F1_NEW, R.can_INT.F0_LOSS, R.can_INT.F0_NEW]⟩
abbrev R.can_INT.all : Fld := ⟨28, 0x010, 0, 31, 0, .ro, 0⟩
abbrev R.CAN_CTRL.RECOVER : Fld := ⟨28, 0x040, 0, 31, 31, .wo, 0⟩
abbrev R.CAN_CTRL.TRIES : Fld := ⟨28, 0x040, 0, 11, 8, .rw, 0⟩
abbrev R.CAN_CTRL.RSW_EN : Fld := ⟨28, 0x040, 0, 5, 5, .rw, 0⟩
abbrev R.CAN_CTRL.FD_EN : Fld := ⟨28, 0x040, 0, 4, 4, .rw, 0⟩
abbrev R.CAN_CTRL.MODE : Fld := ⟨28, 0x040, 0, 2, 0, .rw, 0⟩
abbrev R.CAN_CTRL.desc : RegDesc := ⟨0x040, 0, 1, [R.CAN_CTRL.RECOVER, R.CAN_CTRL.TRIES, R.CAN_CTRL.RSW_EN, R.CAN_CTRL.FD_EN, R.CAN_CTRL.MODE]⟩
abbrev R.CAN_CTRL.all : Fld := ⟨28, 0x040, 0, 31, 0, .ro, 0⟩
abbrev R.CAN_STATUS.STATE : Fld := ⟨28, 0x044, 0, 31, 29, .ro, 0⟩
abbrev R.CAN_STATUS.ERRST : Fld := ⟨28, 0x044, 0, 28, 27, .ro, 0⟩
abbrev R.CAN_STATUS.PHASE : Fld := ⟨28, 0x044, 0, 26, 25, .ro, 0⟩
abbrev R.CAN_STATUS.CFGERR : Fld := ⟨28, 0x044, 0, 24, 22, .ro, 0⟩
abbrev R.CAN_STATUS.DATA_ERR : Fld := ⟨28, 0x044, 0, 7, 4, .ro, 0⟩
abbrev R.CAN_STATUS.LAST_ERR : Fld := ⟨28, 0x044, 0, 3, 0, .ro, 0⟩
abbrev R.CAN_STATUS.desc : RegDesc := ⟨0x044, 0, 1, [R.CAN_STATUS.STATE, R.CAN_STATUS.ERRST, R.CAN_STATUS.PHASE, R.CAN_STATUS.CFGERR, R.CAN_STATUS.DATA_ERR, R.CAN_STATUS.LAST_ERR]⟩
abbrev R.CAN_STATUS.all : Fld := ⟨28, 0x044, 0, 31, 0, .ro, 0⟩
abbrev R.CAN_NTIME.SJW : Fld := ⟨28, 0x048, 0, 29, 24, .rw, 2⟩
abbrev R.CAN_NTIME.SEG2 : Fld := ⟨28, 0x048, 0, 21, 16, .rw, 2⟩
abbrev R.CAN_NTIME.SEG1 : Fld := ⟨28, 0x048, 0, 15, 8, .rw, 11⟩
abbrev R.CAN_NTIME.PRESC : Fld := ⟨28, 0x048, 0, 7, 0, .rw, 9⟩
abbrev R.CAN_NTIME.desc : RegDesc := ⟨0x048, 0, 1, [R.CAN_NTIME.SJW, R.CAN_NTIME.SEG2, R.CAN_NTIME.SEG1, R.CAN_NTIME.PRESC]⟩
abbrev R.CAN_NTIME.all : Fld := ⟨28, 0x048, 0, 31, 0, .ro, 0⟩
abbrev R.CAN_DTIME.SJW : Fld := ⟨28, 0x04C, 0, 28, 24, .rw, 1⟩
abbrev R.CAN_DTIME.SEG2 : Fld := ⟨28, 0x04C, 0, 20, 16, .rw, 1⟩
abbrev R.CAN_DTIME.SEG1 : Fld := ⟨28, 0x04C, 0, 13, 8, .rw, 6⟩
abbrev R.CAN_DTIME.PRESC : Fld := ⟨28, 0x04C, 0, 3, 0, .rw, 1⟩
abbrev R.CAN_DTIME.desc : RegDesc := ⟨0x04C, 0, 1, [R.CAN_DTIME.SJW, R.CAN_DTIME.SEG2, R.CAN_DTIME.SEG1, R.CAN_DTIME.PRESC]⟩
abbrev R.CAN_DTIME.all : Fld := ⟨28, 0x04C, 0, 31, 0, .ro, 0⟩
abbrev R.CAN_LOOPC.EN : Fld := ⟨28, 0x050, 0, 31, 31, .rw, 0⟩
abbrev R.CAN_LOOPC.AUTO : Fld := ⟨28, 0x050, 0, 30, 30, .rw, 0⟩
abbrev R.CAN_LOOPC.MIN_GAP : Fld := ⟨28, 0x050, 0, 23, 16, .rw, 0⟩
abbrev R.CAN_LOOPC.SSP_OFS : Fld := ⟨28, 0x050, 0, 7, 0, .rw, 0⟩
abbrev R.CAN_LOOPC.desc : RegDesc := ⟨0x050, 0, 1, [R.CAN_LOOPC.EN, R.CAN_LOOPC.AUTO, R.CAN_LOOPC.MIN_GAP, R.CAN_LOOPC.SSP_OFS]⟩
abbrev R.CAN_LOOPC.all : Fld := ⟨28, 0x050, 0, 31, 0, .ro, 0⟩
abbrev R.CAN_ERRCNT.PASSIVE : Fld := ⟨28, 0x054, 0, 31, 31, .ro, 0⟩
abbrev R.CAN_ERRCNT.TEC : Fld := ⟨28, 0x054, 0, 24, 16, .ro, 0⟩
abbrev R.CAN_ERRCNT.REC : Fld := ⟨28, 0x054, 0, 7, 0, .ro, 0⟩
abbrev R.CAN_ERRCNT.desc : RegDesc := ⟨0x054, 0, 1, [R.CAN_ERRCNT.PASSIVE, R.CAN_ERRCNT.TEC, R.CAN_ERRCNT.REC]⟩
abbrev R.CAN_ERRCNT.all : Fld := ⟨28, 0x054, 0, 31, 0, .ro, 0⟩
abbrev R.CAN_RAM.BASE : Fld := ⟨28, 0x058, 0, 31, 4, .rw, 0⟩
abbrev R.CAN_RAM.desc : RegDesc := ⟨0x058, 0, 1, [R.CAN_RAM.BASE]⟩
abbrev R.CAN_RAM.all : Fld := ⟨28, 0x058, 0, 31, 0, .ro, 0⟩
abbrev R.CAN_RAMCFG.TXN : Fld := ⟨28, 0x05C, 0, 29, 24, .rw, 0⟩
abbrev R.CAN_RAMCFG.RXF1N : Fld := ⟨28, 0x05C, 0, 22, 16, .rw, 0⟩
abbrev R.CAN_RAMCFG.RXF0N : Fld := ⟨28, 0x05C, 0, 6, 0, .rw, 0⟩
abbrev R.CAN_RAMCFG.desc : RegDesc := ⟨0x05C, 0, 1, [R.CAN_RAMCFG.TXN, R.CAN_RAMCFG.RXF1N, R.CAN_RAMCFG.RXF0N]⟩
abbrev R.CAN_RAMCFG.all : Fld := ⟨28, 0x05C, 0, 31, 0, .ro, 0⟩
abbrev R.CAN_RXF0.OVW : Fld := ⟨28, 0x060, 0, 31, 31, .rw, 0⟩
abbrev R.CAN_RXF0.FILL : Fld := ⟨28, 0x060, 0, 22, 16, .ro, 0⟩
abbrev R.CAN_RXF0.PUT : Fld := ⟨28, 0x060, 0, 14, 8, .ro, 0⟩
abbrev R.CAN_RXF0.GET : Fld := ⟨28, 0x060, 0, 6, 0, .ro, 0⟩
abbrev R.CAN_RXF0.desc : RegDesc := ⟨0x060, 0, 1, [R.CAN_RXF0.OVW, R.CAN_RXF0.FILL, R.CAN_RXF0.PUT, R.CAN_RXF0.GET]⟩
abbrev R.CAN_RXF0.all : Fld := ⟨28, 0x060, 0, 31, 0, .ro, 0⟩
abbrev R.CAN_RXF1.OVW : Fld := ⟨28, 0x064, 0, 31, 31, .rw, 0⟩
abbrev R.CAN_RXF1.FILL : Fld := ⟨28, 0x064, 0, 22, 16, .ro, 0⟩
abbrev R.CAN_RXF1.PUT : Fld := ⟨28, 0x064, 0, 14, 8, .ro, 0⟩
abbrev R.CAN_RXF1.GET : Fld := ⟨28, 0x064, 0, 6, 0, .ro, 0⟩
abbrev R.CAN_RXF1.desc : RegDesc := ⟨0x064, 0, 1, [R.CAN_RXF1.OVW, R.CAN_RXF1.FILL, R.CAN_RXF1.PUT, R.CAN_RXF1.GET]⟩
abbrev R.CAN_RXF1.all : Fld := ⟨28, 0x064, 0, 31, 0, .ro, 0⟩
abbrev R.CAN_RXF0_ACK.GET : Fld := ⟨28, 0x068, 0, 6, 0, .wo, 0⟩
abbrev R.CAN_RXF0_ACK.desc : RegDesc := ⟨0x068, 0, 1, [R.CAN_RXF0_ACK.GET]⟩
abbrev R.CAN_RXF0_ACK.all : Fld := ⟨28, 0x068, 0, 31, 0, .ro, 0⟩
abbrev R.CAN_RXF1_ACK.GET : Fld := ⟨28, 0x06C, 0, 6, 0, .wo, 0⟩
abbrev R.CAN_RXF1_ACK.desc : RegDesc := ⟨0x06C, 0, 1, [R.CAN_RXF1_ACK.GET]⟩
abbrev R.CAN_RXF1_ACK.all : Fld := ⟨28, 0x06C, 0, 31, 0, .ro, 0⟩
abbrev R.CAN_TXREQ.BUF : Fld := ⟨28, 0x070, 0, 31, 0, .w1s, 0⟩
abbrev R.CAN_TXREQ.desc : RegDesc := ⟨0x070, 0, 1, [R.CAN_TXREQ.BUF]⟩
abbrev R.CAN_TXREQ.all : Fld := ⟨28, 0x070, 0, 31, 0, .ro, 0⟩
abbrev R.CAN_TXABORT.BUF : Fld := ⟨28, 0x074, 0, 31, 0, .w1s, 0⟩
abbrev R.CAN_TXABORT.desc : RegDesc := ⟨0x074, 0, 1, [R.CAN_TXABORT.BUF]⟩
abbrev R.CAN_TXABORT.all : Fld := ⟨28, 0x074, 0, 31, 0, .ro, 0⟩
abbrev R.CAN_TXDONE.BUF : Fld := ⟨28, 0x078, 0, 31, 0, .w1c, 0⟩
abbrev R.CAN_TXDONE.desc : RegDesc := ⟨0x078, 0, 1, [R.CAN_TXDONE.BUF]⟩
abbrev R.CAN_TXDONE.all : Fld := ⟨28, 0x078, 0, 31, 0, .ro, 0⟩
abbrev R.CAN_TXFAIL.BUF : Fld := ⟨28, 0x07C, 0, 31, 0, .w1c, 0⟩
abbrev R.CAN_TXFAIL.desc : RegDesc := ⟨0x07C, 0, 1, [R.CAN_TXFAIL.BUF]⟩
abbrev R.CAN_TXFAIL.all : Fld := ⟨28, 0x07C, 0, 31, 0, .ro, 0⟩
abbrev R.CAN_FLT_STD.COUNT : Fld := ⟨28, 0x080, 0, 27, 16, .rw, 0⟩
abbrev R.CAN_FLT_STD.BASE : Fld := ⟨28, 0x080, 0, 10, 0, .rw, 0⟩
abbrev R.CAN_FLT_STD.desc : RegDesc := ⟨0x080, 0, 1, [R.CAN_FLT_STD.COUNT, R.CAN_FLT_STD.BASE]⟩
abbrev R.CAN_FLT_STD.all : Fld := ⟨28, 0x080, 0, 31, 0, .ro, 0⟩
abbrev R.CAN_FLT_XTD.COUNT : Fld := ⟨28, 0x084, 0, 27, 16, .rw, 0⟩
abbrev R.CAN_FLT_XTD.BASE : Fld := ⟨28, 0x084, 0, 10, 0, .rw, 0⟩
abbrev R.CAN_FLT_XTD.desc : RegDesc := ⟨0x084, 0, 1, [R.CAN_FLT_XTD.COUNT, R.CAN_FLT_XTD.BASE]⟩
abbrev R.CAN_FLT_XTD.all : Fld := ⟨28, 0x084, 0, 31, 0, .ro, 0⟩
abbrev R.CAN_FLT_CTRL.MISS_RTR : Fld := ⟨28, 0x088, 0, 10, 8, .rw, 0⟩
abbrev R.CAN_FLT_CTRL.MISS_XTD : Fld := ⟨28, 0x088, 0, 6, 4, .rw, 0⟩
abbrev R.CAN_FLT_CTRL.MISS_STD : Fld := ⟨28, 0x088, 0, 2, 0, .rw, 0⟩
abbrev R.CAN_FLT_CTRL.desc : RegDesc := ⟨0x088, 0, 1, [R.CAN_FLT_CTRL.MISS_RTR, R.CAN_FLT_CTRL.MISS_XTD, R.CAN_FLT_CTRL.MISS_STD]⟩
abbrev R.CAN_FLT_CTRL.all : Fld := ⟨28, 0x088, 0, 31, 0, .ro, 0⟩
abbrev R.CAN_RETRY.HI : Fld := ⟨28, 0x08C, 0, 31, 16, .rcl, 0⟩
abbrev R.CAN_RETRY.LO : Fld := ⟨28, 0x08C, 0, 15, 0, .rcl, 0⟩
abbrev R.CAN_RETRY.desc : RegDesc := ⟨0x08C, 0, 1, [R.CAN_RETRY.HI, R.CAN_RETRY.LO]⟩
abbrev R.CAN_RETRY.all : Fld := ⟨28, 0x08C, 0, 31, 0, .ro, 0⟩
abbrev R.CAN_RXLOSS.HI : Fld := ⟨28, 0x090, 0, 31, 16, .rcl, 0⟩
abbrev R.CAN_RXLOSS.LO : Fld := ⟨28, 0x090, 0, 15, 0, .rcl, 0⟩
abbrev R.CAN_RXLOSS.desc : RegDesc := ⟨0x090, 0, 1, [R.CAN_RXLOSS.HI, R.CAN_RXLOSS.LO]⟩
abbrev R.CAN_RXLOSS.all : Fld := ⟨28, 0x090, 0, 31, 0, .ro, 0⟩
abbrev R.CAN_BUSERR.HI : Fld := ⟨28, 0x094, 0, 31, 16, .rcl, 0⟩
abbrev R.CAN_BUSERR.LO : Fld := ⟨28, 0x094, 0, 15, 0, .rcl, 0⟩
abbrev R.CAN_BUSERR.desc : RegDesc := ⟨0x094, 0, 1, [R.CAN_BUSERR.HI, R.CAN_BUSERR.LO]⟩
abbrev R.CAN_BUSERR.all : Fld := ⟨28, 0x094, 0, 31, 0, .ro, 0⟩
abbrev R.CAN_LOOP.RESTART : Fld := ⟨28, 0x098, 0, 31, 31, .wo, 0⟩
abbrev R.CAN_LOOP.MAX : Fld := ⟨28, 0x098, 0, 23, 16, .ro, 0⟩
abbrev R.CAN_LOOP.MIN : Fld := ⟨28, 0x098, 0, 15, 8, .ro, 255⟩
abbrev R.CAN_LOOP.LAST : Fld := ⟨28, 0x098, 0, 7, 0, .ro, 0⟩
abbrev R.CAN_LOOP.desc : RegDesc := ⟨0x098, 0, 1, [R.CAN_LOOP.RESTART, R.CAN_LOOP.MAX, R.CAN_LOOP.MIN, R.CAN_LOOP.LAST]⟩
abbrev R.CAN_LOOP.all : Fld := ⟨28, 0x098, 0, 31, 0, .ro, 0⟩
abbrev R.CAN_WK_CFG.EDGE_EN : Fld := ⟨28, 0x0A0, 0, 31, 31, .rw, 0⟩
abbrev R.CAN_WK_CFG.FRAME_EN : Fld := ⟨28, 0x0A0, 0, 30, 30, .rw, 0⟩
abbrev R.CAN_WK_CFG.ERR_EN : Fld := ⟨28, 0x0A0, 0, 29, 29, .rw, 0⟩
abbrev R.CAN_WK_CFG.DLC_EN : Fld := ⟨28, 0x0A0, 0, 28, 28, .rw, 0⟩
abbrev R.CAN_WK_CFG.DATA_EN : Fld := ⟨28, 0x0A0, 0, 27, 27, .rw, 0⟩
abbrev R.CAN_WK_CFG.XTD : Fld := ⟨28, 0x0A0, 0, 26, 26, .rw, 0⟩
abbrev R.CAN_WK_CFG.TFILT : Fld := ⟨28, 0x0A0, 0, 13, 8, .rw, 10⟩
abbrev R.CAN_WK_CFG.DLC : Fld := ⟨28, 0x0A0, 0, 3, 0, .rw, 0⟩
abbrev R.CAN_WK_CFG.desc : RegDesc := ⟨0x0A0, 0, 1, [R.CAN_WK_CFG.EDGE_EN, R.CAN_WK_CFG.FRAME_EN, R.CAN_WK_CFG.ERR_EN, R.CAN_WK_CFG.DLC_EN, R.CAN_WK_CFG.DATA_EN, R.CAN_WK_CFG.XTD, R.CAN_WK_CFG.TFILT, R.CAN_WK_CFG.DLC]⟩
abbrev R.CAN_WK_CFG.all : Fld := ⟨28, 0x0A0, 0, 31, 0, .ro, 0⟩
abbrev R.CAN_WK_ID.ID : Fld := ⟨28, 0x0A4, 0, 28, 0, .rw, 0⟩
abbrev R.CAN_WK_ID.desc : RegDesc := ⟨0x0A4, 0, 1, [R.CAN_WK_ID.ID]⟩
abbrev R.CAN_WK_ID.all : Fld := ⟨28, 0x0A4, 0, 31, 0, .ro, 0⟩
abbrev R.CAN_WK_IDMASK.ID : Fld := ⟨28, 0x0A8, 0, 28, 0, .rw, 0⟩
abbrev R.CAN_WK_IDMASK.desc : RegDesc := ⟨0x0A8, 0, 1, [R.CAN_WK_IDMASK.ID]⟩
abbrev R.CAN_WK_IDMASK.all : Fld := ⟨28, 0x0A8, 0, 31, 0, .ro, 0⟩
abbrev R.CAN_WK_FID.ID : Fld := ⟨28, 0x0AC, 0, 28, 0, .ro, 0⟩
abbrev R.CAN_WK_FID.desc : RegDesc := ⟨0x0AC, 0, 1, [R.CAN_WK_FID.ID]⟩
abbrev R.CAN_WK_FID.all : Fld := ⟨28, 0x0AC, 0, 31, 0, .ro, 0⟩
abbrev R.CAN_WK_DATA_LO.MASK : Fld := ⟨28, 0x0B0, 0, 31, 0, .rw, 0⟩
abbrev R.CAN_WK_DATA_LO.desc : RegDesc := ⟨0x0B0, 0, 1, [R.CAN_WK_DATA_LO.MASK]⟩
abbrev R.CAN_WK_DATA_LO.all : Fld := ⟨28, 0x0B0, 0, 31, 0, .ro, 0⟩
abbrev R.CAN_WK_DATA_HI.MASK : Fld := ⟨28, 0x0B4, 0, 31, 0, .rw, 0⟩
abbrev R.CAN_WK_DATA_HI.desc : RegDesc := ⟨0x0B4, 0, 1, [R.CAN_WK_DATA_HI.MASK]⟩
abbrev R.CAN_WK_DATA_HI.all : Fld := ⟨28, 0x0B4, 0, 31, 0, .ro, 0⟩
abbrev R.CAN_WK_STATUS.WOKE : Fld := ⟨28, 0x0B8, 0, 31, 31, .w1c, 0⟩
abbrev R.CAN_WK_STATUS.KIND : Fld := ⟨28, 0x0B8, 0, 30, 29, .ro, 0⟩
abbrev R.CAN_WK_STATUS.FEC : Fld := ⟨28, 0x0B8, 0, 13, 8, .ro, 0⟩
abbrev R.CAN_WK_STATUS.DLC : Fld := ⟨28, 0x0B8, 0, 3, 0, .ro, 0⟩
abbrev R.CAN_WK_STATUS.desc : RegDesc := ⟨0x0B8, 0, 1, [R.CAN_WK_STATUS.WOKE, R.CAN_WK_STATUS.KIND, R.CAN_WK_STATUS.FEC, R.CAN_WK_STATUS.DLC]⟩
abbrev R.CAN_WK_STATUS.all : Fld := ⟨28, 0x0B8, 0, 31, 0, .ro, 0⟩

/-! Page type core. -/
abbrev R.CC_CTRL.DBG_EN : Fld := ⟨64, 0x040, 0, 1, 1, .rw, 0⟩
abbrev R.CC_CTRL.RUN : Fld := ⟨64, 0x040, 0, 0, 0, .rw, 0⟩
abbrev R.CC_CTRL.desc : RegDesc := ⟨0x040, 0, 1, [R.CC_CTRL.DBG_EN, R.CC_CTRL.RUN]⟩
abbrev R.CC_CTRL.all : Fld := ⟨64, 0x040, 0, 31, 0, .ro, 0⟩
abbrev R.CC_STATUS.STATE : Fld := ⟨64, 0x044, 0, 31, 29, .ro, 0⟩
abbrev R.CC_STATUS.LEVEL : Fld := ⟨64, 0x044, 0, 28, 27, .ro, 0⟩
abbrev R.CC_STATUS.FAULTS : Fld := ⟨64, 0x044, 0, 7, 0, .rcl, 0⟩
abbrev R.CC_STATUS.desc : RegDesc := ⟨0x044, 0, 1, [R.CC_STATUS.STATE, R.CC_STATUS.LEVEL, R.CC_STATUS.FAULTS]⟩
abbrev R.CC_STATUS.all : Fld := ⟨64, 0x044, 0, 31, 0, .ro, 0⟩
abbrev R.CC_PC.PC : Fld := ⟨64, 0x048, 0, 31, 0, .ro, 0⟩
abbrev R.CC_PC.desc : RegDesc := ⟨0x048, 0, 1, [R.CC_PC.PC]⟩
abbrev R.CC_PC.all : Fld := ⟨64, 0x048, 0, 31, 0, .ro, 0⟩
abbrev R.CC_FAULT_PC.EPC : Fld := ⟨64, 0x04C, 0, 31, 0, .ro, 0⟩
abbrev R.CC_FAULT_PC.desc : RegDesc := ⟨0x04C, 0, 1, [R.CC_FAULT_PC.EPC]⟩
abbrev R.CC_FAULT_PC.all : Fld := ⟨64, 0x04C, 0, 31, 0, .ro, 0⟩
abbrev R.CC_FAULT_INFO.VALID : Fld := ⟨64, 0x050, 0, 31, 31, .ro, 0⟩
abbrev R.CC_FAULT_INFO.FCAUSE : Fld := ⟨64, 0x050, 0, 5, 0, .ro, 0⟩
abbrev R.CC_FAULT_INFO.desc : RegDesc := ⟨0x050, 0, 1, [R.CC_FAULT_INFO.VALID, R.CC_FAULT_INFO.FCAUSE]⟩
abbrev R.CC_FAULT_INFO.all : Fld := ⟨64, 0x050, 0, 31, 0, .ro, 0⟩
abbrev R.CC_FAULT_ADDR.FADDR : Fld := ⟨64, 0x054, 0, 31, 0, .ro, 0⟩
abbrev R.CC_FAULT_ADDR.desc : RegDesc := ⟨0x054, 0, 1, [R.CC_FAULT_ADDR.FADDR]⟩
abbrev R.CC_FAULT_ADDR.all : Fld := ⟨64, 0x054, 0, 31, 0, .ro, 0⟩
abbrev R.CC_RAM_ADDR.INC : Fld := ⟨64, 0x058, 0, 31, 31, .rw, 0⟩
abbrev R.CC_RAM_ADDR.SPACE : Fld := ⟨64, 0x058, 0, 15, 15, .rw, 0⟩
abbrev R.CC_RAM_ADDR.OFFSET : Fld := ⟨64, 0x058, 0, 14, 2, .rw, 0⟩
abbrev R.CC_RAM_ADDR.desc : RegDesc := ⟨0x058, 0, 1, [R.CC_RAM_ADDR.INC, R.CC_RAM_ADDR.SPACE, R.CC_RAM_ADDR.OFFSET]⟩
abbrev R.CC_RAM_ADDR.all : Fld := ⟨64, 0x058, 0, 31, 0, .ro, 0⟩
abbrev R.CC_RAM_DATA.DATA : Fld := ⟨64, 0x05C, 0, 31, 0, .rw, 0⟩
abbrev R.CC_RAM_DATA.desc : RegDesc := ⟨0x05C, 0, 1, [R.CC_RAM_DATA.DATA]⟩
abbrev R.CC_RAM_DATA.all : Fld := ⟨64, 0x05C, 0, 31, 0, .ro, 0⟩
abbrev R.CC_OPS.OPS : Fld := ⟨64, 0x060, 0, 31, 0, .rcl, 0⟩
abbrev R.CC_OPS.desc : RegDesc := ⟨0x060, 0, 1, [R.CC_OPS.OPS]⟩
abbrev R.CC_OPS.all : Fld := ⟨64, 0x060, 0, 31, 0, .ro, 0⟩

/-! Page type icCore. -/
abbrev R.IC_CCTRL.UEN : Fld := ⟨96, 0x040, 0, 1, 1, .rw, 0⟩
abbrev R.IC_CCTRL.NEN : Fld := ⟨96, 0x040, 0, 0, 0, .rw, 0⟩
abbrev R.IC_CCTRL.desc : RegDesc := ⟨0x040, 0, 1, [R.IC_CCTRL.UEN, R.IC_CCTRL.NEN]⟩
abbrev R.IC_CCTRL.all : Fld := ⟨96, 0x040, 0, 31, 0, .ro, 0⟩
abbrev R.IC_SPURIOUS.URGENT : Fld := ⟨96, 0x044, 0, 31, 16, .rcl, 0⟩
abbrev R.IC_SPURIOUS.NORMAL : Fld := ⟨96, 0x044, 0, 15, 0, .rcl, 0⟩
abbrev R.IC_SPURIOUS.desc : RegDesc := ⟨0x044, 0, 1, [R.IC_SPURIOUS.URGENT, R.IC_SPURIOUS.NORMAL]⟩
abbrev R.IC_SPURIOUS.all : Fld := ⟨96, 0x044, 0, 31, 0, .ro, 0⟩
abbrev R.IC_PEN_LO.EN : Fld := ⟨96, 0x048, 0, 31, 0, .rw, 0⟩
abbrev R.IC_PEN_LO.desc : RegDesc := ⟨0x048, 0, 1, [R.IC_PEN_LO.EN]⟩
abbrev R.IC_PEN_LO.all : Fld := ⟨96, 0x048, 0, 31, 0, .ro, 0⟩
abbrev R.IC_PEN_HI.EN : Fld := ⟨96, 0x04C, 0, 31, 0, .rw, 0⟩
abbrev R.IC_PEN_HI.desc : RegDesc := ⟨0x04C, 0, 1, [R.IC_PEN_HI.EN]⟩
abbrev R.IC_PEN_HI.all : Fld := ⟨96, 0x04C, 0, 31, 0, .ro, 0⟩
abbrev R.IC_PLINE_LO.URGENT : Fld := ⟨96, 0x050, 0, 31, 0, .rw, 0⟩
abbrev R.IC_PLINE_LO.desc : RegDesc := ⟨0x050, 0, 1, [R.IC_PLINE_LO.URGENT]⟩
abbrev R.IC_PLINE_LO.all : Fld := ⟨96, 0x050, 0, 31, 0, .ro, 0⟩
abbrev R.IC_PLINE_HI.URGENT : Fld := ⟨96, 0x054, 0, 31, 0, .rw, 0⟩
abbrev R.IC_PLINE_HI.desc : RegDesc := ⟨0x054, 0, 1, [R.IC_PLINE_HI.URGENT]⟩
abbrev R.IC_PLINE_HI.all : Fld := ⟨96, 0x054, 0, 31, 0, .ro, 0⟩
abbrev R.IC_PPEND_LO.PEND : Fld := ⟨96, 0x058, 0, 31, 0, .ro, 0⟩
abbrev R.IC_PPEND_LO.desc : RegDesc := ⟨0x058, 0, 1, [R.IC_PPEND_LO.PEND]⟩
abbrev R.IC_PPEND_LO.all : Fld := ⟨96, 0x058, 0, 31, 0, .ro, 0⟩
abbrev R.IC_PPEND_HI.PEND : Fld := ⟨96, 0x05C, 0, 31, 0, .ro, 0⟩
abbrev R.IC_PPEND_HI.desc : RegDesc := ⟨0x05C, 0, 1, [R.IC_PPEND_HI.PEND]⟩
abbrev R.IC_PPEND_HI.all : Fld := ⟨96, 0x05C, 0, 31, 0, .ro, 0⟩
abbrev R.IC_PACT_LO.ACT : Fld := ⟨96, 0x060, 0, 31, 0, .ro, 0⟩
abbrev R.IC_PACT_LO.desc : RegDesc := ⟨0x060, 0, 1, [R.IC_PACT_LO.ACT]⟩
abbrev R.IC_PACT_LO.all : Fld := ⟨96, 0x060, 0, 31, 0, .ro, 0⟩
abbrev R.IC_PACT_HI.ACT : Fld := ⟨96, 0x064, 0, 31, 0, .ro, 0⟩
abbrev R.IC_PACT_HI.desc : RegDesc := ⟨0x064, 0, 1, [R.IC_PACT_HI.ACT]⟩
abbrev R.IC_PACT_HI.all : Fld := ⟨96, 0x064, 0, 31, 0, .ro, 0⟩
abbrev R.IC_PTRIG.CLR : Fld := ⟨96, 0x068, 0, 7, 7, .wo, 0⟩
abbrev R.IC_PTRIG.SRC : Fld := ⟨96, 0x068, 0, 5, 0, .wo, 0⟩
abbrev R.IC_PTRIG.desc : RegDesc := ⟨0x068, 0, 1, [R.IC_PTRIG.CLR, R.IC_PTRIG.SRC]⟩
abbrev R.IC_PTRIG.all : Fld := ⟨96, 0x068, 0, 31, 0, .ro, 0⟩
abbrev R.IC_NNEXT_PEEK.NONE : Fld := ⟨96, 0x070, 0, 31, 31, .ro, 1⟩
abbrev R.IC_NNEXT_PEEK.SRC : Fld := ⟨96, 0x070, 0, 9, 0, .ro, 0⟩
abbrev R.IC_NNEXT_PEEK.desc : RegDesc := ⟨0x070, 0, 1, [R.IC_NNEXT_PEEK.NONE, R.IC_NNEXT_PEEK.SRC]⟩
abbrev R.IC_NNEXT_PEEK.all : Fld := ⟨96, 0x070, 0, 31, 0, .ro, 0⟩
abbrev R.IC_NNEXT_POP.NONE : Fld := ⟨96, 0x074, 0, 31, 31, .ro, 1⟩
abbrev R.IC_NNEXT_POP.SRC : Fld := ⟨96, 0x074, 0, 9, 0, .ro, 0⟩
abbrev R.IC_NNEXT_POP.desc : RegDesc := ⟨0x074, 0, 1, [R.IC_NNEXT_POP.NONE, R.IC_NNEXT_POP.SRC]⟩
abbrev R.IC_NNEXT_POP.all : Fld := ⟨96, 0x074, 0, 31, 0, .ro, 0⟩
abbrev R.IC_UNEXT_PEEK.NONE : Fld := ⟨96, 0x078, 0, 31, 31, .ro, 1⟩
abbrev R.IC_UNEXT_PEEK.SRC : Fld := ⟨96, 0x078, 0, 9, 0, .ro, 0⟩
abbrev R.IC_UNEXT_PEEK.desc : RegDesc := ⟨0x078, 0, 1, [R.IC_UNEXT_PEEK.NONE, R.IC_UNEXT_PEEK.SRC]⟩
abbrev R.IC_UNEXT_PEEK.all : Fld := ⟨96, 0x078, 0, 31, 0, .ro, 0⟩
abbrev R.IC_UNEXT_POP.NONE : Fld := ⟨96, 0x07C, 0, 31, 31, .ro, 1⟩
abbrev R.IC_UNEXT_POP.SRC : Fld := ⟨96, 0x07C, 0, 9, 0, .ro, 0⟩
abbrev R.IC_UNEXT_POP.desc : RegDesc := ⟨0x07C, 0, 1, [R.IC_UNEXT_POP.NONE, R.IC_UNEXT_POP.SRC]⟩
abbrev R.IC_UNEXT_POP.all : Fld := ⟨96, 0x07C, 0, 31, 0, .ro, 0⟩
abbrev R.IC_EOI.SRC : Fld := ⟨96, 0x080, 0, 9, 0, .wo, 0⟩
abbrev R.IC_EOI.desc : RegDesc := ⟨0x080, 0, 1, [R.IC_EOI.SRC]⟩
abbrev R.IC_EOI.all : Fld := ⟨96, 0x080, 0, 31, 0, .ro, 0⟩
abbrev R.IC_DB_LO.DB : Fld := ⟨96, 0x090, 0, 31, 0, .w1c, 0⟩
abbrev R.IC_DB_LO.desc : RegDesc := ⟨0x090, 0, 1, [R.IC_DB_LO.DB]⟩
abbrev R.IC_DB_LO.all : Fld := ⟨96, 0x090, 0, 31, 0, .ro, 0⟩
abbrev R.IC_DB_HI.DB : Fld := ⟨96, 0x094, 0, 31, 0, .w1c, 0⟩
abbrev R.IC_DB_HI.desc : RegDesc := ⟨0x094, 0, 1, [R.IC_DB_HI.DB]⟩
abbrev R.IC_DB_HI.all : Fld := ⟨96, 0x094, 0, 31, 0, .ro, 0⟩
abbrev R.IC_DB_SET_LO.SET : Fld := ⟨96, 0x098, 0, 31, 0, .wo, 0⟩
abbrev R.IC_DB_SET_LO.desc : RegDesc := ⟨0x098, 0, 1, [R.IC_DB_SET_LO.SET]⟩
abbrev R.IC_DB_SET_LO.all : Fld := ⟨96, 0x098, 0, 31, 0, .ro, 0⟩
abbrev R.IC_DB_SET_HI.SET : Fld := ⟨96, 0x09C, 0, 31, 0, .wo, 0⟩
abbrev R.IC_DB_SET_HI.desc : RegDesc := ⟨0x09C, 0, 1, [R.IC_DB_SET_HI.SET]⟩
abbrev R.IC_DB_SET_HI.all : Fld := ⟨96, 0x09C, 0, 31, 0, .ro, 0⟩
abbrev R.IC_DB_EN_LO.EN : Fld := ⟨96, 0x0A0, 0, 31, 0, .rw, 0⟩
abbrev R.IC_DB_EN_LO.desc : RegDesc := ⟨0x0A0, 0, 1, [R.IC_DB_EN_LO.EN]⟩
abbrev R.IC_DB_EN_LO.all : Fld := ⟨96, 0x0A0, 0, 31, 0, .ro, 0⟩
abbrev R.IC_DB_EN_HI.EN : Fld := ⟨96, 0x0A4, 0, 31, 0, .rw, 0⟩
abbrev R.IC_DB_EN_HI.desc : RegDesc := ⟨0x0A4, 0, 1, [R.IC_DB_EN_HI.EN]⟩
abbrev R.IC_DB_EN_HI.all : Fld := ⟨96, 0x0A4, 0, 31, 0, .ro, 0⟩

/-! Page type engine. -/
abbrev R.engine_INT.SWAPPED : Fld := ⟨128, 0x010, 0, 7, 7, .w1c, 0⟩
abbrev R.engine_INT.PARTIAL_LOST : Fld := ⟨128, 0x010, 0, 6, 6, .w1c, 0⟩
abbrev R.engine_INT.TX_FULL : Fld := ⟨128, 0x010, 0, 5, 5, .w1c, 0⟩
abbrev R.engine_INT.TX_UNF : Fld := ⟨128, 0x010, 0, 4, 4, .w1c, 0⟩
abbrev R.engine_INT.RX_OVF : Fld := ⟨128, 0x010, 0, 3, 3, .w1c, 0⟩
abbrev R.engine_INT.EV3_EV1 : Fld := ⟨128, 0x010, 0, 2, 0, .w1c, 0⟩
abbrev R.engine_INT.desc : RegDesc := ⟨0x010, 0, 1, [R.engine_INT.SWAPPED, R.engine_INT.PARTIAL_LOST, R.engine_INT.TX_FULL, R.engine_INT.TX_UNF, R.engine_INT.RX_OVF, R.engine_INT.EV3_EV1]⟩
abbrev R.engine_INT.all : Fld := ⟨128, 0x010, 0, 31, 0, .ro, 0⟩
abbrev R.PE_ECTRL.ARM : Fld := ⟨128, 0x040, 0, 2, 2, .w1s, 0⟩
abbrev R.PE_ECTRL.DISARM : Fld := ⟨128, 0x040, 0, 1, 1, .wo, 0⟩
abbrev R.PE_ECTRL.STOP : Fld := ⟨128, 0x040, 0, 0, 0, .wo, 0⟩
abbrev R.PE_ECTRL.desc : RegDesc := ⟨0x040, 0, 1, [R.PE_ECTRL.ARM, R.PE_ECTRL.DISARM, R.PE_ECTRL.STOP]⟩
abbrev R.PE_ECTRL.all : Fld := ⟨128, 0x040, 0, 31, 0, .ro, 0⟩
abbrev R.PE_STATUS.STATE : Fld := ⟨128, 0x044, 0, 31, 30, .ro, 0⟩
abbrev R.PE_STATUS.BANK : Fld := ⟨128, 0x044, 0, 29, 29, .ro, 0⟩
abbrev R.PE_STATUS.ARMED : Fld := ⟨128, 0x044, 0, 28, 28, .ro, 0⟩
abbrev R.PE_STATUS.RXCNT : Fld := ⟨128, 0x044, 0, 27, 24, .ro, 0⟩
abbrev R.PE_STATUS.TXCNT : Fld := ⟨128, 0x044, 0, 23, 20, .ro, 0⟩
abbrev R.PE_STATUS.SCNT : Fld := ⟨128, 0x044, 0, 19, 16, .ro, 0⟩
abbrev R.PE_STATUS.HOLD : Fld := ⟨128, 0x044, 0, 15, 8, .ro, 0⟩
abbrev R.PE_STATUS.WIP : Fld := ⟨128, 0x044, 0, 7, 7, .ro, 0⟩
abbrev R.PE_STATUS.STEP : Fld := ⟨128, 0x044, 0, 6, 0, .ro, 0⟩
abbrev R.PE_STATUS.desc : RegDesc := ⟨0x044, 0, 1, [R.PE_STATUS.STATE, R.PE_STATUS.BANK, R.PE_STATUS.ARMED, R.PE_STATUS.RXCNT, R.PE_STATUS.TXCNT, R.PE_STATUS.SCNT, R.PE_STATUS.HOLD, R.PE_STATUS.WIP, R.PE_STATUS.STEP]⟩
abbrev R.PE_STATUS.all : Fld := ⟨128, 0x044, 0, 31, 0, .ro, 0⟩
abbrev R.PE_CFG.SS_EN : Fld := ⟨128, 0x048, 0, 31, 31, .rw, 0⟩
abbrev R.PE_CFG.SS_COMP : Fld := ⟨128, 0x048, 0, 29, 24, .rw, 0⟩
abbrev R.PE_CFG.OSRC : Fld := ⟨128, 0x048, 0, 0, 0, .rw, 0⟩
abbrev R.PE_CFG.desc : RegDesc := ⟨0x048, 0, 1, [R.PE_CFG.SS_EN, R.PE_CFG.SS_COMP, R.PE_CFG.OSRC]⟩
abbrev R.PE_CFG.all : Fld := ⟨128, 0x048, 0, 31, 0, .ro, 0⟩
abbrev R.PE_DIV.INT : Fld := ⟨128, 0x04C, 0, 23, 8, .rw, 1⟩
abbrev R.PE_DIV.FRAC : Fld := ⟨128, 0x04C, 0, 7, 0, .rw, 0⟩
abbrev R.PE_DIV.desc : RegDesc := ⟨0x04C, 0, 1, [R.PE_DIV.INT, R.PE_DIV.FRAC]⟩
abbrev R.PE_DIV.all : Fld := ⟨128, 0x04C, 0, 31, 0, .ro, 0⟩
abbrev R.PE_CNT.COUNT : Fld := ⟨128, 0x050, 0, 15, 0, .rw, 0⟩
abbrev R.PE_CNT.desc : RegDesc := ⟨0x050, 0, 1, [R.PE_CNT.COUNT]⟩
abbrev R.PE_CNT.all : Fld := ⟨128, 0x050, 0, 31, 0, .ro, 0⟩
abbrev R.PE_CNT_RELOAD.COUNT : Fld := ⟨128, 0x054, 0, 15, 0, .rw, 0⟩
abbrev R.PE_CNT_RELOAD.desc : RegDesc := ⟨0x054, 0, 1, [R.PE_CNT_RELOAD.COUNT]⟩
abbrev R.PE_CNT_RELOAD.all : Fld := ⟨128, 0x054, 0, 31, 0, .ro, 0⟩
abbrev R.PE_CNTLAT.COUNT : Fld := ⟨128, 0x058, 0, 15, 0, .ro, 0⟩
abbrev R.PE_CNTLAT.desc : RegDesc := ⟨0x058, 0, 1, [R.PE_CNTLAT.COUNT]⟩
abbrev R.PE_CNTLAT.all : Fld := ⟨128, 0x058, 0, 31, 0, .ro, 0⟩
abbrev R.PE_SHREG.SHIFT : Fld := ⟨128, 0x05C, 0, 11, 0, .ro, 0⟩
abbrev R.PE_SHREG.desc : RegDesc := ⟨0x05C, 0, 1, [R.PE_SHREG.SHIFT]⟩
abbrev R.PE_SHREG.all : Fld := ⟨128, 0x05C, 0, 31, 0, .ro, 0⟩
abbrev R.PE_TX_PUSH.DATA : Fld := ⟨128, 0x060, 0, 11, 0, .wo, 0⟩
abbrev R.PE_TX_PUSH.desc : RegDesc := ⟨0x060, 0, 1, [R.PE_TX_PUSH.DATA]⟩
abbrev R.PE_TX_PUSH.all : Fld := ⟨128, 0x060, 0, 31, 0, .ro, 0⟩
abbrev R.PE_RX_PEEK.EMPTY : Fld := ⟨128, 0x064, 0, 31, 31, .ro, 1⟩
abbrev R.PE_RX_PEEK.DATA : Fld := ⟨128, 0x064, 0, 11, 0, .ro, 0⟩
abbrev R.PE_RX_PEEK.desc : RegDesc := ⟨0x064, 0, 1, [R.PE_RX_PEEK.EMPTY, R.PE_RX_PEEK.DATA]⟩
abbrev R.PE_RX_PEEK.all : Fld := ⟨128, 0x064, 0, 31, 0, .ro, 0⟩
abbrev R.PE_RX_POP.EMPTY : Fld := ⟨128, 0x068, 0, 31, 31, .ro, 1⟩
abbrev R.PE_RX_POP.DATA : Fld := ⟨128, 0x068, 0, 11, 0, .ro, 0⟩
abbrev R.PE_RX_POP.desc : RegDesc := ⟨0x068, 0, 1, [R.PE_RX_POP.EMPTY, R.PE_RX_POP.DATA]⟩
abbrev R.PE_RX_POP.all : Fld := ⟨128, 0x068, 0, 31, 0, .ro, 0⟩
abbrev R.PE_STAGE.QUAL : Fld := ⟨128, 0x06C, 0, 15, 12, .wo, 0⟩
abbrev R.PE_STAGE.VALUE : Fld := ⟨128, 0x06C, 0, 11, 0, .rw, 0⟩
abbrev R.PE_STAGE.desc : RegDesc := ⟨0x06C, 0, 1, [R.PE_STAGE.QUAL, R.PE_STAGE.VALUE]⟩
abbrev R.PE_STAGE.all : Fld := ⟨128, 0x06C, 0, 31, 0, .ro, 0⟩
abbrev R.PE_OBIND.EN : Fld := ⟨128, 0x070, 0, 31, 31, .rw, 0⟩
abbrev R.PE_OBIND.INDEX : Fld := ⟨128, 0x070, 0, 11, 0, .rw, 0⟩
abbrev R.PE_OBIND.desc : RegDesc := ⟨0x070, 0, 1, [R.PE_OBIND.EN, R.PE_OBIND.INDEX]⟩
abbrev R.PE_OBIND.all : Fld := ⟨128, 0x070, 0, 31, 0, .ro, 0⟩
abbrev R.PE_EVMBX.EN3 : Fld := ⟨128, 0x074, 0, 23, 23, .rw, 0⟩
abbrev R.PE_EVMBX.CH3 : Fld := ⟨128, 0x074, 0, 21, 16, .rw, 0⟩
abbrev R.PE_EVMBX.EN2 : Fld := ⟨128, 0x074, 0, 15, 15, .rw, 0⟩
abbrev R.PE_EVMBX.CH2 : Fld := ⟨128, 0x074, 0, 13, 8, .rw, 0⟩
abbrev R.PE_EVMBX.EN1 : Fld := ⟨128, 0x074, 0, 7, 7, .rw, 0⟩
abbrev R.PE_EVMBX.CH1 : Fld := ⟨128, 0x074, 0, 5, 0, .rw, 0⟩
abbrev R.PE_EVMBX.desc : RegDesc := ⟨0x074, 0, 1, [R.PE_EVMBX.EN3, R.PE_EVMBX.CH3, R.PE_EVMBX.EN2, R.PE_EVMBX.CH2, R.PE_EVMBX.EN1, R.PE_EVMBX.CH1]⟩
abbrev R.PE_EVMBX.all : Fld := ⟨128, 0x074, 0, 31, 0, .ro, 0⟩
abbrev R.PE_ERRCNT.TX_FULL : Fld := ⟨128, 0x078, 0, 31, 24, .rcl, 0⟩
abbrev R.PE_ERRCNT.TX_UNF : Fld := ⟨128, 0x078, 0, 23, 16, .rcl, 0⟩
abbrev R.PE_ERRCNT.RX_OVF : Fld := ⟨128, 0x078, 0, 15, 8, .rcl, 0⟩
abbrev R.PE_ERRCNT.RX_EMPTY : Fld := ⟨128, 0x078, 0, 7, 0, .rcl, 0⟩
abbrev R.PE_ERRCNT.desc : RegDesc := ⟨0x078, 0, 1, [R.PE_ERRCNT.TX_FULL, R.PE_ERRCNT.TX_UNF, R.PE_ERRCNT.RX_OVF, R.PE_ERRCNT.RX_EMPTY]⟩
abbrev R.PE_ERRCNT.all : Fld := ⟨128, 0x078, 0, 31, 0, .ro, 0⟩
abbrev R.PE_S_INSEL.IN3 : Fld := ⟨128, 0x080, 0, 29, 24, .rw, 48⟩
abbrev R.PE_S_INSEL.IN2 : Fld := ⟨128, 0x080, 0, 21, 16, .rw, 48⟩
abbrev R.PE_S_INSEL.IN1 : Fld := ⟨128, 0x080, 0, 13, 8, .rw, 48⟩
abbrev R.PE_S_INSEL.IN0 : Fld := ⟨128, 0x080, 0, 5, 0, .rw, 48⟩
abbrev R.PE_S_INSEL.desc : RegDesc := ⟨0x080, 0, 1, [R.PE_S_INSEL.IN3, R.PE_S_INSEL.IN2, R.PE_S_INSEL.IN1, R.PE_S_INSEL.IN0]⟩
abbrev R.PE_S_INSEL.all : Fld := ⟨128, 0x080, 0, 31, 0, .ro, 0⟩
abbrev R.PE_A_INSEL.IN3 : Fld := ⟨128, 0x090, 0, 29, 24, .ro, 48⟩
abbrev R.PE_A_INSEL.IN2 : Fld := ⟨128, 0x090, 0, 21, 16, .ro, 48⟩
abbrev R.PE_A_INSEL.IN1 : Fld := ⟨128, 0x090, 0, 13, 8, .ro, 48⟩
abbrev R.PE_A_INSEL.IN0 : Fld := ⟨128, 0x090, 0, 5, 0, .ro, 48⟩
abbrev R.PE_A_INSEL.desc : RegDesc := ⟨0x090, 0, 1, [R.PE_A_INSEL.IN3, R.PE_A_INSEL.IN2, R.PE_A_INSEL.IN1, R.PE_A_INSEL.IN0]⟩
abbrev R.PE_A_INSEL.all : Fld := ⟨128, 0x090, 0, 31, 0, .ro, 0⟩
abbrev R.PE_S_WRAP.END : Fld := ⟨128, 0x084, 0, 14, 8, .rw, 127⟩
abbrev R.PE_S_WRAP.START : Fld := ⟨128, 0x084, 0, 6, 0, .rw, 0⟩
abbrev R.PE_S_WRAP.desc : RegDesc := ⟨0x084, 0, 1, [R.PE_S_WRAP.END, R.PE_S_WRAP.START]⟩
abbrev R.PE_S_WRAP.all : Fld := ⟨128, 0x084, 0, 31, 0, .ro, 0⟩
abbrev R.PE_A_WRAP.END : Fld := ⟨128, 0x094, 0, 14, 8, .ro, 127⟩
abbrev R.PE_A_WRAP.START : Fld := ⟨128, 0x094, 0, 6, 0, .ro, 0⟩
abbrev R.PE_A_WRAP.desc : RegDesc := ⟨0x094, 0, 1, [R.PE_A_WRAP.END, R.PE_A_WRAP.START]⟩
abbrev R.PE_A_WRAP.all : Fld := ⟨128, 0x094, 0, 31, 0, .ro, 0⟩
abbrev R.PE_S_SHIFT.SOUT_EN : Fld := ⟨128, 0x088, 0, 31, 31, .rw, 0⟩
abbrev R.PE_S_SHIFT.SOUT_OUT : Fld := ⟨128, 0x088, 0, 26, 24, .rw, 0⟩
abbrev R.PE_S_SHIFT.SIN : Fld := ⟨128, 0x088, 0, 21, 16, .rw, 0⟩
abbrev R.PE_S_SHIFT.SFILL : Fld := ⟨128, 0x088, 0, 9, 9, .rw, 0⟩
abbrev R.PE_S_SHIFT.DIR : Fld := ⟨128, 0x088, 0, 8, 8, .rw, 0⟩
abbrev R.PE_S_SHIFT.SLEN : Fld := ⟨128, 0x088, 0, 3, 0, .rw, 12⟩
abbrev R.PE_S_SHIFT.desc : RegDesc := ⟨0x088, 0, 1, [R.PE_S_SHIFT.SOUT_EN, R.PE_S_SHIFT.SOUT_OUT, R.PE_S_SHIFT.SIN, R.PE_S_SHIFT.SFILL, R.PE_S_SHIFT.DIR, R.PE_S_SHIFT.SLEN]⟩
abbrev R.PE_S_SHIFT.all : Fld := ⟨128, 0x088, 0, 31, 0, .ro, 0⟩
abbrev R.PE_A_SHIFT.SOUT_EN : Fld := ⟨128, 0x098, 0, 31, 31, .ro, 0⟩
abbrev R.PE_A_SHIFT.SOUT_OUT : Fld := ⟨128, 0x098, 0, 26, 24, .ro, 0⟩
abbrev R.PE_A_SHIFT.SIN : Fld := ⟨128, 0x098, 0, 21, 16, .ro, 0⟩
abbrev R.PE_A_SHIFT.SFILL : Fld := ⟨128, 0x098, 0, 9, 9, .ro, 0⟩
abbrev R.PE_A_SHIFT.DIR : Fld := ⟨128, 0x098, 0, 8, 8, .ro, 0⟩
abbrev R.PE_A_SHIFT.SLEN : Fld := ⟨128, 0x098, 0, 3, 0, .ro, 12⟩
abbrev R.PE_A_SHIFT.desc : RegDesc := ⟨0x098, 0, 1, [R.PE_A_SHIFT.SOUT_EN, R.PE_A_SHIFT.SOUT_OUT, R.PE_A_SHIFT.SIN, R.PE_A_SHIFT.SFILL, R.PE_A_SHIFT.DIR, R.PE_A_SHIFT.SLEN]⟩
abbrev R.PE_A_SHIFT.all : Fld := ⟨128, 0x098, 0, 31, 0, .ro, 0⟩
abbrev R.PE_STEP_LOn.WORD : Fld := ⟨128, 0x400, 8, 31, 0, .rw, 0⟩
abbrev R.PE_STEP_LOn.desc : RegDesc := ⟨0x400, 8, 128, [R.PE_STEP_LOn.WORD]⟩
abbrev R.PE_STEP_LOn.all : Fld := ⟨128, 0x400, 8, 31, 0, .ro, 0⟩
abbrev R.PE_STEP_HIn.WORD : Fld := ⟨128, 0x404, 8, 31, 0, .rw, 0⟩
abbrev R.PE_STEP_HIn.desc : RegDesc := ⟨0x404, 8, 128, [R.PE_STEP_HIn.WORD]⟩
abbrev R.PE_STEP_HIn.all : Fld := ⟨128, 0x404, 8, 31, 0, .ro, 0⟩

/-! Page type group. -/
abbrev R.PE_GSTART.MASK : Fld := ⟨192, 0x040, 0, 7, 0, .wo, 0⟩
abbrev R.PE_GSTART.desc : RegDesc := ⟨0x040, 0, 1, [R.PE_GSTART.MASK]⟩
abbrev R.PE_GSTART.all : Fld := ⟨192, 0x040, 0, 31, 0, .ro, 0⟩
abbrev R.PE_GRESTART.MASK : Fld := ⟨192, 0x044, 0, 7, 0, .wo, 0⟩
abbrev R.PE_GRESTART.desc : RegDesc := ⟨0x044, 0, 1, [R.PE_GRESTART.MASK]⟩
abbrev R.PE_GRESTART.all : Fld := ⟨192, 0x044, 0, 31, 0, .ro, 0⟩
abbrev R.PE_GCTRL.INLATCH : Fld := ⟨192, 0x048, 0, 1, 1, .wo, 0⟩
abbrev R.PE_GCTRL.OUTLATCH : Fld := ⟨192, 0x048, 0, 0, 0, .wo, 0⟩
abbrev R.PE_GCTRL.desc : RegDesc := ⟨0x048, 0, 1, [R.PE_GCTRL.INLATCH, R.PE_GCTRL.OUTLATCH]⟩
abbrev R.PE_GCTRL.all : Fld := ⟨192, 0x048, 0, 31, 0, .ro, 0⟩
abbrev R.PE_GINLAT.PINS : Fld := ⟨192, 0x04C, 0, 23, 0, .ro, 0⟩
abbrev R.PE_GINLAT.desc : RegDesc := ⟨0x04C, 0, 1, [R.PE_GINLAT.PINS]⟩
abbrev R.PE_GINLAT.all : Fld := ⟨192, 0x04C, 0, 31, 0, .ro, 0⟩
abbrev R.PE_GPINS.PINS : Fld := ⟨192, 0x050, 0, 23, 0, .ro, 0⟩
abbrev R.PE_GPINS.desc : RegDesc := ⟨0x050, 0, 1, [R.PE_GPINS.PINS]⟩
abbrev R.PE_GPINS.all : Fld := ⟨192, 0x050, 0, 31, 0, .ro, 0⟩
abbrev R.PE_GSTEEP0.COMP3 : Fld := ⟨192, 0x054, 0, 29, 24, .rw, 0⟩
abbrev R.PE_GSTEEP0.COMP2 : Fld := ⟨192, 0x054, 0, 21, 16, .rw, 0⟩
abbrev R.PE_GSTEEP0.COMP1 : Fld := ⟨192, 0x054, 0, 13, 8, .rw, 0⟩
abbrev R.PE_GSTEEP0.COMP0 : Fld := ⟨192, 0x054, 0, 5, 0, .rw, 0⟩
abbrev R.PE_GSTEEP0.desc : RegDesc := ⟨0x054, 0, 1, [R.PE_GSTEEP0.COMP3, R.PE_GSTEEP0.COMP2, R.PE_GSTEEP0.COMP1, R.PE_GSTEEP0.COMP0]⟩
abbrev R.PE_GSTEEP0.all : Fld := ⟨192, 0x054, 0, 31, 0, .ro, 0⟩
abbrev R.PE_GSTEEP1.COMP3 : Fld := ⟨192, 0x058, 0, 29, 24, .rw, 0⟩
abbrev R.PE_GSTEEP1.COMP2 : Fld := ⟨192, 0x058, 0, 21, 16, .rw, 0⟩
abbrev R.PE_GSTEEP1.COMP1 : Fld := ⟨192, 0x058, 0, 13, 8, .rw, 0⟩
abbrev R.PE_GSTEEP1.COMP0 : Fld := ⟨192, 0x058, 0, 5, 0, .rw, 0⟩
abbrev R.PE_GSTEEP1.desc : RegDesc := ⟨0x058, 0, 1, [R.PE_GSTEEP1.COMP3, R.PE_GSTEEP1.COMP2, R.PE_GSTEEP1.COMP1, R.PE_GSTEEP1.COMP0]⟩
abbrev R.PE_GSTEEP1.all : Fld := ⟨192, 0x058, 0, 31, 0, .ro, 0⟩
abbrev R.PE_PINn.PULL : Fld := ⟨192, 0x100, 4, 21, 20, .rw, 0⟩
abbrev R.PE_PINn.DRIVE : Fld := ⟨192, 0x100, 4, 19, 18, .rw, 0⟩
abbrev R.PE_PINn.INV : Fld := ⟨192, 0x100, 4, 17, 17, .rw, 0⟩
abbrev R.PE_PINn.OD : Fld := ⟨192, 0x100, 4, 16, 16, .rw, 0⟩
abbrev R.PE_PINn.OUTSEL : Fld := ⟨192, 0x100, 4, 14, 12, .rw, 0⟩
abbrev R.PE_PINn.ENG : Fld := ⟨192, 0x100, 4, 10, 8, .rw, 0⟩
abbrev R.PE_PINn.MODE : Fld := ⟨192, 0x100, 4, 1, 0, .rw, 0⟩
abbrev R.PE_PINn.desc : RegDesc := ⟨0x100, 4, 24, [R.PE_PINn.PULL, R.PE_PINn.DRIVE, R.PE_PINn.INV, R.PE_PINn.OD, R.PE_PINn.OUTSEL, R.PE_PINn.ENG, R.PE_PINn.MODE]⟩
abbrev R.PE_PINn.all : Fld := ⟨192, 0x100, 4, 31, 0, .ro, 0⟩

/-- Block types of 20 R626. -/
inductive PageType where
  | identity
  | kettle
  | wakeUnit
  | keeper
  | trace
  | pcie
  | localBus
  | sram
  | caddy
  | pour
  | mailbox
  | icShared
  | mover
  | ringLink
  | ringCycle
  | ringBridge
  | gatewayPoint
  | timeBase
  | steep
  | switchCore
  | strainer
  | mac
  | can
  | core
  | icCore
  | engine
  | group
  deriving DecidableEq, Repr

/-- One row of the table Register Pages (20 R626): first page, number of pages, type code, first shared
source (none where the table has a dash), whether SRST and remote writes are supported. -/
structure PageRow where
  ty : PageType
  first : Nat
  count : Nat
  code : Nat
  src : Option Nat
  srst : Bool
  remote : Bool
  deriving DecidableEq, Repr

/-- The table Register Pages (20 R626). -/
def pageRows : List PageRow :=
  [ ⟨.identity, 0, 1, 0x00, some 311, false, false⟩,
    ⟨.kettle, 1, 1, 0x01, some 306, false, false⟩,
    ⟨.wakeUnit, 2, 1, 0x02, some 305, false, true⟩,
    ⟨.keeper, 3, 1, 0x03, some 307, false, false⟩,
    ⟨.trace, 4, 1, 0x04, some 308, false, true⟩,
    ⟨.pcie, 5, 1, 0x05, some 309, false, true⟩,
    ⟨.localBus, 6, 1, 0x06, some 310, true, false⟩,
    ⟨.sram, 7, 1, 0x07, some 303, false, true⟩,
    ⟨.caddy, 8, 1, 0x08, some 302, false, true⟩,
    ⟨.pour, 9, 1, 0x09, some 294, false, true⟩,
    ⟨.mailbox, 10, 1, 0x0A, none, false, true⟩,
    ⟨.icShared, 11, 1, 0x0B, none, false, true⟩,
    ⟨.mover, 12, 4, 0x0C, some 290, true, true⟩,
    ⟨.ringLink, 16, 1, 0x0D, some 295, false, true⟩,
    ⟨.ringCycle, 17, 1, 0x0E, some 296, false, true⟩,
    ⟨.ringBridge, 18, 1, 0x0F, some 297, false, true⟩,
    ⟨.gatewayPoint, 19, 1, 0x10, some 298, false, true⟩,
    ⟨.timeBase, 20, 1, 0x11, some 299, false, true⟩,
    ⟨.steep, 21, 1, 0x12, some 300, false, true⟩,
    ⟨.switchCore, 22, 1, 0x13, some 301, false, true⟩,
    ⟨.strainer, 23, 1, 0x14, some 304, false, true⟩,
    ⟨.mac, 24, 4, 0x15, some 286, true, true⟩,
    ⟨.can, 28, 12, 0x16, some 274, false, true⟩,
    ⟨.core, 64, 18, 0x17, none, false, false⟩,
    ⟨.icCore, 96, 18, 0x18, none, false, true⟩,
    ⟨.engine, 128, 64, 0x19, some 210, true, true⟩,
    ⟨.group, 192, 8, 0x1A, none, true, true⟩ ]

/-- The row that holds page `p`, or none for an empty slot (20 R626). -/
def pageRow (p : Nat) : Option PageRow :=
  pageRows.find? fun r => r.first ≤ p && p < r.first + r.count

/-- The block-specific registers of a page type, from the chapters' register tables. -/
def regTable : PageType → List RegDesc
  | .identity =>
    []
  | .kettle =>
    [R.kettle_INT.desc,
     R.KET_CTRL.desc,
     R.KET_STATUS.desc,
     R.KET_DOM.desc,
     R.KET_GATE.desc,
     R.KET_STATE_REQ.desc,
     R.KET_RST.desc,
     R.KET_RESET_CAUSE.desc,
     R.KET_WDOG.desc,
     R.KET_THERM.desc,
     R.KET_COSTd.desc]
  | .wakeUnit =>
    [R.wakeUnit_INT.desc,
     R.WK_CTRL.desc,
     R.WK_EN.desc,
     R.WK_PEND.desc,
     R.WK_WKUP_CFG.desc,
     R.WK_STAY.desc,
     R.WK_MAXAWAKE.desc,
     R.WK_TIMER.desc,
     R.WK_KA_SET.desc,
     R.WK_KA_VEC.desc,
     R.WK_TOKEN.desc,
     R.WK_STATUS.desc,
     R.WK_REC.desc,
     R.WK_REC_TIME.desc,
     R.WK_CNT.desc]
  | .keeper =>
    [R.keeper_INT.desc,
     R.SEC_STATUS.desc,
     R.SEC_BOOT_ERR.desc,
     R.SEC_SERIAL_LO.desc,
     R.SEC_SERIAL_HI.desc,
     R.SEC_DBG_NONCE_LO.desc,
     R.SEC_DBG_NONCE_HI.desc,
     R.SEC_HOST_IMG.desc,
     R.SEC_OTP_ADDR.desc,
     R.SEC_OTP_DATA.desc,
     R.SEC_SVC_CNT.desc]
  | .trace =>
    [R.trace_INT.desc,
     R.TRC_CTRL.desc,
     R.TRC_CLASS_EN.desc,
     R.TRC_BUF_BASE.desc,
     R.TRC_BUF_SIZE.desc,
     R.TRC_BUF_GET.desc,
     R.TRC_BUF_PUT.desc,
     R.TRC_RING.desc,
     R.TRC_FILL.desc,
     R.TRC_DROP_A.desc,
     R.TRC_DROP_B.desc,
     R.TRC_ALARMS.desc,
     R.TRC_SW_DATAk.desc,
     R.TRC_SW_COMMIT.desc]
  | .pcie =>
    [R.pcie_INT.desc,
     R.PCIE_CTRL.desc,
     R.PCIE_STATUS.desc,
     R.PCIE_ERRCNT.desc,
     R.PCIE_HTXRq_BASE.desc,
     R.PCIE_HRXRq_BASE.desc,
     R.PCIE_HTXRq_SIZE.desc,
     R.PCIE_HRXRq_SIZE.desc,
     R.PCIE_HTXRq_PTR.desc,
     R.PCIE_HRXRq_PTR.desc,
     R.MSIX_ADDRv.desc,
     R.MSIX_UPPERv.desc,
     R.MSIX_DATAv.desc,
     R.MSIX_CTRLv.desc,
     R.MSIX_PBAk.desc]
  | .localBus =>
    [R.localBus_INT.desc,
     R.LB_CTRL.desc,
     R.LB_ERRCNT.desc,
     R.LB_HNEXT_PEEK.desc,
     R.LB_HNEXT_POP.desc,
     R.LB_FL_CFG.desc,
     R.LB_FL_CMD.desc,
     R.LB_FL_ADDR.desc,
     R.LB_FL_DATAn.desc]
  | .sram =>
    [R.sram_INT.desc,
     R.SRAM_BANK_COLLIDE.desc,
     R.SRAM_COLL_CNT.desc,
     R.SRAM_ECC_CNT.desc,
     R.SRAM_ECC_ADDR.desc,
     R.SRAM_PFA_LO.desc,
     R.SRAM_PFA_HI.desc,
     R.SRAM_BT_CTRL.desc,
     R.SRAM_BT_MASK.desc,
     R.SRAM_BT_STATUS.desc,
     R.SRAM_BT_FAIL.desc,
     R.SRAM_REPAIRb.desc]
  | .caddy =>
    [R.CAD_IMG_CTRL.desc,
     R.CAD_SNAP_STATUS.desc,
     R.CAD_IPT_SEL.desc,
     R.CAD_IPT_DATA.desc,
     R.CAD_IMG_PAGES.desc,
     R.caddy_INT.desc,
     R.CAD_PAGE_PEEK.desc,
     R.CAD_PAGE_POP.desc,
     R.CAD_CELL_PEEK.desc,
     R.CAD_CELL_POP.desc,
     R.CAD_PAGE_FREE.desc,
     R.CAD_CELL_FREE.desc,
     R.CAD_FREE.desc,
     R.CAD_POOLp.desc,
     R.CAD_USED01.desc,
     R.CAD_USED23.desc,
     R.CAD_ALLOC_FAIL.desc,
     R.CAD_ECC_CNT.desc,
     R.CAD_SCRUB.desc,
     R.CAD_PATTR_SEL.desc,
     R.CAD_PATTR_DATA.desc,
     R.CAD_CARVEn_BASE.desc,
     R.CAD_CARVEn_PAGES.desc]
  | .pour =>
    [R.POUR_CTRL.desc,
     R.POUR_STATUS.desc,
     R.POUR_FILL01.desc,
     R.POUR_FILL23.desc,
     R.POUR_FILL45.desc,
     R.POUR_FILL67.desc,
     R.POUR_SLOTS.desc,
     R.POUR_REFUSE.desc,
     R.POUR_DROP.desc,
     R.POUR_RETURN.desc,
     R.POUR_MISC.desc,
     R.POUR_STALL.desc,
     R.POUR_NODE_SEL.desc,
     R.POUR_NODE_STATE.desc,
     R.POUR_NODE_CTRL.desc,
     R.POUR_CTX_SEL.desc,
     R.POUR_POSTc.desc,
     R.POUR_POST_RESc.desc,
     R.POUR_CTX_WINn.desc]
  | .mailbox =>
    [R.MBX_ERR.desc,
     R.MBX_CFGn.desc,
     R.MBX_STATUSn.desc,
     R.MBX_TX_LOn.desc,
     R.MBX_TX_HIn.desc,
     R.MBX_PEEK_LOn.desc,
     R.MBX_PEEK_HIn.desc,
     R.MBX_POP_HIn.desc]
  | .icShared =>
    [R.IC_SENk.desc,
     R.IC_SPENDk.desc,
     R.IC_SACTk.desc,
     R.IC_STRIG.desc,
     R.IC_SEOI.desc,
     R.IC_ROUTEn.desc]
  | .mover =>
    [R.MOV_CTRL.desc,
     R.MOV_STATUS.desc,
     R.MOV_POINTS.desc,
     R.MOV_EXC.desc,
     R.MOV_ERRCNT.desc]
  | .ringLink =>
    [R.RING_LNK_CTRL.desc,
     R.RING_LNK_STATUS.desc,
     R.RING_LDELAY_E.desc,
     R.RING_LDELAY_W.desc,
     R.RING_COLD_CTRL.desc,
     R.RING_ENUM_CTRL.desc,
     R.RING_ENUM_STATUS.desc,
     R.RING_STICKY.desc,
     R.RING_FAULT.desc,
     R.RING_COPY_CNT.desc]
  | .ringCycle =>
    [R.RING_CYC_STATUS.desc,
     R.RING_CYC_NUM.desc,
     R.RING_TS_LOAD.desc,
     R.RING_TS_ADDR.desc,
     R.RING_TS_STATUS.desc,
     R.RING_TS_ERR.desc,
     R.RING_MC_CTRL.desc,
     R.RING_MC_STATUS.desc,
     R.RING_EDGE_CNT.desc,
     R.RING_DYN_STATUS.desc,
     R.RING_AUTH_STATUS.desc]
  | .ringBridge =>
    [R.BR_CTRL.desc,
     R.BR_STATUS.desc,
     R.BR_SEM_PEEKn.desc,
     R.BR_SEM_POPn.desc,
     R.BR_WINw.desc]
  | .gatewayPoint =>
    [R.RING_PT_CTRL.desc,
     R.RING_PT_HOSTBEAT.desc,
     R.RING_PT_FORCE.desc]
  | .timeBase =>
    [R.TB_CTRL.desc,
     R.TB_SERVO.desc,
     R.TB_STATUS.desc,
     R.TB_CAPTURE.desc,
     R.TB_RATE.desc,
     R.TB_STEP_SEC.desc,
     R.TB_STEP_NS.desc,
     R.TB_CAPs_SEC_HI.desc,
     R.TB_CAPs_SEC_LO.desc,
     R.TB_CAPs_NS.desc,
     R.TB_CAPs_FRAC.desc,
     R.TB_ING_LATp.desc,
     R.TB_EGR_LATp.desc,
     R.TB_ASYMp.desc,
     R.TB_TC_RATE.desc,
     R.TB_TC_STATUS.desc]
  | .steep =>
    [R.STP_FIRED_LO.desc,
     R.STP_FIRED_HI.desc,
     R.STP_LATE_LO.desc,
     R.STP_LATE_HI.desc,
     R.STP_IEN_LO.desc,
     R.STP_IEN_HI.desc,
     R.STP_STATUS.desc,
     R.STP_CTRLn.desc,
     R.STP_TIMEn.desc,
     R.STP_SECn.desc,
     R.STP_ARGn.desc]
  | .switchCore =>
    [R.switchCore_INT.desc,
     R.SW_CTRL.desc,
     R.SW_AGE.desc,
     R.SW_CELLS.desc,
     R.SW_RP_CTRL.desc,
     R.SW_RP_STATUS.desc,
     R.SW_FDB_SEL.desc,
     R.SW_FDB_DATA0.desc,
     R.SW_FDB_DATA1.desc,
     R.SW_FDB_DATA2.desc,
     R.SW_FDB_STATUS.desc,
     R.SW_RXDROP.desc,
     R.SW_MARKq.desc,
     R.SW_PCFGp.desc,
     R.SW_PRXp.desc,
     R.SW_PTXp.desc,
     R.SW_PDROPp.desc,
     R.SW_PPUSHp.desc,
     R.SW_TXRq_BASE.desc,
     R.SW_RXRq_BASE.desc,
     R.SW_TXRq_SIZE.desc,
     R.SW_RXRq_SIZE.desc,
     R.SW_TXRq_PTR.desc,
     R.SW_RXRq_PTR.desc]
  | .strainer =>
    [R.STR_ADDR.desc,
     R.STR_DATA_LO.desc,
     R.STR_DATA_HI.desc,
     R.STR_STATUS.desc]
  | .mac =>
    [R.mac_INT.desc,
     R.MAC_CTRL.desc,
     R.MAC_STATUS.desc,
     R.MAC_FILT.desc,
     R.MAC_PD.desc,
     R.MAC_RXCNT.desc,
     R.MAC_TXCNT.desc,
     R.MAC_RXDROP_A.desc,
     R.MAC_RXDROP_B.desc,
     R.MAC_RXDROP_C.desc,
     R.MAC_RXDROP_D.desc,
     R.MAC_TXDROP.desc,
     R.MAC_TXTS_SEC_HI.desc,
     R.MAC_TXTS_SEC_LO.desc,
     R.MAC_TXTS_NS.desc,
     R.MAC_TXTS_PEEK.desc,
     R.MAC_TXTS_POP.desc,
     R.MAC_GCL_CTRL.desc,
     R.MAC_GCL_CFG.desc,
     R.MAC_GCL_CYCLE.desc,
     R.MAC_GCL_BASE_SEC.desc,
     R.MAC_GCL_BASE_NS.desc,
     R.MAC_GCL_STATUS.desc,
     R.MAC_ADDRn_HI.desc,
     R.MAC_ADDRn_LO.desc,
     R.MAC_TXRq_BASE.desc,
     R.MAC_RXRq_BASE.desc,
     R.MAC_TXRq_SIZE.desc,
     R.MAC_RXRq_SIZE.desc,
     R.MAC_TXRq_PTR.desc,
     R.MAC_RXRq_PTR.desc,
     R.MAC_GCL_INTn.desc,
     R.MAC_GCL_GATEn.desc]
  | .can =>
    [R.can_INT.desc,
     R.CAN_CTRL.desc,
     R.CAN_STATUS.desc,
     R.CAN_NTIME.desc,
     R.CAN_DTIME.desc,
     R.CAN_LOOPC.desc,
     R.CAN_ERRCNT.desc,
     R.CAN_RAM.desc,
     R.CAN_RAMCFG.desc,
     R.CAN_RXF0.desc,
     R.CAN_RXF1.desc,
     R.CAN_RXF0_ACK.desc,
     R.CAN_RXF1_ACK.desc,
     R.CAN_TXREQ.desc,
     R.CAN_TXABORT.desc,
     R.CAN_TXDONE.desc,
     R.CAN_TXFAIL.desc,
     R.CAN_FLT_STD.desc,
     R.CAN_FLT_XTD.desc,
     R.CAN_FLT_CTRL.desc,
     R.CAN_RETRY.desc,
     R.CAN_RXLOSS.desc,
     R.CAN_BUSERR.desc,
     R.CAN_LOOP.desc,
     R.CAN_WK_CFG.desc,
     R.CAN_WK_ID.desc,
     R.CAN_WK_IDMASK.desc,
     R.CAN_WK_FID.desc,
     R.CAN_WK_DATA_LO.desc,
     R.CAN_WK_DATA_HI.desc,
     R.CAN_WK_STATUS.desc]
  | .core =>
    [R.CC_CTRL.desc,
     R.CC_STATUS.desc,
     R.CC_PC.desc,
     R.CC_FAULT_PC.desc,
     R.CC_FAULT_INFO.desc,
     R.CC_FAULT_ADDR.desc,
     R.CC_RAM_ADDR.desc,
     R.CC_RAM_DATA.desc,
     R.CC_OPS.desc]
  | .icCore =>
    [R.IC_CCTRL.desc,
     R.IC_SPURIOUS.desc,
     R.IC_PEN_LO.desc,
     R.IC_PEN_HI.desc,
     R.IC_PLINE_LO.desc,
     R.IC_PLINE_HI.desc,
     R.IC_PPEND_LO.desc,
     R.IC_PPEND_HI.desc,
     R.IC_PACT_LO.desc,
     R.IC_PACT_HI.desc,
     R.IC_PTRIG.desc,
     R.IC_NNEXT_PEEK.desc,
     R.IC_NNEXT_POP.desc,
     R.IC_UNEXT_PEEK.desc,
     R.IC_UNEXT_POP.desc,
     R.IC_EOI.desc,
     R.IC_DB_LO.desc,
     R.IC_DB_HI.desc,
     R.IC_DB_SET_LO.desc,
     R.IC_DB_SET_HI.desc,
     R.IC_DB_EN_LO.desc,
     R.IC_DB_EN_HI.desc]
  | .engine =>
    [R.engine_INT.desc,
     R.PE_ECTRL.desc,
     R.PE_STATUS.desc,
     R.PE_CFG.desc,
     R.PE_DIV.desc,
     R.PE_CNT.desc,
     R.PE_CNT_RELOAD.desc,
     R.PE_CNTLAT.desc,
     R.PE_SHREG.desc,
     R.PE_TX_PUSH.desc,
     R.PE_RX_PEEK.desc,
     R.PE_RX_POP.desc,
     R.PE_STAGE.desc,
     R.PE_OBIND.desc,
     R.PE_EVMBX.desc,
     R.PE_ERRCNT.desc,
     R.PE_S_INSEL.desc,
     R.PE_A_INSEL.desc,
     R.PE_S_WRAP.desc,
     R.PE_A_WRAP.desc,
     R.PE_S_SHIFT.desc,
     R.PE_A_SHIFT.desc,
     R.PE_STEP_LOn.desc,
     R.PE_STEP_HIn.desc]
  | .group =>
    [R.PE_GSTART.desc,
     R.PE_GRESTART.desc,
     R.PE_GCTRL.desc,
     R.PE_GINLAT.desc,
     R.PE_GPINS.desc,
     R.PE_GSTEEP0.desc,
     R.PE_GSTEEP1.desc,
     R.PE_PINn.desc]

end Sys2Proof.Machine
end

