-- ==== Sys2Proof/Machine/Sparse.lean ====
section
/-! DEFINITION. Sparse tables in one canonical form: a list of (key, value) pairs, keys strictly rising,
no entry equal to what an unlisted key reads as. Memory, the register store, the point store and every
large table of the machine are such lists, so that equal contents are equal data. -/

namespace Sys2Proof.Machine

/-- A sparse table. Memory is `SMap Byte`, which is a list of `Host.Cell`. -/
abbrev SMap (α : Type) := List (Nat × α)

/-- What key `k` reads as, `d` being the value of an unlisted key. -/
def SMap.get {α : Type} (d : α) : SMap α → Nat → α
  | [], _ => d
  | (j, v) :: t, k => if j = k then v else SMap.get d t k

/-- Put `(k, v)` at its place in a rising list that holds no entry of key `k`. -/
def SMap.insert {α : Type} (k : Nat) (v : α) : SMap α → SMap α
  | [] => [(k, v)]
  | (j, w) :: t => if k < j then (k, v) :: (j, w) :: t else (j, w) :: SMap.insert k v t

/-- Drop every entry of key `k`. -/
def SMap.erase {α : Type} (k : Nat) : SMap α → SMap α
  | [] => []
  | (j, w) :: t => if j = k then SMap.erase k t else (j, w) :: SMap.erase k t

/-- Write `v` at key `k`; writing what an unlisted key reads as removes the entry. -/
def SMap.set {α : Type} [DecidableEq α] (d : α) (m : SMap α) (k : Nat) (v : α) : SMap α :=
  if v = d then m.erase k else (m.erase k).insert k v

/-- Every key of the table is above `lo`, keys rise strictly, and no value is the default of its key. -/
def SMap.wfFrom {α : Type} [DecidableEq α] (d : Nat → α) : Option Nat → SMap α → Bool
  | _, [] => true
  | lo, (k, v) :: t =>
    (match lo with | none => true | some l => decide (l < k)) && decide (v ≠ d k) && SMap.wfFrom d (some k) t

/-- The canonical form of a table whose unlisted key `k` reads as `d k`. -/
def SMap.wf {α : Type} [DecidableEq α] (d : Nat → α) (m : SMap α) : Bool :=
  SMap.wfFrom d none m

end Sys2Proof.Machine
end

