-- ==== Sys2Proof/Machine/State.lean ====
section
/-! DEFINITION. The state of one HN4800 unit as plain data: the register store, the memories, the point
store and images, and what each block holds that no register shows; the command queue; the machine's
faults and refusals; and the state right after reset. -/

namespace Sys2Proof.Machine

/-- Why a step stops with a fault. No row of the table is given a fault by the spec: every failed access
is an error response (01 R20), which is a next state. Nothing raises `unused`; it keeps the type inhabited
and is safe. -/
inductive Fault where
  | unused
  deriving DecidableEq, Repr

/-- Why a step has no meaning. `notModelled`: raised by an arm of `exec` that has no meaning yet, with the
row's mnemonic; safe (the machine stops). -/
inductive Refusal where
  | notModelled (mnemonic : String)
  deriving DecidableEq, Repr

/-! ### Points and images (02) -/

/-- What is wrong with a stored word: a single-bit error, or an uncorrectable one (15 R508). -/
inductive EccMark where
  | clean | single | double
  deriving DecidableEq, Repr

/-- One entry of an image page table (02 R58, R64, R68; CAD_IPT_DATA). -/
structure Pte where
  backed : Bool := false
  shared : Bool := false
  poison : Bool := false
  ppn : Nat := 0
  deriving DecidableEq, Repr

/-- The point store, the attribute RAM, the hold counters and the images' page tables. -/
structure PointState where
  /-- local point store: the stored container of each local index (02 R50), and what is wrong with it (15 R508) -/
  store : SMap Half := []
  ecc : SMap EccMark := []
  /-- attribute entry of each local index, 64 bits (02 R54) -/
  attr : SMap DWord := []
  /-- consecutive missed cycles of a local point: the count of R71, or c of R75 -/
  miss : SMap Nat := []
  /-- an accepted update reached the local point in the present cycle -/
  upd : SMap Bool := []
  /-- a write from WSRC with a quality other than HELD reached the point in the present cycle (R77) -/
  wsrcUpd : SMap Bool := []
  /-- page tables of the live and the snapshot image, by slot -/
  livePt : SMap Pte := []
  snapPt : SMap Pte := []
  /-- missed cycles and update flag of live-image points of other units, by fabric address (R73) -/
  liveMiss : SMap Nat := []
  liveUpd : SMap Bool := []
  /-- a freeze is requested for the next boundary (R65) -/
  snapReq : Bool := false
  /-- a snapshot page table is held (frozen and neither aborted nor released) -/
  snapHeld : Bool := false
  /-- the SEQ of CAD_SNAP_STATUS has been read once (R565) -/
  snapRead : Bool := false
  /-- cycles since the last heartbeat (R76) -/
  beatCount : Nat := 0
  /-- has a heartbeat been written since the last boundary (02 R76)? -/
  beaten : Bool := false
  deriving DecidableEq, Repr

/-! ### Memories (15) -/

/-- Owner of a page of the in-package memory (15 R519). -/
inductive PageOwner where
  | free | image | snap | gen | cell | carve
  deriving DecidableEq, Repr

/-- The attribute entry of one page (15 R519). `zeroed` says that a free page holds zeros, which no page does before
the fill that follows a power-up (15 R521). -/
structure PageAttr where
  owner : PageOwner := .free
  carve : Nat := 0
  pf : Bool := false
  ro : Bool := false
  poison : Bool := false
  zeroed : Bool := false
  cfree : Nat := 0
  deriving DecidableEq, Repr

/-- The on-die SRAM's test engine and the Caddy's page table (DESIGN CHOICE, log 7). -/
structure MemState where
  /-- SRAM and in-package memory by internal address, byte by byte; an unlisted byte reads 0 -/
  bytes : SMap Byte := []
  /-- core-local RAMs: core × 0x10000 + offset, I-RAM at 0x0000, D-RAM at 0x8000 -/
  coreRam : SMap Byte := []
  /-- errors present in the arrays: SRAM halfwords and Caddy 64-bit words, by address; core-local RAM
  halfwords at 0x1_0000_0000 + core × 0x10000 + offset -/
  ecc : SMap EccMark := []
  /-- halfwords corrected by a read and waiting for their write-back (15 R509) -/
  writeBack : List Nat := []
  /-- page attributes of the in-package memory, and the number of pages that the fill after a power-up has passed
  (15 R521) -/
  pages : SMap PageAttr := []
  filled : Nat := 0
  /-- the background test engine holds this region in the bank's holding buffer (15 R512) -/
  btSaved : Option Nat := none
  /-- the scrub has read up to this 64-bit word of the pass (15 R518) -/
  scrubNext : Nat := 0
  deriving DecidableEq, Repr

/-! ### Trace unit (19) -/

/-- A time stamp: the low 32 bits of SEC, and NS (19 R612). -/
structure Stamp where
  sec : Nat := 0
  ns : Nat := 0
  deriving DecidableEq, Repr

/-- Class of a trace record (19 R611). -/
inductive TraceClass where
  | alarm | event | trace | debug
  deriving DecidableEq, Repr

/-- One 32-byte trace record (19 R612). `kind` 0 RECORD, 1 ALARM, 2 GAP; `delta` and `count` belong to
KIND 1; a GAP record carries its counts in `data`. -/
structure TraceRec where
  cls : TraceClass
  kind : Nat
  page : Nat
  code : Nat
  aux : Nat
  sync : Bool
  close : Bool
  unit : Nat
  seq : Nat
  first : Stamp
  delta : Nat
  count : Nat
  data : Nat
  deriving DecidableEq, Repr

/-- A coalescing entry (19 R614): `placed` counts the occurrences reported by the OPEN record, `openOut`
says the OPEN record is in the queue, `closing` that the window has closed and the CLOSE record waits. -/
structure AlarmEntry where
  unit : Nat
  page : Nat
  code : Nat
  aux : Nat
  first : Stamp
  last : Stamp
  sync : Bool
  count : Nat
  placed : Nat
  data : Nat
  openOut : Bool
  closing : Bool
  /-- it merges GAP records: `data` holds their drop counts, of which `gapPlaced` are reported (R621) -/
  gap : Bool := false
  gapPlaced : Nat := 0
  deriving DecidableEq, Repr

/-- Records of one source unit lost in transit and not yet reported, with the times of the first and the
last gap (19 R621). -/
structure LostCount where
  n : Nat := 0
  first : Stamp := {}
  last : Stamp := {}
  deriving DecidableEq, Repr

/-- What the trace unit holds besides its registers (19). -/
structure TraceState where
  queue : List TraceRec := []
  entries : List AlarmEntry := []
  overflow : Option AlarmEntry := none
  /-- drops not yet reported by a GAP record: EVENT, TRACE, DEBUG, and LOST by source unit (R618, R619, R621) -/
  dropEvent : Nat := 0
  dropTrace : Nat := 0
  dropDebug : Nat := 0
  lost : SMap LostCount := []
  dropFirst : Stamp := {}
  dropLast : Stamp := {}
  /-- ring export number of the next record (R620), and one more than the last one received from each unit,
  0 before the first (R621) -/
  seqOut : Nat := 0
  seqIn : SMap Nat := []
  /-- staged words of the software record port: stamp × 4 + word (R622) -/
  staged : SMap Word := []
  deriving DecidableEq, Repr

/-! ### Interrupts and mailboxes (09) -/

/-- State of an interrupt source (09 R314). -/
inductive SrcState where
  | inactive | pending | active | activePending
  deriving DecidableEq, Repr

/-- The interrupt controller. Private source n of core c has key c × 64 + n; shared source n (64 to 575)
has key 0x1000 + n. -/
structure IcState where
  src : SMap SrcState := []
  /-- last level of a level input -/
  level : SMap Bool := []
  /-- target fixed by the popped message of an MBX_EMPTY source, by channel: a stamp (R336) -/
  sender : SMap Nat := []
  deriving DecidableEq, Repr

/-- Mailboxes: messages of each channel (64 bits, oldest first) and the staged LO words by stamp (R332). -/
structure MbxState where
  chan : SMap (List DWord) := []
  staged : SMap (Option Word) := []
  deriving DecidableEq, Repr

/-! ### Pour unit (06) -/

/-- Node states (06 R209). -/
inductive NodeState where
  | idle | ready | slotted | running | detached | deferred
  deriving DecidableEq, Repr

/-- A node's four input counters and its state (06 R209). -/
structure NodeDyn where
  c0 : Nat := 0
  c1 : Nat := 0
  c2 : Nat := 0
  c3 : Nat := 0
  state : NodeState := .idle
  deriving DecidableEq, Repr

/-- An entry of a ready list (06 R220). -/
structure ReadyEntry where
  node : Nat
  ret : Bool
  deriving DecidableEq, Repr

/-- Phases of a prefetch slot (06 R222). -/
inductive SlotPhase where
  | empty | filling | loaded | taken
  deriving DecidableEq, Repr

/-- One of the 21 prefetch slots; `order` is the place in the order of placements (06 R223). -/
structure Slot where
  phase : SlotPhase := .empty
  node : Nat := 0
  ctx : Nat := 0
  order : Nat := 0
  /-- the context as preloaded (R222, R227) -/
  window : SMap Byte := []
  /-- a mover's slot: the descriptor as fetched (R221), and the source bytes read ahead, by address (R224) -/
  desc : List Byte := []
  ahead : List (Nat × Byte) := []
  deriving DecidableEq, Repr

/-- Token producers in their order (06 R214), with the instance or channel. -/
inductive Producer where
  | completion | steep (c : Nat) | engine (e : Nat) | gateway | mac (m : Nat) | can (c : Nat)
  | timer (ctx t : Nat) | channel (c : Nat) | core (c : Nat)
  deriving DecidableEq, Repr

/-- A post on its way to the Pour unit: arrival tick, producer, target; `tries` counts its retries. -/
structure Post where
  arr : Nat
  prod : Producer
  node : Nat
  input : Nat
  tries : Nat
  deriving DecidableEq, Repr

/-- A source entry of the active graph (06 R231). -/
structure SourceEntry where
  kind : Nat
  sub : Nat
  id : Nat
  node : Nat
  input : Nat
  deriving DecidableEq, Repr

/-- What the Pour unit holds. -/
structure PourState where
  /-- op-code table (R216), node table (R208), successor table (R217), source entries (R231) -/
  opcodes : SMap Word := []
  nodes : SMap (BitVec 128) := []
  succ : SMap Word := []
  sources : List SourceEntry := []
  dyn : SMap NodeDyn := []
  /-- ready list of each level, head first; entries in a slot keep their place in the count (R220) -/
  ready : SMap (List ReadyEntry) := []
  slots : SMap Slot := []
  /-- detached operations: node and session context (R218, R226) -/
  detached : List (Nat × Nat) := []
  /-- nodes whose operation has ended and whose successor posts still leave, one per tick: the tick of the last post,
  and the node (R217) -/
  ending : List (Nat × Nat) := []
  /-- the BINDINGS of the active set: context, kind and target (R233, 01 R32) -/
  binds : List (Nat × Nat × Nat) := []
  /-- posts waiting to be applied, in order (R214), and posts in retry, one per producer (R215) -/
  posts : List Post := []
  retry : List Post := []
  /-- context SRAM: context × 256 + byte; reload value last written of timer t: context × 2 + t -/
  ctx : SMap Byte := []
  reload : SMap Word := []
  placements : Nat := 0
  deriving DecidableEq, Repr

/-! ### Time base and steep comparators (05) -/

/-- The time accumulator, the servo terms no register shows, and the comparators' per-cycle marks. -/
structure TimeState where
  /-- seconds, nanoseconds, the fraction below in units of 2⁻⁴⁰ ns (R173, R174), and half a unit that an odd rate has
  left over -/
  sec : Nat := 0
  ns : Nat := 0
  sub : Nat := 0
  half : Nat := 0
  /-- slew term in 2⁻⁴⁰ and the ticks for which it still applies (R184) -/
  slew : Int := 0
  slewLeft : Nat := 0
  /-- consecutive measurements with |θ| ≤ G/4 in ACQUIRE (R183) -/
  good : Nat := 0
  /-- cycles spent in HOLDOVER (R191) -/
  holdover : Nat := 0
  /-- the reference was accepted in the present cycle (R186) -/
  refSeen : Bool := false
  /-- steep trigger lines high in the present tick (R202) -/
  trig : BitVec 64 := 0
  /-- CYCLE comparators that may not fire again in the present cycle: they fired, or became enabled after
  their offset had passed (R201, R204) -/
  firedCycle : BitVec 64 := 0
  /-- configuration registers of comparators written in the present tick, by address, as they stood at its start, and the
  bits of `firedCycle` that such writes have set (R205) -/
  steepOld : List (Nat × Word) := []
  firedNow : BitVec 64 := 0
  /-- local time at which the present cycle began and at which the next one begins, in 2⁻⁴⁰ ns (04 R129,
  05 R179) -/
  cycStart : Nat := 0
  cycNext : Nat := 0
  deriving DecidableEq, Repr

/-! ### Nobasin ring (03, 04) -/

/-- An entry of the SLOTS section (04, Table-Set Sections): PERIOD is 1, 2, 4 or 8. -/
structure SlotEntry where
  slot : Nat
  owner : Nat
  hops : Nat
  phase : Nat
  period : Nat
  hold : Nat
  deriving DecidableEq, Repr

/-- An entry of the THROUGH section. -/
structure ThroughEntry where
  member : Nat
  mirror : Bool
  points : Nat
  hold : Nat
  deriving DecidableEq, Repr

/-- An entry of the DYN_ORDER section. -/
structure DynEntry where
  unit : Nat
  hops : Nat
  max : Nat
  deriving DecidableEq, Repr

/-- An entry of the RX_MAP section. -/
structure RxEntry where
  src : Nat
  thru : Bool
  frame : Nat
  pos : Nat
  dest : Nat
  deriving DecidableEq, Repr

/-- The ring's own sections of the active table set (04 R158). -/
structure TableSet where
  common : Nat := 0
  unit : Nat := 0
  cycleTicks : Nat := 0
  thTicks : Nat := 0
  stTicks : Nat := 0
  dynTicks : Nat := 0
  slotTicks : Nat := 0
  nSlots : Nat := 0
  dynMinislots : Nat := 0
  guardTicks : Nat := 32
  hMax : Nat := 0
  units : Nat := 0
  auth : Bool := false
  fallback : Bool := false
  master : Nat := 0
  timeMaster : Nat := 0
  backups : List Nat := []
  standbyRoot : Nat := 0
  frameMax : Nat := 0
  slots : List SlotEntry := []
  through : List ThroughEntry := []
  dynOrder : List DynEntry := []
  txField : List Nat := []
  txFrames : List (List Nat) := []
  rx : List RxEntry := []
  hostRole : Bool := false
  hostCmd : List Nat := []
  deriving DecidableEq, Repr

/-- One ring port beside RING_LNK_STATUS and RING_LDELAY. Estimates are in 1/128 ns (03 R88). -/
structure PortState where
  est : Nat := 0
  first : Option Nat := none
  lastKnown : Nat := 0
  everKnown : Bool := false
  unknownCycles : Nat := 0
  badCrc : Nat := 0
  /-- rate of the present attempt: fallback (03 R85) -/
  fbAttempt : Bool := false
  /-- PROBE_ID of the outstanding request and its departure time t1 in 1/16 ns -/
  probe : Option (Nat × Nat) := none
  probeId : Nat := 0
  /-- serial of the neighbour, from HELLO, and whether it belongs to a running ring -/
  peer : Nat := 0
  peerRunning : Bool := false
  /-- probes of the neighbour answered since training: with two its estimate is known too (03 R89, R111) -/
  heard : Nat := 0
  /-- what the unit has last said of this port PARKED: 0 nothing, 1 ready (03 R112), 2 an ALARM, both ends run
  (R120), 3 blocked by the idle segment (R111), 4 HELLO, that it belongs to no running ring (R120) -/
  told : Nat := 0
  /-- the copies that arrived on this port and are on their way out, oldest first: the port, the tick in which the last
  byte leaves, and the length in bytes (03 R94) -/
  fwd : List (RingPort × Nat × Nat) := []
  deriving DecidableEq, Repr

/-- A message of a dynamic frame (04 R156): TYPE, DEST, its body from byte 8, and byte 1, which holds the
pad count of a SWITCH message (14 R487). -/
structure DynMsg where
  type : Nat
  dest : Nat
  body : List Byte
  pad : Nat := 0
  /-- a bridge message of register class (03 R123) -/
  reg : Bool := false
  deriving DecidableEq, Repr

/-- An access waiting in the ring bridge (03 R124, R127). -/
structure BridgeReq where
  tag : Nat
  who : Initiator
  unit : Nat
  far : Nat
  near : Nat
  write : Bool
  size : Nat
  data : Nat
  reg : Bool
  /-- cycles waited, RETRY answers, and whether it waits for its re-issue (03 R126) -/
  age : Nat
  retries : Nat
  backoff : Bool
  /-- it holds one of the outgoing buffers (03 R125), and its message has left in a dynamic frame -/
  sent : Bool
  /-- a core or a mover waits for its response (R124) -/
  stall : Bool
  /-- a store of a core that has been reset since (08 R304, R305) -/
  old : Bool := false
  deriving DecidableEq, Repr

/-- A store in the store buffer of a core, behind a store to a far unit (08 R284); `old` when its core has been
reset since (08 R304). -/
structure CoreStore where
  core : Nat
  old : Bool
  addr : Nat
  size : Nat
  data : Nat
  deriving DecidableEq, Repr

/-- The response that a waiting core or mover has not taken yet (03 R124): none after an error. -/
structure BridgeDone where
  who : Initiator
  addr : Nat
  write : Bool
  data : Option Nat
  deriving DecidableEq, Repr

/-- Identity of an accepted or seen frame (03 R95). -/
structure FrameId where
  src : Nat
  kind : Nat
  fseq : Nat
  cycle : Nat
  deriving DecidableEq, Repr

/-- A splice or detach announcement (04 R138): kind 1 SPLICE, 2 DETACH, 3 FAULT, 4 FAULT_CLEAR; the two
addresses; the low 16 bits of the cycle; headers still to carry it (FAULT kinds). -/
structure Announce where
  op : Nat
  a : Nat
  b : Nat
  cycle : Nat
  left : Nat
  deriving DecidableEq, Repr

/-- Ring state beside its registers. -/
structure RingState where
  /-- the unit's address, 0 while unassigned, and whether it came from the sticky store (02 R52) -/
  addr : Nat := 0
  fromSticky : Bool := false
  portE : PortState := {}
  portW : PortState := {}
  /-- cold start (03 R97 to R104): a higher key or a through frame was seen in this LISTEN period; DIR bits
  of the own copies that returned; one of them carried FALLBACK; links were ordered to the fallback rate -/
  higherSeen : Bool := false
  ownBack : Nat := 0
  fallbackSeen : Bool := false
  fbOrder : Bool := false
  /-- enumeration (03 R105 to R113): pass under way at the master (0 none, 4 join) and whether it has
  returned; claimed and, after pass 3, confirmed addresses; the vacant set; a join ENUM frame is due; this
  unit lost its sticky address, which the ALARM names -/
  pass : Nat := 0
  passBack : Bool := false
  confirmed : List Nat := []
  vacant : List Nat := []
  joinDue : Bool := false
  contested : Option Nat := none
  /-- roles (01 R25): cycle master, time master, and both given up at the next boundary (05 R190) -/
  cycleMaster : Bool := false
  timeMaster : Bool := false
  yieldRoles : Bool := false
  /-- the unit has joined, or has given a role up, since the last cold start: it retakes none before the next (05 R190) -/
  returned : Bool := false
  /-- units that reported a parked link (03 R112); announcements that the master sends, kept by every unit until it hears
  them; RC_OP and RC_CYCLE of those acted on (04 R138); units whose RING_E or RING_W is down (03 R118) -/
  parked : List Nat := []
  toAnnounce : List Announce := []
  actedOn : List (Nat × Nat) := []
  downE : List Nat := []
  downW : List Nat := []
  /-- a splice, a parking or a detach takes effect at the start of this cycle (low 16 bits) -/
  spliceE : Option Nat := none
  spliceW : Option Nat := none
  detachAt : Option (Nat × Nat) := none
  /-- table sets: the images copied by loads, by number, and the parsed active one (04 R160, R166) -/
  sets : SMap (List Byte) := []
  haveActive : Bool := false
  active : TableSet := {}
  /-- mode change (04 R162 to R168): a start waits for the next launch; the set announced; a countdown runs
  and its COUNT in the present cycle; this unit acknowledged; a COUNT = 0 copy came; the COUNT = 1 copy came
  back, and it confirms; a fault was recorded; the set to activate at the next boundary -/
  mcStart : Bool := false
  mcNext : Nat := 0
  mcRunning : Bool := false
  mcCount : Nat := 0
  mcAcked : Bool := false
  mcZero : Bool := false
  mcReturned : Bool := false
  mcOk : Bool := false
  mcFault : Bool := false
  mcActivate : Option Nat := none
  /-- that activation follows a header's SET (R168, R114) and no countdown; the reason for which the master will
  abort (R165) -/
  mcAdopt : Bool := false
  mcReason : Nat := 0
  /-- consecutive cycles with |TIME_OFFSET| ≤ G/4 while silenced (04 R148); silenced by the holdover limit (05 R191) -/
  goodCycles : Nat := 0
  silentHold : Bool := false
  /-- transmits static frames since its first one after reset or join (03 R91, R114) -/
  talking : Bool := false
  /-- frames accepted in this cycle, and those with a second valid copy (03 R95, R96) -/
  accepted : List FrameId := []
  twice : List FrameId := []
  /-- a through frame was accepted in this cycle; the last one named the active set; its θ (0.25 ns) from
  the copy that 05 R181 does not prefer; members whose field was updated in this cycle (04 R142) -/
  thruSeen : Bool := false
  hdrOk : Bool := false
  thetaOther : Option Int := none
  thruUpd : List Nat := []
  /-- points read for the next static frame (01 R27), by slot, and the through field read in this cycle -/
  staticRead : Option (Nat × List Half) := none
  fieldRead : Option (List Half) := none
  /-- dynamic segment (04 R151 to R156): requests of the FSEQ 0 frames accepted in this cycle; the request
  this unit stated; its minislot and its length in minislots; messages waiting -/
  requests : List (Nat × Nat) := []
  request : Nat := 0
  minislot : Option (Nat × Nat) := none
  /-- the allocation of this cycle as this unit computed it: unit, start and length (04 R152) -/
  alloc : List (Nat × Nat × Nat) := []
  msgs : List DynMsg := []
  /-- ring bridge: own accesses, and the next TAG (03 R124 to R127) -/
  bridge : List BridgeReq := []
  done : List BridgeDone := []
  /-- incoming requests that wait in the buffers of each class, with their unit (03 R125) -/
  dataIn : List (Nat × DynMsg) := []
  regIn : List (Nat × DynMsg) := []
  nextTag : Nat := 0
  /-- RETRY answers that wait for a completion buffer: the unit, its TAG, and whether the class is register (03 R125) -/
  retries : List (Nat × Nat × Bool) := []
  /-- key registers of the gateway, by epoch (18 R592, R606, R607); cycles that the master has run under the present
  one (R607) -/
  keys : List (Nat × List Byte) := []
  epochCycles : Nat := 0
  deriving DecidableEq, Repr

/-! ### Movers and cores (07, 08) -/

/-- A point a mover has issued and not yet written (07 R251): its node, the operation code and descriptor it
was issued under, its index, what its reads gave, whether one of them failed (R256), the number of its writes
that are done, and whether its operation still runs (R257). -/
structure PipePoint where
  node : Nat
  op : Nat
  desc : List Byte
  index : Nat
  vals : List Nat
  err : Bool
  wrote : Nat := 0
  live : Bool := true
  deriving DecidableEq, Repr

/-- One point mover: the operation it runs with its code and descriptor, the next point to issue and what its
reads have given so far, the points in its pipeline and the selector so far (07 R237, R251). `refused`: R663
has refused the operation. `ahead`: the source bytes that its slot had read ahead (06 R224). `asked`: a read of the next
point waits for its response. -/
structure MoverState where
  busy : Bool := false
  node : Nat := 0
  op : Nat := 0
  desc : List Byte := []
  next : Nat := 0
  got : List Nat := []
  pipe : List PipePoint := []
  sel0 : Bool := false
  sel1 : Bool := false
  refused : Bool := false
  ahead : List (Nat × Byte) := []
  asked : Bool := false
  deriving DecidableEq, Repr

/-- Levels of a core (08 R264). -/
inductive Level where
  | thread | normal | urgent | fault
  deriving DecidableEq, Repr

/-- The flags register (08 R263). -/
structure Flags where
  p : Bool := false
  n : Bool := false
  z : Bool := false
  c : Bool := false
  v : Bool := false
  deriving DecidableEq, Repr

/-- What a core is doing (CC_STATUS.STATE): `run` covers RUN and OP, `idle` covers IDLE and DOZE. -/
inductive CoreRun where
  | reset | run | idle | lockup | halt
  deriving DecidableEq, Repr

/-- One Clalo core: registers, special registers, the running operation, its context window, and the
address of a buffered store that failed and whose fault waits (08 R285). -/
structure CoreState where
  g : SMap Word := []
  pc : Word := 0xE0000000
  flags : Flags := {}
  level : Level := .thread
  run : CoreRun := .reset
  vbase : Word := 0xE0000000
  epc : Word := 0
  eflags : Word := 0
  fcause : Word := 0
  faddr : Word := 0
  npc : Word := 0
  nflags : Word := 0
  upc : Word := 0
  uflags : Word := 0
  cycles : Word := 0
  splim : Word := 0xE0008000
  opsp : Word := 0xE0010000
  inop : Bool := false
  opNode : Nat := 0
  opCtx : Nat := 0
  window : SMap Byte := []
  written : SMap Bool := []
  impr : Option Nat := none
  /-- the instruction at PC has begun and not completed: no interrupt or fault enters before it has (08 R296) -/
  begun : Bool := false
  /-- an interrupt entry on its way to tick E6: its line (true: URGENT) and the tick of E6 (09 R322, R323) -/
  entering : Option (Bool × Nat) := none
  deriving DecidableEq, Repr

/-! ### Pin engines (10) -/

/-- What the engines and groups hold besides their registers, by engine (0 to 63) or group (0 to 7). -/
structure PinState where
  /-- step words of the active bank: engine × 128 + step (R370) -/
  active : SMap DWord := []
  /-- program outputs O[7:0] (R344), sticky steep copies of sources 56 to 63 (R353) -/
  out : SMap Nat := []
  sticky : SMap Nat := []
  /-- FIFOs, head first (R361) -/
  tx : SMap (List Nat) := []
  rx : SMap (List Nat) := []
  /-- divider in effect, as PE_DIV, and the tick of engine tick 0 (R363, R364) -/
  div : SMap Word := []
  t0 : SMap Nat := []
  /-- engine ticks since then and the tick of the last one (R363), and the tick of the last start (R368) -/
  ticks : SMap (Nat × Nat) := []
  started : SMap (Option Nat) := []
  /-- what a stopped engine's outputs hold (R344), and output 7 of every engine at the start of the tick, as a
  mask (R350) -/
  held : SMap Nat := []
  flags : Nat := 0
  /-- engines whose counter has changed in the present tick, and whether it was 0 at the tick's start (R350, R360) -/
  zeroOld : List (Nat × Bool) := []
  /-- pin latch: the outputs of each engine as last latched (R341) -/
  latch : SMap Nat := []
  /-- synchronised levels of each bank's 24 pins, as last seen (R347) -/
  level : SMap Nat := []
  deriving DecidableEq, Repr

/-! ### CAN controllers and the Strainer (11) -/

/-- The buffer a controller has on the bus: its number and the words of its element as read (R392). -/
structure CanOnBus where
  buf : Nat
  frame : CanFrame
  word0 : Nat
  word1 : Nat
  deriving DecidableEq, Repr

/-- One CAN controller beside its registers. -/
structure CanState where
  /-- holding buffer: a valid frame whose search has not ended, with its time stamp (R393) -/
  held : Option (CanFrame × Nat × Nat) := none
  /-- pending buffers in the order of their requests (R406) and the attempts of each (R407) -/
  order : List Nat := []
  tries : SMap Nat := []
  onBus : Option CanOnBus := none
  /-- buffers that have not ended, each with the context whose operation requested it; contexts of which a buffer
  failed; detached operations that wait for theirs, with their contexts (R410) -/
  owned : List (Nat × Nat) := []
  failed : List Nat := []
  waiting : List (Nat × Nat) := []
  /-- secondary sample point of the last frame that was measured, in kernel cycles (R387) -/
  ssp : Nat := 0
  /-- it has woken in its present SLEEP (R416) -/
  woken : Bool := false
  deriving DecidableEq, Repr

/-- All controllers, the Strainer's 2,048 elements and its staged low word (R403), and the controller whose
search was the last (R402). -/
structure CanAll where
  served : Nat := 11
  ctl : SMap CanState := []
  elems : SMap DWord := []
  staged : Word := 0
  deriving DecidableEq, Repr

/-! ### Wake unit (12) -/

/-- What the wake unit holds beside its registers; all of it lies in the always-on domain (R419). -/
structure WakeState where
  /-- first source latched between the commit point and power-down complete: KIND, DETAIL (R441) -/
  late : Option (Nat × Nat) := none
  /-- sources seen during the dwell (R442) -/
  dwell : List (Nat × Nat) := []
  /-- the unit drives WAKE_N low (R420); the level of INH (R422) -/
  driving : Bool := false
  inh : Bool := true
  /-- token to write in the next cycle's dynamic segment, and units still to be written in keep-alive
  mode (R432, R434) -/
  tokenDue : Option Word := none
  kaWrites : List Nat := []
  /-- consecutive interval ends at which WK_KA_VEC was 0 (R432) -/
  kaIdle : Nat := 0
  deriving DecidableEq, Repr

/-! ### Ethernet MACs and the switch core (13, 14) -/

/-- A frame that the switch buffer knows. Its length on the wire is that of `data` and the FCS. -/
structure EthFrame where
  data : List Byte
  /-- ingress port (14, Switch Ports), and the transmit ring and descriptor it comes from -/
  port : Nat
  ring : Option (Nat × Nat) := none
  cls : Nat
  /-- it failed a check of its end: the FCS of a frame from port 5 is bad, or a cause of 13 R454 applied; the SRC of its
  dynamic frame (R482) -/
  fcsBad : Bool := false
  srcUnit : Nat := 0
  /-- filter entry (R453), receive time in 1/16 ns -/
  entry : Nat := 0xFF
  time : Nat := 0
  /-- cells held and copies in queues (R477, R478) -/
  cells : Nat := 0
  refs : Nat := 0
  /-- lookup done with this mask and UNIT; entered its queues; passed the MAC's checks; eligible; dropped -/
  looked : Bool := false
  mask : Nat := 0
  unit : Nat := 0
  queued : Bool := false
  checked : Bool := false
  ended : Bool := false
  dropped : Bool := false
  /-- a first segment whose descriptor, of this index, asks for a transmit timestamp (13 R462) -/
  stamp : Option Nat := none
  deriving DecidableEq, Repr

/-- A copy in an egress queue, and whether it is to be marked (R493). -/
structure QEntry where
  frame : Nat
  mark : Bool
  deriving DecidableEq, Repr

/-- The copy that a port sends or delivers: its class, its mark, and its time of departure in 1/16 ns. -/
structure Sending where
  frame : Nat
  cls : Nat
  mark : Bool
  time : Nat
  deriving DecidableEq, Repr

/-- A descriptor in work: segments in all, enqueued, and ended; its RESULT once it is known (R461). -/
structure DescProg where
  idx : Nat
  segs : Nat
  queued : Nat
  out : Nat
  result : Option Nat
  deriving DecidableEq, Repr

/-- An entry of the forwarding table (14). -/
structure FdbEntry where
  mac : Nat := 0
  vid : Nat := 0
  valid : Bool := false
  static : Bool := false
  unit : Nat := 0
  mask : Nat := 0
  age : Nat := 0
  deriving DecidableEq, Repr

/-- A transmit timestamp (R462): time in 1/16 ns, ring and descriptor index. -/
structure TxStamp where
  time : Nat
  q : Nat
  idx : Nat
  deriving DecidableEq, Repr

/-- One MAC beside its registers: the active gate list (configuration, cycle, base, and the words of
entry k at 2k and 2k + 1), timestamps, and the descriptors of the bound context (R463, R468). -/
structure MacState where
  gclCfg : Word := 0
  gclCycle : Word := 0
  gclSec : Word := 0
  gclNs : Word := 0
  gcl : SMap Word := []
  /-- local time, in 2⁻⁴⁰ ns, at which the present list cycle began (13 R468) -/
  gclFrom : Nat := 0
  /-- local time of the write that armed the swap (13 R472) -/
  gclArmed : Nat := 0
  stamps : List TxStamp := []
  /-- descriptors, as queue and index, that have not ended, each with the context that holds it; contexts of which one
  failed; detached operations that wait for theirs, with their contexts (R463) -/
  owned : List (Nat × (Nat × Nat)) := []
  failed : List Nat := []
  waiting : List (Nat × Nat) := []
  deriving DecidableEq, Repr

/-- Frames by number, egress queues (port × 8 + class), ports at work, rings and MACs. -/
structure EthState where
  next : Nat := 0
  frames : SMap (Option EthFrame) := []
  queues : SMap (List QEntry) := []
  sending : SMap (Option Sending) := []
  rings : SMap (List DescProg) := []
  fdb : SMap FdbEntry := []
  /-- port of each switch transmit ring, by the initiator that wrote its TAIL: 6 or 7 (14, Switch Ports) -/
  ringPort : SMap Nat := []
  macs : SMap MacState := []
  deriving DecidableEq, Repr

/-! ### Keeper (18) -/

/-- What the keeper holds beside its registers (blank OTP: DESIGN CHOICE, log 8). -/
structure SecState where
  /-- OTP words; a blank word reads 0 -/
  otp : SMap Word := []
  /-- number of blocks the random bit generator has given; the block that the nonce was taken from -/
  blocks : Nat := 0
  nonce : Nat := 0
  /-- failure bitmap of the power-up self-tests, shown once they have ended (R609) -/
  selfTest : Nat := 0
  /-- both slots failed; SYS waits in boot ROM for a host image (R603) -/
  waitHost : Bool := false
  deriving DecidableEq, Repr

/-! ### Host bridge (16) -/

/-- A part of a host read: the bytes of a piece that has ended, or one of `n` bytes that waits for the
completion of the bridge request of this tag. -/
inductive HostPart where
  | have (bytes : List Byte)
  | wait (tag n : Nat)
  deriving DecidableEq, Repr

/-- A host read whose pieces have not all ended; `fail` says that one received an error response. -/
structure HostRead where
  port : Initiator
  parts : List HostPart
  fail : Bool
  /-- a PCI Express read: the place of its first byte in 64 bytes, and its byte enables (R535) -/
  lead : Nat := 0
  en : List Bool := []
  deriving DecidableEq, Repr

/-- What a gateway cycle does (16, Local Bus Gateway): a read, or a write of a value; `none_` is LB_A[3:1] = 5 to 7. -/
inductive GwOp where
  | addrLo (v : Option Half)
  | addrHi (v : Option Half)
  | dataLo (v : Option Half)
  | dataHi (v : Option Half)
  | stat (v : Option Half)
  | none_ (v : Option Half)
  deriving DecidableEq, Repr

/-- What a host port has begun and its bridge takes in order (16 R530): a PCI Express request; the elements of an SPI
READ (address, size and count) or WRITE; a gateway cycle. -/
inductive HostReq where
  | pcie (r : PcieReq)
  | spiRead (a n count : Nat)
  | spiWrite (a n : Nat) (els : List (List Byte))
  | gw (op : GwOp)
  deriving DecidableEq, Repr

/-- The three host ports beside their registers. -/
structure HostState where
  reads : List HostRead := []
  /-- requests that wait for an earlier access of their port or for the end of a soft reset, oldest first (R543, R554,
  20 R630) -/
  waits : List HostReq := []
  /-- bytes that the PCI Express bridge has read ahead, by address, oldest run first (16 R542) -/
  runs : List (List (Nat × Byte)) := []
  /-- PCIE_PERST_N is low (R538); the link is in L0s or L1 (R533); Max_Payload_Size as the host has set it (R535) -/
  perst : Bool := false
  lowPower : Bool := false
  maxPayload : Nat := 0
  /-- an SPI transaction is open, and with an unknown command byte; bytes of a partial element; WERR -/
  spiOpen : Bool := false
  spiPartial : List Byte := []
  werr : Bool := false
  /-- local bus gateway: address, staged and latched halfwords, INC and ERR (R554) -/
  gwAddr : Nat := 0
  gwStaged : Nat := 0
  gwLatch : Nat := 0
  gwInc : Bool := false
  gwErr : Bool := false
  deriving DecidableEq, Repr

/-! ### Power, clocks and reset (17, 21) -/

/-- Why the device stays in reset (17, Reset): supplies not valid, RESET_N low, REFCLK absent, too hot. -/
inductive ResetHold where
  | supplies | resetN | refclk | thermal
  deriving DecidableEq, Repr

/-- What Kettle and the reset controller hold beside their registers. -/
structure PowerState where
  holds : List ResetHold := []
  /-- domains that have asked for power and wait for their ramp, clusters first (R573) -/
  requests : List Nat := []
  /-- RING_REFCLK is present (R571) -/
  ringClk : Bool := true
  /-- the sleep under way was ordered by KET_STATE_REQ, and its target is DEEP (R439, R581) -/
  forced : Bool := false
  deep : Bool := false
  /-- voltage class of each bank: 0 none, 1 1.8 V, 2 2.5 V, 3 3.3 V (21 R639) -/
  rail : SMap Nat := []
  /-- duty of the clusters' clocks since the last 16-tick frame boundary (R577) -/
  frameDuty : Nat := 16
  /-- tick at which the SYS watchdog's count began: its enabling or its last kick (R586) -/
  wdogAt : Nat := 0
  /-- what the last start met on the board: a start that no command describes meets it again (log 6) -/
  board : Board := { params := [], slotA := [], slotB := [], selfTest := 0 }
  deriving DecidableEq, Repr

/-! ### The unit -/

/-- Ordered sets of a ring port (03 R84, R86, R102). -/
inductive OrderedSet where
  | alive | rate
  | hello (h : Hello)
  deriving DecidableEq, Repr

/-- How a flash transaction goes out: LINES code, address bytes, dummy cycles and DIV (16 R557, R558). -/
structure FlashMode where
  lines : Nat
  addrBytes : Nat
  dummy : Nat
  div : Nat
  deriving DecidableEq, Repr

/-- What leaves the unit, newest first (the model's own record, log 5). -/
inductive Emission where
  | ordered (port : RingPort) (os : OrderedSet)
  | msix (addr data : Nat)
  /-- a PCI Express completion: 0 success, 1 Unsupported Request, 4 Completer Abort -/
  | pcie (status : Nat) (data : List Byte)
  /-- SPIH_MISO (16 R547): 0xFF in every byte from here to the rise of SPIH_CS_N but where `spi` follows; these bytes;
  high-impedance -/
  | spiFill
  | spi (miso : List Byte)
  | spiFloat
  /-- LB_D of a read, and whether LB_BUSY_N is low (16 R553, R554) -/
  | localBus (data : List (Option Byte)) (busy : Bool)
  /-- a flash transaction: opcode, address, length, direction, the bytes written, and how it goes out (16 R558) -/
  | flash (opcode : Nat) (addr : Option Nat) (len : Nat) (write : Bool) (data : List Byte) (mode : FlashMode)
  | frame (port : RingPort) (bytes : List Byte)
  /-- a copy forwarded out of `port` ends after `len` bytes, the oldest one still on its way out first (03 R94) -/
  | cut (port : RingPort) (len : Nat)
  /-- an Ethernet frame without its FCS; the Bool says that a complemented FCS follows (05 R199) -/
  | eth (port : Nat) (bytes : List Byte) (bad : Bool)
  deriving DecidableEq, Repr

/-- The answer to the last access: data, and whether it was an error response (the model's own, log 4). -/
structure Answer where
  data : DWord := 0
  error : Bool := false
  deriving DecidableEq, Repr

/-- The state of the unit. -/
@[ext]
structure State where
  regs : SMap Word := []
  pt : PointState := {}
  mem : MemState := {}
  trace : TraceState := {}
  ic : IcState := {}
  mbx : MbxState := {}
  pour : PourState := {}
  time : TimeState := {}
  pe : PinState := {}
  wake : WakeState := {}
  can : CanAll := {}
  eth : EthState := {}
  ring : RingState := {}
  sec : SecState := {}
  host : HostState := {}
  power : PowerState := {}
  /-- the four movers and the descriptor RAM with its number of descriptors (07 R238) -/
  movers : SMap MoverState := []
  desc : SMap Byte := []
  descs : Nat := 0
  /-- the eighteen cores, by number, and the stores that wait in their store buffers (08 R284) -/
  cores : SMap CoreState := []
  stores : List CoreStore := []
  /-- answer to the last access (model's own) -/
  answer : Answer := {}
  /-- what left the unit, newest first (model's own) -/
  out : List Emission := []
  /-- ticks of the core clock that the model has counted (model's own) -/
  tick : Nat := 0
  /-- free values taken so far (model's own) -/
  fresh : Nat := 0
  /-- commands waiting, first in first out (model's own) -/
  pending : List Instr := []
  deriving DecidableEq, Repr

/-- The state right after a power-on reset: the end of the hardware's start-up sequence (17 R587), before the
boot ROM has read the board. Registers not listed hold their reset values; KET_STATUS and KET_DOM show MAIN,
SRAM, CADDY and SYS running, RING ramping and PCIE waiting; SYS and KEEP run from vector 0; status points
POWER, KETTLE and RESET are written (DEDUCED, log 25; DESIGN CHOICE, log 8). -/
def State.reset : State :=
  { regs := [(0xF0001044, 0x001002AF), (0xF0001048, 0x0000C07F), (0xF0050040, 1), (0xF0051040, 1)]
    pt := { store := [(0x006, 0x02AF), (0x036, 0x0010), (0x037, 0x0001)] }
    cores := [(16, { run := .run }), (17, { run := .run })]
    power := { requests := [5] }
    sec := { blocks := 1 } }

end Sys2Proof.Machine
end

