-- ==== Sys2Proof/Machine/Ops.lean ====
section
/-! DEFINITION. Named operations that every block shares: bit fields, registers, INT_STATUS and the
interrupt sources it drives, error responses, free values, time stamps, trace records and alarms, and
counters in status points. -/

namespace Sys2Proof.Machine

/-! ### Bit fields and byte order (00 R5) -/

/-- Bits hi..lo of a number. -/
def bitsOf (v hi lo : Nat) : Nat := (v >>> lo) % 2 ^ (hi + 1 - lo)

/-- Bits hi..lo of a 32-bit word. -/
def getBits (v : Word) (hi lo : Nat) : Nat := bitsOf v.toNat hi lo

/-- The word with bits hi..lo replaced by `x`. -/
def putBits (v : Word) (hi lo x : Nat) : Word :=
  let m : Word := BitVec.ofNat 32 ((2 ^ (hi + 1 - lo) - 1) * 2 ^ lo)
  (v &&& ~~~m) ||| (BitVec.ofNat 32 (x * 2 ^ lo) &&& m)

/-- A number read as two's complement of `w` bits. -/
def signed (w n : Nat) : Int :=
  if n % 2 ^ w < 2 ^ (w - 1) then (n % 2 ^ w : Nat) else ((n % 2 ^ w : Nat) : Int) - (2 ^ w : Nat)

/-- The `w`-bit two's complement pattern of an integer. -/
def unsigned (w : Nat) (i : Int) : Nat := (i % ((2 ^ w : Nat) : Int)).toNat

/-- Integer division that rounds to the nearest, halves away from zero (05 R198, 07 Arithmetic). -/
def roundDiv (a : Int) (d : Nat) : Int :=
  if 0 ≤ a then (2 * a + d) / (2 * d) else -((2 * (-a) + d) / (2 * d))

/-- Bytes, least significant first, as a number (00 R5). -/
def leNat : List Byte → Nat
  | [] => 0
  | b :: t => b.toNat + 256 * leNat t

/-- The `n` little-endian bytes of a number. -/
def leBytes : Nat → Nat → List Byte
  | 0, _ => []
  | n + 1, v => BitVec.ofNat 8 v :: leBytes n (v / 256)

/-- Bytes, most significant first, as a number (00 R6). -/
def beNat (l : List Byte) : Nat := leNat l.reverse

/-- The `n` bytes of a number, most significant first (00 R6). -/
def beBytes (n v : Nat) : List Byte := (leBytes n v).reverse

/-- Bit `i` of a number. -/
def bit (v i : Nat) : Bool := v.testBit i

/-- A number from a Bool. -/
def ofBool (b : Bool) : Nat := if b then 1 else 0

/-! ### Initiators (09 R331, 20 R634) -/

/-- Sender stamp: class in [15:12], number in [11:0]; 0xF000 for an agent without a stamp. -/
def stampOf : Initiator → Nat
  | .core n => n
  | .pcie => 0x1000
  | .spi => 0x1001
  | .localBus => 0x1002
  | .ringUnit u => 0x2000 + u
  | _ => 0xF000

/-! ### The register store -/

/-- Reset value of the register of `d`, from its fields' reset values. -/
def RegDesc.reset (d : RegDesc) : Word :=
  d.fields.foldl (fun v f => putBits v f.hi f.lo f.reset) 0

/-- Does the register `d` (with its repetitions) occupy page offset `off`? -/
def RegDesc.holds (d : RegDesc) (off : Nat) : Bool :=
  if d.stride = 0 then off == d.off
  else decide (d.off ≤ off) && (off - d.off) % d.stride == 0 && decide ((off - d.off) / d.stride < d.count)

/-- The common layout at the start of every page (20, Common layout). -/
def commonRegs : List RegDesc :=
  [R.PAGE_ID.desc, R.PAGE_CAPS.desc, R.PAGE_CTRL.desc, R.PAGE_STATUS.desc, R.INT_STATUS.desc,
   R.INT_ENABLE.desc, R.INT_FORCE.desc, R.ERR_CAPTURE.desc, R.ERR_ADDR.desc]

/-- Register of page type `ty` at page offset `off`: the block's own INT_STATUS table wins over the common
one; none where neither the common layout nor the chapter defines the offset (20 R628). -/
def findReg (ty : PageType) (off : Nat) : Option RegDesc :=
  match (regTable ty).find? (·.holds off) with
  | some d => some d
  | none => commonRegs.find? (·.holds off)

/-- Kettle's cost table at reset: LEAK and DYN of domain d in 10 mW (17, Power Domains). -/
def ketCostReset : Nat → Nat × Nat
  | 0 => (92, 280) | 1 => (40, 90) | 2 => (25, 110) | 3 => (15, 80) | 4 => (5, 30) | 5 => (5, 35)
  | 6 => (2, 8) | 7 => (8, 27) | _ => (27, 60)

/-- Reset value of the register at internal address `a`. MBX_CFG63 is fixed (18 R593) (DESIGN CHOICE, log 48). -/
def regReset (a : Nat) : Word :=
  let p := a / 0x1000 % 0x400
  let off := a % 0x1000
  match pageRow p with
  | none => 0
  | some row =>
    if row.ty = .kettle ∧ 0x100 ≤ off ∧ off < 0x130 then
      let c := ketCostReset ((off - 0x100) / 4)
      BitVec.ofNat 32 (c.1 * 0x10000 + c.2)
    else if row.ty = .mailbox ∧ off = 0x8E0 then 0x80000011
    else
      match findReg row.ty off with
      | some d => d.reset
      | none => 0

/-- Contents of the register at internal address `a`. -/
def State.reg (s : State) (a : Nat) : Word := s.regs.get (regReset a) a

/-- Put a register's contents. -/
def State.setReg (s : State) (a : Nat) (v : Word) : State :=
  { s with regs := s.regs.set (regReset a) a v }

/-- Field `f` of the register of instance `inst`, repetition `idx`, as a number. -/
def State.rd (s : State) (f : Fld) (inst : Nat := 0) (idx : Nat := 0) : Nat :=
  getBits (s.reg (f.addr inst idx)) f.hi f.lo

/-- Is the one-bit field set? -/
def State.on (s : State) (f : Fld) (inst : Nat := 0) (idx : Nat := 0) : Bool :=
  s.rd f inst idx != 0

/-- Set field `f` to `v` (hardware's own update: access codes and locks do not apply). -/
def State.wr (s : State) (f : Fld) (v : Nat) (inst : Nat := 0) (idx : Nat := 0) : State :=
  s.setReg (f.addr inst idx) (putBits (s.reg (f.addr inst idx)) f.hi f.lo v)

/-- Largest value of a field. -/
def Fld.max (f : Fld) : Nat := 2 ^ (f.hi + 1 - f.lo) - 1

/-- Add `n` to a counter field that saturates at its largest value. -/
def State.bumpBy (s : State) (f : Fld) (n : Nat) (inst : Nat := 0) (idx : Nat := 0) : State :=
  s.wr f (min (s.rd f inst idx + n) f.max) inst idx

/-- Count one event in a counter field that saturates. -/
def State.bump (s : State) (f : Fld) (inst : Nat := 0) (idx : Nat := 0) : State :=
  s.bumpBy f 1 inst idx

/-! ### Answers and free values -/

/-- The access is answered with data (0 for an accepted write). -/
def State.ok (s : State) (d : Nat := 0) : State := { s with answer := ⟨BitVec.ofNat 64 d, false⟩ }

/-- The access is answered with an error response: a read returns 0, a write has no effect (01 R20). -/
def State.err (s : State) : State := { s with answer := ⟨0, true⟩ }

/-- Take a fresh free value. -/
def State.free (s : State) : BitVec 64 × State :=
  (Config.freeWord s.fresh, { s with fresh := s.fresh + 1 })

/-- Something leaves the unit. -/
def State.emit (s : State) (e : Emission) : State := { s with out := e :: s.out }

/-! ### Interrupt sources (09 R308 to R319) -/

/-- Key of shared source n. -/
def shared (n : Nat) : Nat := 0x1000 + n

/-- INT_STATUS of page p; on page 0 bit 0 mirrors ERR_CAPTURE.VALID (20, Common layout). -/
def State.intStatus (s : State) (p : Nat) : Nat :=
  if p = 0 then s.rd R.ERR_CAPTURE.VALID 0 else s.rd R.INT_STATUS.BITS p

/-- The page whose INT_STATUS drives shared source n (20 R626). -/
def pageOfSource (n : Nat) : Option Nat :=
  (pageRows.find? fun r =>
    match r.src with | some b => decide (b ≤ n) && decide (n < b + r.count) | none => false).map
    fun r => match r.src with | some b => r.first + (n - b) | none => 0

/-- Level of a level source; none for an event source or a reserved one (09 R309, R310). -/
def State.srcLevel (s : State) (key : Nat) : Option Bool :=
  if key < 0x1000 then
    let c := key / 64
    let n := key % 64
    if key < 18 * 64 ∧ n < 8 then
      let db := s.rd R.IC_DB_LO.all c + 2 ^ 32 * s.rd R.IC_DB_HI.all c
      let en := s.rd R.IC_DB_EN_LO.all c + 2 ^ 32 * s.rd R.IC_DB_EN_HI.all c
      some (bitsOf (db &&& en) (8 * n + 7) (8 * n) != 0)
    else none
  else
    let n := key - 0x1000
    if 64 ≤ n ∧ n < 128 then some (!(s.mbx.chan.get [] (n - 64)).isEmpty)
    else match pageOfSource n with
      | some p => some ((s.intStatus p &&& s.rd R.INT_ENABLE.BITS p) != 0)
      | none => none

/-- Does the key name an event source (09 R309, R310)? -/
def eventSource (key : Nat) : Bool :=
  if key < 0x1000 then
    let n := key % 64
    decide (key < 18 * 64) && decide (8 ≤ n) && decide (n ≤ 17)
  else
    let n := key - 0x1000
    (decide (128 ≤ n) && decide (n ≤ 209)) || (decide (320 ≤ n) && decide (n ≤ 575))

/-- Event pulse, rising edge or trigger with CLR = 0 (09 R314). -/
def SrcState.event : SrcState → SrcState
  | .inactive => .pending
  | .pending => .pending
  | .active => .activePending
  | .activePending => .activePending

/-- Falling level, or trigger with CLR = 1 (09 R314). -/
def SrcState.fall : SrcState → SrcState
  | .inactive => .inactive
  | .pending => .inactive
  | .active => .active
  | .activePending => .active

/-- Claim (09 R314, R318). -/
def SrcState.claim : SrcState → SrcState
  | .pending => .active
  | st => st

/-- Completion, `level` saying that a level input is asserted (09 R314, R319). -/
def SrcState.complete (level : Bool) : SrcState → SrcState
  | .inactive => .inactive
  | .pending => .pending
  | .active => if level then .pending else .inactive
  | .activePending => .pending

/-- State of a source. -/
def State.src (s : State) (key : Nat) : SrcState := s.ic.src.get .inactive key

/-- Put the state of a source. -/
def State.setSrc (s : State) (key : Nat) (st : SrcState) : State :=
  { s with ic := { s.ic with src := s.ic.src.set .inactive key st } }

/-- An event pulse reaches an event source; a reserved source never becomes pending (09 R309). -/
def State.pulse (s : State) (key : Nat) : State :=
  if eventSource key then s.setSrc key (s.src key).event else s

/-- A level source follows its input: an edge since the last look changes its state (09 R314). -/
def State.syncSource (s : State) (key : Nat) : State :=
  match s.srcLevel key with
  | none => s
  | some l =>
    let old := s.ic.level.get false key
    let s1 := { s with ic := { s.ic with level := s.ic.level.set false key l } }
    if l && !old then s1.setSrc key (s.src key).event
    else if !l && old then s1.setSrc key (s.src key).fall
    else s1

/-- The shared source of page p follows its INT_STATUS (09 R310, 20 R633). -/
def State.syncPage (s : State) (p : Nat) : State :=
  match pageRow p with
  | some row =>
    match row.src with
    | some b => s.syncSource (shared (b + (p - row.first)))
    | none => s
  | none => s

/-- Page number that holds field `f` in instance `inst`. -/
def Fld.pageNo (f : Fld) (inst : Nat) : Nat := f.page + inst

/-- A block's event sets a bit of its INT_STATUS. -/
def State.raise (s : State) (f : Fld) (inst : Nat := 0) : State :=
  (s.wr f f.max inst).syncPage (f.pageNo inst)

/-! ### Error responses (01 R20, 20 R634) -/

/-- Access size code of ERR_CAPTURE.SIZE. -/
def sizeCode (size : Nat) : Nat :=
  if size = 1 then 0 else if size = 2 then 1 else if size = 4 then 2 else 3

/-- Record a failed access in page p: captured when VALID = 0, counted in OVER otherwise. -/
def State.capture (s : State) (p : Nat) (who : Initiator) (write : Bool) (size cause addr : Nat) : State :=
  if s.on R.ERR_CAPTURE.VALID p then s.bump R.ERR_CAPTURE.OVER p
  else
    let v : Nat := 2 ^ 31 + ofBool write * 2 ^ 30 + sizeCode size * 2 ^ 28 + cause * 2 ^ 24 + stampOf who
    ((s.setReg (R.ERR_CAPTURE.VALID.addr p 0) (BitVec.ofNat 32 v)).setReg
      (R.ERR_ADDR.ADDR.addr p 0) (BitVec.ofNat 32 addr)).syncPage p

/-- A failed register-page access: recorded in the target page and answered with an error response. -/
def State.pageErr (s : State) (p : Nat) (who : Initiator) (write : Bool) (cause addr : Nat) : State :=
  (s.capture p who write 4 cause addr).err

/-! ### Status points that hardware writes (02 R52, 19 R623) -/

/-- Status indices that some chapter defines (02 R52, R53, 19 R623). -/
def statusDefined (i : Nat) : Bool :=
  decide (i ≤ 0x007) || (decide (0x010 ≤ i) && decide (i ≤ 0x015)) || (decide (0x020 ≤ i) && decide (i ≤ 0x037))

/-- What a local point holds before its first write: status points by 02 R52 and R53, application points
NEVER (R78; an unconfigured one reads INVALID whatever it holds). -/
def pointReset (i : Nat) : Half :=
  if i < 0x100 then (if statusDefined i then 0x8000 else 0xF000) else 0x8000

/-- The stored container of local point i. -/
def State.stored (s : State) (i : Nat) : Half := s.pt.store.get (pointReset i) i

/-- Put the stored container of local point i, which clears an error that it held (15 R508). -/
def State.setStored (s : State) (i : Nat) (v : Half) : State :=
  { s with pt := { s.pt with store := s.pt.store.set (pointReset i) i v, ecc := s.pt.ecc.set .clean i .clean } }

/-- Hardware sets status point i to `v` with quality GOOD. -/
def State.statusSet (s : State) (i v : Nat) : State := s.setStored i (BitVec.ofNat 16 (v % 4096))

/-- Hardware counts one event in status point i, modulo 4,096 (02 R52). -/
def State.statusCount (s : State) (i : Nat) : State :=
  s.statusSet i ((s.stored i).toNat % 4096 + 1)

/-! ### Time stamps and trace records (19) -/

/-- The time stamp of the present tick (19 R612). -/
def State.stamp (s : State) : Stamp := ⟨s.time.sec % 2 ^ 32, s.time.ns⟩

/-- SYNC bit of a record: the servo is LOCKED or MASTER (19 R612). -/
def State.synced (s : State) : Bool :=
  s.rd R.TB_STATUS.STATE == 3 || s.rd R.TB_STATUS.STATE == 5

/-- Fill below which a record of the class is taken (19 R618). -/
def TraceClass.limit : TraceClass → Nat
  | .alarm => 256 | .event => 224 | .trace => 160 | .debug => 96

/-- A drop is counted by class and noted for the next GAP record (19 R618). -/
def State.traceDrop (s : State) (c : TraceClass) : State :=
  let t := s.trace
  let first := if t.dropEvent + t.dropTrace + t.dropDebug = 0 then s.stamp else t.dropFirst
  let t := { t with dropFirst := first, dropLast := s.stamp }
  let s1 := match c with
    | .event => { s with trace := { t with dropEvent := min (t.dropEvent + 1) 65535 } }.bump R.TRC_DROP_A.HI
    | .trace => { s with trace := { t with dropTrace := min (t.dropTrace + 1) 65535 } }.bump R.TRC_DROP_A.LO
    | .debug => { s with trace := { t with dropDebug := min (t.dropDebug + 1) 65535 } }.bump R.TRC_DROP_B.HI
    | .alarm => s
  s1.statusCount 0x034

/-- Offer a record to the queue: taken by class and fill, or dropped (19 R618). Records of class ALARM
come through `placeOffers`, which never drops. -/
def State.queueRec (s : State) (r : TraceRec) : State :=
  if s.trace.queue.length < r.cls.limit then
    { s with trace := { s.trace with queue := s.trace.queue ++ [r] } }
  else s.traceDrop r.cls

/-- The four 16-bit drop counts of a GAP record, summed or subtracted field by field (19 R612, R621). -/
def dropFields (f : Nat → Nat → Nat) (a b : Nat) : Nat :=
  let g (i : Nat) : Nat := min 65535 (f (bitsOf a (16 * i + 15) (16 * i)) (bitsOf b (16 * i + 15) (16 * i))) * 65536 ^ i
  g 0 + g 1 + g 2 + g 3

/-- The OPEN or CLOSE record of an entry (19 R614, R615), or its GAP record (R621). -/
def AlarmEntry.record (e : AlarmEntry) (close : Bool) : TraceRec :=
  let us := ((e.last.sec * 1000000000 + e.last.ns) - (e.first.sec * 1000000000 + e.first.ns)) / 1000
  { cls := .alarm, kind := if e.gap then 2 else 1, page := e.page, code := e.code, aux := e.aux, sync := e.sync,
    close := close && !e.gap, unit := e.unit, seq := 0, first := e.first, delta := us,
    count := if close then e.count - e.placed else e.count
    data := if e.gap then dropFields (· - ·) e.data e.gapPlaced else e.data }

/-- Place the offered record of one entry while the queue has room: first the OPEN record; then, when the
window has closed, the CLOSE record if occurrences followed, and the entry is freed (19 R614 to R617). -/
def placeEntry (q : List TraceRec) (e : AlarmEntry) : List TraceRec × Option AlarmEntry :=
  let (q, e) := if !e.openOut && decide (q.length < 256) then
      (q ++ [e.record false], { e with openOut := true, placed := e.count, gapPlaced := e.data }) else (q, e)
  if e.closing && e.openOut then
    if e.count = e.placed then (q, none)
    else if q.length < 256 then (q ++ [e.record true], none)
    else (q, some e)
  else (q, some e)

/-- Place the offered records of a list of entries, in order. -/
def placeAll : List TraceRec → List AlarmEntry → List TraceRec × List AlarmEntry
  | q, [] => (q, [])
  | q, e :: t =>
    let (q, e') := placeEntry q e
    let (q, t') := placeAll q t
    (q, match e' with | some x => x :: t' | none => t')

/-- Place every offered ALARM record that the queue has room for (19 R617). -/
def State.placeOffers (s : State) : State :=
  let (q, es) := placeAll s.trace.queue s.trace.entries
  let (q, o) := match s.trace.overflow with
    | some e => placeEntry q e
    | none => (q, none)
  { s with trace := { s.trace with queue := q, entries := es, overflow := o } }

/-- An occurrence, or a record that merges into an open entry: COUNT, or each drop count, is summed; the
earlier T_FIRST with its DATA and the later T_LAST stay (19 R614, R621). -/
def AlarmEntry.again (e x : AlarmEntry) : AlarmEntry :=
  let before (a b : Stamp) : Bool := decide (a.sec < b.sec) || (a.sec == b.sec && decide (a.ns < b.ns))
  let early := before x.first e.first
  { e with count := min (e.count + x.count) 0xFFFFFFFF, last := if before e.last x.last then x.last else e.last
           first := if early then x.first else e.first
           data := if e.gap then dropFields (· + ·) e.data x.data else if early then x.data else e.data }

/-- Do two entries have one key (19, Coalescing alarms)? -/
def AlarmEntry.same (e x : AlarmEntry) : Bool :=
  e.unit == x.unit && e.page == x.page && e.code == x.code && e.aux == x.aux && e.gap == x.gap

/-- An alarm, or a collected ALARM or GAP record, reaches the coalescing entries (19 R614, R616, R621). -/
def State.alarmOf (s : State) (x : AlarmEntry) : State :=
  let s1 :=
    if s.trace.entries.any (·.same x) then
      let es := s.trace.entries.map (fun e => if e.same x then e.again x else e)
      { s with trace := { s.trace with entries := es } }
    else if s.trace.entries.length < 64 then { s with trace := { s.trace with entries := s.trace.entries ++ [x] } }
    else
      let y := { x with page := 0x3FF, code := 0x7F, aux := 0, unit := s.ring.addr, data := 0, gap := false }
      let o := match s.trace.overflow with
        | some e => e.again y
        | none => y
      ({ s with trace := { s.trace with overflow := some o } }).raise R.trace_INT.OVF
  s1.placeOffers

/-- An entry that one alarm of this unit opens. -/
def State.newAlarm (s : State) (page code aux data : Nat) : AlarmEntry :=
  { unit := s.ring.addr, page := page, code := code, aux := aux, first := s.stamp, last := s.stamp
    sync := s.synced, count := 1, placed := 0, data := data, openOut := false, closing := false }

/-- Hardware or software raises an ALARM on this unit (19 R613, R614). With TRC_CTRL.EN = 0 no record is
raised (DEDUCED, log 42). -/
def State.alarm (s : State) (page code aux data : Nat) : State :=
  if s.on R.TRC_CTRL.EN then
    let s1 := (s.bump R.TRC_ALARMS.COUNT).statusCount 0x033
    s1.alarmOf (s.newAlarm page code aux data)
  else s

/-- Hardware raises an EVENT record (19 R613, R618), when its class is enabled. -/
def State.event (s : State) (page code aux data : Nat) : State :=
  if s.on R.TRC_CTRL.EN && s.on R.TRC_CLASS_EN.EVENT then
    s.queueRec
      { cls := .event, kind := 0, page := page, code := code, aux := aux, sync := s.synced,
        close := false, unit := s.ring.addr, seq := 0, first := s.stamp, delta := 0, count := 0, data := data }
  else s

end Sys2Proof.Machine
end

