-- ==== Sys2Proof/Machine/Kettle.lean ====
section
/-! DEFINITION. Kettle's grants (17 R572 to R579): the state of the twelve domains, the granted sum, the
duty of the clusters, and requests for power and for clocks. -/

namespace Sys2Proof.Machine

/-- State of domain d: 0 off, 1 ramping, 2 clock stopped, 3 running (KET_DOM). -/
def State.dom (s : State) (d : Nat) : Nat := bitsOf (s.rd R.KET_DOM.STATE) (2 * d + 1) (2 * d)

/-- Put the state of domain d. -/
def State.putDom (s : State) (d v : Nat) : State :=
  let old := s.rd R.KET_DOM.STATE
  s.wr R.KET_DOM.STATE (old - s.dom d * 4 ^ d + v * 4 ^ d)

/-- Domain of core c: its cluster, or SYS (17, Power Domains). -/
def domOf (c : Nat) : Nat := if c < 16 then 8 + c / 4 else 7

/-- ⌈n × F⌉ for a leakage figure n, with F of R574 from status point TEMP, (T + 64) × 16. -/
def State.leakAt (s : State) (n : Nat) : Nat :=
  (n * (480 + ((s.stored 0x005).toNat % 4096 - 2384)) + 479) / 480

/-- Grant of domain d with cluster duty k (R574, R575). -/
def State.grantOf (s : State) (k d : Nat) : Nat :=
  let st := s.dom d
  (if st = 0 then 0 else s.leakAt (s.rd R.KET_COSTd.LEAK 0 d)) +
  (if st = 3 then (s.rd R.KET_COSTd.DYN 0 d * (if 8 ≤ d then k else 16) + 15) / 16 else 0)

/-- Sum of the grants with cluster duty k. -/
def State.grantSum (s : State) (k : Nat) : Nat := ((List.range 12).map (s.grantOf k)).sum

/-- The lowest duty (R577, R578). -/
def State.minDuty (s : State) : Nat := max 1 (s.rd R.KET_CTRL.MIN_DUTY)

/-- The largest duty from `hi` down to the lowest that fits CAP, or the lowest (R575, R576). -/
def State.fitDuty (s : State) (hi : Nat) : Nat :=
  let lo := min hi s.minDuty
  (((List.range (hi + 1)).reverse.find? fun k =>
    decide (lo ≤ k) && decide (s.grantSum k ≤ s.rd R.KET_CTRL.CAP))).getD lo

/-- THROTTLE of every core of the clocked clusters (R577). -/
def State.throttle (s : State) : State :=
  let s1 := (List.range 16).foldl (fun (t : State) c =>
    if t.dom (domOf c) = 3 then t.pulse (c * 64 + 16) else t) s
  s1.raise R.kettle_INT.THROTTLE

/-- DUTY takes effect (R577); status points POWER and KETTLE follow. -/
def State.putDuty (s : State) (k : Nat) : State :=
  let old := s.rd R.KET_STATUS.DUTY
  let s1 := (s.wr R.KET_STATUS.DUTY k).wr R.KET_STATUS.GRANTED (s.grantSum k)
  if old = 16 ∧ k < 16 then s1.throttle else s1

/-- OVER follows the sum (R576): the flag, the interrupt and the ALARM when it begins. -/
def State.putOver (s : State) (k : Nat) : State :=
  let sum := s.grantSum k
  if s.rd R.KET_CTRL.CAP < sum then
    if s.on R.KET_STATUS.OVER then s
    else ((s.wr R.KET_STATUS.OVER 1).raise R.kettle_INT.OVER).alarm 1 1 0 sum
  else s.wr R.KET_STATUS.OVER 0

/-- Status points POWER and KETTLE (02 R52, 19 R623). -/
def State.syncKettle (s : State) : State :=
  (s.statusSet 0x006 (s.rd R.KET_STATUS.GRANTED)).statusSet 0x036
    (s.rd R.KET_STATUS.DUTY + 32 * s.rd R.KET_STATUS.OVER)

/-- Kettle fits the grants to CAP: the duty may rise only at an evaluation (R575 to R577) (DEDUCED, log 45). -/
def State.regrant (s : State) (evaluate : Bool) : State :=
  let k := s.fitDuty (if evaluate then 16 else s.rd R.KET_STATUS.DUTY)
  ((s.putDuty k).putOver k).syncKettle

/-- KET_STATUS.STATE reads DOZE while SYS and every cluster are stopped (R579); NAP and DEEP stand. -/
def State.syncDoze (s : State) : State :=
  if s.rd R.KET_STATUS.STATE < 2 then
    s.wr R.KET_STATUS.STATE (ofBool ([7, 8, 9, 10, 11].all fun d => s.dom d != 3))
  else s

/-- Put domain d into a state and fit the grants. -/
def State.setDom (s : State) (d v : Nat) : State := ((s.putDom d v).regrant false).syncDoze

/-- The place of a request: a cluster waits ahead of every other domain (R573). -/
def queueDomain (d : Nat) (l : List Nat) : List Nat :=
  if 8 ≤ d then (l.filter fun x => decide (8 ≤ x)) ++ [d] ++ l.filter fun x => decide (x < 8) else l ++ [d]

/-- Domain d asks for power (R573, R575). -/
def State.requestDom (s : State) (d : Nat) : State :=
  if s.dom d = 0 ∧ d < 12 ∧ s.power.requests.contains d = false then
    { s with power := { s.power with requests := queueDomain d s.power.requests } }
  else s

/-- An event for core c restarts a stopped clock, or asks for the power of a gated cluster (R579, R580, 06
R220, 09 R337). -/
def State.wakeCore (s : State) (c : Nat) : State :=
  match s.dom (domOf c) with
  | 0 => s.requestDom (domOf c)
  | 2 => s.setDom (domOf c) 3
  | _ => s

/-- Does a cluster's clock run in this tick of the 16-tick frame (R577)? -/
def State.dutyTick (s : State) : Bool :=
  let j := s.tick % 16
  decide (j * s.power.frameDuty / 16 < (j + 1) * s.power.frameDuty / 16)

/-- A 16-tick frame begins: a change of the duty takes effect (R577). -/
def State.frameTick (s : State) : State :=
  if s.tick % 16 = 0 then { s with power := { s.power with frameDuty := s.rd R.KET_STATUS.DUTY } } else s

/-- Is the clock of core c on? -/
def State.clocked (s : State) (c : Nat) : Bool := s.dom (domOf c) == 3

/-- Does the clock of core c run in this tick? Only the clusters are throttled (R575, R577). -/
def State.runs (s : State) (c : Nat) : Bool := s.clocked c && (decide (16 ≤ c) || s.dutyTick)

/-- Is the device neither held in reset nor asleep? In NAP and DEEP only the always-on domain and, in NAP,
the CAN domain work (17, Power Domains). -/
def State.awake (s : State) : Bool := s.power.holds.isEmpty && decide (s.rd R.KET_STATUS.STATE < 2)

/-- An event of a block that is off in NAP, in DEEP and in reset: nothing happens there (17 R569, R584,
Power Domains). -/
def State.powered (s t : State) : Host.Outcome State Fault Refusal := .next (if s.awake then t else s)

end Sys2Proof.Machine
end

