-- ==== Sys2Proof/Machine/Time.lean ====
section
/-! DEFINITION. The time base (05): unit time, captures and steps, the servo that follows the ring, and
the loss of the reference. -/

namespace Sys2Proof.Machine

/-! ### Unit time (05 R173, R174) -/

/-- Unit time in units of 2⁻⁴⁰ ns. -/
def State.now (s : State) : Nat :=
  (s.time.sec * 1000000000 + s.time.ns) * 2 ^ 40 + s.time.sub

/-- Put unit time, in units of 2⁻⁴⁰ ns. A step that would take it below 0 leaves it at 0 (DESIGN CHOICE, log 57). -/
def State.setNow (s : State) (t : Int) : State :=
  let n := t.toNat
  let ns := n / 2 ^ 40
  { s with time := { s.time with sec := ns / 1000000000, ns := ns % 1000000000, sub := n % 2 ^ 40 } }

/-- Largest rate, ±500 ppm in units of 2⁻⁴⁰ (R174). -/
def rateMax : Int := 549755814

/-- The clamp of R174. -/
def clampRate (r : Int) : Int := max (-rateMax) (min rateMax r)

/-- TB_RATE as a signed number, clamped. -/
def State.rate (s : State) : Int := clampRate (signed 32 (s.rd R.TB_RATE.RATE))

/-- Put TB_RATE, clamped. -/
def State.setRate (s : State) (r : Int) : State := s.wr R.TB_RATE.RATE (unsigned 32 (clampRate r))

/-- One tick of the time base (R174, R184): 2.5 ns × (1 + rate × 2⁻⁴⁰), the slew term while it applies. The half unit
that an odd rate leaves over is kept for the next tick, so that nothing builds up (DESIGN CHOICE, log 38). -/
def State.timeTick (s : State) : State :=
  let r := if s.time.slewLeft = 0 then s.rate else clampRate (s.rate + s.time.slew)
  let d : Int := 5 * 2 ^ 40 + 5 * r + s.time.half
  let s1 := s.setNow ((s.now : Int) + d / 2)
  { s1 with time := { s1.time with slewLeft := s1.time.slewLeft - 1, half := (d % 2).toNat } }

/-- TB_CAPTURE: the time and the cycle number of this tick into capture set `k` (R176). -/
def State.capturedTime (s : State) (k : Nat) : State :=
  let t := s.time
  ((((s.wr R.TB_CAPs_SEC_HI.SEC (t.sec / 2 ^ 32) 0 k).wr R.TB_CAPs_SEC_LO.SEC t.sec 0 k).wr
    R.TB_CAPs_NS.NS t.ns 0 k).wr R.TB_CAPs_FRAC.FRAC (t.sub / 2 ^ 24) 0 k).wr
    R.TB_CAPs_FRAC.CYCLE (s.rd R.RING_CYC_NUM.CYCLE) 0 k

/-- Half a tick, 1.25 ns, in units of 2⁻⁴⁰ ns. -/
def halfTick : Nat := 5 * 2 ^ 38

/-- The present tick starts at most 1.25 ns before local time `t`, or after it (R193). -/
def State.reached (s : State) (t : Nat) : Bool := decide (t ≤ s.now + halfTick)

/-- The swaps of ABSOLUTE gate lists that are armed wait for the first cycle start after their ARM write, which keeps its
place before it when time steps by `d` (13 R472). -/
def State.shiftArms (s : State) (d : Int) : State :=
  { s with eth := { s.eth with macs := s.eth.macs.map fun e =>
      if (s.on R.MAC_GCL_CTRL.ARM e.1 && !s.on R.MAC_GCL_CFG.MODE e.1) = true then
        (e.1, { e.2 with gclArmed := ((e.2.gclArmed : Int) + d).toNat })
      else e } }

/-- Add `d`, in 2⁻⁴⁰ ns, to time in this tick; TIME_SET is set and STEPS counts (R177, R184). The next cycle
boundary is due at the local time `cycNext`, the master's cycle start (04 R129): with the step the unit reaches it
earlier or later by that amount, and the cycle gets shorter or longer (R178, R179; DEDUCED, log 38). -/
def State.stepTime (s : State) (d : Int) : State :=
  (((s.setNow ((s.now : Int) + d)).shiftArms d).wr R.TB_STATUS.TIME_SET 1).bump R.TB_STATUS.STEPS

/-- TB_STEP_NS (R177, R178): the CAUSE of an error response, or none. The refusal of R178, on the cycle master
of a ring whose cycle runs, is counted and not answered with an error. -/
def State.stepWrite (s : State) (v : Word) : State × Option Nat :=
  let ns := signed 32 v.toNat
  if ns < -999999999 ∨ 999999999 < ns then (s, some 10)
  else if s.ring.cycleMaster && s.rd R.RING_CYC_STATUS.SEG != 4 then (s.bump R.TB_STATUS.REFUSED, none)
  else (s.stepTime ((signed 32 (s.rd R.TB_STEP_SEC.SEC) * 1000000000 + ns) * 2 ^ 40), none)

/-! ### Configuration of the steep comparators (05 R205) -/

/-- A write will change the configuration of comparator n: what stood at the start of the tick is kept. -/
def State.steepKeep (s : State) (n : Nat) : State :=
  let as := [R.STP_CTRLn.EN.addr 0 n, R.STP_TIMEn.TIME.addr 0 n, R.STP_SECn.SEC.addr 0 n, R.STP_ARGn.ARG.addr 0 n]
  let new := as.filter fun a => !(s.time.steepOld.any fun e => e.1 == a)
  { s with time := { s.time with steepOld := s.time.steepOld ++ new.map fun a => (a, s.reg a) } }

/-- The configuration of the comparators at the start of the present tick, by which they fire. -/
def State.steepView (s : State) : State :=
  s.time.steepOld.foldl (fun (t : State) e => t.setReg e.1 e.2)
    { s with time := { s.time with firedCycle := s.time.firedCycle &&& ~~~s.time.firedNow } }

/-! ### Servo (05 R180 to R191) -/

/-- State codes of Servo States. -/
inductive Servo where
  | unset | free | acquire | locked | holdover | master
  deriving DecidableEq, Repr

/-- Code of a servo state. -/
def Servo.code : Servo → Nat
  | .unset => 0 | .free => 1 | .acquire => 2 | .locked => 3 | .holdover => 4 | .master => 5

/-- The servo state of TB_STATUS. -/
def State.servo (s : State) : Servo :=
  match s.rd R.TB_STATUS.STATE with
  | 0 => .unset | 1 => .free | 2 => .acquire | 3 => .locked | 4 => .holdover | _ => .master

/-- The status point TB_STATE follows the servo and its silence count (19 R623). -/
def State.syncTb (s : State) : State := s.statusSet 0x035 (s.rd R.TB_STATUS.STATE + 8 * s.rd R.TB_STATUS.SILENT)

/-- Put the servo state; the count of good measurements starts again. -/
def State.setServo (s : State) (v : Servo) : State :=
  let s1 := (s.wr R.TB_STATUS.STATE v.code).syncTb
  { s1 with time := { s1.time with good := 0 } }

/-- Cycle length in ticks, 1 at least; that of a start-up cycle before the first activation (17 R588). -/
def State.cycleTicks (s : State) : Nat := if s.ring.haveActive then max 1 s.ring.active.cycleTicks else 100000

/-- Local time `n` ticks after the start of the present cycle (04 R129). -/
def State.cycleTime (s : State) (n : Nat) : Nat := s.time.cycStart + n * (2 * halfTick)

/-- The idle segment begins TH_TICKS + ST_TICKS + DYN_TICKS after the start of the cycle (04 R130). -/
def State.idleTick (s : State) : State :=
  let a := s.ring.active
  if s.rd R.RING_CYC_STATUS.SEG = 2 ∧ s.reached (s.cycleTime (a.thTicks + a.stTicks + a.dynTicks)) = true then
    s.wr R.RING_CYC_STATUS.SEG 3
  else s

/-- One unit of TIME_OFFSET, 0.25 ns, in the servo's unit of 2⁻¹⁶ ns. -/
def quarterNs : Nat := 16384

/-- The status point TIME_OFFSET: θ to the nearest 0.25 ns, saturating at 12 bits (02 R52, 05 R180). -/
def State.putOffset (s : State) (q : Int) : State :=
  s.statusSet 0x004 (unsigned 12 (max (-2048) (min 2047 (roundDiv q quarterNs))))

/-- |θ| ≤ G/4, θ in 2⁻¹⁶ ns and the guard in ticks of 2.5 ns. -/
def State.withinQuarter (s : State) (q : Int) : Bool :=
  decide (4 * q.natAbs ≤ 10 * quarterNs * s.ring.active.guardTicks)

/-- |θ| > G/2. -/
def State.beyondHalf (s : State) (q : Int) : Bool :=
  decide (10 * quarterNs * s.ring.active.guardTicks < 2 * q.natAbs)

/-- TIME_OFFSET as it stands, in 2⁻¹⁶ ns (04 R148). -/
def State.offsetNow (s : State) : Int := signed 12 (s.stored 4).toNat * quarterNs

/-- Self-silence is entered (04 R148, 05 R191): `why` is 0 for an offset, 1 for the holdover limit. -/
def State.enterSilence (s : State) (why : Nat) : State :=
  if s.on R.RING_CYC_STATUS.SILENCED then s
  else
    let s1 := (s.wr R.RING_CYC_STATUS.SILENCED 1).alarm R.RING_CYC_STATUS.SILENCED.page 1 why (s.stored 4).toNat
    { s1 with ring := { s1.ring with goodCycles := 0 } }

/-- No slew term applies (R184, R186, R187). -/
def State.endSlew (s : State) : State := { s with time := { s.time with slewLeft := 0 } }

/-- The step of R184: time moves by −θ, and a slew of the measurement before ends. -/
def State.servoStep (s : State) (q : Int) : State :=
  let s1 := if s.servo = .locked then s.alarm R.TB_STATUS.STATE.page 1 0 (unsigned 64 q) else s
  ((s1.endSlew.stepTime (-q * 2 ^ 24)).setServo .acquire)

/-- −θ × 2⁴⁰ / d, rounded, θ in 2⁻¹⁶ ns and d in ns (R184) (DEDUCED, log 38). -/
def perCycle (q : Int) (d : Nat) : Int := roundDiv (-q * 16777216) d

/-- The rate terms of R184: the integral, and the slew for one cycle. -/
def State.servoRate (s : State) (q : Int) : State :=
  let t := 5 * s.cycleTicks
  let ki := perCycle (2 * q) (t * 2 ^ s.rd R.TB_SERVO.KI_SHIFT)
  let kp := perCycle (2 * q) (t * 2 ^ s.rd R.TB_SERVO.KP_SHIFT)
  let s1 := s.setRate (s.rate + ki)
  { s1 with time := { s1.time with slew := kp, slewLeft := s.cycleTicks } }

/-- The state changes of Servo States after a slewed measurement. -/
def State.servoGood (s : State) (q : Int) : State :=
  if s.servo = .locked then (if s.beyondHalf q then s.setServo .acquire else s)
  else
    let good := if s.withinQuarter q then s.time.good + 1 else 0
    if 8 ≤ good then s.setServo .locked
    else { s with time := { s.time with good := good } }

/-- The slewed branch of R184. -/
def State.servoSlew (s : State) (q : Int) : State :=
  ((if s.servo = .holdover then s.setServo .acquire else s).servoRate q).servoGood q

/-- A measurement of θ, in 2⁻¹⁶ ns (R180, R184). Only a servo that follows the ring measures. -/
def State.measure (s : State) (q : Int) : State :=
  if s.servo = .free ∨ s.servo = .master then s
  else
    let s1 := s.putOffset q
    let win := max 1 (s1.rd R.TB_SERVO.STEP_WIN) * 4000 * quarterNs
    if s1.servo = .unset ∨ win < q.natAbs then s1.servoStep q else s1.servoSlew q

/-- The reference of this cycle was accepted: s returns to 0 at the check (R186), and HOLDOVER ends in ACQUIRE,
whether or not the reference can be measured (R183). -/
def State.sawReference (s : State) : State :=
  let s1 := if s.servo = .holdover then s.setServo .acquire else s
  { s1 with time := { s1.time with refSeen := true } }

/-- The copy that R181 does not prefer is measured where the preferred one has not come. -/
def State.measureOther (s : State) : State :=
  match s.ring.thetaOther with
  | some q => ({ s with ring := { s.ring with thetaOther := none } } : State).measure q
  | none => s

/-- REFERENCE_CHECK at tick TH_TICKS (R186); the static segment, or in a start-up cycle the idle segment,
begins (04 R130, 17 R588). -/
def State.referenceCheck (s : State) : State :=
  let s0 := { s with time := { s.time with refSeen := false } }
  if 1 ≤ s.rd R.TB_CTRL.REF ∨ s.ring.timeMaster = true then s0
  else if s.time.refSeen then s0.wr R.TB_STATUS.SILENT 0
  else
    let n := min (s.rd R.TB_STATUS.SILENT + 1) 255
    let s1 := s0.wr R.TB_STATUS.SILENT n
    if n = 3 ∧ (s.servo = .acquire ∨ s.servo = .locked) then
      let s2 := (s1.setServo .holdover).endSlew
      { s2 with time := { s2.time with holdover := 0 } }
    else s1

/-- TB_CTRL is written (Servo States, R194): with REF = FREE or PTP the servo is off and reads FREE, on the time
master too; a return to RING starts it in ACQUIRE or UNSET with s = 0, or in MASTER while the unit holds the
time-master role (DEDUCED, log 33). -/
def State.tbCtrlWrite (s : State) (v : Word) : State :=
  let ref := getBits v 1 0
  let s1 := (s.wr R.TB_CTRL.HOLD_LIMIT (getBits v 31 16)).wr R.TB_CTRL.REF ref
  if ref ≠ 0 then (s1.setServo .free).endSlew
  else if s.servo = .free then
    (s1.setServo (if s.ring.timeMaster then .master else if s1.on R.TB_STATUS.TIME_SET then .acquire else .unset)).wr
      R.TB_STATUS.SILENT 0
  else s1

/-- The unit takes the time-master role (R183, R187): it runs at TB_RATE, in MASTER, or in FREE where REF is
not RING (R194). -/
def State.becomeTimeMaster (s : State) : State :=
  let s1 := (s.setServo (if s.rd R.TB_CTRL.REF = 0 then .master else .free)).endSlew
  { s1 with ring := { s1.ring with timeMaster := true } }

/-- The time-master role ends: ACQUIRE with s = 0, or FREE where REF is not RING (R183). -/
def State.endTimeMaster (s : State) : State :=
  if s.ring.timeMaster then
    let s1 := (s.setServo (if s.rd R.TB_CTRL.REF = 0 then .acquire else .free)).wr R.TB_STATUS.SILENT 0
    { s1 with ring := { s1.ring with timeMaster := false } }
  else s

/-- A cycle spent in HOLDOVER is counted at its boundary (R191). -/
def State.countHoldover (s : State) : State :=
  if s.servo = .holdover then { s with time := { s.time with holdover := s.time.holdover + 1 } } else s

/-! ### Correction of PTP event messages (05 R198, R199) -/

/-- The new correctionField: `res` is the residence in 0.25 ns; `kind` the messageType; `ing` and `eg` the
ports (R198). A value that overflows is replaced; the Bool says so (R199). -/
def State.correction (s : State) (corr res : Int) (kind ing eg : Nat) : Int × Bool :=
  let rate := signed 32 (s.rd R.TB_TC_RATE.RATE)
  let asym (p : Nat) : Int :=
    if s.on R.TB_ASYMp.EN 0 p then signed 20 (s.rd R.TB_ASYMp.ASYM 0 p) * 4096 else 0
  let a := if kind = 0 ∨ kind = 3 then asym ing else if kind = 1 ∨ kind = 2 then -asym eg else 0
  let v := corr + roundDiv (res * 2 ^ 14 * (2 ^ 40 + rate)) (2 ^ 40) + a
  if v < -(2 ^ 63) ∨ 2 ^ 63 ≤ v then (2 ^ 63 - 1, true) else (v, false)

/-! ### Arms -/

/-- The check of this cycle is due: the through segment runs, and tick TH_TICKS has come (R186). -/
def State.checkDue (s : State) : Bool :=
  s.rd R.RING_CYC_STATUS.SEG == 0 && s.reached (s.cycleTime s.ring.active.thTicks)

/-- REFERENCE_CHECK (R186). -/
def execReferenceCheck (s : State) : Host.Outcome State Fault Refusal :=
  if s.checkDue = false then .next s
  else s.powered ((s.measureOther.referenceCheck.wr R.RING_CYC_STATUS.SEG (if s.ring.haveActive then 1 else 3)).syncTb)

end Sys2Proof.Machine
end

