-- ==== Sys2Proof/Machine/Packet.lean ====
section
/-! DEFINITION. Ethernet frames as byte strings: tags, addresses, PTP and IP headers, checksums, field
updates of large-send segments (13 R466), PTP correction (05 R197 to R199), congestion marks (14 R494),
and the CRC-32 of IEEE 802.3. -/

namespace Sys2Proof.Machine

/-! ### CRC-32 (IEEE 802.3) -/

/-- One bit of the reflected CRC-32. -/
def crcBit (c : BitVec 32) : BitVec 32 :=
  if c.getLsbD 0 then (c >>> 1) ^^^ 0xEDB88320 else c >>> 1

/-- One byte of the CRC-32. -/
def crcByte (c : BitVec 32) (b : Byte) : BitVec 32 :=
  let c := c ^^^ b.setWidth 32
  crcBit (crcBit (crcBit (crcBit (crcBit (crcBit (crcBit (crcBit c)))))))

/-- CRC-32 of a byte string. -/
def crc32 (l : List Byte) : BitVec 32 := ~~~ (l.foldl crcByte 0xFFFFFFFF)

/-! ### Fields -/

/-- Big-endian number of `n` bytes at offset `o`. -/
def be (l : List Byte) (o n : Nat) : Nat := beNat ((l.drop o).take n)

/-- The string with the bytes at `o` replaced. -/
def putAt (l : List Byte) (o : Nat) (v : List Byte) : List Byte :=
  l.take o ++ v.take (l.length - o) ++ l.drop (o + v.length)

/-- Is the value a tag's TPID (14 R476)? -/
def isTpid (v : Nat) : Bool := v == 0x8100 || v == 0x88A8

/-- Offset of the Ethertype after up to two tags. -/
def typeOff (l : List Byte) : Nat :=
  if isTpid (be l 12 2) then (if isTpid (be l 16 2) then 20 else 16) else 12

/-- Destination and source address. -/
def dstOf (l : List Byte) : Nat := be l 0 6
/-- Source address. -/
def srcOf (l : List Byte) : Nat := be l 6 6
/-- Is the first tag present? -/
def tagged (l : List Byte) : Bool := isTpid (be l 12 2)
/-- VID of the first tag, or 0 (14 R479). -/
def vidOf (l : List Byte) : Nat := if tagged l then be l 14 2 % 4096 else 0
/-- PCP of the first tag. -/
def pcpOf (l : List Byte) : Nat := be l 14 2 / 8192
/-- A group address has bit 0 of byte 0 set. -/
def groupAddr (a : Nat) : Bool := bit a 40
/-- Length on the wire, FCS included. -/
def wireLen (l : List Byte) : Nat := l.length + 4

/-- Offset of the IP header and its version, for an IPv4 or IPv6 packet. -/
def ipOff (l : List Byte) : Option (Nat × Nat) :=
  let o := typeOff l
  if be l o 2 = 0x0800 then some (o + 2, 4) else if be l o 2 = 0x86DD then some (o + 2, 6) else none

/-- Bytes of the IPv4 header at `o`. -/
def ihl (l : List Byte) (o : Nat) : Nat := be l o 1 % 16 * 4

/-- Is the port one of PTP's? -/
def ptpPort (p : Nat) : Bool := p == 319 || p == 320

/-- Offset of the PTP header and the IP version (0 none) of a frame that carries PTP (05 R195). UDP is looked for directly
behind the IP header: whether a frame with IPv6 extension headers, or a later IPv4 fragment, still matches the spec does
not say (DESIGN CHOICE, log 57). -/
def ptpOff (l : List Byte) : Option (Nat × Nat) :=
  if be l (typeOff l) 2 = 0x88F7 then some (typeOff l + 2, 0)
  else match ipOff l with
    | some (o, 4) =>
      if be l (o + 9) 1 = 17 ∧ ptpPort (be l (o + ihl l o + 2) 2) = true then some (o + ihl l o + 8, 4) else none
    | some (o, _) => if be l (o + 6) 1 = 17 ∧ ptpPort (be l (o + 42) 2) = true then some (o + 48, 6) else none
    | none => none

/-! ### Checksums -/

/-- Sum of the 16-bit words of a byte string, an odd last byte being the high half of a word. -/
def sum16 : List Byte → Nat
  | [] => 0
  | [a] => a.toNat * 256
  | a :: b :: t => a.toNat * 256 + b.toNat + sum16 t

/-- Fold a sum to 16 bits with end-around carry. -/
def fold16 (n : Nat) : Nat :=
  let a := n / 65536 + n % 65536
  let b := a / 65536 + a % 65536
  b / 65536 + b % 65536

/-- Internet checksum of a sum. -/
def inetSum (n : Nat) : Nat := 65535 - fold16 n

/-- Recompute the IPv4 header checksum of the header at `o`. -/
def fixIp4 (l : List Byte) (o : Nat) : List Byte :=
  let z := putAt l (o + 10) [0, 0]
  putAt z (o + 10) (beBytes 2 (inetSum (sum16 ((z.drop o).take (ihl l o)))))

/-- TCP or UDP checksum at `off`, IP header at `l3`, segment from `l4` to the end (13 R466). -/
def fixL4 (l : List Byte) (off l3 l4 proto : Nat) : List Byte :=
  let z := putAt l off [0, 0]
  let addrs := if be l l3 1 / 16 = 6 then (z.drop (l3 + 8)).take 32 else (z.drop (l3 + 12)).take 8
  let body := z.drop l4
  let c := inetSum (sum16 addrs + proto + body.length % 65536 + body.length / 65536 + sum16 body)
  putAt z off (beBytes 2 (if c = 0 ∧ proto = 17 then 65535 else c))

/-! ### Field updates (13 R466) -/

/-- A rule: KIND, OFF, ADJ as 16 bits. -/
structure FieldRule where
  kind : Nat
  off : Nat
  adj : Nat

/-- Bytes of the field that a rule touches. -/
def FieldRule.width (r : FieldRule) (l : List Byte) : Nat :=
  match r.kind with
  | 0 => 0 | 1 => 2 | 2 => 2 | 3 => 4 | 4 => 1 | 5 => max 20 (ihl l r.off) | _ => 2

/-- Does the rule lie within a header of `h` bytes, with a KIND that is not reserved? -/
def FieldRule.ok (r : FieldRule) (l : List Byte) (h : Nat) : Bool :=
  decide (r.kind ≤ 6) && (r.kind == 0 || decide (r.off + r.width l ≤ h))

/-- KIND 1 to 4 in segment k; `payload` bytes, `mss`, `last`. -/
def FieldRule.apply (r : FieldRule) (k mss payload : Nat) (last : Bool) (l : List Byte) : List Byte :=
  match r.kind with
  | 1 => putAt l r.off (beBytes 2 ((payload + r.adj) % 65536))
  | 2 => putAt l r.off (beBytes 2 ((be l r.off 2 + k * r.adj) % 65536))
  | 3 => putAt l r.off (beBytes 4 ((be l r.off 4 + k * mss) % 2 ^ 32))
  | 4 =>
    let b : Byte := BitVec.ofNat 8 (be l r.off 1)
    let lo : Byte := BitVec.ofNat 8 r.adj
    let hi : Byte := BitVec.ofNat 8 (r.adj / 256)
    putAt l r.off [if last then b ||| hi else b &&& ~~~lo]
  | _ => l

/-- All rules of a descriptor: KIND 1 to 4, then every 5, then every 6. -/
def applyRules (rs : List FieldRule) (k mss payload l3 l4 : Nat) (last : Bool) (l : List Byte) : List Byte :=
  let a := (rs.filter fun r => decide (r.kind ≤ 4)).foldl (fun x r => r.apply k mss payload last x) l
  let b := (rs.filter (·.kind == 5)).foldl (fun x r => fixIp4 x r.off) a
  (rs.filter (·.kind == 6)).foldl (fun x r => fixL4 x r.off l3 l4 (r.adj % 256)) b

/-! ### Congestion marks (14 R493, R494) -/

/-- ECN field of an IP packet. -/
def ecnOf (l : List Byte) : Option Nat :=
  match ipOff l with
  | some (o, 4) => some (be l (o + 1) 1 % 4)
  | some (o, _) => some (be l (o + 1) 1 / 16 % 4)
  | none => none

/-- Set ECN to 0b11 and update the IPv4 header checksum. -/
def markCe (l : List Byte) : List Byte :=
  match ipOff l with
  | some (o, 4) => fixIp4 (putAt l (o + 1) [BitVec.ofNat 8 (be l (o + 1) 1 ||| 3)]) o
  | some (o, _) => putAt l (o + 1) [BitVec.ofNat 8 (be l (o + 1) 1 ||| 0x30)]
  | none => l

/-! ### PTP correction (05 R197 to R199) -/

/-- Correct an event message that goes from one ETH port to another, and count what happened. -/
def State.ptpCorrect (s : State) (l : List Byte) (ing eg tin teg : Nat) : State × List Byte :=
  match ptpOff l with
  | none => (s, l)
  | some (o, v) =>
    let kind := be l o 1 % 16
    if 4 ≤ kind then (s, l)
    else if v = 6 then (s.bump R.TB_TC_STATUS.NOFIX, l)
    else
      let r := s.correction (signed 64 (be l (o + 8) 8)) (((teg : Int) - tin) / 4) kind ing eg
      let l1 := putAt l (o + 8) (beBytes 8 (unsigned 64 r.1))
      let l2 := if v = 4 then putAt l1 (o - 2) [0, 0] else l1
      let s1 := s.bump R.TB_TC_STATUS.CORRECTED
      (if r.2 then s1.bump R.TB_TC_STATUS.OVERFLOW else s1, l2)

end Sys2Proof.Machine
end

