-- ==== Sys2Proof/Machine/Crypto.lean ====
section
/-! DEFINITION. The cryptographic functions that the spec names by their standards: SHA-384 and HMAC-SHA-384
(18 R601, R603, R605), AES with GCM and GMAC (04 R170, 18 R603), and ECDSA P-384 verification (18 R601, R603).
The spec prints no algorithm: each follows FIPS 180-4, FIPS 198-1, FIPS 197, SP 800-38D and FIPS 186-4
(PRESUMED, log 29). -/

namespace Sys2Proof.Machine

/-! ### SHA-384 and HMAC -/

/-- The eight 64-bit words of a SHA-512 family state. -/
structure ShaState where
  a : DWord
  b : DWord
  c : DWord
  d : DWord
  e : DWord
  f : DWord
  g : DWord
  h : DWord

/-- The initial state of SHA-384. -/
def sha384Init : List DWord :=
  [0xcbbb9d5dc1059ed8, 0x629a292a367cd507, 0x9159015a3070dd17, 0x152fecd8f70e5939,
   0x67332667ffc00b31, 0x8eb44a8768581511, 0xdb0c2e0d64f98fa7, 0x47b5481dbefa4fa4]

/-- The round constants of the SHA-512 family. -/
def shaK : List DWord :=
  [0x428a2f98d728ae22, 0x7137449123ef65cd, 0xb5c0fbcfec4d3b2f, 0xe9b5dba58189dbbc,
   0x3956c25bf348b538, 0x59f111f1b605d019, 0x923f82a4af194f9b, 0xab1c5ed5da6d8118] ++
  [0xd807aa98a3030242, 0x12835b0145706fbe, 0x243185be4ee4b28c, 0x550c7dc3d5ffb4e2,
   0x72be5d74f27b896f, 0x80deb1fe3b1696b1, 0x9bdc06a725c71235, 0xc19bf174cf692694] ++
  [0xe49b69c19ef14ad2, 0xefbe4786384f25e3, 0x0fc19dc68b8cd5b5, 0x240ca1cc77ac9c65,
   0x2de92c6f592b0275, 0x4a7484aa6ea6e483, 0x5cb0a9dcbd41fbd4, 0x76f988da831153b5] ++
  [0x983e5152ee66dfab, 0xa831c66d2db43210, 0xb00327c898fb213f, 0xbf597fc7beef0ee4,
   0xc6e00bf33da88fc2, 0xd5a79147930aa725, 0x06ca6351e003826f, 0x142929670a0e6e70] ++
  [0x27b70a8546d22ffc, 0x2e1b21385c26c926, 0x4d2c6dfc5ac42aed, 0x53380d139d95b3df,
   0x650a73548baf63de, 0x766a0abb3c77b2a8, 0x81c2c92e47edaee6, 0x92722c851482353b] ++
  [0xa2bfe8a14cf10364, 0xa81a664bbc423001, 0xc24b8b70d0f89791, 0xc76c51a30654be30,
   0xd192e819d6ef5218, 0xd69906245565a910, 0xf40e35855771202a, 0x106aa07032bbd1b8] ++
  [0x19a4c116b8d2d0c8, 0x1e376c085141ab53, 0x2748774cdf8eeb99, 0x34b0bcb5e19b48a8,
   0x391c0cb3c5c95a63, 0x4ed8aa4ae3418acb, 0x5b9cca4f7763e373, 0x682e6ff3d6b2b8a3] ++
  [0x748f82ee5defb2fc, 0x78a5636f43172f60, 0x84c87814a1f0ab72, 0x8cc702081a6439ec,
   0x90befffa23631e28, 0xa4506cebde82bde9, 0xbef9a3f7b2c67915, 0xc67178f2e372532b] ++
  [0xca273eceea26619c, 0xd186b8c721c0c207, 0xeada7dd6cde0eb1e, 0xf57d4f7fee6ed178,
   0x06f067aa72176fba, 0x0a637dc5a2c898a6, 0x113f9804bef90dae, 0x1b710b35131c471b] ++
  [0x28db77f523047d84, 0x32caab7b40c72493, 0x3c9ebe0a15c9bebc, 0x431d67c49c100d4c,
   0x4cc5d4becb3e42b6, 0x597f299cfc657e2a, 0x5fcb6fab3ad6faec, 0x6c44198c4a475817]

/-- Eight words as a state. -/
def ShaState.of : List DWord → ShaState
  | [a, b, c, d, e, f, g, h] => ⟨a, b, c, d, e, f, g, h⟩
  | _ => ⟨0, 0, 0, 0, 0, 0, 0, 0⟩
/-- A state as eight words. -/
def ShaState.words (x : ShaState) : List DWord := [x.a, x.b, x.c, x.d, x.e, x.f, x.g, x.h]

/-- One round. -/
def ShaState.round (x : ShaState) (k w : DWord) : ShaState :=
  let s1 := x.e.rotateRight 14 ^^^ x.e.rotateRight 18 ^^^ x.e.rotateRight 41
  let ch := (x.e &&& x.f) ^^^ (~~~x.e &&& x.g)
  let t1 := x.h + s1 + ch + k + w
  let s0 := x.a.rotateRight 28 ^^^ x.a.rotateRight 34 ^^^ x.a.rotateRight 39
  let maj := (x.a &&& x.b) ^^^ (x.a &&& x.c) ^^^ (x.b &&& x.c)
  ⟨t1 + s0 + maj, x.a, x.b, x.c, x.d + t1, x.e, x.f, x.g⟩

/-- The rounds over a block: `win` holds the next 16 words of the message schedule. -/
def ShaState.rounds (x : ShaState) : List DWord → List DWord → ShaState
  | [], _ => x
  | k :: ks, win =>
    let w (i : Nat) : DWord := win.getD i 0
    let s0 := (w 1).rotateRight 1 ^^^ (w 1).rotateRight 8 ^^^ (w 1 >>> 7)
    let s1 := (w 14).rotateRight 19 ^^^ (w 14).rotateRight 61 ^^^ (w 14 >>> 6)
    (x.round k (w 0)).rounds ks (win.drop 1 ++ [w 0 + s0 + w 9 + s1])

/-- A 128-byte block enters the state. -/
def shaBlock (st : List DWord) (block : List Byte) : List DWord :=
  let m := (List.range 16).map fun i => BitVec.ofNat 64 (be block (8 * i) 8)
  (st.zip ((ShaState.of st).rounds shaK m).words).map fun x => x.1 + x.2

/-- The message with its padding. -/
def shaPad (l : List Byte) : List Byte :=
  l ++ [0x80] ++ List.replicate ((239 - l.length % 128) % 128) 0 ++ beBytes 16 (8 * l.length)

/-- `n` blocks of 128 bytes enter the state. -/
def shaBlocks : Nat → List Byte → List DWord → List DWord
  | 0, _, st => st
  | n + 1, l, st => shaBlocks n (l.drop 128) (shaBlock st (l.take 128))

/-- SHA-384 as bytes. -/
def sha384Bytes (l : List Byte) : List Byte :=
  let p := shaPad l
  (((shaBlocks (p.length / 128) p sha384Init).take 6).map fun w => beBytes 8 w.toNat).flatten

/-- SHA-384 digest of a byte string (18 R601, R603). -/
@[irreducible] def sha384 (l : List Byte) : BitVec 384 := BitVec.ofNat 384 (beNat (sha384Bytes l))

/-- HMAC-SHA-384: key and message (18 R605). -/
@[irreducible] def hmac384 (key msg : List Byte) : BitVec 384 :=
  let k := if key.length ≤ 128 then key else sha384Bytes key
  let pad (x : Byte) : List Byte := (k ++ List.replicate (128 - k.length) 0).map (· ^^^ x)
  BitVec.ofNat 384 (beNat (sha384Bytes (pad 0x5C ++ sha384Bytes (pad 0x36 ++ msg))))

/-! ### AES -/

/-- Multiplication by x in GF(2⁸). -/
def gfDouble (b : Byte) : Byte := if b.msb then (b <<< 1) ^^^ 0x1B else b <<< 1

/-- Multiplication in GF(2⁸). -/
def gfMul (a b : Byte) : Byte :=
  (List.range 8).foldl (fun r i => if b.getLsbD (7 - i) then gfDouble r ^^^ a else gfDouble r) 0

/-- The inverse in GF(2⁸): b to the power 254. -/
def gfInv (b : Byte) : Byte :=
  ((List.range 7).foldl (fun (x : Byte × Byte) _ => let p := gfMul x.1 x.1; (p, gfMul x.2 p)) (b, 1)).2

/-- The AES S-box. -/
def aesSub (b : Byte) : Byte :=
  let x := gfInv b
  x ^^^ x.rotateLeft 1 ^^^ x.rotateLeft 2 ^^^ x.rotateLeft 3 ^^^ x.rotateLeft 4 ^^^ 0x63

/-- Bytewise exclusive or. -/
def xorBytes (a b : List Byte) : List Byte := (a.zip b).map fun x => x.1 ^^^ x.2

/-- The key schedule: `ws` holds the words so far, the newest first; `i` is the next index. -/
def aesExpand (nk : Nat) : Nat → Nat → Byte → List (List Byte) → List (List Byte)
  | 0, _, _, ws => ws
  | n + 1, i, rcon, ws =>
    let t := ws.headD []
    let t1 :=
      if i % nk = 0 then xorBytes ((t.drop 1 ++ t.take 1).map aesSub) [rcon, 0, 0, 0]
      else if 6 < nk ∧ i % nk = 4 then t.map aesSub else t
    aesExpand nk n (i + 1) (if i % nk = 0 then gfDouble rcon else rcon) (xorBytes (ws.getD (nk - 1) []) t1 :: ws)

/-- The round keys of a 16-byte or 32-byte key, in order, 16 bytes each. -/
def aesKeys (key : List Byte) : List (List Byte) :=
  let nk := key.length / 4
  let ws := (List.range nk).map fun i => (key.drop (4 * i)).take 4
  let all := (aesExpand nk (4 * (nk + 7) - nk) nk 1 ws.reverse).reverse
  (List.range (nk + 7)).map fun r => ((all.drop (4 * r)).take 4).flatten

/-- ShiftRows. -/
def aesShift (s : List Byte) : List Byte :=
  (List.range 16).map fun i => s.getD ((i + 4 * (i % 4)) % 16) 0

/-- MixColumns. -/
def aesMix (s : List Byte) : List Byte :=
  (List.range 16).map fun i =>
    let b (k : Nat) : Byte := s.getD (i / 4 * 4 + (i + k) % 4) 0
    gfMul 2 (b 0) ^^^ gfMul 3 (b 1) ^^^ b 2 ^^^ b 3

/-- The rounds behind the first key addition. -/
def aesRounds (s : List Byte) : List (List Byte) → List Byte
  | [] => s
  | [k] => xorBytes (aesShift (s.map aesSub)) k
  | k :: ks => aesRounds (xorBytes (aesMix (aesShift (s.map aesSub))) k) ks

/-- AES encryption of one block under the round keys. -/
def aesEncrypt (keys : List (List Byte)) (block : List Byte) : List Byte :=
  match keys with
  | [] => block
  | k :: ks => aesRounds (xorBytes block k) ks

/-! ### GCM and GMAC -/

/-- Multiplication in GF(2¹²⁸) as GCM orders the bits. -/
def ghashMul (x h : BitVec 128) : BitVec 128 :=
  ((List.range 128).foldl (fun (z : BitVec 128 × BitVec 128) i =>
    (if x.getLsbD (127 - i) then z.1 ^^^ z.2 else z.1,
     if z.2.getLsbD 0 then (z.2 >>> 1) ^^^ 0xE1000000000000000000000000000000 else z.2 >>> 1)) (0, h)).1

/-- Bytes padded with zeros to whole 16-byte blocks. -/
def pad16 (l : List Byte) : List Byte := l ++ List.replicate ((16 - l.length % 16) % 16) 0

/-- GHASH over `n` blocks. -/
def ghash (h : BitVec 128) : Nat → List Byte → BitVec 128 → BitVec 128
  | 0, _, y => y
  | n + 1, l, y => ghash h n (l.drop 16) (ghashMul (y ^^^ BitVec.ofNat 128 (be l 0 16)) h)

/-- The GCM tag over additional data and ciphertext, with a 12-byte IV. -/
def gcmTag (key iv aad text : List Byte) : List Byte :=
  let keys := aesKeys key
  let h := BitVec.ofNat 128 (beNat (aesEncrypt keys (List.replicate 16 0)))
  let l := pad16 aad ++ pad16 text ++ beBytes 8 (8 * aad.length) ++ beBytes 8 (8 * text.length)
  xorBytes (aesEncrypt keys (iv ++ [0, 0, 0, 1])) (beBytes 16 (ghash h (l.length / 16) l 0).toNat)

/-- Counter-mode text: blocks from counter `c` on. -/
def gcmText (keys : List (List Byte)) (iv : List Byte) : Nat → Nat → List Byte → List Byte
  | 0, _, _ => []
  | n + 1, c, l => xorBytes (l.take 16) (aesEncrypt keys (iv ++ beBytes 4 c)) ++ gcmText keys iv n (c + 1) (l.drop 16)

/-- AES-256-GCM decryption: key, IV, additional data, ciphertext, tag; none when the tag fails (18 R603). -/
@[irreducible] def gcmOpen (key iv aad text tag : List Byte) : Option (List Byte) :=
  if gcmTag key iv aad text = tag then some (gcmText (aesKeys key) iv ((text.length + 15) / 16) 2 text) else none

/-- AES-GMAC-128 of a ring frame: the first 8 bytes of the tag; `l` is the 12-byte nonce and then the
authenticated bytes (04 R170, R171). -/
@[irreducible] def gmacTag (key l : List Byte) : BitVec 64 :=
  BitVec.ofNat 64 (be (gcmTag key (l.take 12) (l.drop 12) []) 0 8)

/-! ### ECDSA P-384 -/

/-- The prime of the field. -/
def p384P : Nat := 2 ^ 384 - 2 ^ 128 - 2 ^ 96 + 2 ^ 32 - 1
/-- The coefficient b of the curve. -/
def p384B : Nat := 0xb3312fa7e23ee7e4988e056be3f82d19181d9c6efe8141120314088f5013875ac656398d8a2ed19d2a85c8edd3ec2aef
/-- The order of the base point. -/
def p384N : Nat := 0xffffffffffffffffffffffffffffffffffffffffffffffffc7634d81f4372ddf581a0db248b0a77aecec196accc52973
/-- The base point. -/
def p384G : Nat × Nat :=
  (0xaa87ca22be8b05378eb1c71ef320ad746e1d3b628ba79b9859f741e082542a385502f25dbf55296c3a545e3872760ab7,
   0x3617de4a96262c6f5d9e98bf9292dc29f8f41dbd289a147ce9da3113b5f0b8c00a60b1ce1d7e819d7a431d7c90ea0e5f)

/-- `b` to the power of the low 384 bits of `e`, modulo m. -/
def powMod (m b e : Nat) : Nat :=
  (List.range 384).foldl (fun r i => if e.testBit (383 - i) then r * r % m * b % m else r * r % m) 1

/-- The inverse modulo a prime m. -/
def invMod (m b : Nat) : Nat := powMod m b (m - 2)

/-- Is the point on the curve y² = x³ − 3x + b? -/
def p384On (q : Nat × Nat) : Bool :=
  decide (q.1 < p384P) && decide (q.2 < p384P) &&
  (q.2 * q.2 % p384P == (q.1 * q.1 * q.1 + (p384P - 3) * q.1 + p384B) % p384P)

/-- The third point of a line with slope `k`, mirrored. -/
def p384Third (k : Nat) (a b : Nat × Nat) : Nat × Nat :=
  let x := (k * k + (2 * p384P - a.1 - b.1)) % p384P
  (x, (k * (a.1 + p384P - x) + (p384P - a.2)) % p384P)

/-- Addition on the curve; none is the point at infinity. -/
def p384Add : Option (Nat × Nat) → Option (Nat × Nat) → Option (Nat × Nat)
  | none, b => b
  | a, none => a
  | some a, some b =>
    if a.1 = b.1 then
      if a.2 = b.2 ∧ a.2 ≠ 0 then
        some (p384Third ((3 * a.1 * a.1 + (p384P - 3)) * invMod p384P (2 * a.2) % p384P) a a)
      else none
    else some (p384Third ((b.2 + p384P - a.2) * invMod p384P (b.1 + p384P - a.1) % p384P) a b)

/-- The multiple of a point by the low 384 bits of a number. -/
def p384Mul (k : Nat) (q : Nat × Nat) : Option (Nat × Nat) :=
  (List.range 384).foldl (fun r i =>
    let d := p384Add r r
    if k.testBit (383 - i) then p384Add d (some q) else d) none

/-- ECDSA P-384 verification: public key X ‖ Y, digest, signature r ‖ s (18 R601, R603). -/
@[irreducible] def ecdsaOk (key : List Byte) (digest : BitVec 384) (sig : List Byte) : Bool :=
  let q := (be key 0 48, be key 48 48)
  let r := be sig 0 48
  let s := be sig 48 48
  let w := invMod p384N s
  decide (key.length = 96) && decide (sig.length = 96) && p384On q &&
  decide (0 < r) && decide (r < p384N) && decide (0 < s) && decide (s < p384N) &&
  match p384Add (p384Mul (digest.toNat * w % p384N) p384G) (p384Mul (r * w % p384N) q) with
  | some x => x.1 % p384N == r
  | none => false

end Sys2Proof.Machine
end

