-- ==== Sys2Proof/Machine/Otp.lean ====
section
/-! DEFINITION. The OTP as the other blocks see it (18 R595 to R600): its words, the unit serial, the
life-cycle state and the debug facilities that it leaves open. -/

namespace Sys2Proof.Machine

/-- OTP word w. -/
def State.otp (s : State) (w : Nat) : Nat := (s.sec.otp.get 0 w).toNat

/-- The bytes of OTP words `w` to `w + n - 1`, the low byte of each word first. -/
def State.otpBytes (s : State) (w n : Nat) : List Byte :=
  (List.range n).flatMap fun i => leBytes 4 (s.otp (w + i))

/-- Unit serial: OTP words 0 and 1, low word first (R595, 03 R98). -/
def State.serial (s : State) : Nat := s.otp 0 + 2 ^ 32 * s.otp 1

/-- Number of bits set among the low `n` bits. -/
def bitCount (v n : Nat) : Nat := ((List.range n).filter (bit v)).length

/-- Life-cycle states (R597). -/
inductive LifeCycle where
  | test | provision | field | back | scrap
  deriving DecidableEq, Repr

/-- Code of SEC_STATUS.LC. -/
def LifeCycle.code : LifeCycle → Nat
  | .test => 0 | .provision => 1 | .field => 2 | .back => 3 | .scrap => 4

/-- The life-cycle state: the highest LC byte with at least 5 bits set (R597). -/
def State.lifeCycle (s : State) : LifeCycle :=
  let set (i : Nat) : Bool := decide (5 ≤ bitCount (bitsOf (s.otp 2) (8 * i + 7) (8 * i)) 8)
  if set 3 then .scrap else if set 2 then .back else if set 1 then .field else if set 0 then .provision else .test

/-- Is a certificate facility with this PERMS bit open (R600)? -/
def State.facility (s : State) (perm : Nat) : Bool :=
  match s.lifeCycle with
  | .test => true
  | .provision => s.on R.SEC_STATUS.DBG_OPEN
  | .field => s.on R.SEC_STATUS.DBG_OPEN && bit (s.rd R.SEC_STATUS.PERMS) perm
  | .back => s.on R.SEC_STATUS.DBG_OPEN
  | .scrap => false

/-- Is CC_CTRL.DBG_EN of core c open (R600)? -/
def State.coreDebugOpen (s : State) (c : Nat) : Bool :=
  if c = 17 then s.lifeCycle == .test else s.facility 0

/-- Are DEBUG trace records open (R600)? -/
def State.traceDebugOpen (s : State) : Bool := s.facility 1

end Sys2Proof.Machine
end

