-- ==== Sys2Proof/Machine/Memory.lean ====
section
/-! DEFINITION. The on-die SRAM and the in-package memory (15): bytes, ECC, the background test, the
Caddy's pages, cells and carve-outs. -/

namespace Sys2Proof.Machine

/-! ### Bytes -/

/-- The little-endian number in `n` bytes at internal address `a` (00 R5); an unlisted byte reads 0. -/
def State.memRead (s : State) (a : Nat) : Nat → Nat
  | 0 => 0
  | n + 1 => (s.mem.bytes.get 0 a).toNat + 256 * s.memRead (a + 1) n

/-- The `n` bytes at `a`, in address order. -/
def State.memBytes (s : State) (a n : Nat) : List Byte :=
  (List.range n).map fun i => s.mem.bytes.get 0 (a + i)

/-- Put one byte. -/
def State.setByte (s : State) (a : Nat) (v : Byte) : State :=
  { s with mem := { s.mem with bytes := s.mem.bytes.set 0 a v } }

/-- Write bytes in address order. -/
def State.memPut (s : State) (a : Nat) : List Byte → State
  | [] => s
  | b :: t => (s.setByte a b).memPut (a + 1) t

/-- Write the `n` low bytes of `v` at `a`, little-endian. -/
def State.memWrite (s : State) (a n v : Nat) : State := s.memPut a (leBytes n v)

/-- Set every byte of `[a, a + n)` to 0. -/
def State.memClear (s : State) (a n : Nat) : State :=
  { s with mem := { s.mem with bytes := s.mem.bytes.filter fun c => !(decide (a ≤ c.1) && decide (c.1 < a + n)) } }

/-! ### ECC of the SRAM (15 R508 to R511) -/

/-- What is wrong with the stored word at `a`. -/
def State.eccAt (s : State) (a : Nat) : EccMark := s.mem.ecc.get .clean a

/-- Put the error mark of the stored word at `a`. -/
def State.setEcc (s : State) (a : Nat) (e : EccMark) : State :=
  { s with mem := { s.mem with ecc := s.mem.ecc.set .clean a e } }

/-- Addresses of the `g`-byte words that `[a, a + n)` touches. -/
def wordsOf (g a n : Nat) : List Nat :=
  (List.range ((a + n + g - 1) / g - a / g)).map fun i => (a / g + i) * g

/-- An uncorrectable SRAM error at halfword `h` is counted, recorded and raised (R510). -/
def State.sramUncorr (s : State) (h : Nat) : State :=
  ((((s.bump R.SRAM_ECC_CNT.UNCORR).wr R.SRAM_ECC_ADDR.ADDR h).raise R.sram_INT.ECC_UNCORR).statusCount 0x031).alarm
    7 1 0 h

/-- A corrected SRAM error at halfword `h`: counted, raised, and queued for its write-back (R509). -/
def State.sramCorr (s : State) (h : Nat) : State :=
  let s1 := ((s.bump R.SRAM_ECC_CNT.CORR).raise R.sram_INT.ECC_CORR).statusCount 0x030
  { s1 with mem := { s1.mem with writeBack := if h ∈ s1.mem.writeBack then s1.mem.writeBack else s1.mem.writeBack ++ [h] } }

/-! ### ECC of the local point store (15 R508 to R510) -/

/-- Internal address of local point i. -/
def pointAddr (i : Nat) : Nat := 0x50000000 + 2 * i
/-- Is it the address of a local point? -/
def localAddr (a : Nat) : Bool := decide (0x50000000 ≤ a) && decide (a < 0x50002000)
/-- The local point at an address. -/
def pointIndex (a : Nat) : Nat := a % 0x2000 / 2

/-- What is wrong with the stored local point i. -/
def State.ptEcc (s : State) (i : Nat) : EccMark := s.pt.ecc.get .clean i
/-- Put the error mark of local point i. -/
def State.setPtEcc (s : State) (i : Nat) (e : EccMark) : State :=
  { s with pt := { s.pt with ecc := s.pt.ecc.set .clean i e } }

/-- A read of local point i, whose errors are counted and reported as those of the SRAM are (DEDUCED, log 50):
false for an error response. -/
def State.ptCheck (s : State) (i : Nat) : State × Bool :=
  match s.ptEcc i with
  | .clean => (s, true)
  | .single => (s.sramCorr (pointAddr i), true)
  | .double => (s.sramUncorr (pointAddr i), false)

/-- Check the halfwords that a read touches: none where one of them is uncorrectable (R510), the state
with the corrected ones counted otherwise (R509) (DEDUCED, log 50). -/
def State.sramCheck (s : State) : List Nat → State × Bool
  | [] => (s, true)
  | h :: t =>
    match s.eccAt h with
    | .clean => s.sramCheck t
    | .single => (s.sramCorr h).sramCheck t
    | .double => (s.sramUncorr h, false)

/-- Read `n` bytes of the SRAM: none for an error response (CAUSE 5). -/
def State.sramRead (s : State) (a n : Nat) : State × Option Nat :=
  match s.sramCheck (wordsOf 2 a n) with
  | (s1, true) => (s1, some (s1.memRead a n))
  | (s1, false) => (s1, none)

/-- Write the bytes of one halfword that the access covers: a full halfword replaces and clears errors; a
partial one merges, and is dropped where the halfword is uncorrectable (R511). False where it is dropped. -/
def State.sramPutHalf (s : State) (h lo hi : Nat) (v : List Byte) : State × Bool :=
  if lo = h ∧ hi = h + 2 then ((s.memPut lo v).setEcc h .clean, true)
  else match s.eccAt h with
    | .clean => (s.memPut lo v, true)
    | .single => (((s.sramCorr h).memPut lo v).setEcc h .clean, true)
    | .double => (s.sramUncorr h, false)

/-- Write the halfwords of an access one by one; false where one of them is dropped. -/
def State.sramPutAll (s : State) (a n v : Nat) : List Nat → State × Bool
  | [] => (s, true)
  | h :: t =>
    let lo := max a h
    let hi := min (a + n) (h + 2)
    let x := s.sramPutHalf h lo hi (leBytes (hi - lo) (v / 256 ^ (lo - a)))
    let y := x.1.sramPutAll a n v t
    (y.1, x.2 && y.2)

/-- Write the `n` low bytes of `v` to the SRAM (posted, R511): a drop is recorded once, with the access's size and
address, in the SRAM page. -/
def State.sramWrite (s : State) (who : Initiator) (a n v : Nat) : State :=
  match s.sramPutAll a n v (wordsOf 2 a n) with
  | (t, true) => t
  | (t, false) => t.capture 7 who true n 5 a

/-! ### Pages of the in-package memory (15 R519 to R528) -/

/-- Attribute entry of page p. -/
def State.page (s : State) (p : Nat) : PageAttr := s.mem.pages.get {} p

/-- Put the attribute entry of page p. -/
def State.setPage (s : State) (p : Nat) (a : PageAttr) : State :=
  { s with mem := { s.mem with pages := s.mem.pages.set {} p a } }

/-- Dynamic owners (15 R522), in the order of CAD_POOLp. -/
inductive Pool where
  | image | snap | gen | cell
  deriving DecidableEq, Repr

/-- Pool number. -/
def Pool.idx : Pool → Nat
  | .image => 0 | .snap => 1 | .gen => 2 | .cell => 3

/-- The owner a pool's pages have. -/
def Pool.owner : Pool → PageOwner
  | .image => .image | .snap => .snap | .gen => .gen | .cell => .cell

/-- The field that holds USED of a pool. -/
def Pool.used : Pool → Fld
  | .image => R.CAD_USED01.EVEN | .snap => R.CAD_USED01.ODD
  | .gen => R.CAD_USED23.EVEN | .cell => R.CAD_USED23.ODD

/-- The pages a pool is still owed by its reservation. -/
def State.owed (s : State) (p : Pool) : Nat := s.rd R.CAD_POOLp.MIN 0 p.idx - s.rd p.used

/-- The grant rule of 15 R522. -/
def State.mayTake (s : State) (p : Pool) : Bool :=
  let others := ([Pool.image, .snap, .gen, .cell].filter (· != p)).map s.owed
  decide (s.rd p.used < s.rd R.CAD_POOLp.MAX 0 p.idx) && decide (others.sum < s.rd R.CAD_FREE.FREE)

/-- Is page p free and zeroed, so that it may be given to an owner (R521)? -/
def State.ready (s : State) (p : Nat) : Bool := decide ((s.page p).owner = .free) && (s.page p).zeroed

/-- The lowest free page that is zeroed: it is listed, since an unlisted one is not zeroed. -/
def State.zeroedPage (s : State) : Option Nat :=
  (s.mem.pages.find? fun e => s.ready e.1 && decide (e.1 < 65536)).map (·.1)

/-- The lowest free page: one of the pages up to the number of listed entries is. -/
def State.freePageNo (s : State) : Option Nat :=
  ((List.range (s.mem.pages.length + 1)).find? fun p => decide ((s.page p).owner = .free)).filter (· < 65536)

/-- The free page that the next grant takes: not defined (R524), so the free choice where it names a zeroed
free page, and otherwise the lowest such page. Where no free page is zeroed the request waits for the
background fill (R521), and takes the lowest free page. -/
def State.choosePage (s : State) : Option Nat :=
  let c := Config.freeChoice s.fresh % 65536
  if s.ready c then some c
  else match s.zeroedPage with
    | some p => some p
    | none => s.freePageNo

/-- Fill page n with zeros; its words hold no errors afterwards (R521). -/
def State.zeroPage (s : State) (n : Nat) : State :=
  let s1 := s.memClear (n * 0x400) 0x400
  { s1 with mem := { s1.mem with ecc := s1.mem.ecc.filter fun c =>
      !(decide (n * 0x400 ≤ c.1) && decide (c.1 < n * 0x400 + 0x400)) } }

/-- Change a pool's USED by one page. -/
def State.usedUp (s : State) (p : Pool) : State := s.wr p.used (s.rd p.used + 1)
/-- As `usedUp`, downwards. -/
def State.usedDown (s : State) (p : Pool) : State := s.wr p.used (s.rd p.used - 1)

/-- Take a zeroed page for a pool (R521, R522); none when the request fails. -/
def State.takePage (s : State) (p : Pool) : Option (Nat × State) :=
  if s.mayTake p then
    match s.choosePage with
    | none => none
    | some n =>
      let img := p == .image || p == .snap
      let s1 := (({ s with fresh := s.fresh + 1 }).zeroPage n).setPage n
        { owner := p.owner, pf := img, ro := img, zeroed := false, cfree := if p = Pool.cell then 15 else 0 }
      some (n, (s1.wr R.CAD_FREE.FREE (s1.rd R.CAD_FREE.FREE - 1)).usedUp p)
  else none

/-- A request failed by R522. -/
def State.allocFail (s : State) (p : Pool) : State :=
  let f := match p with
    | .image | .snap => R.CAD_ALLOC_FAIL.IMAGE_SNAP
    | .gen | .cell => R.CAD_ALLOC_FAIL.GEN_CELL
  (s.bump f).raise R.caddy_INT.ALLOC_FAIL

/-- Return page n of a pool to the free list; it is zero-filled in the background (R521). -/
def State.freePage (s : State) (p : Pool) (n : Nat) : State :=
  ((s.setPage n { zeroed := false }).wr R.CAD_FREE.FREE (s.rd R.CAD_FREE.FREE + 1)).usedDown p

/-- CAD_PAGE_POP (R524): the register's value and the state with the page given to GEN. -/
def State.popPage (s : State) : Nat × State :=
  match s.takePage .gen with
  | some (n, s1) => (n, s1)
  | none => (2 ^ 31, s.allocFail .gen)

/-- The first CELL page that has a free cell. -/
def State.cellPage (s : State) : Option Nat :=
  (s.mem.pages.find? fun e => decide (e.2.owner = .cell) && decide (e.2.cfree ≠ 0)).map (·.1)

/-- The first free cell of a page's free mask. -/
def firstCell (m : Nat) : Nat := if bit m 0 then 0 else if bit m 1 then 1 else if bit m 2 then 2 else 3

/-- Take the first free cell of page n. -/
def State.takeCell (s : State) (n : Nat) : Nat × State :=
  let a := s.page n
  let k := firstCell a.cfree
  (4 * n + k, s.setPage n { a with cfree := a.cfree - 2 ^ k })

/-- CAD_CELL_POP (R525). -/
def State.popCell (s : State) : Nat × State :=
  match s.cellPage with
  | some n => s.takeCell n
  | none =>
    match s.takePage .cell with
    | some (n, s1) => s1.takeCell n
    | none => (2 ^ 31, s.allocFail .cell)

/-- CAD_PAGE_FREE of page n: false when GEN does not own it (R526). -/
def State.genFree (s : State) (n : Nat) : State × Bool :=
  if n < 65536 ∧ (s.page n).owner = .gen then (s.freePage .gen n, true) else (s, false)

/-- CAD_CELL_FREE of cell c: false when it is free or lies in a page CELL does not own (R525, R526). -/
def State.cellFree (s : State) (c : Nat) : State × Bool :=
  let n := c / 4
  let a := s.page n
  if a.owner = .cell ∧ bit a.cfree (c % 4) = false then
    let m := a.cfree + 2 ^ (c % 4)
    if m = 15 ∧ s.rd R.CAD_POOLp.MIN 0 3 < s.rd Pool.cell.used then (s.freePage .cell n, true)
    else (s.setPage n { a with cfree := m }, true)
  else (s, false)

/-- Put the attributes of a run of pages. -/
def State.setRun (s : State) (f : PageAttr → PageAttr) (base : Nat) : Nat → State
  | 0 => s
  | n + 1 => (s.setPage base (f (s.page base))).setRun f (base + 1) n

/-- CAD_CARVEn_PAGES with PAGES not 0 (R527): false for an error response. -/
def State.carveCreate (s : State) (n pages : Nat) : State × Bool :=
  let base := s.rd R.CAD_CARVEn_BASE.BASE 0 n
  let run := (List.range pages).all fun i => decide ((s.page (base + i)).owner = .free)
  if s.rd R.CAD_CARVEn_PAGES.PAGES 0 n = 0 ∧ base + pages ≤ 65536 ∧ run = true then
    let pf := s.on R.CAD_CARVEn_BASE.PF 0 n
    let ro := s.on R.CAD_CARVEn_BASE.RO 0 n
    let s1 := s.setRun (fun a => { a with owner := .carve, carve := n, pf := pf, ro := ro }) base pages
    ((s1.wr R.CAD_FREE.FREE (s1.rd R.CAD_FREE.FREE - pages)).wr R.CAD_CARVEn_PAGES.PAGES pages 0 n, true)
  else (s, false)

/-- CAD_CARVEn_PAGES with PAGES = 0 (R528). -/
def State.carveRelease (s : State) (n : Nat) : State :=
  let base := s.rd R.CAD_CARVEn_BASE.BASE 0 n
  let pages := s.rd R.CAD_CARVEn_PAGES.PAGES 0 n
  let s1 := s.setRun (fun _ => { zeroed := false }) base pages
  (s1.wr R.CAD_FREE.FREE (s1.rd R.CAD_FREE.FREE + pages)).wr R.CAD_CARVEn_PAGES.PAGES 0 0 n

/-- READY of carve-out n: every page of it is zeroed (R527). -/
def State.carveReady (s : State) (n : Nat) : Bool :=
  let base := s.rd R.CAD_CARVEn_BASE.BASE 0 n
  let pages := s.rd R.CAD_CARVEn_PAGES.PAGES 0 n
  pages != 0 && (List.range pages).all fun i => (s.page (base + i)).zeroed

/-- PF and RO of CAD_CARVEn_BASE apply to the carve-out's pages in the tick of the write (R528). -/
def State.carveAttr (s : State) (n : Nat) : State :=
  let pf := s.on R.CAD_CARVEn_BASE.PF 0 n
  let ro := s.on R.CAD_CARVEn_BASE.RO 0 n
  s.setRun (fun a => { a with pf := pf, ro := ro }) (s.rd R.CAD_CARVEn_BASE.BASE 0 n)
    (s.rd R.CAD_CARVEn_PAGES.PAGES 0 n)

/-- Code of a page owner (R519). -/
def PageOwner.code : PageOwner → Nat
  | .free => 0 | .image => 1 | .snap => 2 | .gen => 3 | .cell => 4 | .carve => 5

/-- The Page Attribute Entry as CAD_PATTR_DATA shows it (R519). -/
def PageAttr.encode (a : PageAttr) : Nat :=
  ofBool (a.owner ≠ .free) * 2 ^ 15 + a.owner.code * 2 ^ 12 + (if a.owner = .carve then a.carve else 0) * 2 ^ 9 +
  ofBool a.pf * 2 ^ 8 + ofBool a.ro * 2 ^ 7 + ofBool a.poison * 2 ^ 6 +
  ofBool (a.owner = .free ∧ a.zeroed = true) * 2 ^ 5 + (if a.owner = .cell then a.cfree else 0)

/-! ### Raw-window accesses (15 R517, R520) -/

/-- Do `n` bytes at `a` lie in the SRAM? -/
def inSram (a n : Nat) : Bool := decide (0x10000000 ≤ a) && decide (a + n ≤ 0x10400000)

/-- May a raw-window access touch this page? The CAUSE of the refusal otherwise (R520, R527, R24). -/
def State.rawRefused (s : State) (a : Nat) (write : Bool) : Option Nat :=
  let p := s.page (a / 0x400)
  if p.owner = .free then some 1
  else if p.owner = .carve ∧ s.carveReady p.carve = false then some 10
  else if write = true ∧ (p.ro = true ∨ p.owner = .image ∨ p.owner = .snap) then some 3
  else none

/-- A corrected error of the in-package memory (R517): the word is written back at once. -/
def State.cadCorr (s : State) (a : Nat) : State :=
  (((s.bump R.CAD_ECC_CNT.CORR).raise R.caddy_INT.ECC_CORR).statusCount 0x030).setEcc a .clean

/-- An uncorrectable error in a page that is no image page: POISON, counted, ALARM (R517, 19 R613). -/
def State.cadUncorr (s : State) (a : Nat) : State :=
  let n := a / 0x400
  let p := s.page n
  (((((s.bump R.CAD_ECC_CNT.UNCORR).raise R.caddy_INT.ECC_UNCORR).statusCount 0x031).setPage n
    { p with poison := true })).alarm 8 2 0 a

/-- Mark the image slots that page n backs as POISON (02 R64, 15 R517). -/
def State.poisonSlots (s : State) (n : Nat) : State :=
  let f (t : SMap Pte) : SMap Pte :=
    t.map fun e => if e.2.backed && e.2.ppn == n then (e.1, { e.2 with poison := true }) else e
  { s with pt := { s.pt with livePt := f s.pt.livePt, snapPt := f s.pt.snapPt } }

/-- ECC of the 64-bit word at raw address `w` when it is read: false for an error response. -/
def State.cadCheck (s : State) (w : Nat) : State × Bool :=
  match s.eccAt w with
  | .clean => (s, true)
  | .single => (s.cadCorr w, true)
  | .double =>
    let o := (s.page (w / 0x400)).owner
    if o = .image ∨ o = .snap then
      (((s.poisonSlots (w / 0x400)).raise R.caddy_INT.ECC_UNCORR).alarm 8 2 0 w, true)
    else (s.cadUncorr w, false)

/-- Does page n back an image slot that is marked POISON (02 R64)? -/
def State.imgPoison (s : State) (n : Nat) : Bool :=
  (s.pt.livePt ++ s.pt.snapPt).any fun e => e.2.backed && e.2.ppn == n && e.2.poison

/-- The `n` bytes at raw address `a` of one word, as a read returns them: every point of a POISON image page reads
0xF000 (02 R64). -/
def State.rawBytes (s : State) (a n : Nat) : List Byte :=
  if s.imgPoison (a / 0x400) then (List.range n).map fun i => if (a + i) % 2 = 0 then 0 else 0xF0
  else s.memBytes a n

/-- Read `n` bytes of the raw window (naturally aligned): none for an error response. -/
def State.rawRead (s : State) (a n : Nat) : State × Option Nat :=
  match s.cadCheck (a / 8 * 8) with
  | (s1, true) => (s1, some (leNat (s1.rawBytes a n)))
  | (s1, false) => (s1, none)

/-- Write `n` bytes of the raw window: a whole word clears its errors, a smaller write is merged (R516). -/
def State.rawWrite (s : State) (a n v : Nat) : State :=
  if n = 8 then (s.memWrite a n v).setEcc a .clean
  else ((s.cadCheck (a / 8 * 8)).1).memWrite a n v

/-! ### Background work (15 R509, R512 to R514, R518, R521) -/

/-- ECC_WRITEBACK: a corrected halfword of the SRAM, or a corrected point of the local point store, that waits is
written back (R508, R509). -/
def State.eccWriteback (s : State) (a : Nat) (collide : Bool) : State :=
  if a ∈ s.mem.writeBack then
    let s1 := { s with mem := { s.mem with writeBack := s.mem.writeBack.filter (· != a) } }
    if localAddr a then (if s1.ptEcc (pointIndex a) = .single then s1.setPtEcc (pointIndex a) .clean else s1)
    else if s1.eccAt a = .single then
      (if collide && inSram a 2 then s1.bump R.SRAM_COLL_CNT.WW else s1).setEcc a .clean
    else s1
  else s

/-- Region 0 of the lowest bank that SRAM_BT_MASK selects (R512). -/
def firstRegion (mask : Nat) : Nat := ((List.range 32).find? fun b => bit mask b).getD 0 * 512

/-- The next region after `r` in the banks that SRAM_BT_MASK selects, and whether a pass ends (R512). -/
def nextRegion (mask r : Nat) : Nat × Bool :=
  let after := (List.range 16384).find? fun i => decide (r < i) && bit mask (i / 512)
  match after with
  | some i => (i, false)
  | none => (firstRegion mask, true)

/-- The region the engine tests next, in ascending order over the selected banks: the present one when its
bank is selected. -/
def State.btRegion (s : State) : Nat :=
  let r := s.rd R.SRAM_BT_STATUS.REGION
  let mask := s.rd R.SRAM_BT_MASK.BANKS
  if bit mask (r / 512) then r else (nextRegion mask r).1

/-- BT_REGION_START: save the next region (R512); the accesses to it go to the holding buffer, which holds
the same bytes (R513), so the array's contents as seen do not change. -/
def State.btStart (s : State) : State :=
  if s.on R.SRAM_BT_CTRL.EN && s.mem.btSaved.isNone && s.rd R.SRAM_BT_MASK.BANKS != 0 then
    let r := s.btRegion
    ({ s with mem := { s.mem with btSaved := some r } }).wr R.SRAM_BT_STATUS.REGION r
  else s

/-- Has spare k of bank b passed the test of the last power-up (R515)? -/
def State.spareGood (s : State) (b k : Nat) : Bool := !s.power.board.badSpares.contains (2 * b + k)

/-- A failing region is counted and takes a free spare of its bank that is good, or raises the ALARM (R514, R515). -/
def State.btFailed (s : State) (r : Nat) : State :=
  let b := r / 512
  let s1 := ((s.bump R.SRAM_BT_FAIL.COUNT).wr R.SRAM_BT_FAIL.LAST r).raise R.sram_INT.BT_FAIL
  if s1.on R.SRAM_REPAIRb.V0 0 b = false ∧ s1.spareGood b 0 = true then
    (s1.wr R.SRAM_REPAIRb.V0 1 0 b).wr R.SRAM_REPAIRb.REG0 (r % 512) 0 b
  else if s1.on R.SRAM_REPAIRb.V1 0 b = false ∧ s1.spareGood b 1 = true then
    (s1.wr R.SRAM_REPAIRb.V1 1 0 b).wr R.SRAM_REPAIRb.REG1 (r % 512) 0 b
  else (s1.raise R.sram_INT.REPAIR_FULL).alarm 7 2 b r

/-- BT_RESTORE: the saved region goes back, or into a spare; the engine moves to the next region. -/
def State.btRestore (s : State) (fail : Bool) : State :=
  match s.mem.btSaved with
  | none => s
  | some r =>
    let s1 := { s with mem := { s.mem with btSaved := none } }
    let s2 := if fail then s1.btFailed r else s1
    let (n, wrap) := nextRegion (s2.rd R.SRAM_BT_MASK.BANKS) r
    let s3 := s2.wr R.SRAM_BT_STATUS.REGION n
    if wrap then s3.bump R.SRAM_BT_STATUS.PASSES else s3

/-- Fill page n with zeros where it is free, or belongs to a new carve-out, and is not zeroed. -/
def State.fillPage (s : State) (n : Nat) : State :=
  let a := s.page n
  if a.zeroed = false ∧ (a.owner = .free ∨ a.owner = .carve) then
    (s.zeroPage n).setPage n { a with zeroed := true, poison := false }
  else s

/-- ZERO_FILL_PAGE: the Caddy fills a page with zeros (R521, R527). The fill that follows a power-up takes the pages
in ascending order; a page behind it is one that was freed since, and a page ahead of it is not filled yet. -/
def State.zeroFill (s : State) (n : Nat) : State :=
  if n < 65536 ∧ n ≤ s.mem.filled then
    let t := s.fillPage n
    if n = s.mem.filled then { t with mem := { t.mem with filled := n + 1 } } else t
  else s

/-- SCRUB_READ: the scrub reads a word of an allocated page, in which the upset `u` is found (R518). -/
def State.scrub (s : State) (a : Nat) (u : Upset) : State :=
  let w := a / 8 * 8
  if s.on R.CAD_SCRUB.EN && decide (a < 0x4000000) && decide ((s.page (w / 0x400)).owner ≠ .free) then
    let s1 := match u with
      | .clean => s
      | .corrected => s.setEcc w .single
      | .uncorrectable => s.setEcc w .double
    let s2 := (s1.cadCheck w).1
    { s2 with mem := { s2.mem with scrubNext := w + 8 } }
  else s

end Sys2Proof.Machine
end

