-- ==== Sys2Proof/Machine/Post.lean ====
section
/-! DEFINITION. Token posts on their way to the Pour unit (06 R214, R231, R232): the order in which they
are applied, and the source entries an event matches. -/

namespace Sys2Proof.Machine

/-- Producer order (06 R214). -/
def Producer.order : Producer → Nat
  | .completion => 1
  | .steep _ => 2
  | .engine _ => 3
  | .gateway => 4
  | .mac _ => 5
  | .can _ => 5
  | .timer _ _ => 6
  | .channel _ => 7
  | .core _ => 7

/-- Instance number within a producer kind; MACs stand before CAN controllers, POUR_POSTc channels before
the cores' own instruction (the table gives both one order: log 21). -/
def Producer.inst : Producer → Nat
  | .completion => 0
  | .steep c => c
  | .engine e => e
  | .gateway => 0
  | .mac m => m
  | .can c => 5 + c
  | .timer c t => 2 * c + t
  | .channel c => c
  | .core c => 16 + c

/-- Does post `a` apply before post `b`? Earlier arrivals first, then producer order and instance. -/
def Post.before (a b : Post) : Bool :=
  decide (a.arr < b.arr) || (a.arr == b.arr &&
    (decide (a.prod.order < b.prod.order) || (a.prod.order == b.prod.order && decide (a.prod.inst < b.prod.inst))))

/-- Put a post at its place, behind the posts of the same rank that came before it. -/
def insertPost (p : Post) : List Post → List Post
  | [] => [p]
  | q :: t => if p.before q then p :: q :: t else q :: insertPost p t

/-- A producer posts to `node`, input `input`; the post reaches the Pour unit in the present tick. -/
def State.post (s : State) (prod : Producer) (node input : Nat) : State :=
  let p : Post := { arr := s.tick, prod := prod, node := node, input := input, tries := 0 }
  { s with pour := { s.pour with posts := insertPost p s.pour.posts } }

/-- Post to the target of each of these source entries, in order (06 R232). -/
def State.postAll (s : State) (prod : Producer) : List SourceEntry → State
  | [] => s
  | e :: t => (s.post prod e.node e.input).postAll prod t

/-- An event posts to every source entry that matches it, in entry order (06 R231, R232). -/
def State.postSources (s : State) (prod : Producer) (kind sub id : Nat) : State :=
  s.postAll prod (s.pour.sources.filter fun e => e.kind == kind && e.sub == sub && e.id == id)

/-- Does source entry `e` stand for writes of the point at fabric address `a`: a frame or a through field
that the receive map takes the point from (02 R46)? -/
def State.bound (s : State) (e : SourceEntry) (a : Nat) : Bool :=
  s.ring.active.rx.any fun r =>
    r.dest == a && r.src == e.id &&
      ((e.kind == 1 && !r.thru && r.frame == e.sub) || (e.kind == 2 && r.thru))

/-- Fabric address of local point i (02 R48). -/
def State.fabricOf (s : State) (i : Nat) : Nat := s.ring.addr * 4096 + i

/-- The hold rules have written the points at these fabric addresses: each source entry bound to one of
them posts (02 R46). -/
def State.postHolds (s : State) (pts : List Nat) : State :=
  s.postAll .gateway (s.pour.sources.filter fun e => pts.any fun a => s.bound e a)

end Sys2Proof.Machine
end

