-- ==== Sys2Proof/Machine/Sem.lean ====
section
/-! DEFINITION. The 32 semaphores of the ring bridge page (16 R560 to R562). -/

namespace Sys2Proof.Machine

/-- Is semaphore n held? -/
def State.semHeld (s : State) (n : Nat) : Bool := s.on R.BR_SEM_PEEKn.HELD 0 n
/-- OWNER of semaphore n. -/
def State.semOwner (s : State) (n : Nat) : Nat := s.rd R.BR_SEM_PEEKn.OWNER 0 n

/-- Semaphore n becomes free. -/
def State.semClear (s : State) (n : Nat) : State := (s.wr R.BR_SEM_PEEKn.HELD 0 0 n).wr R.BR_SEM_PEEKn.OWNER 0 0 n

/-- A read of BR_SEM_POPn (R560): the state and the data, or none for an error response. -/
def State.semPop (s : State) (who : Initiator) (n : Nat) : Option (State × Nat) :=
  let st := stampOf who
  if st = 0xF000 then none
  else if s.semHeld n then
    some (s, 2 ^ 31 + (if s.semOwner n = st then 2 ^ 30 else 0) + s.semOwner n)
  else some ((s.wr R.BR_SEM_PEEKn.HELD 1 0 n).wr R.BR_SEM_PEEKn.OWNER st 0 n, 2 ^ 31 + 2 ^ 30 + st)

/-- A read of BR_SEM_PEEKn. -/
def State.semPeek (s : State) (n : Nat) : Nat := ofBool (s.semHeld n) * 2 ^ 31 + s.semOwner n

/-- A write with REL = 1 to BR_SEM_PEEKn (R560): none for an error response. -/
def State.semRelease (s : State) (who : Initiator) (n : Nat) : Option State :=
  if s.semHeld n = true ∧ s.semOwner n = stampOf who then some (s.semClear n) else none

/-- Every semaphore of an owner is freed, each with an EVENT (R561). -/
def State.semFree (s : State) (owner : Nat) : State :=
  (List.range 32).foldl (fun (t : State) n =>
    if t.semHeld n && t.semOwner n == owner then (t.semClear n).event 18 1 n owner else t) s

end Sys2Proof.Machine
end

