-- ==== Sys2Proof/Machine/Points.lean ====
section
/-! DEFINITION. Points (02): quality and precedence, the local point store with its attribute entries,
the live and snapshot images, hold rules, host loss and force. -/

namespace Sys2Proof.Machine

/-! ### Quality (02 R40 to R43) -/

/-- Value of a point container (R37). -/
def ptVal (p : Half) : Nat := p.toNat % 4096
/-- Quality code of a point container (R37). -/
def ptQual (p : Half) : Nat := p.toNat / 4096
/-- A point container. -/
def mkPt (q v : Nat) : Half := BitVec.ofNat 16 (q % 16 * 4096 + v % 4096)

/-- Precedence of a quality code, 1 the highest; a reserved code ranks with INVALID (R40, 08 R290). -/
def qPrec : Nat → Nat
  | 0x8 => 2 | 0x3 => 3 | 0x4 => 4 | 0x2 => 5 | 0x5 => 6 | 0x6 => 7 | 0x1 => 8 | 0x0 => 9 | _ => 1

/-- The code of higher precedence (R41); a reserved code counts as INVALID. -/
def qMax (a b : Nat) : Nat :=
  let r := if qPrec a ≤ qPrec b then a else b
  if qPrec r = 1 then 0xF else r

/-- Does the code count as a rejected quality when a writer supplies it: NEVER or reserved (R42)? -/
def qRejected (q : Nat) : Bool := q == 8 || (qPrec q == 1 && q != 0xF)

/-- Is the quality INVALID or NEVER? -/
def qDead (q : Nat) : Bool := q == 0xF || q == 8

/-! ### Attribute entries (02 R54) -/

/-- Attribute entry of local point i. -/
def State.attr (s : State) (i : Nat) : Nat := (s.pt.attr.get 0 i).toNat
/-- Put an attribute entry. -/
def State.setAttr (s : State) (i v : Nat) : State :=
  { s with pt := { s.pt with attr := s.pt.attr.set 0 i (BitVec.ofNat 64 v) } }
/-- WCLASS, with the reserved classes taken as 0. -/
def aClass (a : Nat) : Nat := let c := bitsOf a 63 61; if c ≤ 4 then c else 0
/-- WSRC. -/
def aWsrc (a : Nat) : Nat := bitsOf a 59 48
/-- HOLD. -/
def aHold (a : Nat) : Nat := bitsOf a 47 40
/-- LOSS_ACTION takes the substitute? Reserved values are taken as 0. -/
def aSubst (a : Nat) : Bool := bitsOf a 39 38 == 1
/-- HOSTCMD. -/
def aHostCmd (a : Nat) : Bool := bit a 37
/-- FORCE. -/
def aForce (a : Nat) : Bool := bit a 36
/-- FORCE_VALUE. -/
def aForceVal (a : Nat) : Nat := bitsOf a 27 16
/-- SUBST_VALUE. -/
def aSubstVal (a : Nat) : Nat := bitsOf a 11 0

/-! ### The local point store -/

/-- What a reader of local point i gets: an unconfigured point reads INVALID, a forced one its FORCE_VALUE
with the code of higher precedence (R45, R50, R52, R53). -/
def State.localPt (s : State) (i : Nat) : Half :=
  let v := s.stored i
  if i < 0x100 then v
  else
    let a := s.attr i
    if aClass a = 0 then 0xF000
    else if aForce a then mkPt (qMax (ptQual v) 1) (aForceVal a)
    else v

/-- Who writes a point (R54). -/
inductive Writer where
  | gateway (unit : Nat)
  | mover (node : Nat)
  | context (id : Nat)
  | host
  | other
  deriving DecidableEq, Repr

/-- Is the writer accepted for an application point with attribute entry `a` (R50, R55, R77, 07 R256)?
`standby` is STANDBY_ROOT of the active set. -/
def writerOk (a standby : Nat) : Writer → Bool
  | .gateway u => aClass a == 1 && (u == aWsrc a % 2048 || (aHostCmd a && standby != 0 && u == standby))
  | .mover n => aClass a == 2 && n == aWsrc a
  | .context c => aClass a == 3 && c != 0 && c == aWsrc a % 256
  | .host => aClass a == 4
  | .other => false

/-- Missed-cycle count, or c, of local point i. -/
def State.miss (s : State) (i : Nat) : Nat := s.pt.miss.get 0 i
/-- Put the count. -/
def State.setMiss (s : State) (i n : Nat) : State :=
  { s with pt := { s.pt with miss := s.pt.miss.set 0 i n } }
/-- Mark local point i as updated in the present cycle. -/
def State.markUpd (s : State) (i : Nat) : State :=
  { s with pt := { s.pt with upd := s.pt.upd.set false i true } }
/-- Mark an accepted write from WSRC with a quality other than HELD (R77). -/
def State.markWsrc (s : State) (i : Nat) : State :=
  { s with pt := { s.pt with wsrcUpd := s.pt.wsrcUpd.set false i true } }

/-- Store an accepted write: NEVER and reserved codes become INVALID and are counted (R42), and the
condition that the path detects is combined by precedence (R41). -/
def State.storePt (s : State) (i : Nat) (p : Half) (detected : Nat) : State :=
  let q := ptQual p
  let s1 := if qRejected q then s.statusCount 0x011 else s
  let q1 := if qRejected q then 0xF else q
  s1.setStored i (mkPt (qMax q1 detected) (ptVal p))

/-- An accepted write to an application point (R41, R42, R71, R75, R77). -/
def State.acceptPt (s : State) (w : Writer) (i : Nat) (p : Half) (detected : Nat) : State :=
  let a := s.attr i
  if aHostCmd a then
    let fromStandby := match w with
      | .gateway u => u != aWsrc a % 2048
      | _ => false
    let held := ptQual p == 2
    if fromStandby && s.pt.wsrcUpd.get false i then s
    else if held then (if s.miss i = 0 then s.storePt i p detected else s)
    else
      let s1 := ((s.storePt i p detected).setMiss i 0).markUpd i
      if fromStandby then s1 else s1.markWsrc i
  else ((s.storePt i p detected).setMiss i 0).markUpd i

/-- A refused point write is counted (R50). -/
def State.rejectPt (s : State) : State := s.statusCount 0x010

/-- Would a write of point i by `w` be accepted (R50)? -/
def State.ptAccepts (s : State) (w : Writer) (i : Nat) : Bool :=
  decide (0x100 ≤ i) && decide (i < 4096) && writerOk (s.attr i) s.ring.active.standbyRoot w

/-- Write local point i; false for an error response. -/
def State.writeLocal (s : State) (w : Writer) (i : Nat) (p : Half) (detected : Nat := 0) : State × Bool :=
  if s.ptAccepts w i then (s.acceptPt w i p detected, true) else (s.rejectPt, false)

/-! ### Images (02 R56 to R64) -/

/-- The image role of the active set (R56). -/
def State.imgEn (s : State) : Bool := s.on R.CAD_IMG_CTRL.IMG_EN

/-- Entry of the live page table. -/
def State.live (s : State) (slot : Nat) : Pte := s.pt.livePt.get {} slot
/-- Put an entry of the live page table. -/
def State.setLive (s : State) (slot : Nat) (e : Pte) : State :=
  { s with pt := { s.pt with livePt := s.pt.livePt.set {} slot e } }
/-- Entry of the snapshot page table. -/
def State.snap (s : State) (slot : Nat) : Pte := s.pt.snapPt.get {} slot

/-- Slots of unit 0 and unit 0x7FF, which are never backed (R58). -/
def neverBacked (slot : Nat) : Bool := decide (slot < 8) || decide (16376 ≤ slot)

/-- Raw-window address of fabric point `a` in physical page `ppn` (R58). -/
def imgAddr (ppn a : Nat) : Nat := ppn * 0x400 + 2 * (a % 512)

/-- A point read from an image page, with the page's ECC (R64): an uncorrectable word poisons the page. -/
def State.pageRead (s : State) (e : Pte) (a : Nat) : Half :=
  if !e.backed || e.poison then 0xF000
  else if s.eccAt (imgAddr e.ppn a / 8 * 8) = .double then 0xF000
  else BitVec.ofNat 16 (s.memRead (imgAddr e.ppn a) 2)

/-- Read of the live image at fabric address `a` (R22, R56, R62). -/
def State.liveRead (s : State) (a : Nat) : Half :=
  if !s.imgEn then 0xF000
  else if a / 4096 = s.ring.addr ∧ s.ring.addr ≠ 0 then s.localPt (a % 4096)
  else s.pageRead (s.live (a / 512)) a

/-- Read of the snapshot image (R65 to R70). -/
def State.snapReadPt (s : State) (a : Nat) : Half :=
  if !s.imgEn || !s.pt.snapHeld then 0xF000 else s.pageRead (s.snap (a / 512)) a

/-- Fabric addresses that the active set names for the live image: receive map and host-command list (R59). -/
def State.namedPt (s : State) (a : Nat) : Bool :=
  s.ring.active.hostCmd.contains a || s.ring.active.rx.any fun r => r.dest == a

/-- Initialise the points of a slot's page: 0x8000 where named, 0xF000 elsewhere (R61). -/
def State.initSlot (s : State) (slot ppn : Nat) : State :=
  (List.range 512).foldl
    (fun t i => t.memWrite (ppn * 0x400 + 2 * i) 2 (if s.namedPt (slot * 512 + i) then 0x8000 else 0xF000)) s

/-- Back a slot of the live image (R59 to R61); none when Caddy has no free page. -/
def State.backSlot (s : State) (slot : Nat) : Option State :=
  match s.takePage .image with
  | none => none
  | some (n, s1) => some ((s1.initSlot slot n).setLive slot { backed := true, ppn := n })

/-- An image write that found no page is lost (R60). -/
def State.backFail (s : State) (a : Nat) : State :=
  (((s.allocFail .image).statusCount 0x012)).alarm 19 1 (a / 4096) a

/-- Copy a 1 KiB page as it is stored: an error that a word of it holds goes with the word (DESIGN CHOICE,
log 50). -/
def State.copyPage (s : State) (src dst : Nat) : State :=
  (List.range 128).foldl (fun t i => t.setEcc (dst * 0x400 + 8 * i) (s.eccAt (src * 0x400 + 8 * i)))
    (s.memPut (dst * 0x400) (s.memBytes (src * 0x400) 0x400))

/-- The stored word that point `a` of image page `e` lies in is read, and handled by 15 R517: an
uncorrectable one marks the page POISON in the page tables (R64). -/
def State.imgCheck (s : State) (e : Pte) (a : Nat) : State :=
  if e.backed && !e.poison then (s.cadCheck (imgAddr e.ppn a / 8 * 8)).1 else s

/-- The ECC of `n` local points from `i` on when they are read: false for an error response (15 R508, R510). -/
def State.localCheck (s : State) (i : Nat) : Nat → State × Bool
  | 0 => (s, true)
  | n + 1 =>
    match s.ptCheck i with
    | (t, true) => t.localCheck (i + 1) n
    | (t, false) => (t, false)

/-- The ECC behind a read of `n` points of the live image from fabric address `a` on, those of the unit's own address
standing in the local point store (R56): false for an error response. -/
def State.liveCheck (s : State) (a n : Nat) : State × Bool :=
  if !s.imgEn then (s, true)
  else if a / 4096 = s.ring.addr ∧ s.ring.addr ≠ 0 then s.localCheck (a % 4096) n
  else (s.imgCheck (s.live (a / 512)) a, true)

/-- The stored word behind a read of the snapshot image at fabric address `a`. -/
def State.snapCheck (s : State) (a : Nat) : State :=
  if s.imgEn && s.pt.snapHeld then s.imgCheck (s.snap (a / 512)) a else s

/-- Free the pages that only the snapshot holds and clear every SHARED mark (R69, R70, 15 R523). -/
def State.dropSnap (s : State) : State :=
  let s1 := s.pt.snapPt.foldl
    (fun t e => if e.2.backed && decide ((t.page e.2.ppn).owner = .snap) then t.freePage .snap e.2.ppn else t) s
  let lt := s1.pt.livePt.map fun e => (e.1, { e.2 with shared := false })
  { s1 with pt := { s1.pt with snapPt := [], livePt := lt, snapHeld := false } }

/-- Abort the snapshot (R69). -/
def State.abortSnap (s : State) : State :=
  let s1 := (s.allocFail .snap).dropSnap
  ((((s1.wr R.CAD_SNAP_STATUS.ABORT 1).wr R.CAD_SNAP_STATUS.VALID 1).raise R.caddy_INT.SNAP_ABORT)).alarm 8 1 0
    (s1.rd R.CAD_SNAP_STATUS.SEQ)

/-- The first write to a SHARED page copies it (R68, 15 R523), or aborts the snapshot (R69). -/
def State.copyOnWrite (s : State) (slot : Nat) : State :=
  let e := s.live slot
  if e.shared then
    match s.takePage .snap with
    | none => s.abortSnap
    | some (n, s1) =>
      let s2 := s1.copyPage e.ppn n
      let s3 := (s2.setPage n { owner := .image, pf := true, ro := true, zeroed := false }).setPage e.ppn
        { owner := .snap, pf := true, ro := true, zeroed := false }
      s3.setLive slot { e with shared := false, ppn := n }
  else s

/-- A POISON page is re-initialised by the first write to it (R64). -/
def State.unpoison (s : State) (slot : Nat) : State :=
  let e := s.live slot
  if e.poison then
    let s1 := (List.range 128).foldl (fun t i => t.setEcc (e.ppn * 0x400 + 8 * i) .clean) s
    (s1.initSlot slot e.ppn).setLive slot { e with poison := false }
  else s

/-- Store a point in a backed slot of the live image (R41, R42, R68); the write is merged into its stored
word, which is read for it (15 R516, R64). -/
def State.storeLive (s : State) (a : Nat) (p : Half) (detected : Nat) : State :=
  let slot := a / 512
  let s0 := s.copyOnWrite slot
  let s1 := (s0.imgCheck (s0.live slot) a).unpoison slot
  let q := ptQual p
  let s2 := if qRejected q then s1.statusCount 0x011 else s1
  let q1 := if qRejected q then 0xF else q
  s2.memWrite (imgAddr (s2.live slot).ppn a) 2 (mkPt (qMax q1 detected) (ptVal p)).toNat

/-- Mark a live-image point as updated in the present cycle (R73). -/
def State.markLive (s : State) (a : Nat) : State :=
  { s with pt := { s.pt with liveUpd := s.pt.liveUpd.set false a true, liveMiss := s.pt.liveMiss.set 0 a 0 } }

/-- Write the live image at fabric address `a` (R22, R56 to R62): the CAUSE of an error response, or none. -/
def State.writeLive (s : State) (w : Writer) (a : Nat) (p : Half) (detected : Nat := 0) : State × Option Nat :=
  if !s.imgEn then (s, some 1)
  else if a / 4096 = s.ring.addr ∧ s.ring.addr ≠ 0 then
    match s.writeLocal w (a % 4096) p detected with
    | (s1, true) => (s1, none)
    | (s1, false) => (s1, some 4)
  else if neverBacked (a / 512) then (s, some 1)
  else
    let listed := s.ring.active.hostCmd.contains a
    let ok := match w with
      | .host => listed
      | .gateway _ => !listed
      | _ => false
    if !ok then (s.rejectPt, some 4)
    else if (s.live (a / 512)).backed then ((s.storeLive a p detected).markLive a, none)
    else
      match s.backSlot (a / 512) with
      | some s1 => ((s1.storeLive a p detected).markLive a, none)
      | none => (s.backFail a, none)

/-- Would a write of the live image by `w` be refused (R51 asks before anything changes)? -/
def State.liveRefuses (s : State) (w : Writer) (a : Nat) : Option Nat :=
  if !s.imgEn then some 1
  else if a / 4096 = s.ring.addr ∧ s.ring.addr ≠ 0 then (if s.ptAccepts w (a % 4096) then none else some 4)
  else if neverBacked (a / 512) then some 1
  else
    let listed := s.ring.active.hostCmd.contains a
    match w with
    | .host => if listed then none else some 4
    | .gateway _ => if listed then some 4 else none
    | _ => some 4

/-! ### Snapshots (02 R65 to R70, R662) -/

/-- SNAP_REQ: request a freeze, ignored while a snapshot is held; false for the error response of R65. -/
def State.snapRequest (s : State) : State × Bool :=
  if !s.imgEn then (s, false)
  else if s.on R.CAD_SNAP_STATUS.VALID then (s, true)
  else ({ s with pt := { s.pt with snapReq := true } }, true)

/-- SNAP_REL with ACK_SEQ: a release with the held SEQ (R70), after which every result field but SEQ reads 0
(16 R564); other values change nothing. -/
def State.snapRelease (s : State) (ack : Nat) : State :=
  if s.on R.CAD_SNAP_STATUS.VALID ∧ ack = s.rd R.CAD_SNAP_STATUS.SEQ then
    let s1 := s.dropSnap
    let s2 := ((((s1.wr R.CAD_SNAP_STATUS.VALID 0).wr R.CAD_SNAP_STATUS.ABORT 0).wr
      R.CAD_SNAP_STATUS.REREAD 0).wr R.CAD_SNAP_STATUS.CYCLE 0)
    { s2 with pt := { s2.pt with snapRead := false } }
  else s

/-- Does a release with this ACK_SEQ take effect (R70)? -/
def State.releases (s : State) (ack : Nat) : Bool :=
  s.on R.CAD_SNAP_STATUS.VALID && ack == s.rd R.CAD_SNAP_STATUS.SEQ

/-- A write of CAD_IMG_CTRL (R65, R70): a request beside a release that has no effect is ignored. -/
def State.imgCtrlWrite (s : State) (rel req : Bool) (ack : Nat) : State × Bool :=
  let s1 := if rel then s.snapRelease ack else s
  if req then
    if !s1.imgEn then (s1, false)
    else if rel && !s.releases ack then (s1, true)
    else s1.snapRequest
  else (s1, true)

/-- The snapshot number after `n`, which wraps from 255 to 1. -/
def nextSeq (n : Nat) : Nat := if n = 255 then 1 else n + 1

/-- Take `n` pages for the snapshot of the unit's own points (R662). -/
def State.takeSnapPages (s : State) : Nat → Option (List Nat × State)
  | 0 => some ([], s)
  | n + 1 =>
    match s.takePage .snap with
    | none => none
    | some (p, s1) =>
      match s1.takeSnapPages n with
      | none => none
      | some (t, s2) => some (p :: t, s2)

/-- Write the own points into the eight pages, which become slots of the snapshot table (R662). -/
def State.putOwn (s : State) (slot : Nat) : List Nat → State
  | [] => s
  | p :: t =>
    let s1 := (List.range 512).foldl
      (fun u i => u.memWrite (p * 0x400 + 2 * i) 2 (s.localPt ((slot * 512 + i) % 4096)).toNat) s
    let s2 := { s1 with pt := { s1.pt with snapPt := s1.pt.snapPt.set {} slot { backed := true, ppn := p } } }
    s2.putOwn (slot + 1) t

/-- SNAP_FREEZE at the boundary that a request names, the one that begins cycle `c` (R65 to R68, R662). -/
def State.snapFreeze (s : State) (c : Nat) : State :=
  if s.pt.snapReq && s.imgEn then
    let s1 := { s with pt := { s.pt with snapReq := false, snapRead := false } }
    let s2 := ((s1.wr R.CAD_SNAP_STATUS.SEQ (nextSeq (s1.rd R.CAD_SNAP_STATUS.SEQ))).wr
      R.CAD_SNAP_STATUS.CYCLE (c % 65536)).wr R.CAD_SNAP_STATUS.REREAD 0
    let lt := s2.pt.livePt.map fun e => (e.1, { e.2 with shared := e.2.backed })
    let s3 := { s2 with pt := { s2.pt with snapHeld := true, snapPt := s2.pt.livePt, livePt := lt } }
    match s3.takeSnapPages 8 with
    | none => s3.abortSnap
    | some (ps, s4) => ((s4.putOwn (s4.ring.addr * 8) ps).wr R.CAD_SNAP_STATUS.VALID 1).wr R.CAD_SNAP_STATUS.ABORT 0
  else s

/-! ### Hold rules (02 R71 to R75, R43) -/

/-- A hold rule applies code `q` to a stored point, taking `v` when given; INVALID and NEVER points are not
changed (R43, R44). -/
def holdApply (p : Half) (q : Nat) (v : Option Nat) : Half :=
  if qDead (ptQual p) then p else mkPt (qMax (ptQual p) q) (v.getD (ptVal p))

/-- Count in status point k a point whose quality a hold rule has changed from that of p to that of n (R52). -/
def State.holdCount (s : State) (k : Nat) (p n : Half) : State :=
  if ptQual n = ptQual p then s else s.statusCount k

/-- Apply a hold rule to local point i. -/
def State.holdLocal (s : State) (i q : Nat) (v : Option Nat) : State :=
  let n := holdApply (s.stored i) q v
  (s.setStored i n).holdCount 0x013 (s.stored i) n

/-- HOLD_TIME_END: the count of a point with HOLD ≠ 0 and HOSTCMD = 0 reaches HOLD (R71). -/
def State.holdEnd (s : State) (i : Nat) : State :=
  let a := s.attr i
  if aSubst a then s.holdLocal i 3 (some (aSubstVal a)) else s.holdLocal i 4 none

/-- Host-loss SUBSTITUTE of point i (R75), a transition to it counted in HOST_LOSS. -/
def State.hostSubst (s : State) (i : Nat) : State :=
  let t := s.holdLocal i 3 (some (aSubstVal (s.attr i)))
  t.holdCount 0x015 (s.stored i) (t.stored i)

/-- The hold rule of local point i at a boundary: an updated point starts again at 0, a missed one counts
and takes its action when the count reaches its limit (R71, R75). -/
def State.holdStep (s : State) (i : Nat) : State :=
  let a := s.attr i
  if aClass a = 0 ∨ i < 0x100 then s
  else if s.pt.upd.get false i then s.setMiss i 0
  else if aHostCmd a then
    let c := min (s.miss i + 1) 256
    let s1 := s.setMiss i c
    let s2 := if c = 1 then s1.holdLocal i 2 none else s1
    let lim := s.rd R.RING_PT_CTRL.HOST_LOSS_TIMEOUT
    if c = lim ∧ lim ≠ 0 then s2.hostSubst i else s2
  else if aHold a = 0 then s
  else
    let c := min (s.miss i + 1) 256
    let s1 := s.setMiss i c
    if c = aHold a then s1.holdEnd i else s1

/-- HOLD of the live-image point at fabric address `a`: that of the slot or through entry that carries it
(R73), 0 when none does. -/
def TableSet.liveHold (t : TableSet) (a : Nat) : Nat :=
  match t.rx.find? fun r => r.dest == a with
  | none => 0
  | some r =>
    if r.thru then ((t.through.find? fun e => e.member == r.src).map (·.hold)).getD 0
    else (((t.slots.filter fun e => e.owner == r.src)[r.frame]?).map (·.hold)).getD 0

/-- The hold rule of a live-image point of another unit at a boundary (R73): STALE when its count reaches
HOLD; it never takes SUBSTITUTE. -/
def State.liveStep (s : State) (a : Nat) : State :=
  let h := s.ring.active.liveHold a
  if s.pt.liveUpd.get false a then s
  else if h = 0 ∨ (s.live (a / 512)).backed = false then s
  else
    let c := min (s.pt.liveMiss.get 0 a + 1) 256
    let s1 := { s with pt := { s.pt with liveMiss := s.pt.liveMiss.set 0 a c } }
    if c = h then
      let s1 := s1.imgCheck (s1.live (a / 512)) a
      let p := s1.pageRead (s1.live (a / 512)) a
      if qDead (ptQual p) then s1
      else
        let s2 := s1.copyOnWrite (a / 512)
        let n := holdApply p 4 none
        (s2.memWrite (imgAddr (s2.live (a / 512)).ppn a) 2 n.toNat).holdCount 0x013 p n
    else s1

/-- The live-image point at fabric address `a` of another unit, as it stands in its page. -/
def State.livePoint (s : State) (a : Nat) : Half := s.pageRead (s.live (a / 512)) a

/-- The hold rules act on the local points `loc` and on the live-image points `img`; each source entry bound
to a point that they change posts (R46, R72). -/
def State.holdPoints (s : State) (loc img : List Nat) : State :=
  let s1 := img.foldl State.liveStep (loc.foldl State.holdStep s)
  let changed := ((loc.filter fun i => s1.stored i != s.stored i).map s.fabricOf) ++
    img.filter fun a => s1.livePoint a != s.livePoint a
  s1.postHolds changed

/-- Live-image points of other units that the active set receives, where the unit keeps images (R73). -/
def State.liveNamed (s : State) : List Nat :=
  if s.imgEn then (s.ring.active.rx.map (·.dest)).filter fun a => a / 4096 != s.ring.addr else []

/-- Hold rules at a boundary: every configured local point and every received live-image point (R72). -/
def State.holdAll (s : State) : State :=
  let s1 := s.holdPoints (s.pt.attr.map (·.1)) s.liveNamed
  { s1 with pt := { s1.pt with upd := [], wsrcUpd := [], liveUpd := [] } }

/-- The hold rule of one local point. -/
def State.holdOne (s : State) (i : Nat) : State := s.holdPoints [i] []

/-- The hold rule of one live-image point of another unit. -/
def State.liveOne (s : State) (a : Nat) : State := s.holdPoints [] [a]

/-! ### Host loss and heartbeat (02 R76) -/

/-- Is the PCI Express link in L0? LINK_UP says that it is in L0, L0s or L1. -/
def State.hostLinkUp (s : State) : Bool := s.on R.PCIE_STATUS.LINK_UP && !s.host.lowPower

/-- The root declares host loss; counted in HOST_LOSS once per declaration, and the semaphores that the
PCI Express port holds are freed (16 R561). -/
def State.declareHostLoss (s : State) : State :=
  if s.imgEn && !s.on R.RING_PT_CTRL.HOST_LOST then
    ((s.wr R.RING_PT_CTRL.HOST_LOST 1).statusCount 0x015).semFree 0x1000
  else s

/-- A heartbeat write with BEAT = 1 (R76). -/
def State.heartbeat (s : State) : State :=
  let s1 := { s with pt := { s.pt with beatCount := 0, beaten := true } }
  if s1.hostLinkUp then s1.wr R.RING_PT_CTRL.HOST_LOST 0 else s1

/-- A cycle ends: one without a heartbeat counts, and HOST_WD of them declare host loss (R76). The cycle in which
HOST_WD changed counts too, where it sees no heartbeat after the change (DESIGN CHOICE, log 57). -/
def State.beatCycle (s : State) : State :=
  if s.pt.beaten then { s with pt := { s.pt with beaten := false } }
  else
    let n := s.pt.beatCount + 1
    let s1 := { s with pt := { s.pt with beatCount := min n 256 } }
    let wd := s.rd R.RING_PT_CTRL.HOST_WD
    if wd ≠ 0 ∧ wd ≤ n then s1.declareHostLoss else s1

/-- A point as the root sends it while host loss is declared (R76): with the code of higher precedence, so that STALE
and SUBSTITUTE stay, although the rule goes on to say that every point but INVALID and NEVER is sent as HELD (DESIGN
CHOICE, log 57). -/
def State.sentPt (s : State) (a : Nat) (p : Half) : Half :=
  if s.on R.RING_PT_CTRL.HOST_LOST && s.ring.active.hostCmd.contains a then
    mkPt (qMax (ptQual p) 2) (ptVal p)
  else p

/-! ### Force (02 R45, RING_PT_FORCE) -/

/-- Is the INDEX of RING_PT_FORCE refused? -/
def State.forceRefused (s : State) (i : Nat) : Bool := decide (i < 0x100) || aClass (s.attr i) == 0

/-- RING_PT_FORCE with OP 1 sets the force, with OP 2 releases it; other values have no effect. -/
def State.forceWrite (s : State) (op v i : Nat) : State :=
  if op ≠ 1 ∧ op ≠ 2 then s
  else if s.forceRefused i then s.statusCount 0x014
  else
    let a := s.attr i
    if op = 1 then
      s.setAttr i (a - bitsOf a 27 16 * 2 ^ 16 + v % 4096 * 2 ^ 16 + (if aForce a then 0 else 2 ^ 36))
    else s.setAttr i (a - (if aForce a then 2 ^ 36 else 0))

/-- What an output stage takes from a point: SUBST_VALUE in place of INVALID or NEVER (R47). -/
def State.stageOf (s : State) (i : Nat) (p : Half) : Nat :=
  if qDead (ptQual p) then aSubstVal (s.attr i) else ptVal p

/-! ### Arms that need no register access -/

/-- HOLD_TIME_END (R71): at this boundary the missed point's count reaches HOLD. -/
def execHoldTimeEnd (i : Nat) (s : State) : Host.Outcome State Fault Refusal :=
  let a := s.attr i
  if 0x100 ≤ i ∧ aClass a ≠ 0 ∧ aHostCmd a = false ∧ aHold a ≠ 0 ∧ s.miss i + 1 = aHold a ∧
      s.pt.upd.get false i = false then
    s.powered (s.holdOne i)
  else .next s

/-- LIVE_POINT_STALE (R73): at this boundary the missed live-image point's count reaches its HOLD. -/
def execLivePointStale (a : Nat) (s : State) : Host.Outcome State Fault Refusal :=
  if s.imgEn = true ∧ a / 4096 ≠ s.ring.addr ∧ s.pt.liveMiss.get 0 a + 1 = s.ring.active.liveHold a then
    s.powered (s.liveOne a)
  else .next s

/-- HOST_POINT_HELD (R75): at this boundary c of a missed host-commanded point reaches 1. -/
def execHostPointHeld (i : Nat) (s : State) : Host.Outcome State Fault Refusal :=
  let a := s.attr i
  if 0x100 ≤ i ∧ aClass a ≠ 0 ∧ aHostCmd a = true ∧ s.miss i = 0 ∧ s.pt.upd.get false i = false then
    s.powered (s.holdOne i)
  else .next s

/-- HOST_LOSS_TIMEOUT (R75): at this boundary c reaches RING_PT_CTRL.HOST_LOSS_TIMEOUT. -/
def execHostLossTimeout (i : Nat) (s : State) : Host.Outcome State Fault Refusal :=
  let a := s.attr i
  if 0x100 ≤ i ∧ aClass a ≠ 0 ∧ aHostCmd a = true ∧ s.pt.upd.get false i = false ∧
      s.miss i + 1 = s.rd R.RING_PT_CTRL.HOST_LOSS_TIMEOUT then
    s.powered (s.holdOne i)
  else .next s

/-- Is the cycle that ends, without a heartbeat, the last of HOST_WD such cycles (R76)? -/
def State.beatOver (s : State) : Bool :=
  !s.pt.beaten && s.rd R.RING_PT_CTRL.HOST_WD != 0 && decide (s.rd R.RING_PT_CTRL.HOST_WD ≤ s.pt.beatCount + 1)

/-- HOST_WD_EXPIRE (R76): at this boundary HOST_WD cycles have passed without a heartbeat. -/
def execHostWdExpire (s : State) : Host.Outcome State Fault Refusal :=
  if s.imgEn && s.beatOver then s.powered s.declareHostLoss else .next s

end Sys2Proof.Machine
end

