-- ==== Sys2Proof/Machine/Frame.lean ====
section
/-! DEFINITION. Ring frames (04, Common frame format): header fields, CRC, tag, and what a unit does to
every copy that arrives or passes (03 R93, R94, R103; 04 R132 to R136, R170, R171). -/

namespace Sys2Proof.Machine

/-! ### Header fields (04 R132) -/

/-- KIND. -/
def fKind (l : List Byte) : Nat := be l 0 1 / 16
/-- AUTH. -/
def fAuth (l : List Byte) : Bool := bit (be l 0 1) 3
/-- REFLECTED. -/
def fReflected (l : List Byte) : Bool := bit (be l 0 1) 2
/-- DIR. -/
def fDir (l : List Byte) : Nat := be l 0 1 / 2 % 2
/-- HOP_LEFT. -/
def fHop (l : List Byte) : Nat := be l 1 2 % 2048
/-- SRC. -/
def fSrc (l : List Byte) : Nat := be l 3 2 % 2048
/-- LENGTH. -/
def fLen (l : List Byte) : Nat := be l 5 2
/-- FSEQ. -/
def fSeq (l : List Byte) : Nat := be l 7 1
/-- CYCLE. -/
def fCycle (l : List Byte) : Nat := be l 8 4
/-- ACC_DELAY. -/
def fAcc (l : List Byte) : Nat := be l 12 4

/-- A 16-byte header without REFLECTED and with ACC_DELAY 0 (R132, R133). -/
def fHeader (kind : Nat) (auth : Bool) (dir hop src len fseq cycle : Nat) : List Byte :=
  beBytes 1 (kind * 16 + ofBool auth * 8 + dir * 2) ++ beBytes 2 hop ++ beBytes 2 src ++ beBytes 2 len ++
    beBytes 1 fseq ++ beBytes 4 cycle ++ beBytes 4 0

/-! ### CRC and tag (04 R134, R135, R170, R171) -/

/-- The bytes with HOP_LEFT and ACC_DELAY taken as 0. -/
def covered (l : List Byte) : List Byte := putAt (putAt l 1 [0, 0]) 12 [0, 0, 0, 0]

/-- The four CRC bytes of a frame that ends before them. -/
def crcOf (body : List Byte) : List Byte := beBytes 4 (crc32 (covered body)).toNat

/-- A frame from its bytes before the CRC: a fresh CRC, or its complement (R135). -/
def sealWith (good : Bool) (body : List Byte) : List Byte :=
  body ++ (crcOf body).map fun b => if good then b else ~~~b

/-- The frame without its CRC. -/
def bodyOf (l : List Byte) : List Byte := l.take (l.length - 4)

/-- Is the frame good: a known KIND, a LENGTH that agrees, a good CRC (R134, R136)? -/
def frameGood (l : List Byte) : Bool :=
  decide (20 ≤ l.length) && fLen l == l.length && decide (1 ≤ fKind l) && decide (fKind l ≤ 7) &&
    l.drop (l.length - 4) == crcOf (bodyOf l)

/-- A changed copy of a frame of the same length (R135): `l` is the copy as it arrived. -/
def reseal (l body : List Byte) : List Byte := sealWith (frameGood l) body

/-- The nonce of R171 followed by the authenticated bytes. -/
def tagInput (tagger epoch : Nat) (body : List Byte) : List Byte :=
  beBytes 12 (tagger * 2 ^ 85 + fDir body * 2 ^ 84 + fKind body * 2 ^ 80 + fSeq body * 2 ^ 72 +
    fCycle body * 2 ^ 40 + epoch * 2 ^ 24) ++ covered body

/-- The tag that a unit computes with its key over the bytes before it (R170). -/
def tagOf (key : List Byte) (tagger epoch : Nat) (body : List Byte) : List Byte :=
  beBytes 8 (gmacTag key (tagInput tagger epoch body)).toNat

/-! ### Keys (18 R595, R605, R606) -/

/-- The bytes of an ASCII string. -/
def ascii (t : String) : List Byte := t.toList.map fun c => BitVec.ofNat 8 c.toNat

/-- KDF(K, label, context): the first 32 bytes of HMAC-SHA-384 over the block of R605. -/
def kdf (key label context : List Byte) : List Byte :=
  (beBytes 48 (hmac384 key ([0, 0, 0, 1] ++ label ++ [0] ++ context ++ [0, 0, 1, 0])).toNat).take 32

/-- The ring key of epoch e, from FABRIC_KEY (R606). -/
def State.ringKey (s : State) (e : Nat) : List Byte :=
  (kdf (s.otpBytes 0x095 8) (ascii "NOBASIN-RING") (beBytes 2 e)).take 16

/-- The keeper writes the keys of epochs e and e + 1 into the key registers of the gateway (18 R592, R606); epoch
65,535 is the last and epoch 0 has no key (R607), and no customer key is used in RETURN and SCRAP (R599). -/
def State.fetchKeys (s : State) (e : Nat) : State :=
  if e = 0 ∨ 65535 < e ∨ s.lifeCycle = .back ∨ s.lifeCycle = .scrap then s
  else
    { s with ring := { s.ring with
        keys := ((if e = 65535 then [e] else [e, e + 1]).map fun x => (x, s.ringKey x)) } }

/-- Does the gateway hold the key of epoch e? -/
def State.holdsKey (s : State) (e : Nat) : Bool := s.ring.keys.any fun k => k.1 == e

/-- The key of epoch e in the key registers; what a gateway without it computes with the spec does not say: a free
value (DESIGN CHOICE, log 28). -/
def State.heldKey (s : State) (e : Nat) : List Byte :=
  match s.ring.keys.find? fun k => k.1 == e with
  | some k => k.2
  | none => beBytes 16 (Config.noKey (BitVec.ofNat 16 e)).toNat

/-- The gateway asks the keeper for the keys of epochs e and e + 1 when it lacks the key of e (R607). -/
def State.askKeys (s : State) (e : Nat) : State := if s.holdsKey e then s else s.fetchKeys e

/-- KEY_EPOCH in use. -/
def State.epoch (s : State) : Nat := s.rd R.RING_AUTH_STATUS.EPOCH

/-! ### The ring of this unit -/

/-- The other port. -/
def other : RingPort → RingPort
  | .e => .w
  | .w => .e

/-- A field of RING_LNK_STATUS or RING_LDELAY of port p. -/
def pick (p : RingPort) (e w : Fld) : Fld := match p with | .e => e | .w => w

/-- State field of port p. -/
def fldState (p : RingPort) : Fld := pick p R.RING_LNK_STATUS.STATE_E R.RING_LNK_STATUS.STATE_W
/-- FB field of port p. -/
def fldFb (p : RingPort) : Fld := pick p R.RING_LNK_STATUS.FB_E R.RING_LNK_STATUS.FB_W
/-- KNOWN field of port p. -/
def fldKnown (p : RingPort) : Fld := pick p R.RING_LDELAY_E.KNOWN R.RING_LDELAY_W.KNOWN
/-- DELAY field of port p. -/
def fldDelay (p : RingPort) : Fld := pick p R.RING_LDELAY_E.DELAY R.RING_LDELAY_W.DELAY
/-- PROBES field of port p. -/
def fldProbes (p : RingPort) : Fld := pick p R.RING_LDELAY_E.PROBES R.RING_LDELAY_W.PROBES
/-- OUTLIERS field of port p. -/
def fldOutliers (p : RingPort) : Fld := pick p R.RING_LDELAY_E.OUTLIERS R.RING_LDELAY_W.OUTLIERS

/-- Link state of port p (03, Link States). -/
def State.link (s : State) (p : RingPort) : Nat := s.rd (fldState p)
/-- Put it. -/
def State.setLink (s : State) (p : RingPort) (v : Nat) : State := s.wr (fldState p) v
/-- Is port p UP? -/
def State.up (s : State) (p : RingPort) : Bool := s.link p == 5
/-- What a port holds besides its registers. -/
def State.port (s : State) : RingPort → PortState
  | .e => s.ring.portE
  | .w => s.ring.portW
/-- Put it. -/
def State.setPort (s : State) (p : RingPort) (v : PortState) : State :=
  match p with
  | .e => { s with ring := { s.ring with portE := v } }
  | .w => { s with ring := { s.ring with portW := v } }

/-- Are both link-delay estimates known (01 R26)? -/
def State.bothKnown (s : State) : Bool := s.on (fldKnown .e) && s.on (fldKnown .w)

/-- Does the ring run at the fallback rate: a port that is UP, or any port, trained at it (03 R82)? -/
def State.fallbackRate (s : State) : Bool :=
  if s.up .e then s.on (fldFb .e) else if s.up .w then s.on (fldFb .w) else s.on (fldFb .e) || s.on (fldFb .w)

/-- A ring cycle runs on this unit. -/
def State.cycling (s : State) : Bool := s.rd R.RING_CYC_STATUS.SEG != 4

/-- Forwarding delay h in 1/16 ns (03 R83). -/
def State.hopDelay (s : State) : Nat := if s.fallbackRate then 1920 else 1408

/-- Link delay that a copy arriving on port p is charged (03 R91, 04 R133). -/
def State.linkDelay (s : State) (p : RingPort) : Nat :=
  if s.on (fldKnown p) then s.rd (fldDelay p) else (s.port p).lastKnown

/-- A copy as it stands at this unit's balls: the link delay added to ACC_DELAY (R133). -/
def State.arrived (s : State) (p : RingPort) (l : List Byte) : List Byte :=
  putAt l 12 (beBytes 4 (fAcc l + s.linkDelay p))

/-- HOP_LEFT less one and h added (03 R93, 04 R133); covered bytes do not change. -/
def State.hopped (s : State) (l : List Byte) : List Byte :=
  putAt (putAt l 1 (beBytes 2 (fHop l - 1))) 12 (beBytes 4 (fAcc l + s.hopDelay))

/-- A ring port sends: not from the commit point of a power-down on (12 R438). -/
def State.transmit (s : State) (e : Emission) : State :=
  if s.rd R.WK_STATUS.STATE < 2 then s.emit e else s

/-- Wire time per byte in 1/80 ns (04, B). -/
def State.byteTime (s : State) : Nat := if s.fallbackRate then 128 else 64

/-- A copy of `n` bytes that arrived on port p leaves through port `out`, its last byte one forwarding delay and its
wire time from now (R83, R94). -/
def State.forwarding (s : State) (p out : RingPort) (n : Nat) : State :=
  let v := s.port p
  let t := 5 * s.hopDelay + n * s.byteTime
  s.setPort p { v with fwd := (v.fwd.filter fun x => decide (s.tick < x.2.1)) ++ [(out, s.tick + (t + 199) / 200, n)] }

/-- Forward a copy that arrived on port p (03 R93, R94). -/
def State.forward (s : State) (p : RingPort) (l : List Byte) : State :=
  if fHop l ≤ 1 ∨ s.up (other p) = false then s
  else (s.transmit (.frame (other p) (s.hopped l))).forwarding p (other p) l.length

/-- Bytes of a copy that have left, `left` ticks before its last byte does. -/
def State.bytesOut (s : State) (n left : Nat) : Nat := n - left * 200 / s.byteTime

/-- The copies that arrived on port p and leave through port `out` are cut where they stand (R94). -/
def State.cutCopies (s : State) (p out : RingPort) : State :=
  let v := s.port p
  let gone := v.fwd.filter fun x => x.1 == out && decide (s.tick < x.2.1)
  gone.foldl (fun (t : State) x => t.emit (.cut out (s.bytesOut x.2.2 (x.2.1 - s.tick))))
    (s.setPort p { v with fwd := v.fwd.filter fun x => x.1 != out })

/-- Port p goes DOWN: the copies that it receives and those that it transmits are cut (R94). -/
def State.cutPort (s : State) (p : RingPort) : State :=
  ((s.cutCopies p (other p)).cutCopies p p).cutCopies (other p) p

/-- The last byte of a frame of `n` bytes has arrived: what is on its way out has run on for its wire time. -/
def State.elapse (s : State) (n : Nat) : State :=
  let run (v : PortState) : PortState :=
    { v with fwd := v.fwd.map fun x => (x.1, x.2.1 - n * s.byteTime / 200, x.2.2) }
  (s.setPort .e (run s.ring.portE)).setPort .w (run s.ring.portW)

/-- Forward a COLDSTART or ENUM frame, or turn it back once where the other port is not UP (03 R94, R103). -/
def State.passOn (s : State) (p : RingPort) (l : List Byte) : State :=
  if fHop l ≤ 1 then s
  else if s.up (other p) then (s.transmit (.frame (other p) (s.hopped l))).forwarding p (other p) l.length
  else if fReflected l then s
  else
    let body := putAt (bodyOf l) 0 [BitVec.ofNat 8 (be l 0 1 + 4)]
    (s.transmit (.frame p (s.hopped (reseal l body)))).forwarding p p l.length

/-- Send a frame that this unit originates out of both ports at once (03 R92, R94): `f` gives the copy of
a DIR. -/
def State.sendBoth (s : State) (f : Nat → List Byte) : State :=
  let s1 := if s.up .e then s.transmit (.frame .e (f 0)) else s
  if s.up .w then s1.transmit (.frame .w (f 1)) else s1

/-! ### Status points of the ring (02 R52) -/

/-- ROLES. -/
def State.roles (s : State) : Nat :=
  let a := s.ring.active
  let me := s.ring.addr
  let rank := match (a.backups.zip [1, 2, 3]).find? fun e => e.1 == me && e.1 != 0 with
    | some e => e.2 | none => 0
  ofBool s.imgEn + 2 * ofBool s.ring.cycleMaster + 4 * ofBool s.ring.timeMaster +
  8 * ofBool (a.through.any fun e => e.member == me) + 16 * rank + 64 * ofBool s.imgEn +
  128 * ofBool (a.standbyRoot == me && me != 0) + 256 * ofBool (s.on R.RING_CYC_STATUS.SILENCED) +
  512 * ofBool s.bothKnown

/-- MODE. -/
def State.modePoint (s : State) : Nat :=
  s.rd R.RING_CYC_STATUS.ACTIVE_SET + 8 * (s.ring.mcNext % 8) + 64 * (if s.ring.mcRunning then s.ring.mcCount % 4 else 0)

/-- LINKS. -/
def State.linksPoint (s : State) : Nat :=
  ofBool (s.up .e) + 2 * ofBool (s.up .w) + 4 * ofBool s.fallbackRate + 8 * ofBool (s.on R.RING_FAULT.ACTIVE)

/-- A status point takes a new value; an unchanged one keeps its quality. -/
def State.statusNew (s : State) (i v : Nat) : State :=
  if ptVal (s.stored i) = v % 4096 ∧ ptQual (s.stored i) = 0 then s else s.statusSet i v

/-- The status points follow what the ring has changed. -/
def State.syncRing (s : State) : State :=
  let s1 := s.statusNew 0x000 (s.ring.addr + 2048 * ofBool (s.ring.fromSticky && s.ring.addr != 0))
  let s2 := s1.statusNew 0x001 s1.roles
  let s3 := s2.statusNew 0x002 s2.modePoint
  s3.statusNew 0x003 s3.linksPoint

end Sys2Proof.Machine
end

