-- ==== Sys2Proof/Machine/HostPort.lean ====
section
/-! DEFINITION. The host ports as the bus and the ring bridge see them (16 R531, R532): where a failed
access is recorded (20 R634), the ports' error counters, and host reads that wait for their pieces. -/

namespace Sys2Proof.Machine

/-- Page that records a failed access of `who`: the host port's page, the mover's page, or `dflt` (20 R634). -/
def errPage (who : Initiator) (dflt : Nat) : Nat :=
  match who with
  | .pcie => 5
  | .spi => 6
  | .localBus => 6
  | .mover m => 12 + m
  | _ => dflt

/-- A piece of a host access got an error response: the port's counter and flags (16 R532, R543, R549, R554). -/
def State.hostError (s : State) (who : Initiator) (write : Bool) : State :=
  match who with
  | .pcie => if write then s.bump R.PCIE_ERRCNT.WRERR else s
  | .spi =>
    let s1 := (s.bump R.LB_ERRCNT.SPI).raise R.localBus_INT.HERR
    if write then { s1 with host := { s1.host with werr := true } } else s1
  | .localBus =>
    let s1 := (s.bump R.LB_ERRCNT.LB).raise R.localBus_INT.HERR
    { s1 with host := { s1.host with gwErr := true } }
  | _ => s

/-- Record a failed access and count it for a host port. -/
def State.accessError (s : State) (who : Initiator) (dflt : Nat) (write : Bool) (size cause addr : Nat) : State :=
  (s.capture (errPage who dflt) who write size cause addr).hostError who write

/-- Bytes of a part that has ended. -/
def HostPart.bytes : HostPart → List Byte
  | .have l => l
  | .wait _ _ => []

/-- Has the part ended? -/
def HostPart.ended : HostPart → Bool
  | .have _ => true
  | .wait _ _ => false

/-- The completions of a read whose enabled bytes stand at these places behind its first byte, which lies `lead` bytes
into 64: each ends at the last 64-byte boundary that Max_Payload_Size `mps` lets it reach (16 R535). -/
def completions (mps lead : Nat) : Nat → Nat → List (Nat × Byte) → List (List Byte)
  | 0, _, xs => [xs.map (·.2)]
  | n + 1, done, xs =>
    let stop := (lead + done + mps) / 64 * 64 - lead
    let rest := xs.filter fun x => decide (stop ≤ x.1)
    if rest.isEmpty then [xs.map (·.2)]
    else ((xs.filter fun x => decide (x.1 < stop)).map (·.2)) :: completions mps lead n stop rest

/-- Bytes of a code of Max_Payload_Size, of which 256 is the largest that is supported (16 R535). -/
def payloadBytes (code : Nat) : Nat := 128 * 2 ^ min code 1

/-- The completions of a read that has its data. -/
def State.readCompletions (s : State) (r : HostRead) : List (List Byte) :=
  let at_ := (List.range r.en.length).filter fun i => r.en.getD i false
  completions (payloadBytes s.host.maxPayload) r.lead r.en.length 0
    (at_.zip (r.parts.flatMap HostPart.bytes))

/-- A host read whose pieces have ended is answered (16 R532, R535, R547, R548, R554). -/
def State.hostAnswer (s : State) (r : HostRead) : State :=
  match r.port with
  | .pcie =>
    if r.fail then (s.bump R.PCIE_ERRCNT.RDERR).emit (.pcie 4 [])
    else (s.readCompletions r).foldl (fun (t : State) l => t.emit (.pcie 0 l)) s
  | .spi =>
    s.emit (.spi ([0xA5] ++ r.parts.flatMap (fun p => p.bytes.reverse) ++ [if r.fail then 1 else 0]))
  | .localBus =>
    let l := r.parts.flatMap HostPart.bytes
    let s1 := { s with host := { s.host with gwLatch := leNat (l.drop 2) } }
    s1.emit (.localBus ((l.take 2).map some) false)
  | _ => s

/-- Answer every host read that has ended. -/
def State.hostFlush (s : State) : State :=
  let (go, stay) := s.host.reads.partition fun r => r.parts.all HostPart.ended
  go.foldl State.hostAnswer { s with host := { s.host with reads := stay } }

/-- Port of a waiting request. -/
def HostReq.port : HostReq → Initiator
  | .pcie _ => .pcie
  | .spiRead _ _ _ => .spi
  | .spiWrite _ _ _ => .spi
  | .gw _ => .localBus

/-- The reads of a port that are under way end without an answer. -/
def State.dropReads (s : State) (who : Initiator) : State :=
  { s with host := { s.host with reads := s.host.reads.filter fun (r : HostRead) => r.port != who
                                 runs := if who = .pcie then [] else s.host.runs } }

/-- Requests of a port for which `p` holds are withdrawn before the bridge has taken them. -/
def State.dropWaits (s : State) (p : HostReq → Bool) : State :=
  { s with host := { s.host with waits := s.host.waits.filter fun r => !p r } }

/-- LINK_UP takes a new value (PCIE_STATUS, INT_STATUS.LINK). -/
def State.linkUp (s : State) (up : Bool) : State :=
  if s.on R.PCIE_STATUS.LINK_UP = up then s else (s.wr R.PCIE_STATUS.LINK_UP (ofBool up)).raise R.pcie_INT.LINK

/-- The link leaves L0, L0s and L1 for Detect: host loss (02 R76). -/
def State.linkLost (s : State) : State :=
  let t := ((s.linkUp false).dropReads .pcie).dropWaits fun r => r.port == .pcie
  let u := { t with host := { t.host with lowPower := false } }
  if s.on R.PCIE_STATUS.LINK_UP then u.declareHostLoss else u

/-- The piece that waits for bridge tag `t` has ended with data, or with an error response. -/
def HostRead.fill (r : HostRead) (t : Nat) (data : Option Nat) : HostRead :=
  let mine (p : HostPart) : Bool := match p with | .wait t' _ => t' == t | .have _ => false
  let put (p : HostPart) : HostPart := match p with
    | .wait t' n => if t' = t then .have (leBytes n (data.getD 0)) else p
    | .have _ => p
  if r.parts.any mine then { r with parts := r.parts.map put, fail := r.fail || data.isNone } else r

/-- A bridge completion reaches the host reads. -/
def State.hostFill (s : State) (t : Nat) (data : Option Nat) : State :=
  let rs := s.host.reads.map fun (r : HostRead) => r.fill t data
  ({ s with host := { s.host with reads := rs } } : State).hostFlush

end Sys2Proof.Machine
end

