-- ==== Sys2Proof/Machine/RingLink.lean ====
section
/-! DEFINITION. Ring links (03): training, probes and estimates, faults as the cycle master announces
them, cold start, enumeration and hot join. -/

namespace Sys2Proof.Machine

/-! ### The unit in its ring -/

/-- HOPS of unit u by the active set: its DYN_ORDER or SLOTS entry. The spec gives no HOPS to a through member that
neither section lists: the model takes 0 (DESIGN CHOICE, log 37). -/
def TableSet.hopsOf (t : TableSet) (u : Nat) : Nat :=
  match t.dynOrder.find? fun e => e.unit == u with
  | some e => e.hops
  | none => match t.slots.find? fun e => e.owner == u with
    | some e => e.hops
    | none => 0

/-- Own HOPS. -/
def State.hops (s : State) : Nat := s.rd R.RING_ENUM_STATUS.HOPS

/-- Units that the active set places on the ring, with their HOPS: its DYN_ORDER and SLOTS entries, and the
master. -/
def TableSet.unitsPlaced (t : TableSet) : List (Nat × Nat) :=
  ((t.dynOrder.map fun (x : DynEntry) => (x.unit, x.hops)) ++ (t.slots.map fun (x : SlotEntry) => (x.owner, x.hops)) ++ [(t.master, 0)]).eraseDups

/-- The units that the active set places strictly between HOPS a and HOPS b, eastward; between a and itself lie all
others. -/
def TableSet.between (t : TableSet) (a b : Nat) : List Nat :=
  let n := max 1 t.units
  let d (x : Nat) : Nat := (x + n - a % n) % n
  let far := if d b = 0 then n else d b
  ((t.unitsPlaced.filter fun x => decide (0 < d x.2) && decide (d x.2 < far)).map (·.1)).eraseDups

/-- Do two units face each other, the first one by its RING_E: none but vacant ones lie between them? -/
def State.faces (s : State) (u v : Nat) : Bool :=
  (s.ring.active.between (s.ring.active.hopsOf u) (s.ring.active.hopsOf v)).all s.ring.vacant.contains

/-! ### The vacant set (03 R110) -/

/-- The vacant set as the unit now knows it; the semaphores of units that join it are freed (16 R561). -/
def State.putVacant (s : State) (l : List Nat) : State :=
  (l.filter fun a => !s.ring.vacant.contains a).foldl (fun (t : State) a => t.semFree (0x2000 + a))
    { s with ring := { s.ring with vacant := l } }

/-- Addresses join the vacant set: their units are no ends of a fault any more, and have no parked link. -/
def State.vacate (s : State) (us : List Nat) : State :=
  let out (l : List Nat) : List Nat := l.filter fun a => !us.contains a
  let r := { s.ring with downE := out s.ring.downE, downW := out s.ring.downW, parked := out s.ring.parked }
  ({ s with ring := r } : State).putVacant (s.ring.vacant ++ us.filter fun a => !s.ring.vacant.contains a)

/-- Units between the two ends of a fault, eastward, are lost (03 R110): also the cycle master, and the end unit of a
chain, whose recorded fault gives the other end. A fault of which one end alone is known tells of no lost unit. -/
def State.lostUnits (s : State) (e w : Nat) : List Nat :=
  if e = 0 ∨ w = 0 then [] else s.ring.active.between (s.ring.active.hopsOf e) (s.ring.active.hopsOf w)

/-! ### Reports and announcements (03 R112, R117, 04 R138, R156) -/

/-- Queue a message for the next dynamic frame. -/
def State.queueMsg (s : State) (m : DynMsg) : State := { s with ring := { s.ring with msgs := s.ring.msgs ++ [m] } }

/-- Queue an announcement. -/
def State.announce (s : State) (a : Announce) : State :=
  { s with ring := { s.ring with toAnnounce := s.ring.toAnnounce ++ [a] } }

/-- A unit learns that RING_E (`east`) or RING_W of unit u is down (R117): the report completes a fault that lacks that
end, and any other report is a further fault for the cycle master to announce. -/
def State.faultReport (s : State) (u : Nat) (east : Bool) : State :=
  let lacks (a : Announce) : Bool := a.op == 3 && (if east then a.a == 0 else a.b == 0)
  let s1 := { s with ring := { s.ring with mcFault := s.ring.mcFault || s.ring.mcRunning } }
  let e := s.rd R.RING_FAULT.EAST_OF
  let w := s.rd R.RING_FAULT.WEST_OF
  if s.ring.toAnnounce.any lacks then
    let f (a : Announce) : Announce :=
      if lacks a then (if east then { a with a := u, left := 4 } else { a with b := u, left := 4 }) else a
    { s1 with ring := { s1.ring with toAnnounce := s1.ring.toAnnounce.map f } }
  else if s.on R.RING_FAULT.ACTIVE && (if east then e == 0 else w == 0) then
    s1.announce ⟨3, if east then u else e, if east then w else u, 0, 4⟩
  else s1.announce ⟨3, if east then u else 0, if east then 0 else u, 0, 4⟩

/-- Add a unit to a list that names it once. -/
def withUnit (l : List Nat) (u : Nat) : List Nat := if l.contains u then l else l ++ [u]

/-- Are two faults known (R119): two units whose RING_E is down, or two whose RING_W is, or two ends with more than one
unit between them? One unit that is lost is one fault (DEDUCED, log 32). -/
def State.splitRing (s : State) : Bool :=
  let r := s.ring
  decide (2 ≤ r.downE.length) || decide (2 ≤ r.downW.length) ||
    (r.haveActive && r.downE.any fun e => r.downW.any fun w =>
      decide (2 ≤ ((s.lostUnits e w).filter fun u => !r.vacant.contains u).length))

/-- A unit that knows of a second fault sets ISLAND, in an island that the master no longer reaches too (R119). -/
def State.secondFault (s : State) : State := if s.splitRing then s.wr R.RING_FAULT.ISLAND 1 else s

/-- A REPORT of code `code` from unit u reaches this unit (R112, R115, R117). Every unit keeps what the cycle master has
to announce until it hears the announcement, so that a backup that takes over knows it (DEDUCED, log 32). The spec gives
no code to the report of a requested detach: it is a free value (DESIGN CHOICE, log 32). -/
def State.hearReport (s : State) (u code : Nat) : State :=
  let r := s.ring
  match code with
  | 1 => { s with ring := { r with parked := withUnit r.parked u } }
  | 2 => (({ s with ring := { r with downE := withUnit r.downE u } } : State).faultReport u true).secondFault
  | 3 => (({ s with ring := { r with downW := withUnit r.downW u } } : State).faultReport u false).secondFault
  | 4 => { s with ring := { r with parked := r.parked.filter (· != u) } }
  | _ => if code = Config.detachCode.toNat then s.announce ⟨2, u, 0, 0, 0⟩ else s

/-- Send a REPORT to every unit; this unit acts on its own (R112, R117). -/
def State.report (s : State) (code peer : Nat) : State :=
  if s.ring.addr = 0 then s
  else
    (s.queueMsg { type := 1, dest := 0x7FF, body := beBytes 1 code ++ beBytes 2 peer ++ beBytes 5 0 }).hearReport s.ring.addr code

/-! ### Link states (03 R84 to R86) -/

/-- An island without a master whose every backup has had its turn has no running cycle: its units stop their
static frames (03 R119, R120). -/
def State.orphan (s : State) : Bool :=
  s.on R.RING_FAULT.ISLAND && decide (6 ≤ s.rd R.TB_STATUS.SILENT) && !s.ring.cycleMaster

/-- Does this unit belong to a running ring? -/
def State.running (s : State) : Bool := (s.rd R.RING_ENUM_STATUS.STATE == 5 || s.cycling) && !s.orphan

/-- Port p goes to DOWN: copies that it receives or transmits are cut (R94), and an UP port of a running ring
reports the fault (R117). -/
def State.portDown (s : State) (p : RingPort) : State :=
  let was := s.up p
  let s0 := s.cutPort p
  let s1 := (s0.setLink p 0).setPort p { s0.port p with first := none, probe := none, heard := 0, told := 0, badCrc := 0 }
  let s2 := if was && s.running then s1.report (match p with | .e => 2 | .w => 3) (s.port p).peer else s1
  s2.syncRing

/-- An event of R86 takes port p DOWN (DEDUCED, log 30). -/
def State.portFail (s : State) (p : RingPort) : State :=
  if 3 ≤ s.link p ∧ s.link p ≤ 6 then
    ((s.bump R.RING_LNK_STATUS.DOWN_CNT).statusCount 0x024).portDown p
  else s

/-- LINK_SIGNAL_DETECT: a DOWN port of an enabled unit starts training (R84, R85), at the fallback rate
where RATE = 1 or a RATE ordered set was received (R102), while the SerDes and RING_REFCLK run (17 R571). -/
def State.signalDetect (s : State) (p : RingPort) : State :=
  if s.link p = 0 ∧ s.on R.RING_LNK_CTRL.EN = true ∧ s.dom 3 = 3 ∧ s.power.ringClk = true then
    let fb := s.on R.RING_LNK_CTRL.RATE || s.ring.fbOrder
    ((s.setLink p 1).wr (fldProbes p) 0).setPort p { s.port p with fbAttempt := fb, first := none }
  else s

/-- The HELLO of this unit's port p (R84): its name, the unit serial, the rates that it supports and whether the
unit belongs to a running ring. A port of a running ring supports that ring's rate alone (R82), and one forced to
the fallback rate that rate alone (DEDUCED, log 30). -/
def State.ownHello (s : State) (p : RingPort) : Hello :=
  let fb := s.running && (s.up .e || s.up .w) && s.fallbackRate
  { port := p, serial := s.serial, running := s.running
    full := !fb && !s.on R.RING_LNK_CTRL.RATE && !s.ring.fbOrder
    fallback := fb || !(s.running && (s.up .e || s.up .w)) }

/-- Port p sends HELLO (R84). -/
def State.sendHello (s : State) (p : RingPort) : State := s.transmit (.ordered p (.hello (s.ownHello p)))

/-- LINK_LOCK: TRAIN, LOCKED, HELLO in one command; the port begins to send HELLO (R84). -/
def State.linkLock (s : State) (p : RingPort) : State :=
  if s.link p = 1 ∨ s.link p = 2 then
    (((s.setLink p 3).wr (fldFb p) (ofBool (s.port p).fbAttempt)).sendHello p).syncRing
  else s

/-- RATE_ATTEMPT_TIMEOUT (R85). -/
def State.attemptTimeout (s : State) (p : RingPort) : State :=
  if s.link p = 1 then
    if (s.port p).fbAttempt = false ∧ s.on R.RING_LNK_CTRL.FB_EN = true then
      s.setPort p { s.port p with fbAttempt := true }
    else s.setLink p 0
  else s

/-- Field MISCABLE of port p. -/
def fldMiscable (p : RingPort) : Fld := pick p R.RING_LNK_STATUS.MISCABLE_E R.RING_LNK_STATUS.MISCABLE_W
/-- Field RATE_MISMATCH of port p. -/
def fldMismatch (p : RingPort) : Fld := pick p R.RING_LNK_STATUS.RATE_MISMATCH_E R.RING_LNK_STATUS.RATE_MISMATCH_W
/-- AUX of a port in a trace record. -/
def portAux : RingPort → Nat
  | .e => 0
  | .w => 1

/-- The rate of port p is not that of the ring to which this unit or its peer belongs (R82, R111). -/
def State.rateMismatch (s : State) (p : RingPort) (h : Hello) : Bool :=
  let fb := s.on (fldFb p)
  (s.running && s.up (other p) && fb != s.on (fldFb (other p))) || (h.running && !(if fb then h.fallback else h.full))

/-- A PARKED link whose ends belong to no running ring goes UP (R84, R120). -/
def State.unpark (s : State) (p : RingPort) : State :=
  if s.link p = 6 && !s.running && !(s.port p).peerRunning && !s.on (fldMismatch p) then s.setLink p 5 else s

/-- Is the idle segment of the active set long enough for a join (R111)? In 1/80 ns. Start-up cycles (17
R588) have no table set to fail. -/
def State.idleFits (s : State) : Bool :=
  let a := s.ring.active
  let w := if s.fallbackRate then 69632 else 34816
  !s.ring.haveActive ||
    decide (a.units * a.hMax * 5 + w + 2 * a.guardTicks * 200 ≤ (a.cycleTicks - (a.thTicks + a.stTicks + a.dynTicks)) * 200)

/-- What a unit says of its port p PARKED, as `PortState.told` numbers it (R111, R112, R120). The estimate of the other
end is known once this unit has answered two of its probes (DEDUCED, log 30). -/
def State.parkVerdict (s : State) (p : RingPort) : Nat :=
  let v := s.port p
  if s.link p ≠ 6 || s.on (fldMismatch p) then 0
  else if !s.running then 4
  else if v.peerRunning && s.on R.RING_FAULT.ISLAND then 2
  else if !s.on (fldKnown p) || decide (v.heard < 2) || s.ring.addr == 0 then 0
  else if !s.idleFits then 3
  else 1

/-- A PARKED port is judged again, and what has changed is said: a report for the next dynamic segment, an ALARM, or
HELLO (R111, R112, R120). -/
def State.parkedStep (s : State) (p : RingPort) : State :=
  let v := s.port p
  let n := s.parkVerdict p
  if n = v.told then s
  else
    let t := s.setPort p { v with told := n }
    match n with
    | 1 => t.report 1 v.peer
    | 2 => t.alarm 16 4 (portAux p) 0
    | 3 => (t.alarm 16 3 (portAux p) 0).report 4 v.peer
    | 4 => (t.sendHello p).unpark p
    | _ => t

/-- HELLO (R81, R84, R111): a port of the same name is miscabled, its link never comes up; otherwise the port goes
to PROBE, and a rate that the running ring does not have will keep it PARKED. A PARKED port goes on receiving
HELLO, which says whether the peer still belongs to a running ring, and is judged again (R120). -/
def State.helloDone (s : State) (p : RingPort) (h : Hello) : State :=
  if s.link p = 6 then
    (((s.setPort p { s.port p with peer := h.serial, peerRunning := h.running }).unpark p).parkedStep p).syncRing
  else if s.link p ≠ 3 then s
  else if h.port = p then
    ((s.wr (fldMiscable p) 1).setLink p 0).alarm 16 1 (portAux p) 0
  else
    let s1 := (s.wr (fldMiscable p) 0).setPort p { s.port p with peer := h.serial, peerRunning := h.running }
    (s1.wr (fldMismatch p) (ofBool (s.rateMismatch p h))).setLink p 4

/-- Two probes are complete in PROBE: the port goes UP where neither end belongs to a running ring, and is
PARKED otherwise (R84, R111). -/
def State.probesDone (s : State) (p : RingPort) : State :=
  if s.link p = 4 then
    if !s.running && !(s.port p).peerRunning then s.setLink p 5
    else (s.setLink p 6).parkedStep p
  else s

/-- The frame `l` with a bad CRC on port p (R86). The CRC is known when the frame's last byte has arrived, so a copy
that is being forwarded has all left but the bytes of one forwarding delay. -/
def State.badFrame (s : State) (p : RingPort) (l : List Byte) : State :=
  let v := s.port p
  let n := v.badCrc + 1
  let s1 := s.setPort p { v with badCrc := n }
  let lim := s.rd R.RING_LNK_CTRL.ERR_MAX
  if lim ≠ 0 ∧ lim ≤ n then (s1.elapse l.length).portFail p else s1

/-- The copy `l` whose CRC took its port DOWN is cut as it leaves (R86, R94). -/
def State.cutIfDown (s : State) (p : RingPort) (l : List Byte) : State :=
  if 3 ≤ s.link p || (s.port p).fwd.isEmpty then s else (s.elapse l.length).cutPort p

/-! ### Probes (03 R87 to R91) -/

/-- A time of 1/16 ns in the ORIGIN_TIME layout (04 R137). -/
def originTime (t : Nat) : List Byte :=
  beBytes 8 (t / 16000000000) ++ beBytes 4 (t / 16 % 1000000000) ++ beBytes 2 (t % 16 * 4096)

/-- A time of the ORIGIN_TIME layout at offset o, in 2⁻¹⁶ ns. -/
def originAt (l : List Byte) (o : Nat) : Nat :=
  (be l o 8 * 1000000000 + be l (o + 8) 4) * 65536 + be l (o + 12) 2

/-- PROBE_SEND (R90): the port in PROBE, PARKED or, in the idle segment, UP. A stranded unit probes on: whether
"transmits nothing" (04 R168) stops its probes, its probe answers and its acknowledgements the spec does not say. The
CYCLE and FSEQ of a link-level frame it does not give either: a request carries the unit's own cycle number, its answer
the same, COLDSTART and ENUM 0, and FSEQ is 0 (DESIGN CHOICE, log 57). -/
def State.probeSend (s : State) (p : RingPort) (t1 : Nat) : State :=
  if 4 ≤ s.link p ∧ s.link p ≤ 6 then
    let v := s.port p
    let body := fHeader 4 false (portAux p) 1 0 32 0 (s.rd R.RING_CYC_NUM.CYCLE) ++ beBytes 2 v.probeId ++ beBytes 10 0
    let s1 := (s.transmit (.frame p (sealWith true body))).setPort p
      { v with probe := some (v.probeId, t1), probeId := (v.probeId + 1) % 65536 }
    if s.up p && s.cycling then s1.wr R.RING_CYC_STATUS.SEG 3 else s1
  else s

/-- PROBE_REQ (R87): answered with t2 and t3; a bad one is counted (R86, R136). The answer's CYCLE is the request's and
its FSEQ 0, which the spec does not give (DESIGN CHOICE, log 57). -/
def State.probeAnswer (s : State) (p : RingPort) (l : List Byte) (t2 t3 : Nat) : State :=
  if s.link p < 4 then s
  else if !frameGood l || fKind l != 4 then s.badFrame p l
  else
    let body := fHeader 5 false (portAux p) 1 0 52 0 (fCycle l) ++ beBytes 2 (be l 16 2) ++ originTime t2 ++
      originTime t3 ++ beBytes 2 0
    ((s.setPort p { s.port p with heard := min 2 ((s.port p).heard + 1) }).transmit (.frame p (sealWith true body))).parkedStep p

/-- The estimate of port p becomes known at `e`, in 1/128 ns (R88, R89). -/
def State.setEstimate (s : State) (p : RingPort) (e : Nat) : State :=
  let d := (e + 4) / 8
  ((s.wr (fldKnown p) 1).wr (fldDelay p) d).setPort p
    { s.port p with est := e, lastKnown := d, everKnown := true, first := none, unknownCycles := 0 }

/-- A unit whose estimates are both known, that belongs to no running ring and takes no part in a cold start,
begins to listen, and begins anew when an estimate becomes known while it listens (R97); `was`: both were known
before. -/
def State.beginListen (s : State) (was : Bool) : State :=
  let st := s.rd R.RING_ENUM_STATUS.STATE
  if s.bothKnown && (st == 0 || (st == 1 && !was)) && !s.running then
    { s.wr R.RING_ENUM_STATUS.STATE 1 with ring := { s.ring with higherSeen := false } }
  else s

/-- The first two probes of an unknown estimate, or of a port in PROBE (R89); `m` in 1/16 ns. -/
def State.firstProbes (s : State) (p : RingPort) (m : Nat) : State :=
  match (s.port p).first with
  | none => (s.wr (fldProbes p) 1).setPort p { s.port p with first := some m }
  | some m1 =>
    let s1 := ((s.wr (fldProbes p) 2).wr (fldOutliers p) 0).setEstimate p (4 * (m1 + m))
    (((s1.probesDone p).parkedStep p).beginListen s.bothKnown).syncRing

/-- A later probe moves the estimate, or is an outlier (R89). -/
def State.laterProbe (s : State) (p : RingPort) (m : Nat) : State :=
  let d := (8 * m : Int) - (s.port p).est
  if 256 < d.natAbs then
    let n := s.rd (fldOutliers p) + 1
    let s1 := s.wr (fldOutliers p) n
    if 4 ≤ n then (((s1.wr (fldKnown p) 0).wr (fldProbes p) 0).setPort p { s.port p with first := none }).syncRing
    else s1
  else
    let e := ((s.port p).est + roundDiv d 8).toNat
    ((s.setEstimate p e).wr (fldOutliers p) 0).wr (fldProbes p) (min 3 (s.rd (fldProbes p) + 1))

/-- PROBE_RSP (R87 to R89); a bad one is counted (R86, R136). The spec does not say what a measured delay below 0
becomes: the model takes 0 (DESIGN CHOICE, log 30). -/
def State.probeBack (s : State) (p : RingPort) (l : List Byte) (t4 : Nat) : State :=
  if s.link p < 4 then s
  else if !frameGood l || fKind l != 5 then s.badFrame p l
  else match (s.port p).probe with
  | none => s
  | some (id, t1) =>
    if be l 16 2 = id then
      let x : Int := (((t4 : Int) - t1) * 4096) - ((originAt l 32 : Int) - originAt l 18)
      let m := (roundDiv x 8192).toNat
      let s1 := s.setPort p { s.port p with probe := none }
      if s1.on (fldKnown p) = false ∨ s1.link p = 4 then s1.firstProbes p m else s1.laterProbe p m
    else s

/-- ESTIMATE_UNKNOWN_LIMIT (R91). -/
def State.unknownLimit (s : State) (p : RingPort) : State :=
  if s.on (fldKnown p) = false ∧ 16 ≤ (s.port p).unknownCycles then
    (s.setPort p { s.port p with unknownCycles := 0 }).portFail p
  else s

/-- A planned detach is requested (R115): the master announces its own, and another unit reports it. -/
def State.requestDetach (s : State) : State :=
  if s.on R.RING_LNK_CTRL.DETACH then s
  else (s.wr R.RING_LNK_CTRL.DETACH 1).report Config.detachCode.toNat 0

/-- A write of RING_LNK_CTRL. -/
def State.lnkCtrl (s : State) (v : Word) : State :=
  let s1 := (((s.wr R.RING_LNK_CTRL.ERR_MAX (getBits v 23 16)).wr R.RING_LNK_CTRL.FB_EN (getBits v 4 4)).wr
    R.RING_LNK_CTRL.RATE (getBits v 3 3)).wr R.RING_LNK_CTRL.EN (getBits v 0 0)
  let off := getBits v 0 0 == 0
  let s2 := if getBits v 1 1 = 1 ∨ (off = true ∧ s1.link .e ≠ 0) then s1.portDown .e else s1
  let s3 := if getBits v 2 2 = 1 ∨ (off = true ∧ s2.link .w ≠ 0) then s2.portDown .w else s2
  if getBits v 5 5 = 1 then s3.requestDetach else s3

/-! ### Cold start (03 R97 to R104) -/

/-- The COLDSTART key of this unit (R98). -/
def State.coldKey (s : State) : Nat := s.rd R.RING_COLD_CTRL.PRIO * 2 ^ 64 + s.serial

/-- One of this unit's links trained at the fallback rate (R102). -/
def State.ownFallback (s : State) : Bool := s.on (fldFb .e) || s.on (fldFb .w)

/-- The COLDSTART frame of this unit for a DIR (04, Link-level frames); HOP_LEFT is its largest value, since
no unit count is known yet, and CYCLE and FSEQ, which the spec does not give, are 0 (DESIGN CHOICE, logs 31, 57). -/
def State.coldFrame (s : State) (dir : Nat) : List Byte :=
  sealWith true (fHeader 6 false dir 2047 0 32 0 0 ++
    beBytes 1 (128 * ofBool s.ownFallback + s.rd R.RING_COLD_CTRL.PRIO) ++ beBytes 8 s.serial ++ beBytes 3 0)

/-- Send the COLDSTART frame out of both ports (R99, R100). -/
def State.coldSend (s : State) : State :=
  ({ s with ring := { s.ring with ownBack := 0, fallbackSeen := false } }).sendBoth s.coldFrame

/-- LISTEN_END (R97). -/
def State.listenEnd (s : State) : State :=
  if s.rd R.RING_ENUM_STATUS.STATE = 1 ∧ s.on R.RING_COLD_CTRL.COLD_EN = true ∧ s.bothKnown = true ∧
      s.ring.higherSeen = false then
    (s.wr R.RING_ENUM_STATUS.STATE 2).coldSend
  else s

/-- The links are ordered to the fallback rate and retrain (R102). -/
def State.orderFallback (s : State) : State :=
  if s.ring.fbOrder then s
  else
    let s1 := { s with ring := { s.ring with fbOrder := true } }
    let s2 := if s1.up .e then s1.transmit (.ordered .e .rate) else s1
    let s3 := if s2.up .w then s2.transmit (.ordered .w .rate) else s2
    (s3.portDown .e).portDown .w

/-- The starter becomes cycle master (R100, R102; 01 R25). -/
def State.becomeMaster (s : State) : State :=
  let r := { s.ring with cycleMaster := true, pass := 0, passBack := false, confirmed := [], vacant := []
                         returned := false }
  let s1 := { s.wr R.RING_ENUM_STATUS.STATE 4 with ring := r }.becomeTimeMaster
  (if s1.ring.fallbackSeen then s1.orderFallback else s1).syncRing

/-- A copy of this unit's own COLDSTART frame has returned (R100, R102). A starter with an estimate that is unknown takes
no role (01 R26), and sends its frame again. -/
def State.coldBack (s : State) (l : List Byte) : State :=
  if s.rd R.RING_ENUM_STATUS.STATE = 2 then
    let b := s.ring.ownBack ||| 2 ^ fDir l
    let r := { s.ring with ownBack := b, fallbackSeen := s.ring.fallbackSeen || bit (be l 16 1) 7 || s.ownFallback }
    if b = 3 ∧ s.bothKnown = true then ({ s with ring := r } : State).becomeMaster else { s with ring := r }
  else s

/-- The copy with the FALLBACK flag set where a link of this unit trained at the fallback rate (R102). -/
def State.coldFlag (s : State) (l : List Byte) : List Byte :=
  if s.ownFallback && !bit (be l 16 1) 7 then reseal l (putAt (bodyOf l) 16 [BitVec.ofNat 8 (be l 16 1 + 128)]) else l

/-- COLDSTART (R97, R99, R100, R104). -/
def State.coldArrive (s : State) (p : RingPort) (l : List Byte) : State :=
  if !frameGood l || fKind l != 6 then s.badFrame p l
  else if s.running then s
  else
    let key := be l 16 1 % 16 * 2 ^ 64 + be l 17 8
    let st := s.rd R.RING_ENUM_STATUS.STATE
    let m := s.coldFlag (s.arrived p l)
    if key = s.coldKey then s.coldBack l
    else
      let higher := decide (s.coldKey < key)
      let s1 := if higher then { s with ring := { s.ring with higherSeen := true } } else s
      if st ≠ 2 then s1.passOn p m
      else if higher then (s1.wr R.RING_ENUM_STATUS.STATE 3).passOn p m
      else s1

/-- RESTART: leave the running ring and begin LISTEN. A PARKED link says so in its HELLO, and goes UP once its peer
belongs to no running ring either (R120). -/
def State.coldRestart (s : State) : State :=
  let s1 := { s.endTimeMaster with ring := { s.endTimeMaster.ring with
                cycleMaster := false, yieldRoles := false, higherSeen := false, ownBack := 0, fallbackSeen := false
                fbOrder := false, pass := 0, joinDue := false, talking := false, mcRunning := false
                mcStart := false, mcActivate := none, toAnnounce := [], parked := [], downE := [], downW := []
                returned := false } }
  let s2 := ((s1.wr R.RING_ENUM_STATUS.STATE 1).wr R.RING_CYC_STATUS.SEG 4).wr R.RING_CYC_STATUS.STRANDED 0
  let s3 := ((s2.wr R.RING_FAULT.ACTIVE 0).wr R.RING_FAULT.ISLAND 0).wr R.RING_FAULT.EAST_OF 0
  let say (t : State) (p : RingPort) : State := if t.link p = 6 then (t.sendHello p).unpark p else t
  (say (say (s3.wr R.RING_FAULT.WEST_OF 0) .e) .w).syncRing

/-- A write of RING_COLD_CTRL. -/
def State.coldCtrl (s : State) (v : Word) : State :=
  let s1 := (((s.wr R.RING_COLD_CTRL.PRIO (getBits v 27 24)).wr R.RING_COLD_CTRL.TIMEOUT (getBits v 23 16)).wr
    R.RING_COLD_CTRL.LISTEN (getBits v 15 8)).wr R.RING_COLD_CTRL.COLD_EN (getBits v 0 0)
  if getBits v 31 31 = 1 then s1.coldRestart else s1

/-! ### Enumeration and join (03 R105 to R113, 04 R157) -/

/-- The 256 bytes of a bitmap of addresses (04 R157). -/
def bitmapBytes (l : List Nat) : List Byte :=
  (List.range 256).map fun k =>
    BitVec.ofNat 8 (((List.range 8).map fun i => if l.contains (8 * k + i) then 2 ^ i else 0).sum)

/-- The addresses of a bitmap at offset o of a frame. -/
def bitmapAt (l : List Byte) (o : Nat) : List Nat :=
  (List.range 2047).filter fun a => bit (be l (o + a / 8) 1) (a % 8)

/-- What an ENUM frame carries as it passes a unit. -/
structure EnumData where
  pass : Nat
  hop : Nat
  units : Nat
  base : Nat
  claim : List Nat
  vacant : List Nat

/-- Read an ENUM frame. -/
def enumOf (l : List Byte) : EnumData :=
  { pass := be l 16 1, hop := be l 18 2 % 2048, units := be l 20 2 % 2048, base := be l 22 2
    claim := bitmapAt l 28, vacant := bitmapAt l 284 }

/-- The bytes of an ENUM frame before its CRC, from a header of 16 bytes. -/
def EnumData.body (d : EnumData) (h : List Byte) : List Byte :=
  h ++ beBytes 1 d.pass ++ beBytes 1 0 ++ beBytes 2 d.hop ++ beBytes 2 d.units ++ beBytes 2 d.base ++
    beBytes 4 0 ++ bitmapBytes d.claim ++ bitmapBytes d.vacant

/-- The lowest address at or above BASE whose bit is clear, or 0 (R106). -/
def lowestFree (base : Nat) (claim : List Nat) : Nat :=
  let b := if 1 ≤ base ∧ base ≤ 2046 then base else 1
  (((List.range (2047 - b)).map (b + ·)).find? fun a => !claim.contains a).getD 0

/-- The unit takes address `a` (0: none), from the sticky store or not. -/
def State.takeAddr (s : State) (a : Nat) (sticky : Bool) : State :=
  { s with ring := { s.ring with addr := a, fromSticky := sticky } }

/-- A unit that lost its sticky address raises the ALARM of R107 once its new address is settled. -/
def State.lostSticky (s : State) : State :=
  match s.ring.contested with
  | none => s
  | some a => ({ s with ring := { s.ring with contested := none } } : State).alarm 16 2 a s.serial

/-- Pass 1, CLAIM (R106). -/
def State.enumClaim (s : State) (d : EnumData) : State × EnumData :=
  let a := s.rd R.RING_STICKY.ADDR
  let s0 := (s.takeAddr 0 false).wr R.RING_ENUM_STATUS.CONFLICT 0
  if 1 ≤ a ∧ a ≤ 2046 then
    if d.claim.contains a then
      ({ s0.wr R.RING_ENUM_STATUS.CONFLICT 1 with ring := { s0.ring with contested := some a } }, d)
    else (s0.takeAddr a true, { d with claim := d.claim ++ [a] })
  else (s0, d)

/-- Pass 2, ASSIGN (R106, R107). -/
def State.enumAssign (s : State) (d : EnumData) : State × EnumData :=
  if s.ring.addr = 0 then
    let a := lowestFree d.base d.claim
    ((s.takeAddr a false).lostSticky, if a = 0 then d else { d with claim := d.claim ++ [a] })
  else (s.lostSticky, d)

/-- A unit records HOPS and UNITS, and its address as AUTO_STICKY says (R106, R108, R113). -/
def State.enumRecord (s : State) (d : EnumData) : State × EnumData :=
  let s1 := ((s.wr R.RING_ENUM_STATUS.HOPS d.hop).wr R.RING_ENUM_STATUS.UNITS d.units).wr R.RING_ENUM_STATUS.STATE
    (if s.ring.cycleMaster && d.pass == 3 then 4 else 5)
  let s2 := if s.on R.RING_ENUM_CTRL.AUTO_STICKY && s.ring.addr != 0 then s1.wr R.RING_STICKY.ADDR s.ring.addr else s1
  (({ s2 with ring := { s2.ring with confirmed := d.claim } } : State).putVacant d.vacant, { d with hop := (d.hop + 1) % 2048 })

/-- Pass 4, JOIN (R113): a unit without an address takes one. The address of a unit that comes back with it, from an
island or a lost link, leaves the vacant set too (DEDUCED, log 31). -/
def State.enumJoin (s : State) (d : EnumData) : State × EnumData :=
  if s.ring.addr = 0 then
    let st := s.rd R.RING_STICKY.ADDR
    let fits := decide (1 ≤ st) && decide (st ≤ 2046) && (!d.claim.contains st || d.vacant.contains st)
    let a := if fits then st else match ((List.range 2047).find? fun x => d.vacant.contains x) with
      | some v => v
      | none => lowestFree d.base d.claim
    let d1 := { d with claim := if a = 0 ∨ d.claim.contains a then d.claim else d.claim ++ [a]
                       vacant := d.vacant.filter (· != a) }
    (s.takeAddr a fits).enumRecord d1
  else s.enumRecord { d with vacant := d.vacant.filter (· != s.ring.addr) }

/-- What a unit does to an ENUM frame that passes it for the first time (R105, R106, R113) (DEDUCED, log 31). -/
def State.enumVisit (s : State) (d : EnumData) : State × EnumData :=
  let r := match d.pass with
    | 1 => s.enumClaim d
    | 2 => s.enumAssign d
    | 3 => s.enumRecord d
    | 4 => s.enumJoin d
    | _ => (s, d)
  (r.1.syncRing, r.2)

/-- The master processes pass `n` first and sends it out of RING_E (R105, R106, R113); where RING_E is not UP the
master is the end of a chain itself, and the frame runs westward at once (DEDUCED, log 31). CYCLE and FSEQ of an ENUM
frame, of a join ENUM frame too, the spec does not give: they are 0 (DESIGN CHOICE, log 57). -/
def State.enumSend (s : State) (n : Nat) (claim vacant : List Nat) : State :=
  let d : EnumData := { pass := n, hop := 0, units := claim.length, base := s.rd R.RING_ENUM_CTRL.BASE,
                        claim := claim, vacant := vacant }
  let (s1, d1) := s.enumVisit d
  let s2 := ({ s1 with ring := { s1.ring with pass := n, passBack := false, confirmed := d1.claim } } : State).putVacant d1.vacant
  let frame (dir : Nat) : List Byte := sealWith true (d1.body (fHeader 7 false dir 2047 0 544 0 0))
  if s2.up .e then s2.transmit (.frame .e (frame 0)) else if s2.up .w then s2.transmit (.frame .w (frame 1)) else s2

/-- ENUM_PASS_START: the next pass of an enumeration, once every link of the master is UP (R102, R106). -/
def State.enumNext (s : State) : State :=
  if s.ring.cycleMaster && s.rd R.RING_ENUM_STATUS.STATE == 4 && s.up .e && s.up .w then
    if s.ring.pass = 0 then s.enumSend 1 [] []
    else if s.ring.passBack = true ∧ s.ring.pass < 3 then s.enumSend (s.ring.pass + 1) s.ring.confirmed s.ring.vacant
    else s
  else s

/-- A pass has returned to the master: its third one ends the enumeration. -/
def State.enumBack (s : State) (d : EnumData) : State :=
  let s1 := ({ s with ring := { s.ring with confirmed := d.claim } } : State).putVacant d.vacant
  if d.pass = 3 then
    ({ s1.wr R.RING_ENUM_STATUS.STATE 5 with ring := { s1.ring with pass := 0 } } : State).syncRing
  else if d.pass = 4 then { s1 with ring := { s1.ring with pass := 0 } }
  else { s1 with ring := { s1.ring with passBack := true } }

/-- Does an ENUM frame arrive whole, with a good CRC (R86, R136)? -/
def enumGood (l : List Byte) : Bool := frameGood l && l.length == 544 && fLen l == 544 && fKind l == 7

/-- A pass has come back to the master: whole, and the one under way (R105). -/
def State.enumReturned (s : State) (l : List Byte) : State :=
  if enumGood l && (enumOf l).pass == s.ring.pass then s.enumBack (enumOf l) else s

/-- ENUM: an ENUM frame passes the unit (R103, R105). A frame that was turned back has passed the unit before, or
returns to the master: on a chain the master sends it on westward with REFLECTED cleared, and the pass is complete
there where its RING_W is not UP. A frame with a bad CRC is counted (R86, R136). The spec does not say whether a unit
acts on an ENUM frame whose CRC is bad: units process it on the fly, before its CRC has come, so every unit but the
master acts on it, and sends it on with a complemented CRC (R135) (DESIGN CHOICE, log 31). -/
def State.enumArrive (s0 : State) (p : RingPort) (l : List Byte) : State :=
  let s := if enumGood l then s0 else s0.badFrame p l
  let m := s.arrived p l
  if s.ring.cycleMaster then
    if p = .e ∧ fReflected l = true ∧ s.up .w = true then
      s.passOn p (reseal m (putAt (bodyOf m) 0 [BitVec.ofNat 8 (be m 0 1 - 4)]))
    else if p = .w ∨ fReflected l = true then s.enumReturned l
    else s
  else if fReflected l then (s.passOn p m).cutIfDown p l
  else
    let (s1, d) := s.enumVisit (enumOf m)
    (s1.passOn p (reseal m (d.body (m.take 16)))).cutIfDown p l

/-- ENUM_PASS_TIMEOUT (R109). -/
def State.enumTimeout (s : State) : State :=
  if s.ring.cycleMaster && s.rd R.RING_ENUM_STATUS.STATE == 4 && s.ring.pass != 0 && !s.ring.passBack then
    (s.event 16 5 s.ring.pass 0).enumSend 1 [] []
  else s

/-- JOIN_ENUM_SEND (R113). -/
def State.joinSend (s : State) : State :=
  if s.ring.cycleMaster && s.ring.joinDue && s.cycling then
    (({ s with ring := { s.ring with joinDue := false } } : State).wr R.RING_CYC_STATUS.SEG 3).enumSend 4
      s.ring.confirmed s.ring.vacant
  else s

/-! ### Arms -/

/-- LINK_SIGNAL_DETECT (R84). -/
def execLinkSignalDetect (p : RingPort) (s : State) : Host.Outcome State Fault Refusal := s.powered (s.signalDetect p)
/-- LINK_LOCK (R84). -/
def execLinkLock (p : RingPort) (s : State) : Host.Outcome State Fault Refusal := s.powered (s.linkLock p)
/-- RATE_ATTEMPT_TIMEOUT (R85). -/
def execRateAttemptTimeout (p : RingPort) (s : State) : Host.Outcome State Fault Refusal := s.powered (s.attemptTimeout p)
/-- HELLO (R84). -/
def execHello (p : RingPort) (h : Hello) (s : State) : Host.Outcome State Fault Refusal := s.powered (s.helloDone p h)
/-- ALIVE_SEND (R86): a port in HELLO, PROBE, UP or PARKED sends ALIVE. -/
def execAliveSend (p : RingPort) (s : State) : Host.Outcome State Fault Refusal :=
  if 3 ≤ s.link p ∧ s.link p ≤ 6 then s.powered (s.transmit (.ordered p .alive)) else .next s
/-- ALIVE_TIMEOUT (R86). -/
def execAliveTimeout (p : RingPort) (s : State) : Host.Outcome State Fault Refusal := s.powered (s.portFail p)
/-- SYNC_HEADER_ERRORS (R86). -/
def execSyncHeaderErrors (p : RingPort) (s : State) : Host.Outcome State Fault Refusal := s.powered (s.portFail p)
/-- PROBE_SEND (R90). -/
def execProbeSend (p : RingPort) (t1 : Nat) (s : State) : Host.Outcome State Fault Refusal := s.powered (s.probeSend p t1)
/-- PROBE_REQ (R87). -/
def execProbeReq (p : RingPort) (l : List Byte) (t2 t3 : Nat) (s : State) : Host.Outcome State Fault Refusal :=
  s.powered (s.probeAnswer p l t2 t3)
/-- PROBE_RSP (R89). -/
def execProbeRsp (p : RingPort) (l : List Byte) (t4 : Nat) (s : State) : Host.Outcome State Fault Refusal :=
  s.powered (s.probeBack p l t4)
/-- ESTIMATE_UNKNOWN_LIMIT (R91). -/
def execEstimateUnknownLimit (p : RingPort) (s : State) : Host.Outcome State Fault Refusal := s.powered (s.unknownLimit p)
/-- LISTEN_END (R97). -/
def execListenEnd (s : State) : Host.Outcome State Fault Refusal := s.powered s.listenEnd
/-- COLDSTART (R99). -/
def execColdstart (p : RingPort) (l : List Byte) (s : State) : Host.Outcome State Fault Refusal := s.powered (s.coldArrive p l)
/-- COLDSTART_TIMEOUT (R100): a starter sends its frame again. -/
def execColdstartTimeout (s : State) : Host.Outcome State Fault Refusal :=
  if s.rd R.RING_ENUM_STATUS.STATE = 2 then s.powered s.coldSend else .next s
/-- RATE_ORDER (R102). -/
def execRateOrder (s : State) : Host.Outcome State Fault Refusal := s.powered s.orderFallback
/-- ENUM_PASS_START (R106). -/
def execEnumPassStart (s : State) : Host.Outcome State Fault Refusal := s.powered s.enumNext
/-- ENUM (R106). -/
def execEnum (p : RingPort) (l : List Byte) (s : State) : Host.Outcome State Fault Refusal := s.powered (s.enumArrive p l)
/-- ENUM_PASS_TIMEOUT (R109). -/
def execEnumPassTimeout (s : State) : Host.Outcome State Fault Refusal := s.powered s.enumTimeout
/-- JOIN_ENUM_SEND (R113). -/
def execJoinEnumSend (s : State) : Host.Outcome State Fault Refusal := s.powered s.joinSend

end Sys2Proof.Machine
end

