-- ==== Sys2Proof/Machine/Bridge.lean ====
section
/-! DEFINITION. The ring bridge as a requester (03 R122 to R128): windows, requests and their buffers,
completions, retries, crossings and timeouts. -/

namespace Sys2Proof.Machine

/-- What an access answers: data, an error response, or nothing yet (the bridge request of this tag). -/
inductive AccRes where
  | data (v : Nat)
  | err
  | wait (tag : Nat)
  deriving DecidableEq, Repr

/-- Far unit and far address of a local address in a remote-unit window; none for the cases of R122
(DEDUCED, log 16). -/
def State.bridgeTarget (s : State) (a : Nat) : Option (Nat × Nat) :=
  let w := a / 0x100000 % 8
  let u := s.rd R.BR_WINw.UNIT 0 w
  if s.on R.BR_WINw.EN 0 w = true ∧ u ≠ 0 ∧ u ≠ 0x7FF ∧ u ∈ s.ring.confirmed ∧ u ≠ s.ring.addr then
    some (u, s.rd R.BR_WINw.FAR_BASE 0 w * 0x100000 + a % 0x100000)
  else none

/-- Is a far address register-class (R123)? -/
def regClass (a : Nat) : Bool := decide (0xF0000000 ≤ a) && decide (a < 0xF0400000)

/-- Put the bridge's accesses. -/
def State.setBridge (s : State) (l : List BridgeReq) : State := { s with ring := { s.ring with bridge := l } }

/-- The BR_REQ message of a request (04, Dynamic Message Types). -/
def BridgeReq.msg (r : BridgeReq) : DynMsg :=
  { type := 2, dest := r.unit, reg := r.reg
    body := beBytes 2 r.tag ++ beBytes 1 (ofBool r.write * 128 + ofBool r.reg * 64 + sizeCode r.size) ++ [0] ++
      beBytes 4 r.far ++ beBytes 8 r.data }

/-- Outgoing buffers of a class that are taken (R125). -/
def sentOf (reg : Bool) (l : List BridgeReq) : Nat := (l.filter fun r => r.sent && r.reg == reg).length

/-- Requests that wait take free outgoing buffers in order: four of data class, one of register class; the
messages to send (R125). -/
def fillBuffers (pre : List BridgeReq) : List BridgeReq → List BridgeReq × List DynMsg
  | [] => ([], [])
  | r :: t =>
    let free := decide (sentOf r.reg pre < if r.reg then 1 else 4) && decide (sentOf r.reg t + sentOf r.reg pre < if r.reg then 1 else 4)
    if !r.sent && !r.backoff && free then
      let q := { r with sent := true }
      let (l, ms) := fillBuffers (pre ++ [q]) t
      (q :: l, r.msg :: ms)
    else
      let (l, ms) := fillBuffers (pre ++ [r]) t
      (r :: l, ms)

/-- Send what the buffers have room for. -/
def State.bridgeSend (s : State) : State :=
  let (l, ms) := fillBuffers [] s.ring.bridge
  { s with ring := { s.ring with bridge := l, msgs := s.ring.msgs ++ ms } }

/-- An access to far address `far` of unit `u` (R124, R128): an error response at once while the ring is
stopped, otherwise a request. -/
def State.bridgeOpen (s : State) (who : Initiator) (u far a size data : Nat) (write stall : Bool) : State × AccRes :=
  if s.cycling = false then (s.accessError who 18 write size 7 a, .err)
  else
    let r : BridgeReq := { tag := s.ring.nextTag, who := who, unit := u, far := far, near := a, write := write
                           size := size, data := data, reg := regClass far, age := 0, retries := 0
                           backoff := false, sent := false, stall := stall }
    let g := { s.ring with bridge := s.ring.bridge ++ [r], nextTag := (s.ring.nextTag + 1) % 65536 }
    (({ s with ring := g } : State).bridgeSend, .wait r.tag)

/-- An access through a remote-unit window (R122): an error response at once, or as `bridgeOpen`. While the ring is
stopped any such access gets the CAUSE of R128. -/
def State.bridgeIssue (s : State) (who : Initiator) (a size data : Nat) (write stall : Bool) : State × AccRes :=
  match s.bridgeTarget a with
  | none => (s.accessError who 18 write size (if s.cycling then 10 else 7) a, .err)
  | some (u, far) => s.bridgeOpen who u far a size data write stall

/-- The request of a tag. -/
def State.bridgeReq (s : State) (tag : Nat) : Option BridgeReq := s.ring.bridge.find? fun r => r.tag == tag

/-- A buffered store of core c has failed at `a`: the first such store is held for its imprecise BUSERR
(08 R285). -/
def State.storeFailed (s : State) (c a : Nat) : State :=
  let k := s.cores.get {} c
  if k.run = .reset ∨ k.impr ≠ none then s
  else { s with cores := s.cores.set {} c { k with impr := some a } }

/-- A posted write of a core to a far unit fails; a core that has been reset since knows nothing of it (08
R305). -/
def State.farStoreFailed (s : State) (r : BridgeReq) : State :=
  match r.who with
  | .core c => if r.old then s else s.storeFailed c r.near
  | _ => s

/-- The response of an access reaches its initiator: a host port, a waiting core or mover, the store buffer
of a core, or the answer. -/
def State.bridgeDeliver (s : State) (r : BridgeReq) (data : Option Nat) : State :=
  let s1 := { s with answer := ⟨BitVec.ofNat 64 (data.getD 0), data.isNone⟩ }
  if r.stall then
    { s1 with ring := { s1.ring with done := s1.ring.done ++ [⟨r.who, r.near, r.write, data⟩] } }
  else if r.write then (if data.isNone then s1.farStoreFailed r else s1) else s1.hostFill r.tag data

/-- Withdraw the message of a request that has not left the unit. -/
def State.unqueueReq (s : State) (r : BridgeReq) : State :=
  { s with ring := { s.ring with msgs := s.ring.msgs.filter (· != r.msg) } }

/-- An access ends (R124): its buffer is free, and the next request may go. -/
def State.bridgeEnd (s : State) (r : BridgeReq) (data : Option Nat) : State :=
  (((s.unqueueReq r).setBridge (s.ring.bridge.filter (·.tag != r.tag))).bridgeDeliver r data).bridgeSend

/-- An access ends with an error response of this CAUSE, which R634 records. -/
def State.bridgeFail (s : State) (r : BridgeReq) (cause : Nat) : State :=
  (s.accessError r.who 18 r.write r.size cause r.near).bridgeEnd r none

/-- ERRORS of BR_STATUS, and status point BR_FAIL (19 R623). -/
def State.bridgeErrors (s : State) (f : Fld) : State := (s.bump f).statusCount 0x026

/-- Change one request. -/
def State.updReq (s : State) (tag : Nat) (f : BridgeReq → BridgeReq) : State :=
  s.setBridge (s.ring.bridge.map fun r => if r.tag = tag then f r else r)

/-- A RETRY answer (R127): a copy of the request that has been issued again and still waits is withdrawn; the limit ends the access, otherwise it waits for its re-issue. The age of a BAR4
access runs on (16 R544) (DEDUCED, log 35). -/
def State.bridgeRetry (s : State) (r : BridgeReq) : State :=
  let s1 := s.bump R.BR_STATUS.RETRIES
  if max 1 (s.rd R.BR_CTRL.RETRY_MAX) ≤ r.retries + 1 then
    (s1.bridgeErrors R.BR_STATUS.ERRORS).bridgeFail r 8
  else if r.sent = false then s1.updReq r.tag fun q => { q with retries := q.retries + 1 }
  else
    ((s1.unqueueReq r).updReq r.tag fun q => { q with retries := q.retries + 1, backoff := true, sent := false
                                                      age := if q.who = .pcie then q.age else 0 }).bridgeSend

/-- A BR_CPL from unit `src` (R124). The RETRY that a copy of a withdrawn request meets counts too (R126, R127). -/
def State.bridgeCpl (s : State) (src : Nat) (body : List Byte) : State :=
  match s.bridgeReq (be body 0 2) with
  | none => s
  | some r =>
    if r.unit ≠ src ∨ (r.sent = false ∧ be body 2 1 ≤ 1) then s
    else match be body 2 1 with
      | 0 => s.bridgeEnd r (some (if r.write then 0 else be body 4 8))
      | 1 => (s.bridgeErrors R.BR_STATUS.ERRORS).bridgeFail r 6
      | _ => s.bridgeRetry r

/-- The register-class request this unit has outstanding to unit u (R126). -/
def State.crossing (s : State) (u : Nat) : Option BridgeReq :=
  s.ring.bridge.find? fun r => r.reg && r.sent && r.unit == u

/-- The higher-address unit of a crossing withdraws its own request (R126). The spec does not say which unit counts
CROSSINGS, nor whether the withdrawal restarts the cycles of TIMEOUT: the unit that withdraws counts it, and the
count starts again but for PCI Express, whose time runs on (16 R544) (DESIGN CHOICE, log 35). -/
def State.withdraw (s : State) (r : BridgeReq) : State :=
  ((s.bump R.BR_STATUS.CROSSINGS).unqueueReq r).updReq r.tag fun q =>
    { q with backoff := true, sent := false, age := if q.who = .pcie then q.age else 0 }

/-- BRIDGE_TIMEOUT: TIMEOUT cycles have passed, 100,000 ticks standing for each while the ring is stopped
(R124, R128). -/
def State.bridgeTimeout (s : State) (tag : Nat) : State :=
  match s.bridgeReq tag with
  | none => s
  | some r =>
    let age := if s.cycling then r.age else r.age + 1
    if max 1 (s.rd R.BR_CTRL.TIMEOUT) ≤ age && (!r.backoff || r.who == .pcie) then
      (s.bridgeErrors R.BR_STATUS.TIMEOUTS).bridgeFail r 7
    else s.updReq tag fun q => { q with age := age }

/-- BRIDGE_REISSUE: the delay of R126 has passed. -/
def State.bridgeReissue (s : State) (tag : Nat) : State :=
  match s.bridgeReq tag with
  | none => s
  | some r => if r.backoff then (s.updReq tag fun q => { q with backoff := false }).bridgeSend else s

/-- The response that a waiting initiator finds, taken from the list. -/
def State.takeDone (s : State) (who : Initiator) (a : Nat) (write : Bool) : Option (BridgeDone × State) :=
  match s.ring.done.find? fun d => d.who == who && d.addr == a && d.write == write with
  | none => none
  | some d => some (d, { s with ring := { s.ring with done := s.ring.done.erase d } })

/-- Is such an access of this initiator outstanding? -/
def State.outstanding (s : State) (who : Initiator) (a : Nat) (write : Bool) : Bool :=
  s.ring.bridge.any fun r => r.who == who && r.near == a && r.write == write && r.stall

/-- A remote access of a core or a mover, which waits for its response (R124): the first try issues it, a
later one finds it outstanding or ended. -/
def State.remoteWait (s : State) (who : Initiator) (a size data : Nat) (write : Bool) : State × AccRes :=
  match s.takeDone who a write with
  | some (d, s1) => (s1, match d.data with | some v => .data v | none => .err)
  | none =>
    if s.outstanding who a write then (s, .wait 0)
    else s.bridgeIssue who a size data write true

/-- A register write that the wake unit makes on another unit (12 R431, R432, R434); its completion is not
looked at. -/
def State.farWrite (s : State) (u a : Nat) (v : Word) : State := (s.bridgeOpen .hardware u a a 4 v.toNat true false).1

end Sys2Proof.Machine
end

