-- ==== Sys2Proof/Machine/Interrupts.lean ====
section
/-! DEFINITION. The interrupt controller, mailboxes and doorbells (09). -/

namespace Sys2Proof.Machine

/-- What a register access of a block answers: the new state, the data read, and the CAUSE of an error
response (20, Error Causes) if it gets one. -/
structure RegRes where
  s : State
  data : Nat := 0
  cause : Option Nat := none

/-! ### Routing and presentation (09 R311, R316, R317, R336) -/

/-- Where a source goes: a core and line, an MSI-X vector, or nowhere. -/
inductive Target where
  | core (c : Nat) (urgent : Bool)
  | host (vector : Nat)
  | none
  deriving DecidableEq, Repr

/-- Target of shared source n (R311); MBX_EMPTY sources with SENDER = 1 follow the fixed stamp (R336). -/
def State.route (s : State) (n : Nat) : Target :=
  let i := n - 64
  let t := s.rd R.IC_ROUTEn.TARGET 0 i
  let u := s.on R.IC_ROUTEn.URGENT 0 i
  if 128 ≤ n ∧ n ≤ 191 ∧ s.on R.IC_ROUTEn.SENDER 0 i = true then
    let st := s.ic.sender.get 0xF000 (n - 128)
    if st / 4096 = 0 then (if st < 18 then .core st u else .none)
    else if st / 4096 = 1 then .host t
    else .none
  else if s.on R.IC_ROUTEn.HOST 0 i then .host t
  else if t ≤ 17 then .core t u
  else .none

/-- Enable bit of shared source n (R316). -/
def State.sharedEn (s : State) (n : Nat) : Bool :=
  bit (s.rd R.IC_SENk.EN 0 ((n - 64) / 32)) ((n - 64) % 32)

/-- Enable bit of private source n of core c. -/
def State.privEn (s : State) (c n : Nat) : Bool :=
  bit (if n < 32 then s.rd R.IC_PEN_LO.EN c else s.rd R.IC_PEN_HI.EN c) (n % 32)

/-- Is private source n of core c on the URGENT line? -/
def State.privUrgent (s : State) (c n : Nat) : Bool :=
  bit (if n < 32 then s.rd R.IC_PLINE_LO.URGENT c else s.rd R.IC_PLINE_HI.URGENT c) (n % 32)

/-- Is the source presented to core c on the line (R316)? -/
def State.presented (s : State) (c : Nat) (urgent : Bool) (key : Nat) : Bool :=
  s.src key == .pending &&
  (if key < 0x1000 then
    key / 64 == c && s.privEn c (key % 64) && s.privUrgent c (key % 64) == urgent
  else
    s.sharedEn (key - 0x1000) && s.route (key - 0x1000) == .core c urgent)

/-- The lowest-numbered presented source of a line, private ones first (R317). -/
def State.nextSource (s : State) (c : Nat) (urgent : Bool) : Option Nat :=
  (s.ic.src.find? fun e => s.presented c urgent e.1).map (·.1)

/-- Number of a source in a core's interrupt page (R308). -/
def srcNumber (key : Nat) : Nat := if key < 0x1000 then key % 64 else key - 0x1000

/-- IC_NNEXT or IC_UNEXT (R317). -/
def State.icPeek (s : State) (c : Nat) (urgent : Bool) : Nat :=
  match s.nextSource c urgent with
  | some k => srcNumber k
  | none => 2 ^ 31

/-- A POP of IC_NNEXT or IC_UNEXT claims the source it returns (R318). -/
def State.icPop (s : State) (c : Nat) (urgent : Bool) : RegRes :=
  match s.nextSource c urgent with
  | some k => { s := s.setSrc k (s.src k).claim, data := srcNumber k }
  | none => { s := s, data := 2 ^ 31 }

/-- Completion of a source (R314, R319). -/
def State.complete (s : State) (key : Nat) : State :=
  s.setSrc key ((s.src key).complete ((s.srcLevel key).getD false))

/-- Key of a source number as core c's page names it (R308). -/
def keyOf (c n : Nat) : Nat := if n < 64 then c * 64 + n else shared n

/-- IC_EOI of core c's page. -/
def State.icEoi (s : State) (c n : Nat) : State := if n < 576 then s.complete (keyOf c n) else s

/-- IC_SEOI. -/
def State.icSeoi (s : State) (n : Nat) : State :=
  if 64 ≤ n ∧ n < 576 then s.complete (shared n) else s

/-- Software triggers or clears a source (R314); a reserved source never becomes pending (R309). -/
def State.trigger (s : State) (key : Nat) (clr : Bool) : State :=
  let known := eventSource key || (s.srcLevel key).isSome
  if !known then s
  else if clr then s.setSrc key (s.src key).fall else s.setSrc key (s.src key).event

/-- IC_PTRIG of core c. -/
def State.icPtrig (s : State) (c n : Nat) (clr : Bool) : State := s.trigger (c * 64 + n % 64) clr

/-- IC_STRIG; other values have no effect. -/
def State.icStrig (s : State) (n : Nat) (clr : Bool) : State :=
  if 64 ≤ n ∧ n ≤ 575 then s.trigger (shared n) clr else s

/-- IC_ROUTEn is written only while source n is INACTIVE and its enable bit is 0 (R312). -/
def State.icRoute (s : State) (n : Nat) (v : Word) : RegRes :=
  if s.src (shared n) = .inactive ∧ s.sharedEn n = false then
    let i := n - 64
    let s1 := (((s.wr R.IC_ROUTEn.URGENT (getBits v 31 31) 0 i).wr R.IC_ROUTEn.SENDER (getBits v 30 30) 0 i).wr
      R.IC_ROUTEn.HOST (getBits v 29 29) 0 i).wr R.IC_ROUTEn.TARGET (getBits v 5 0) 0 i
    { s := s1 }
  else { s := s, cause := some 10 }

/-- Pending and active bits of 32 sources from key `base` (IC_PPEND, IC_PACT, IC_SPEND, IC_SACT). -/
def State.icBits (s : State) (base : Nat) (act : Bool) : Nat :=
  (List.range 32).foldl (fun v i =>
    let st := s.src (base + i)
    let b := if act then st == .active || st == .activePending else st == .pending || st == .activePending
    v + ofBool b * 2 ^ i) 0

/-- The eight DB sources of core c follow the doorbell bits (R309, R338). -/
def State.syncDoorbells (s : State) (c : Nat) : State :=
  (List.range 8).foldl (fun t g => t.syncSource (c * 64 + g)) s

/-- IC_DB_SET: 1s set doorbell bits (R338). -/
def State.dbSet (s : State) (c : Nat) (hi : Bool) (v : Nat) : State :=
  let f := if hi then R.IC_DB_HI.DB else R.IC_DB_LO.DB
  (s.wr f (s.rd f c ||| v) c).syncDoorbells c

/-- IC_DB: 1s clear doorbell bits. -/
def State.dbClear (s : State) (c : Nat) (hi : Bool) (v : Nat) : State :=
  let f := if hi then R.IC_DB_HI.DB else R.IC_DB_LO.DB
  (s.wr f (s.rd f c &&& (0xFFFFFFFF - v % 2 ^ 32)) c).syncDoorbells c

/-- The interrupt state of a core that leaves reset (R329). -/
def State.icCoreReset (s : State) (c : Nat) : State :=
  let priv := s.ic.src.filter fun e => !(decide (e.1 < 0x1000) && e.1 / 64 == c)
  let shr := priv.foldl (fun (t : State) e =>
    if 0x1000 ≤ e.1 ∧ (e.2 = .active ∨ e.2 = .activePending) ∧
        (match s.route (e.1 - 0x1000) with | .core k _ => k == c | _ => false) = true then
      t.complete e.1 else t) { s with ic := { s.ic with src := priv } }
  let z (t : State) (f : Fld) : State := t.setReg (f.addr c 0) (regReset (f.addr c 0))
  let t := [R.IC_CCTRL.all, R.IC_PEN_LO.all, R.IC_PEN_HI.all, R.IC_PLINE_LO.all, R.IC_PLINE_HI.all,
    R.IC_DB_LO.all, R.IC_DB_HI.all, R.IC_DB_EN_LO.all, R.IC_DB_EN_HI.all].foldl z shr
  { t with ic := { t.ic with level := t.ic.level.filter fun e => !(decide (e.1 < 0x1000) && e.1 / 64 == c) } }

/-! ### MSI-X (09 R313; 16 R540 gives the masking) -/

/-- The host-routed source of lowest number that is presented. -/
def State.nextHost (s : State) : Option (Nat × Nat) :=
  s.ic.src.findSome? fun e =>
    if decide (0x1000 ≤ e.1) && e.2 == .pending && s.sharedEn (e.1 - 0x1000) then
      match s.route (e.1 - 0x1000) with
      | .host v => some (e.1, v)
      | _ => none
    else none

/-! ### Mailboxes (09 R330 to R336) -/

/-- Messages of channel n, oldest first. -/
def State.chan (s : State) (n : Nat) : List DWord := s.mbx.chan.get [] n
/-- Put the messages of channel n; its MBX_RX source follows (R310). -/
def State.setChan (s : State) (n : Nat) (l : List DWord) : State :=
  ({ s with mbx := { s.mbx with chan := s.mbx.chan.set [] n l } }).syncSource (shared (64 + n))
/-- The staged LO word of a stamp. -/
def State.stagedLo (s : State) (st : Nat) : Option Word := s.mbx.staged.get none st
/-- Put or free a staged LO word. -/
def State.setStagedLo (s : State) (st : Nat) (v : Option Word) : State :=
  { s with mbx := { s.mbx with staged := s.mbx.staged.set none st v } }

/-- MBX_TX_LOn (R332). -/
def State.mbxLo (s : State) (who : Initiator) (v : Word) : RegRes :=
  let st := stampOf who
  let others := (s.mbx.staged.filter fun e => e.1 / 4096 == 2 && e.1 != st).length
  if st / 4096 = 2 ∧ 4 ≤ others then { s := s.bump R.MBX_ERR.STAGE_FULL, cause := some 10 }
  else { s := s.setStagedLo st (some v) }

/-- A message as the channel holds it: stamp in [63:48], payload below (R330). -/
def mkMsg (stamp payload : Nat) : DWord := BitVec.ofNat 64 (stamp % 65536 * 2 ^ 48 + payload % 2 ^ 48)

/-- Channel n has received a message: one on channel 63 is presented to KEEP and restarts its clock (17 R579). -/
def State.keepCall (s : State) (n : Nat) : State := if n = 63 then s.wakeCore 17 else s

/-- MBX_TX_HIn (R332, R333) (DEDUCED, log 49). -/
def State.mbxHi (s : State) (who : Initiator) (n : Nat) (v : Word) : RegRes :=
  let st := stampOf who
  let lo := ((s.stagedLo st).getD 0).toNat
  let s1 := s.setStagedLo st none
  if s.on R.MBX_CFGn.EN 0 n = false ∨ 4 ≤ (s.chan n).length then
    { s := s1.bump R.MBX_STATUSn.OVERFLOW 0 n, cause := some 10 }
  else { s := (s1.setChan n (s.chan n ++ [mkMsg st (getBits v 15 0 * 2 ^ 32 + lo)])).keepCall n }

/-- A pin engine or a keeper service commits a whole message in one step (R332, R333). -/
def State.mbxCommit (s : State) (stamp n payload : Nat) : State :=
  if s.on R.MBX_CFGn.EN 0 n = false ∨ 4 ≤ (s.chan n).length then s.bump R.MBX_STATUSn.OVERFLOW 0 n
  else (s.setChan n (s.chan n ++ [mkMsg stamp payload])).keepCall n

/-- MBX_EMPTYn fires on the POP that empties channel n; `m` is the popped message (R336). -/
def State.mbxEmpty (s : State) (n : Nat) (m : DWord) : State :=
  let key := shared (128 + n)
  let st := m.toNat / 2 ^ 48
  if s.on R.IC_ROUTEn.SENDER 0 (64 + n) then
    if s.src key ≠ .inactive then s.pulse key
    else if 2 ≤ st / 4096 then s.bump R.MBX_STATUSn.NOSENDER 0 n
    else ({ s with ic := { s.ic with sender := s.ic.sender.set 0xF000 n st } } : State).pulse key
  else s.pulse key

/-- MBX_POP_HIn (R334). -/
def State.mbxPop (s : State) (who : Initiator) (n : Nat) : RegRes :=
  let cls := s.rd R.MBX_CFGn.RX_CLASS 0 n
  if stampOf who ≠ cls * 4096 + s.rd R.MBX_CFGn.RX_NUM 0 n ∨ 2 ≤ cls then { s := s, cause := some 10 }
  else match s.chan n with
    | [] => { s := s.bump R.MBX_STATUSn.UNDERRUN 0 n }
    | m :: t =>
      let s1 := s.setChan n t
      { s := if t.isEmpty then s1.mbxEmpty n m else s1, data := m.toNat / 2 ^ 32 }

/-! ### Arms that need no register access -/

/-- Is it an event source that hardware raises by itself: THROTTLE, ECC_CORR or LOCKUP? SOFT and SSOFT are
raised only by IC_PTRIG and IC_STRIG, MBX_EMPTY by a POP (R309, R310). -/
def hardwareEvent (key : Nat) : Bool :=
  eventSource key && (if key < 0x1000 then decide (16 ≤ key % 64) else decide (192 ≤ key - 0x1000) && decide (key - 0x1000 ≤ 209))

/-- SOURCE_ASSERT (R309, R310, R314): an event pulse of an event source that hardware raises, or a rising level
input. -/
def execSourceAssert (key : Nat) (s : State) : Host.Outcome State Fault Refusal :=
  s.powered (if eventSource key then (if hardwareEvent key then s.pulse key else s) else s.syncSource key)

/-- SOURCE_DEASSERT (R314): a level input falls; an event source has no level. -/
def execSourceDeassert (key : Nat) (s : State) : Host.Outcome State Fault Refusal :=
  s.powered (if (s.srcLevel key) = some false then s.syncSource key else s)

/-- MBX_STAGE_EXPIRE (R332): a ring unit's staged word is freed. -/
def execMbxStageExpire (u : Nat) (s : State) : Host.Outcome State Fault Refusal :=
  s.powered (s.setStagedLo (0x2000 + u) none)

end Sys2Proof.Machine
end

