-- ==== Sys2Proof/Machine/Pour.lean ====
section
/-! DEFINITION. The Pour unit (06): node entries, token posts, firing, dispatch, prefetch slots,
completion, session contexts, and the sections of a table set that load it. -/

namespace Sys2Proof.Machine

/-! ### Node and op-code entries (06 R208, R216) -/

/-- Node entry n as a number. -/
def State.node (s : State) (n : Nat) : Nat := (s.pour.nodes.get 0 n).toNat
/-- OPCODE. -/
def nOpcode (e : Nat) : Nat := bitsOf e 127 120
/-- PRIO. -/
def nPrio (e : Nat) : Nat := bitsOf e 119 117
/-- EN. -/
def nEn (e : Nat) : Bool := bit e 116
/-- BCLR. -/
def nBclr (e : Nat) : Bool := bit e 115
/-- BOUND. -/
def nBound (e : Nat) : Nat := bitsOf e 114 111
/-- CTX. -/
def nCtx (e : Nat) : Nat := bitsOf e 110 103
/-- TKIND. -/
def nTkind (e : Nat) : Nat := bitsOf e 102 101
/-- TNUM. -/
def nTnum (e : Nat) : Nat := bitsOf e 100 96
/-- SUCC_BASE. -/
def nSuccBase (e : Nat) : Nat := bitsOf e 95 82
/-- SUCC_LEN. -/
def nSuccLen (e : Nat) : Nat := bitsOf e 81 76
/-- DESC. -/
def nDesc (e : Nat) : Nat := bitsOf e 75 64
/-- THRESH of input i. -/
def nThresh (e i : Nat) : Nat := bitsOf e (51 + 4 * i) (48 + 4 * i)
/-- INIT of input i. -/
def nInit (e i : Nat) : Nat := bitsOf e (35 + 4 * i) (32 + 4 * i)
/-- LOOP. -/
def nLoop (e : Nat) : Bool := bit e 3
/-- LOOP_IN. -/
def nLoopIn (e : Nat) : Nat := bitsOf e 1 0
/-- A node whose every THRESH is 0 is empty: it never fires (R210). -/
def nEmpty (e : Nat) : Bool := bitsOf e 63 48 == 0

/-- Op-code entry of index o. -/
def State.opcode (s : State) (o : Nat) : Nat := (s.pour.opcodes.get 0 o).toNat
/-- ARG of a node's op code. -/
def State.nodeArg (s : State) (n : Nat) : Nat := bitsOf (s.opcode (nOpcode (s.node n))) 15 0

/-- Counters and state of node n. -/
def State.dyn (s : State) (n : Nat) : NodeDyn := s.pour.dyn.get {} n
/-- Put a node's counters and state. -/
def State.setDyn (s : State) (n : Nat) (d : NodeDyn) : State :=
  { s with pour := { s.pour with dyn := s.pour.dyn.set {} n d } }
/-- Counter of input i. -/
def NodeDyn.count (d : NodeDyn) (i : Nat) : Nat :=
  match i with
  | 0 => d.c0 | 1 => d.c1 | 2 => d.c2 | _ => d.c3
/-- Put the counter of input i. -/
def NodeDyn.setCount (d : NodeDyn) (i v : Nat) : NodeDyn :=
  match i with
  | 0 => { d with c0 := v } | 1 => { d with c1 := v } | 2 => { d with c2 := v } | _ => { d with c3 := v }
/-- Put a node's state. -/
def State.setNodeState (s : State) (n : Nat) (st : NodeState) : State :=
  s.setDyn n { s.dyn n with state := st }

/-! ### Firing (06 R210, R211) -/

/-- Entries of a level's ready list, head first. -/
def State.level (s : State) (l : Nat) : List ReadyEntry := s.pour.ready.get [] l
/-- Put a level's list. -/
def State.setLevel (s : State) (l : Nat) (es : List ReadyEntry) : State :=
  { s with pour := { s.pour with ready := s.pour.ready.set [] l es } }
/-- Slot k. -/
def State.slot (s : State) (k : Nat) : Slot := s.pour.slots.get {} k
/-- Put a slot. -/
def State.setSlot (s : State) (k : Nat) (v : Slot) : State :=
  { s with pour := { s.pour with slots := s.pour.slots.set {} k v } }
/-- Is the slot FILLING or LOADED? -/
def Slot.busy (v : Slot) : Bool := v.phase == .filling || v.phase == .loaded
/-- Entries that count towards a level's 512: those in the list and those in a slot (R220). -/
def State.fill (s : State) (l : Nat) : Nat :=
  (s.level l).length + (s.pour.slots.filter fun e => e.2.busy && nPrio (s.node e.2.node) == l).length

/-- Do the counters meet every used threshold, one at least being used? -/
def meets (e : Nat) (d : NodeDyn) : Bool :=
  !nEmpty e && ([0, 1, 2, 3].all fun i => nThresh e i == 0 || decide (nThresh e i ≤ d.count i))

/-- May node n fire (R210)? -/
def State.mayFire (s : State) (n : Nat) : Bool :=
  nEn (s.node n) && (s.dyn n).state == .idle && meets (s.node n) (s.dyn n)

/-- The counters after a firing. -/
def spend (e : Nat) (d : NodeDyn) : NodeDyn :=
  { d with c0 := d.c0 - nThresh e 0, c1 := d.c1 - nThresh e 1, c2 := d.c2 - nThresh e 2, c3 := d.c3 - nThresh e 3 }

/-- Node n fires: READY at the tail of its list, or DEFERRED when the list is full (R210). -/
def State.fire (s : State) (n : Nat) : State :=
  let e := s.node n
  let l := nPrio e
  if s.fill l < 512 then
    (s.setDyn n { spend e (s.dyn n) with state := .ready }).setLevel l (s.level l ++ [⟨n, false⟩])
  else s.setDyn n { spend e (s.dyn n) with state := .deferred }

/-- Evaluate node n for firing (R211). -/
def State.evaluate (s : State) (n : Nat) : State := if s.mayFire n then s.fire n else s

/-- An entry has left level l: the lowest-numbered DEFERRED node of the level takes its place (R211). -/
def State.placeDeferred (s : State) (l : Nat) : State :=
  if s.fill l < 512 then
    match s.pour.dyn.find? fun e => e.2.state == .deferred && nPrio (s.node e.1) == l with
    | some (n, _) => (s.setNodeState n .ready).setLevel l (s.level l ++ [⟨n, false⟩])
    | none => s
  else s

/-! ### Token posts (06 R212 to R215) -/

/-- Why a post is refused (R212), or none. -/
inductive PostRefusal where
  | disabled | countMax | misroute | full
  deriving DecidableEq, Repr

/-- Is the post refused, and why? With POUR_CTRL.EN = 0 every post is. -/
def State.postRefusal (s : State) (p : Post) : Option PostRefusal :=
  let e := s.node p.node
  let d := s.dyn p.node
  let d1 := d.setCount p.input (d.count p.input + 1)
  if !s.on R.POUR_CTRL.EN then some .disabled
  else if d.count p.input = 15 then some .countMax
  else if nThresh e p.input = 0 then some .misroute
  else if nEn e && d.state == .idle && meets e d1 && decide (512 ≤ s.fill (nPrio e)) then some .full
  else if nLoop e && p.input == nLoopIn e && p.prod != .completion then some .misroute
  else none

/-- An accepted post increments its counter and may fire the node (R212, R213). -/
def State.acceptPost (s : State) (p : Post) : State :=
  let d := s.dyn p.node
  (s.setDyn p.node (d.setCount p.input (d.count p.input + 1))).evaluate p.node

/-- The refusal is counted. -/
def State.countRefusal (s : State) : PostRefusal → State
  | .disabled => s
  | .countMax => (s.bump R.POUR_REFUSE.COUNT_MAX).statusCount 0x027
  | .full => (s.bump R.POUR_REFUSE.FULL).statusCount 0x027
  | .misroute => s.bump R.POUR_MISC.MISROUTE

/-- A hardware producer's post is dropped and counted (R215). -/
def State.dropPost (s : State) : State := (s.bump R.POUR_DROP.DROPPED).statusCount 0x028

/-- What a hardware producer does with a refused post (R215): the REFUSE field of the target's op code. -/
def State.refusedPost (s : State) (p : Post) : State :=
  let o := s.opcode (nOpcode (s.node p.node))
  let max := if bitsOf o 28 25 = 0 then 1 else bitsOf o 28 25
  let inRetry := s.pour.retry.any (fun q => q.prod == p.prod) ||
    s.pour.posts.any fun q => q.prod == p.prod && q.tries != 0
  if bit o 29 = false then s.dropPost
  else if p.tries = 0 ∧ inRetry = true then s.dropPost
  else if max ≤ p.tries then s.dropPost.event 9 1 p.node p.input
  else { s with pour := { s.pour with retry := s.pour.retry ++ [p] } }

/-- Apply one post: accepted or refused (R212), with what its producer does with a refusal. -/
def State.applyPost (s : State) (p : Post) : State × Bool :=
  match s.postRefusal p with
  | none =>
    let s1 := s.acceptPost p
    (match p.prod with | .channel c => s1.wr R.POUR_POST_RESc.RESULT 1 0 c | _ => s1, true)
  | some r =>
    let s1 := s.countRefusal r
    (match p.prod with
      | .channel c => s1.wr R.POUR_POST_RESc.RESULT 2 0 c
      | .core _ => s1
      | .steep c => (s1.bump R.STP_STATUS.REFUSED).event 21 2 c (p.input * 4096 + p.node)
      | _ => s1.refusedPost p, false)

/-- The first waiting post is applied, once it has been issued (R214, R217). -/
def State.applyFirst (s : State) : State :=
  match s.pour.posts with
  | [] => s
  | p :: t => if p.arr ≤ s.tick then ({ s with pour := { s.pour with posts := t } }.applyPost p).1 else s

/-- Apply every waiting post, in order; the last answer is the one of post `q`. -/
def State.applyUpTo (s : State) (q : Post) : Nat → State × Bool
  | 0 => (s, false)
  | n + 1 =>
    match s.pour.posts with
    | [] => (s, false)
    | p :: t =>
      let r := State.applyPost { s with pour := { s.pour with posts := t } } p
      if p == q then r else r.1.applyUpTo q n

/-- A producer of order 7 posts and waits for its answer: the posts before it apply first (R214, R291). -/
def State.postAndWait (s : State) (prod : Producer) (node input : Nat) : State × Bool :=
  let q : Post := { arr := s.tick, prod := prod, node := node, input := input, tries := 0 }
  (s.post prod node input).applyUpTo q (s.pour.posts.length + 1)

/-! ### Slots and dispatch (06 R220 to R225) -/

/-- In-flight count. -/
def State.inflight (s : State) : Nat := s.rd R.POUR_STATUS.INFLIGHT
/-- Change the in-flight count. -/
def State.setInflight (s : State) (n : Nat) : State := s.wr R.POUR_STATUS.INFLIGHT n

/-- Core c. -/
def State.core (s : State) (c : Nat) : CoreState := s.cores.get {} c
/-- Put a core. -/
def State.setCore (s : State) (c : Nat) (k : CoreState) : State := { s with cores := s.cores.set {} c k }
/-- Mover m. -/
def State.mov (s : State) (m : Nat) : MoverState := s.movers.get {} m
/-- Put a mover. -/
def State.setMov (s : State) (m : Nat) (v : MoverState) : State := { s with movers := s.movers.set {} m v }

/-- Is context x held by a slot, a running operation or a detached operation (R226)? 0 is no context. -/
def State.ctxHeld (s : State) (x : Nat) : Bool :=
  x != 0 && (s.pour.slots.any (fun e => e.2.busy && e.2.ctx == x) ||
  s.cores.any (fun e => e.2.inop && e.2.opCtx == x) || s.pour.detached.any fun e => e.2 == x)

/-- Is mover m held in reset: by MOV_CTRL.HOLD, a soft reset or PAGE_CTRL.EN = 0 (20 R630, R631)? -/
def State.movHeld (s : State) (m : Nat) : Bool :=
  s.on R.MOV_CTRL.HOLD m || s.on R.PAGE_STATUS.HELD (12 + m) || !s.on R.PAGE_CTRL.EN (12 + m)
/-- A mover whose operation is aborted: points already issued are still to be written (07 R257). A point whose first
read has been made, or waits for its response, has been issued: its other reads are still made. -/
def MoverState.stopped (k : MoverState) : MoverState :=
  let part : List PipePoint := if k.got.isEmpty && !k.asked then [] else
    [{ node := k.node, op := k.op, desc := k.desc, index := k.next, vals := k.got, err := false }]
  { k with busy := false, got := [], refused := false, ahead := [], asked := false
           pipe := (k.pipe ++ part).map fun (p : PipePoint) => { p with live := false } }
/-- Mover m's operation is aborted (07 R257). -/
def State.movStop (s : State) (m : Nat) : State := s.setMov m (s.mov m).stopped
/-- Is the agent of slot k idle? -/
def State.agentIdle (s : State) (k : Nat) : Bool :=
  if k < 17 then (s.core k).run == .idle && !(s.core k).inop && (s.core k).level == .thread
  else !(s.mov (k - 17)).busy && !s.movHeld (k - 17)

/-- Is the agent of slot k free of reset, so that its slot is eligible (R220)? -/
def State.agentOut (s : State) (k : Nat) : Bool :=
  if k < 17 then (s.core k).run != .reset else !s.movHeld (k - 17)

/-- Slots that a node's TKIND and TNUM name (R208). -/
def slotsOf (e : Nat) : List Nat :=
  match nTkind e with
  | 0 => [17, 18, 19, 20]
  | 1 => if nTnum e ≤ 3 then [17 + nTnum e] else []
  | 2 => if nTnum e ≤ 16 then [nTnum e] else []
  | _ => if nTnum e ≤ 3 then [4 * nTnum e, 4 * nTnum e + 1, 4 * nTnum e + 2, 4 * nTnum e + 3] else []

/-- The slot an entry takes: the lowest idle agent with an empty slot, else the lowest with an empty slot. -/
def State.chooseSlot (s : State) (e : Nat) : Option Nat :=
  let el := (slotsOf e).filter fun k => (s.slot k).phase == .empty && s.agentOut k
  match el.find? s.agentIdle with
  | some k => some k
  | none => el.head?

/-- The first entry of a level's window that a port (movers, or cores) can place, and its slot (R220). -/
def State.choose (s : State) (mover : Bool) (l : Nat) : Option (Nat × Nat) :=
  let window := ((s.level l).filter fun r => nEn (s.node r.node)).take 16
  window.findSome? fun r =>
    let e := s.node r.node
    if (decide (nTkind e ≤ 1)) == mover && (nCtx e == 0 || !s.ctxHeld (nCtx e)) then
      (s.chooseSlot e).map fun k => (r.node, k)
    else none

/-- Place node n in slot k; a core whose clock is stopped or whose cluster is gated gets its clock (R220, 17
R579, R580). -/
def State.place (s0 : State) (n k : Nat) : State :=
  let s := if k < 17 then s0.wakeCore k else s0
  let e := s.node n
  let l := nPrio e
  let s1 := (s.setLevel l ((s.level l).filter (·.node != n))).setNodeState n .slotted
  let s2 := s1.setSlot k { phase := .filling, node := n, ctx := nCtx e, order := s1.pour.placements }
  { s2.setInflight (s2.inflight + 1) with pour := { s2.pour with placements := s2.pour.placements + 1 } }

/-- One dispatcher port in one tick (R220, R225). -/
def State.dispatchPort (s : State) (mover : Bool) : State × Bool :=
  match ([7, 6, 5, 4, 3, 2, 1, 0].findSome? fun l => s.choose mover l) with
  | none => (s, false)
  | some (n, k) => if s.inflight < 256 then (s.place n k, false) else (s, true)

/-- DISPATCH: both ports, unless POUR_CTRL.HOLD or a power-down holds it (12 R439); POUR_STALL counts a tick held back by the limit (R225). -/
def State.dispatch (s : State) : State :=
  if s.on R.POUR_CTRL.HOLD || decide (2 ≤ s.rd R.WK_STATUS.STATE) then s
  else
    let (s1, b1) := s.dispatchPort true
    let (s2, b2) := s1.dispatchPort false
    if b1 || b2 then s2.bump R.POUR_STALL.TICKS else s2

/-- A FILLING or LOADED slot is discarded (R223). -/
def State.discard (s : State) (k : Nat) : State :=
  let v := s.slot k
  if v.busy then
    let l := nPrio (s.node v.node)
    let s1 := ((s.setSlot k {}).setNodeState v.node .ready).setLevel l (⟨v.node, true⟩ :: s.level l)
    ((s1.setInflight (s1.inflight - 1)).bump R.POUR_RETURN.RETURNED).statusCount 0x029
  else s

/-- Discard several slots in one tick: the entry placed earliest ends nearest the head (R223). -/
def State.discardAll (s : State) : State :=
  let ks := (s.pour.slots.filter (·.2.busy)).mergeSort fun a b => decide (b.2.order ≤ a.2.order)
  ks.foldl (fun t e => t.discard e.1) s

/-- The agent of slot k takes its LOADED operation: the slot empties, the node runs, a DEFERRED node takes
the freed place (R211, R222). -/
def State.takeSlot (s : State) (k : Nat) : State :=
  let n := (s.slot k).node
  ((s.setSlot k {}).setNodeState n .running).placeDeferred (nPrio (s.node n))

/-! ### Completion and abort (06 R217 to R219) -/

/-- Does a successor entry's COND hold for SEL? -/
def condHolds (entry sel : Nat) : Bool :=
  match bitsOf entry 15 14 with
  | 0 => true
  | 1 => bit sel 0
  | 2 => bit sel 1
  | _ => sel % 4 == 0

/-- Successor entries of a node, in order. -/
def State.succs (s : State) (n : Nat) : List Nat :=
  (List.range (nSuccLen (s.node n))).map fun k => (s.pour.succ.get 0 (nSuccBase (s.node n) + k)).toNat

/-- Post to the qualifying successors, one per tick from the completion tick (R217). -/
def State.postSucc (s : State) (k : Nat) : List Nat → State
  | [] => s
  | e :: t =>
    let p : Post :=
      { arr := s.tick + k, prod := .completion, node := bitsOf e 11 0, input := bitsOf e 13 12, tries := 0 }
    ({ s with pour := { s.pour with posts := insertPost p s.pour.posts } } : State).postSucc (k + 1) t

/-- Node n's operation has ended: it leaves flight, and holds no context (R225, R226). -/
def State.leaveFlight (s : State) (n : Nat) : State :=
  let s1 := { s with pour := { s.pour with detached := s.pour.detached.filter fun e => e.1 != n } }
  s1.setInflight (s1.inflight - 1)

/-- Node n is IDLE and is evaluated (R211). -/
def State.toIdle (s : State) (n : Nat) : State := (s.setNodeState n .idle).evaluate n

/-- Node n's operation has ended, and no post of it is left to issue. -/
def State.idleNode (s : State) (n : Nat) : State := (s.leaveFlight n).toIdle n

/-- Node n issues `k` posts more, one per tick after the present one; it is IDLE with the last of them (R217). -/
def State.endAfter (s : State) (n k : Nat) : State :=
  let t := (s.leaveFlight n).setNodeState n .running
  { t with pour := { t.pour with ending := t.pour.ending ++ [(s.tick + k, n)] } }

/-- Completion with a selector (R217). -/
def State.completeNode (s : State) (n sel : Nat) : State :=
  let l := (s.succs n).filter fun e => condHolds e sel
  let t := s.postSucc 0 l
  if l.length ≤ 1 then t.idleNode n else t.endAfter n (l.length - 1)

/-- The nodes whose last successor post has left by now are IDLE (R217). -/
def State.endingsTick (s : State) : State :=
  let due := s.pour.ending.filter fun e => decide (e.1 ≤ s.tick)
  let t := { s with pour := { s.pour with ending := s.pour.ending.filter fun e => !decide (e.1 ≤ s.tick) } }
  (due.map (·.2)).foldl State.toIdle t

/-- Abort (R219): no successor, no write-back, counted. -/
def State.abortNode (s : State) (n : Nat) : State :=
  ((s.bump R.POUR_RETURN.ABORTED).statusCount 0x02A).idleNode n

/-! ### Session contexts (06 R226 to R228) -/

/-- Byte b of context x. -/
def State.ctxByte (s : State) (x b : Nat) : Byte := s.pour.ctx.get 0 (x * 256 + b)
/-- Word at byte offset b of context x. -/
def State.ctxWord (s : State) (x b : Nat) : Nat := leNat ((List.range 4).map fun i => s.ctxByte x (b + i))
/-- Put one byte of a context. -/
def State.setCtxByte (s : State) (x b : Nat) (v : Byte) : State :=
  { s with pour := { s.pour with ctx := s.pour.ctx.set 0 (x * 256 + b) v } }
/-- Put a word of a context. -/
def State.setCtxWord (s : State) (x b v : Nat) : State :=
  (List.range 4).foldl (fun t i => t.setCtxByte x (b + i) (BitVec.ofNat 8 (v / 256 ^ i))) s
/-- Remember the value last written to a timer, from which it reloads (R227). -/
def State.noteTimer (s : State) (x b v : Nat) : State :=
  if b = 4 ∨ b = 12 then
    { s with pour := { s.pour with reload := s.pour.reload.set 0 (2 * x + (b - 4) / 8) (BitVec.ofNat 32 v) } }
  else s

/-- POUR_CTX_WIN read. -/
def State.ctxWinRead (s : State) (off : Nat) : Nat :=
  let x := s.rd R.POUR_CTX_SEL.CTX
  if x = 0 ∨ (0x2C ≤ off ∧ off < 0x40) then 0 else s.ctxWord x off

/-- POUR_CTX_WIN write: none for the error response of R228. -/
def State.ctxWinWrite (s : State) (off v : Nat) : Option State :=
  let x := s.rd R.POUR_CTX_SEL.CTX
  if x = 0 ∨ s.ctxHeld x = true then none
  else if 0x2C ≤ off ∧ off < 0x40 then some s
  else some ((s.setCtxWord x off v).noteTimer x off v)

/-- Write-back of a core's context window: bytes 0x40–0xFF, and the bytes of 0x00–0x3F that the core wrote
(R222, R227). -/
def State.writeBack (s : State) (x : Nat) (k : CoreState) : State :=
  let s1 := (List.range 256).foldl (fun t b =>
    if 0x40 ≤ b ∨ k.written.get false b = true then t.setCtxByte x b (k.window.get 0 b) else t) s
  [4, 12].foldl (fun t b => if k.written.get false b then t.noteTimer x b (t.ctxWord x b) else t) s1

/-- A timer of context x reaches 0: it posts and reloads, or EN clears (R227). -/
def State.timerExpire (s : State) (x t : Nat) : State :=
  let b := 4 + 8 * t
  let ctl := s.ctxWord x (b + 4)
  let s1 := s.post (.timer x t) (bitsOf ctl 11 0) (bitsOf ctl 13 12)
  if bit ctl 30 then s1.setCtxWord x b (s1.pour.reload.get 0 (2 * x + t)).toNat
  else (s1.setCtxWord x b 0).setCtxWord x (b + 4) (ctl % 2 ^ 31)

/-- One tick of a context timer (R227). -/
def State.timerTick (s : State) (x t : Nat) : State :=
  let b := 4 + 8 * t
  let v := s.ctxWord x b
  if bit (s.ctxWord x (b + 4)) 31 = true ∧ v ≠ 0 then
    (if v = 1 then s.timerExpire x t else s.setCtxWord x b (v - 1))
  else s

/-- One tick of every context timer. -/
def State.timersTick (s : State) : State :=
  let xs := ((s.pour.ctx.map fun e => e.1 / 256).eraseDups)
  xs.foldl (fun t x => (t.timerTick x 0).timerTick x 1) s

/-! ### Boundary clear and node enables (06 R208, R213, R223) -/

/-- BCLR nodes have their counters cleared at a boundary (R208, POUR_MISC.LAPSED). -/
def State.boundaryClear (s : State) : State :=
  s.pour.nodes.foldl (fun (t : State) e =>
    if nBclr e.2.toNat then
      let d := t.dyn e.1
      let t1 := if d.c0 + d.c1 + d.c2 + d.c3 ≠ 0 then t.bump R.POUR_MISC.LAPSED else t
      t1.setDyn e.1 { d with c0 := 0, c1 := 0, c2 := 0, c3 := 0 }
    else t) s

/-- Put EN of node n. -/
def State.setNodeEn (s : State) (n : Nat) (en : Bool) : State :=
  let e := s.node n
  let v := if en then (if nEn e then e else e + 2 ^ 116) else (if nEn e then e - 2 ^ 116 else e)
  { s with pour := { s.pour with nodes := s.pour.nodes.set 0 n (BitVec.ofNat 128 v) } }

/-- SET_EN: the node is evaluated when EN changes from 0 to 1 (R211). -/
def State.nodeEnable (s : State) (n : Nat) : State :=
  if nEn (s.node n) then s else (s.setNodeEn n true).evaluate n

/-- CLR_EN: a FILLING or LOADED slot of the node is discarded (R223). -/
def State.nodeDisable (s : State) (n : Nat) : State :=
  let s1 := s.setNodeEn n false
  match s1.pour.slots.find? fun e => e.2.busy && e.2.node == n with
  | some (k, _) => s1.discard k
  | none => s1

/-- POUR_NODE_CTRL (both bits: no effect). -/
def State.nodeCtrl (s : State) (setEn clrEn : Bool) (n : Nat) : State :=
  if setEn && clrEn then s
  else if setEn then s.nodeEnable n
  else if clrEn then s.nodeDisable n
  else s

/-- POUR_CTRL: HOLD discards every filling and loaded slot (R223). -/
def State.pourCtrl (s : State) (hold en : Bool) : State :=
  let s1 := (s.wr R.POUR_CTRL.HOLD (ofBool hold)).wr R.POUR_CTRL.EN (ofBool en)
  if hold then s1.discardAll else s1

/-- Code of a node state (R209). -/
def NodeState.code : NodeState → Nat
  | .idle => 0 | .ready => 1 | .slotted => 2 | .running => 3 | .detached => 4 | .deferred => 5

/-- POUR_NODE_STATE of the selected node. -/
def State.nodeStateReg (s : State) : Nat :=
  let n := s.rd R.POUR_NODE_SEL.NODE
  let d := s.dyn n
  d.state.code * 2 ^ 29 + ofBool (nEn (s.node n)) * 2 ^ 28 + d.c3 * 4096 + d.c2 * 256 + d.c1 * 16 + d.c0

/-- POUR_STATUS. -/
def State.pourStatus (s : State) : Nat :=
  let idle := s.inflight == 0 && [0, 1, 2, 3, 4, 5, 6, 7].all fun l => (s.level l).isEmpty
  s.inflight * 2 ^ 16 + ofBool (s.pour.dyn.any fun e => e.2.state == .deferred) * 2 + ofBool idle

/-- POUR_SLOTS. -/
def State.pourSlots (s : State) : Nat :=
  (List.range 21).foldl (fun v k => v + ofBool (s.slot k).busy * 2 ^ k) 0

/-! ### Table-set sections (06 R229 to R235) -/

/-- The `n`-byte little-endian number at offset `o` of a byte string; bytes beyond its end count as 0. -/
def le (l : List Byte) (o n : Nat) : Nat := leNat ((l.drop o).take n)

/-- Cut a byte string into entries of `k` bytes. -/
def entriesOf (k : Nat) (l : List Byte) : List (List Byte) :=
  if k = 0 then [] else (List.range (l.length / k)).map fun i => (l.drop (i * k)).take k

/-- Parsed POUR_GRAPH section (R231). -/
structure Graph where
  opcodes : List Nat
  nodes : List Nat
  succs : List Nat
  sources : List SourceEntry

/-- Counts in the header of POUR_GRAPH: NODES, SUCCS, OPCODES, SOURCES. -/
def graphCounts (l : List Byte) : Nat × Nat × Nat × Nat := (le l 0 2, le l 2 2, le l 4 2, le l 6 2)

/-- Bytes that POUR_GRAPH's counts call for (04 R661). -/
def graphLen (l : List Byte) : Nat :=
  let (n, s, o, e) := graphCounts l
  16 + 4 * o + 16 * n + 4 * s + 8 * e

/-- Parse POUR_GRAPH; an absent section has no entries. -/
def parseGraph (l : List Byte) : Graph :=
  let (n, s, o, e) := graphCounts l
  let ops := (l.drop 16).take (4 * o)
  let nds := (l.drop (16 + 4 * o)).take (16 * n)
  let scs := (l.drop (16 + 4 * o + 16 * n)).take (4 * s)
  let srs := (l.drop (16 + 4 * o + 16 * n + 4 * s)).take (8 * e)
  { opcodes := (entriesOf 4 ops).map leNat
    nodes := (entriesOf 16 nds).map leNat
    succs := (entriesOf 4 scs).map leNat
    sources := (entriesOf 8 srs).map fun b =>
      { kind := le b 0 1, sub := le b 1 1, id := le b 2 2, node := bitsOf (le b 4 2) 11 0
        input := bitsOf (le b 4 2) 13 12 } }

/-- Targets of node n's successor entries. -/
def Graph.targets (g : Graph) (n : Nat) : List Nat :=
  let e := g.nodes.getD n 0
  ((g.succs.drop (nSuccBase e)).take (nSuccLen e)).map fun x => bitsOf x 11 0

/-- Nodes reached from the frontier `f`, `seen` being reached already. -/
def Graph.reach (g : Graph) : Nat → List Nat → List Nat → List Nat
  | 0, _, seen => seen
  | k + 1, f, seen =>
    let nxt := ((f.flatMap g.targets).eraseDups).filter fun x => !seen.contains x
    if nxt.isEmpty then seen else g.reach k nxt (seen ++ nxt)

/-- Nodes reachable from n by one edge or more. -/
def Graph.after (g : Graph) (n : Nat) : List Nat := g.reach (g.nodes.length + 1) [n] []

/-- Nodes of n's strongly connected component when it contains an edge, else none of them. -/
def Graph.scc (g : Graph) (n : Nat) : List Nat := (g.after n).filter fun m => (g.after m).contains n

/-- The cycle rules of R229 for node n; BOUND is 0 off a cycle (R208). -/
def Graph.loopOk (g : Graph) (n : Nat) : Bool :=
  let e := g.nodes.getD n 0
  let c := g.scc n
  if c.isEmpty then !nLoop e && nBound e == 0
  else
    let into := c.all fun m =>
      (((g.succs.drop (nSuccBase (g.nodes.getD m 0))).take (nSuccLen (g.nodes.getD m 0))).all fun x =>
        !(bitsOf x 11 0 == n) || bitsOf x 13 12 == nLoopIn e)
    ((g.targets n).filter fun m => c.contains m).length == 1 && nLoop e && nThresh e (nLoopIn e) == 1 && into &&
    (match c.filter fun m => nBound (g.nodes.getD m 0) != 0 with
      | [h] => decide ((c.map fun m => nInit (g.nodes.getD m 0) (nLoopIn (g.nodes.getD m 0))).sum
          ≤ nBound (g.nodes.getD h 0))
      | _ => false)

/-- Field ranges and R234 for one node. -/
def Graph.nodeOk (g : Graph) (n : Nat) : Bool :=
  let e := g.nodes.getD n 0
  let mover := decide (nTkind e ≤ 1)
  let range := match nTkind e with
    | 0 => true
    | 2 => decide (nTnum e ≤ 16)
    | _ => decide (nTnum e ≤ 3)
  range &&
  (if nEmpty e then !nEn e
   else
    decide (nSuccBase e + nSuccLen e ≤ g.succs.length) && !(mover && nCtx e != 0) &&
    decide (nOpcode e < g.opcodes.length) && (bitsOf (g.opcodes.getD (nOpcode e) 0) 31 30 == (if mover then 0 else 1)))

/-- Op-code ranges (R216, 07 R236). -/
def opcodeOk (o : Nat) : Bool :=
  match bitsOf o 31 30 with
  | 0 => decide (1 ≤ bitsOf o 7 0) && decide (bitsOf o 7 0 ≤ 7)
  | 1 => bitsOf o 0 0 == 0 && decide (bitsOf o 15 0 < 0x8000)
  | _ => false

/-- Source-entry ranges (R231, 02 R48); KIND 6 with ID 4 names the switch receive rings (14 R498). -/
def SourceEntry.ok (e : SourceEntry) : Bool :=
  match e.kind with
  | 1 => decide (1 ≤ e.id) && decide (e.id ≤ 2046)
  | 2 => decide (1 ≤ e.id) && decide (e.id ≤ 2046)
  | 3 => decide (e.id < 64) && decide (1 ≤ e.sub) && decide (e.sub ≤ 3)
  | 4 => true
  | 5 => true
  | 6 => decide (e.id ≤ 4) && decide (e.sub < 8)
  | 7 => decide (e.id < 12) && decide (e.sub < 2)
  | _ => false

/-- A BINDINGS entry (R233): CTX, KIND, TARGET, TIMER0_CTL, TIMER1_CTL. -/
structure Binding where
  ctx : Nat
  kind : Nat
  target : Nat
  t0 : Nat
  t1 : Nat

/-- Parse BINDINGS. -/
def parseBindings (l : List Byte) : List Binding :=
  (entriesOf 16 l).map fun b =>
    { ctx := le b 0 1, kind := le b 1 1, target := le b 2 2, t0 := le b 4 4, t1 := le b 8 4 }

/-- Are the elements pairwise different? -/
def allDistinct : List Nat → Bool
  | [] => true
  | a :: t => !t.contains a && allDistinct t

/-- BINDINGS checks (R234): ranges, one entry per context, one context per MAC and per CAN controller. -/
def bindingsOk (bs : List Binding) : Bool :=
  bs.all (fun b => b.ctx != 0 && decide (b.kind ≤ 4) &&
    (match b.kind with
      | 1 => decide (b.target ≤ 3) | 2 => decide (b.target ≤ 11) | 3 => decide (b.target ≤ 7)
      | 4 => b.target == 0 | _ => true)) &&
  allDistinct (bs.map (·.ctx)) &&
  allDistinct ((bs.filter fun b => b.kind == 1 || b.kind == 2).map fun b => b.kind * 65536 + b.target)

/-- Is input `i` of node n the LOOP_IN of a node with LOOP = 1 (R230)? -/
def Graph.isLoopIn (g : Graph) (n i : Nat) : Bool :=
  nLoop (g.nodes.getD n 0) && nLoopIn (g.nodes.getD n 0) == i

/-- Block checks of POUR_GRAPH and BINDINGS (R230, R234, 07 R236) (DEDUCED, log 36). -/
def pourCheck (graph bindings : List Byte) : Bool :=
  let g := parseGraph graph
  let ns := List.range g.nodes.length
  decide (g.nodes.length ≤ 4096) && decide (g.succs.length ≤ 16384) && decide (g.opcodes.length ≤ 256) &&
  g.opcodes.all opcodeOk && (g.sources.all fun e => e.ok && !g.isLoopIn e.node e.input) && ns.all g.nodeOk && ns.all g.loopOk &&
  bindingsOk (parseBindings bindings)

/-- A sparse table of words from a list. -/
def fromList {α : Type} [DecidableEq α] (d : α) (l : List α) : SMap α :=
  ((List.range l.length).zip l).filter fun e => e.2 != d

/-- A changed node at activation (R235): out of its list and its slot, counters at INIT; a running or
detached operation goes on. -/
def State.resetNode (s : State) (n e : Nat) : State :=
  let d := s.dyn n
  let s1 := [0, 1, 2, 3, 4, 5, 6, 7].foldl (fun t l =>
    if (t.level l).any (·.node == n) then t.setLevel l ((t.level l).filter (·.node != n)) else t) s
  let s2 := match s1.pour.slots.find? fun x => x.2.busy && x.2.node == n with
    | some (k, _) => (s1.setSlot k {}).setInflight (s1.inflight - 1)
    | none => s1
  let st := if d.state = .running ∨ d.state = .detached then d.state else .idle
  s2.setDyn n { c0 := nInit e 0, c1 := nInit e 1, c2 := nInit e 2, c3 := nInit e 3, state := st }

/-- Activation of POUR_GRAPH (R235): unchanged nodes keep everything; the others restart. DEFERRED nodes take the
places that these leave (R211); then the restarted ones are evaluated. -/
def State.activateGraph (s : State) (sec : List Byte) : State :=
  let g := parseGraph sec
  let newNodes := fromList (0 : BitVec 128) (g.nodes.map (BitVec.ofNat 128))
  let keys := ((s.pour.nodes.map (·.1)) ++ (newNodes.map (·.1))).eraseDups
  let changed := keys.filter fun n => s.pour.nodes.get 0 n != newNodes.get 0 n
  let s1 := changed.foldl (fun t n => t.resetNode n (newNodes.get 0 n).toNat) s
  let p := { s1.pour with nodes := newNodes, opcodes := fromList 0 (g.opcodes.map (BitVec.ofNat 32)),
                          succ := fromList 0 (g.succs.map (BitVec.ofNat 32)), sources := g.sources }
  let s2 := (changed.map fun n => nPrio (s.node n)).foldl State.placeDeferred { s1 with pour := p }
  changed.foldl State.evaluate s2

/-- Activation of BINDINGS (R233): a context whose BIND is unchanged keeps its bytes. The set's own entries say which
context owns a block, until the next activation (01 R32). -/
def State.activateBindings (s : State) (sec : List Byte) : State :=
  let bs := (parseBindings sec).map fun b => (b.ctx, b.kind, b.target)
  (parseBindings sec).foldl (fun (t : State) b =>
    let bind := b.kind * 2 ^ 28 + b.target
    if t.ctxWord b.ctx 0 = bind then t
    else
      let keep := t.pour.ctx.filter fun e => !(e.1 / 256 == b.ctx)
      let rel := t.pour.reload.filter fun e => !(e.1 / 2 == b.ctx)
      let t1 := { t with pour := { t.pour with ctx := keep, reload := rel } }
      ((t1.setCtxWord b.ctx 0 bind).setCtxWord b.ctx 8 b.t0).setCtxWord b.ctx 16 b.t1)
    { s with pour := { s.pour with binds := bs } }

/-- The context bound to a block (R233): KIND 1 MAC, 2 CAN. The active set names it; what BIND holds after a write of
the context window changes no owner (01 R32; DEDUCED, log 51). -/
def State.boundCtx (s : State) (kind target : Nat) : Option Nat :=
  (s.pour.binds.find? fun b => b.2.1 == kind && b.2.2 == target).map (·.1)

/-- Kind and target of the block that context x is bound to, kind 0 for none. -/
def State.bindOf (s : State) (x : Nat) : Nat × Nat :=
  match s.pour.binds.find? fun b => b.1 == x with
  | some b => b.2
  | none => (0, 0)

/-! ### Arms that need no register access -/

/-! ### The commit tick (12 R438, R439) -/

/-- Is the present cycle the one an ARMED unit commits in (12 R438)? -/
def State.commitDue (s : State) : Bool :=
  s.rd R.WK_STATUS.STATE == 1 && s.rd R.WK_STATUS.CCYCLE == s.rd R.RING_CYC_NUM.CYCLE % 65536

/-- A power-down begins (12 R438, R439; 17 R581): the wake unit enters COMMITTED, which turns the ring
transmitters off, and the Pour unit enters HOLD and discards its slots. -/
def State.commitSleep (s : State) (forced deep : Bool) : State :=
  let s1 := { s with power := { s.power with forced := forced, deep := deep } }
  (s1.wr R.WK_STATUS.STATE 2).discardAll

/-- The commit point into WK_CTRL.TARGET, where it is due. -/
def State.commitPoint (s : State) : State :=
  if s.commitDue then s.commitSleep false (s.rd R.WK_CTRL.TARGET == 1) else s

/-- TOKEN_POST_APPLY (R212). -/
def execTokenPostApply (s : State) : Host.Outcome State Fault Refusal := s.powered s.applyFirst

/-- POST_RETRY (R215): the n-th post in retry is posted again. -/
def execPostRetry (n : Nat) (s : State) : Host.Outcome State Fault Refusal :=
  match s.pour.retry[n]? with
  | none => .next s
  | some p =>
    let q := { p with arr := s.tick, tries := p.tries + 1 }
    let po := { s.pour with retry := s.pour.retry.eraseIdx n, posts := insertPost q s.pour.posts }
    s.powered (({ s with pour := po } : State).bump R.POUR_DROP.RETRIED)

/-- DISPATCH (R220). -/
def execDispatch (s : State) : Host.Outcome State Fault Refusal := s.powered s.dispatch

/-- The 256 bytes of context x, by offset; none for context 0 (DEDUCED, log 51). -/
def State.preload (s : State) (x : Nat) : SMap Byte :=
  if x = 0 then [] else (s.pour.ctx.filter fun e => e.1 / 256 == x).map fun e => (e.1 % 256, e.2)

/-- Has the transfer ended that the detached operation of node n waits for: no MAC and no CAN controller still holds
descriptors or buffers of it (R218; 13 R463, 11 R410)? -/
def State.transferOver (s : State) (n : Nat) : Bool :=
  let macs := (List.range 4).all fun m =>
    let k := s.eth.macs.get {} m
    k.waiting.all fun w => w.1 != n || !(k.owned.any fun o => o.1 == w.2)
  let ctls := (List.range 12).all fun c =>
    let k := s.can.ctl.get {} c
    k.waiting.all fun w => w.1 != n || !(k.owned.any fun o => o.1 == w.2)
  macs && ctls

/-- No MAC and no CAN controller waits any longer to complete node n. -/
def State.stopWaiting (s : State) (n : Nat) : State :=
  let macs := (List.range 4).foldl (fun (l : SMap MacState) m =>
    l.set {} m { l.get {} m with waiting := (l.get {} m).waiting.filter (·.1 != n) }) s.eth.macs
  let ctl := (List.range 12).foldl (fun (l : SMap CanState) c =>
    l.set {} c { l.get {} c with waiting := (l.get {} c).waiting.filter (·.1 != n) }) s.can.ctl
  { s with eth := { s.eth with macs := macs }, can := { s.can with ctl := ctl } }

/-- DETACHED_COMPLETE (R218): SEL = 0b00 on success, 0b01 on error, once the bound block's transfer has ended. -/
def execDetachedComplete (n : Nat) (error : Bool) (s : State) : Host.Outcome State Fault Refusal :=
  if (s.dyn n).state = .detached ∧ s.transferOver n = true then
    s.powered ((s.stopWaiting n).completeNode n (ofBool error))
  else .next s

/-- CONTEXT_TIMER_EXPIRE (R227): an enabled timer with one tick left reaches 0. A tick of the core clock does the same
(DEDUCED, log 9). -/
def execContextTimerExpire (x t : Nat) (s : State) : Host.Outcome State Fault Refusal :=
  if 1 ≤ x ∧ x ≤ 255 ∧ t < 2 ∧ bit (s.ctxWord x (8 + 8 * t)) 31 = true ∧ s.ctxWord x (4 + 8 * t) = 1 then
    s.powered (s.timerExpire x t)
  else .next s

end Sys2Proof.Machine
end

