-- ==== Sys2Proof/Machine/CoreCtl.lean ====
section
/-! DEFINITION. A Clalo core as the rest of the unit sees it (08): its local RAMs, its reset and release,
and what its page shows. -/

namespace Sys2Proof.Machine

/-! ### Core-local RAM (08 R259, R297) -/

/-- Place of a core-local byte: `off` counts from the start of instruction RAM. -/
def coreKey (c off : Nat) : Nat := c * 0x10000 + off

/-- Error mark of the core-local halfword at place `k`. -/
def State.coreEcc (s : State) (k : Nat) : EccMark := s.mem.ecc.get .clean (0x100000000 + k)

/-- Put an error mark. -/
def State.setCoreEcc (s : State) (k : Nat) (e : EccMark) : State :=
  { s with mem := { s.mem with ecc := s.mem.ecc.set .clean (0x100000000 + k) e } }

/-- What the byte at place `k` holds after the fill of the start-up: the keeper's firmware in KEEP's instruction RAM
(18 R591), 0 elsewhere (08 R306). State lists the bytes that differ from it, each as its exclusive or with it. -/
def coreFill (k : Nat) : Byte :=
  if k / 0x10000 = 17 ∧ k % 0x10000 < 0x8000 then Config.bootRom (0x8000 + k % 0x10000) else 0

/-- The little-endian number in `n` bytes of core-local RAM. -/
def State.coreBytes (s : State) (k : Nat) : Nat → Nat
  | 0 => 0
  | n + 1 => (s.mem.coreRam.get 0 k ^^^ coreFill k).toNat + 256 * s.coreBytes (k + 1) n

/-- Write bytes of core-local RAM in address order. -/
def State.corePut (s : State) (k : Nat) : List Byte → State
  | [] => s
  | b :: t => ({ s with mem := { s.mem with coreRam := s.mem.coreRam.set 0 k (b ^^^ coreFill k) } }).corePut (k + 1) t

/-- Check the halfwords that a read of core c touches: a corrected error is written back and pulses ECC_CORR
(09 R309); false where one is uncorrectable (08 R297). -/
def State.coreCheck (s : State) (c : Nat) : List Nat → State × Bool
  | [] => (s, true)
  | h :: t =>
    match s.coreEcc h with
    | .clean => s.coreCheck c t
    | .single => (((s.setCoreEcc h .clean).pulse (c * 64 + 17)).statusCount 0x030).coreCheck c t
    | .double => (s.statusCount 0x031, false)

/-- Read `n` bytes of core c's local RAM: none where an error is uncorrectable. -/
def State.coreRead (s : State) (c off n : Nat) : State × Option Nat :=
  match s.coreCheck c (wordsOf 2 (coreKey c off) n) with
  | (t, true) => (t, some (t.coreBytes (coreKey c off) n))
  | (t, false) => (t, none)

/-- Write the `n` low bytes of `v` to core c's local RAM; the halfwords have valid check bits afterwards. -/
def State.coreWrite (s : State) (c off n v : Nat) : State :=
  (wordsOf 2 (coreKey c off) n).foldl (fun (t : State) h => t.setCoreEcc h .clean)
    (s.corePut (coreKey c off) (leBytes n v))

/-! ### Reset and release (08 R304 to R306) -/

/-- A core that is reset no longer waits for a load from a far unit; the stores in its buffer complete as
those of the run that has ended (R304, R305). -/
def State.dropLoads (s : State) (c : Nat) : State :=
  { s with
      stores := s.stores.map fun e => if e.core = c then { e with old := true } else e
      ring := { s.ring with
        done := s.ring.done.filter fun d => d.who != .core c
        bridge := s.ring.bridge.map fun r =>
          if r.who = .core c then
            if r.stall = true then { r with stall := false, who := .hardware } else { r with old := true }
          else r } }

/-- Core c goes into reset: its operation is aborted, its slot is discarded, and its semaphores are freed
(R304, 06 R219, R223; 16 R561). -/
def State.coreStop (s : State) (c : Nat) : State :=
  let k := s.core c
  if k.run = .reset then s
  else
    let s1 := s.setCore c { k with run := .reset, inop := false, impr := none, entering := none }
    let s2 := if k.inop then s1.abortNode k.opNode else s1
    let s3 := if c < 17 then s2.discard c else s2
    ((s3.wr R.CC_FAULT_INFO.VALID 0 c).semFree c).dropLoads c

/-- Core c leaves reset (R305, 09 R329): it starts at vector 0, and its cluster gets power and clock (17
R572). -/
def State.coreStart (s : State) (c : Nat) : State :=
  if (s.core c).run = .reset then ((s.setCore c { run := .run }).icCoreReset c).wakeCore c else s

/-- May the initiator release core c: CC0 to CC15 leave reset only when SYS sets RUN (R306)? -/
def mayRelease (who : Initiator) (c : Nat) : Bool := who == .core 16 || decide (16 ≤ c)

/-- CC_CTRL of core c is written (R303 to R306): false for the error response of 18 R600. RUN = 1 from an
initiator that may not release the core leaves RUN as it is (DESIGN CHOICE, log 56). -/
def State.coreCtrl (s : State) (who : Initiator) (c : Nat) (run dbg : Bool) : State × Bool :=
  if dbg && !s.coreDebugOpen c then (s, false)
  else
    let s1 := s.wr R.CC_CTRL.DBG_EN (ofBool dbg) c
    (if !run then (s1.wr R.CC_CTRL.RUN 0 c).coreStop c
     else if mayRelease who c then (s1.wr R.CC_CTRL.RUN 1 c).coreStart c
     else s1, true)

/-! ### What the core page shows -/

/-- Code of a level (08 R264). -/
def Level.code : Level → Nat
  | .thread => 0 | .normal => 1 | .urgent => 2 | .fault => 3

/-- Level of a code. -/
def Level.ofCode : Nat → Level
  | 0 => .thread | 1 => .normal | 2 => .urgent | _ => .fault

/-- FLAGS as a word (08 R263). -/
def Flags.code (f : Flags) : Nat :=
  ofBool f.p * 16 + ofBool f.n * 8 + ofBool f.z * 4 + ofBool f.c * 2 + ofBool f.v

/-- The flags that a word holds. -/
def Flags.ofWord (v : Nat) : Flags := ⟨bit v 4, bit v 3, bit v 2, bit v 1, bit v 0⟩

/-- CC_STATUS.STATE of core c. An idle core whose slot is EMPTY or FILLING is in DOZE (08 R271). -/
def State.coreStatus (s : State) (c : Nat) : Nat :=
  let k := s.core c
  match k.run with
  | .reset => 0
  | .run => if k.inop then 4 else 1
  | .idle => if c < 17 ∧ (s.slot c).phase = .loaded then 2 else 3
  | .lockup => 5
  | .halt => 6

/-- May CC_RAM_DATA of core c be accessed (08 R307)? -/
def State.coreRamOpen (s : State) (c : Nat) : Bool :=
  !s.on R.CC_CTRL.RUN c && (c != 17 || s.lifeCycle == .test)

/-- Offset in core c's RAMs that CC_RAM_ADDR selects. -/
def State.coreRamAt (s : State) (c : Nat) : Nat :=
  s.rd R.CC_RAM_ADDR.SPACE c * 0x8000 + 4 * s.rd R.CC_RAM_ADDR.OFFSET c

/-- OFFSET advances after an access with INC = 1, wrapping within the RAM. -/
def State.coreRamNext (s : State) (c : Nat) : State :=
  if s.on R.CC_RAM_ADDR.INC c then s.wr R.CC_RAM_ADDR.OFFSET ((s.rd R.CC_RAM_ADDR.OFFSET c + 1) % 0x2000) c else s

/-- An access to CC_RAM_DATA (08 R307): a read (none) or a write. An uncorrectable word is answered with an
error response. -/
def State.coreRam (s : State) (c : Nat) (v : Option Word) : RegRes :=
  if s.coreRamOpen c then
    match v with
    | some w => { s := (s.coreWrite c (s.coreRamAt c) 4 w.toNat).coreRamNext c }
    | none =>
      match s.coreRead c (s.coreRamAt c) 4 with
      | (t, some d) => { s := t.coreRamNext c, data := d }
      | (t, none) => { s := t.coreRamNext c, cause := some 5 }
  else { s := s, cause := some 10 }

end Sys2Proof.Machine
end

