-- ==== Sys2Proof/Machine/Descriptors.lean ====
section
/-! DEFINITION. Mover descriptors and the ranges of the internal address map that they are checked against
(01 R19, 07 R236 to R240). -/

namespace Sys2Proof.Machine

/-! ### Internal address map (01 R19) -/

/-- Ranges of Internal Address Map. -/
inductive Range where
  | raw | sram | rom | live | snap | points | remote | iram | dram | regs
  deriving DecidableEq, Repr

/-- The range that holds an internal address. -/
def rangeOf (a : Nat) : Option Range :=
  if a < 0x4000000 then some .raw
  else if 0x10000000 ≤ a ∧ a < 0x10400000 then some .sram
  else if 0x20000000 ≤ a ∧ a < 0x20010000 then some .rom
  else if 0x40000000 ≤ a ∧ a < 0x41000000 then some .live
  else if 0x41000000 ≤ a ∧ a < 0x42000000 then some .snap
  else if 0x50000000 ≤ a ∧ a < 0x50002000 then some .points
  else if 0xC0000000 ≤ a ∧ a < 0xC0800000 then some .remote
  else if 0xE0000000 ≤ a ∧ a < 0xE0008000 then some .iram
  else if 0xE0008000 ≤ a ∧ a < 0xE0010000 then some .dram
  else if 0xF0000000 ≤ a ∧ a < 0xF0400000 then some .regs
  else none

/-- The second range follows the first without a gap. -/
def Range.next : Range → Range → Bool
  | .live, .snap => true
  | .iram, .dram => true
  | _, _ => false

/-- Does each of the `n` bytes at `a` lie in a range? `n` is less than any gap of the map. -/
def inRanges (a n : Nat) : Bool :=
  match rangeOf a, rangeOf (a + n - 1) with
  | some x, some y => x == y || x.next y
  | _, _ => false

/-- Is the address in a register page? -/
def isReg (a : Nat) : Bool := rangeOf a == some .regs

/-! ### Descriptors (07 R238) -/

/-- A mover descriptor. -/
structure Desc where
  src : Nat
  dst : Nat
  aux : Nat
  count : Nat
  swalk : Nat
  sfmt : Nat
  dwalk : Nat
  dfmt : Nat
  p0 : Nat
  p1 : Nat
  shift : Nat
  sgn : Bool
  trunc : Bool
  db : Nat
  limLo : Nat
  limHi : Nat

/-- A descriptor from its 32 bytes. -/
def parseMoverDesc (b : List Byte) : Desc :=
  let sm := le b 0x0E 1
  let dm := le b 0x0F 1
  let md := le b 0x14 1
  { src := le b 0 4, dst := le b 4 4, aux := le b 8 4, count := le b 0x0C 2
    swalk := bitsOf sm 1 0, sfmt := bitsOf sm 3 2, dwalk := bitsOf dm 1 0, dfmt := bitsOf dm 3 2
    p0 := le b 0x10 2, p1 := le b 0x12 2, shift := bitsOf md 3 0, sgn := bit md 4, trunc := bit md 5
    db := le b 0x16 2 % 4096, limLo := le b 0x18 2 % 4096, limHi := le b 0x1A 2 % 4096 }

/-- A 12-bit value in the reading that SIGNED selects (07 R241). -/
def Desc.read (d : Desc) (v : Nat) : Int := if d.sgn then signed 12 v else (v % 4096 : Nat)

/-- Formats that Mover Operations allows: 0 point, 1 raw, 2 packed (07 R236). -/
def fmtOk (op sfmt dfmt : Nat) : Bool :=
  match op with
  | 1 => sfmt == 0 && dfmt == 0
  | 2 => decide (sfmt ≤ 1) && decide (dfmt ≤ 1)
  | 3 => sfmt == 0 && (dfmt == 1 || dfmt == 2)
  | 4 => (sfmt == 1 || sfmt == 2) && dfmt == 0
  | 5 => decide (sfmt ≤ 1) && dfmt == 0
  | 6 => sfmt == 0 && dfmt == 0
  | 7 => decide (sfmt ≤ 1) && dfmt == 0
  | _ => false

/-- Step of a contiguous walk of point or raw elements (07 R240). -/
def elemStep (a : Nat) : Nat := if isReg a then 4 else 2

/-- Bytes that one operand's base address spans: its elements, its fixed element, or its list. -/
def spanOf (a walk fmt n : Nat) : Nat :=
  if walk = 2 then 4 * n
  else if fmt = 2 then (12 * n + 7) / 8
  else if walk = 1 then elemStep a
  else elemStep a * n

/-- Is an operand's address range and alignment allowed (07 R239, R240)? -/
def operandOk (a walk fmt n : Nat) : Bool :=
  inRanges a (spanOf a walk fmt n) && decide (walk ≤ 2) &&
  (if walk = 2 then true
   else if fmt = 2 then rangeOf a == some .sram || rangeOf a == some .raw
   else a % elemStep a == 0)

/-- Bytes of a state entry: CHANGE 2, FILTER 4, others none. -/
def stateSize (op : Nat) : Nat := if op = 6 then 2 else if op = 7 then 4 else 0

/-- The conditions of R239 for operation `op`. A state entry of CHANGE has point layout, at an even address; for those of
FILTER the rules name no alignment (R240, R249, R250). -/
def Desc.ok (d : Desc) (op : Nat) : Bool :=
  fmtOk op d.sfmt d.dfmt && decide (1 ≤ d.count) && decide (d.count ≤ 1024) &&
  (if op = 2 ∨ op = 7 then decide (d.read d.limLo ≤ d.read d.limHi) else true) &&
  (d.db == 0 || d.dfmt == 0) && (if op = 7 then d.p0 % 256 != 0 else true) &&
  (d.sfmt != 2 || d.swalk == 0) && (d.dfmt != 2 || d.dwalk == 0) &&
  operandOk d.src d.swalk d.sfmt d.count && operandOk d.dst d.dwalk d.dfmt d.count &&
  (stateSize op == 0 || (inRanges d.aux (stateSize op * d.count) && (op != 6 || d.aux % 2 == 0))) &&
  (let ns := spanOf d.src d.swalk d.sfmt d.count
   let nd := spanOf d.dst d.dwalk d.dfmt d.count
   d.swalk != 0 || d.dwalk != 0 || (d.src == d.dst && ns == nd) || decide (d.src + ns ≤ d.dst) || decide (d.dst + nd ≤ d.src))

/-- Number of descriptors in a MOVER_DESC section, and the bytes it calls for (07 R238). -/
def descsLen (l : List Byte) : Nat := 16 + 32 * le l 0 2

/-- Descriptor i of a MOVER_DESC section. -/
def descAt (l : List Byte) (i : Nat) : Desc := parseMoverDesc ((l.drop (16 + 32 * i)).take 32)

/-- Every descriptor that an enabled mover node of the graph names stands the checks of R239. -/
def moversCheck (graph descs : List Byte) : Bool :=
  let g := parseGraph graph
  decide (le descs 0 2 ≤ 4096) &&
  g.nodes.all fun e =>
    if nEn e && decide (nTkind e ≤ 1) then
      decide (nDesc e < le descs 0 2) && (descAt descs (nDesc e)).ok (bitsOf (g.opcodes.getD (nOpcode e) 0) 7 0)
    else true

/-- Activation of MOVER_DESC: descriptor RAM takes the section (R238). -/
def State.activateDescs (s : State) (l : List Byte) : State :=
  { s with desc := fromList 0 (l.drop 16), descs := le l 0 2 }

/-- Descriptor n of the descriptor RAM. -/
def State.descriptor (s : State) (n : Nat) : Desc :=
  parseMoverDesc ((List.range 32).map fun i => s.desc.get 0 (32 * n + i))

/-- The descriptor of a mover node, whose entry is `e`, with its operation code. -/
def State.moverNode (s : State) (e : Nat) : Option (Desc × Nat) :=
  if nTkind e ≤ 1 ∧ nEmpty e = false ∧ nDesc e < s.descs then
    some (s.descriptor (nDesc e), s.opcode (nOpcode e) % 256)
  else none

/-- Is a packed operand allowed where it lies now: in the SRAM, or in Caddy pages that back no image (R240)? -/
def State.packedHere (s : State) (a fmt n : Nat) : Bool :=
  fmt != 2 || rangeOf a == some .sram ||
  (List.range (spanOf a 0 2 n / 0x400 + 2)).all fun k =>
    let o := (s.page (a / 0x400 + k)).owner
    decide (a + spanOf a 0 2 n ≤ (a / 0x400 + k) * 0x400) || (o != .image && o != .snap)

/-- The conditions of R239 and R240 as a mover checks them when it takes the operation (R663). -/
def State.descOk (s : State) (d : Desc) (op : Nat) : Bool :=
  d.ok op && s.packedHere d.src d.sfmt d.count && s.packedHere d.dst d.dfmt d.count

end Sys2Proof.Machine
end

