-- ==== Sys2Proof/Machine/Pins.lean ====
section
/-! DEFINITION. The pin engines (10): step programs, shift register, counter and FIFOs, starts and bank
swaps, output stages, pins and latches, and the PE_PROGRAMS section. -/

namespace Sys2Proof.Machine

/-! ### What an engine holds -/

/-- Set several bits of INT_STATUS of page p. -/
def State.raiseBits (s : State) (p bits : Nat) : State :=
  (s.wr R.INT_STATUS.BITS (s.rd R.INT_STATUS.BITS p ||| bits) p).syncPage p

/-- Step word n of engine e's active bank. -/
def State.peStep (s : State) (e n : Nat) : Nat := (s.pe.active.get 0 (e * 128 + n)).toNat
/-- TX FIFO of engine e. -/
def State.peTx (s : State) (e : Nat) : List Nat := s.pe.tx.get [] e
/-- RX FIFO of engine e. -/
def State.peRx (s : State) (e : Nat) : List Nat := s.pe.rx.get [] e
/-- Put the TX FIFO. -/
def State.setPeTx (s : State) (e : Nat) (l : List Nat) : State :=
  ({ s with pe := { s.pe with tx := s.pe.tx.set [] e l } }).wr R.PE_STATUS.TXCNT l.length e
/-- Put the RX FIFO. -/
def State.setPeRx (s : State) (e : Nat) (l : List Nat) : State :=
  ({ s with pe := { s.pe with rx := s.pe.rx.set [] e l } }).wr R.PE_STATUS.RXCNT l.length e
/-- Synchronised levels of bank g. -/
def State.peLevel (s : State) (g : Nat) : Nat := s.pe.level.get 0 g
/-- The levels of bank g are seen as `v`. -/
def State.seePins (s : State) (g v : Nat) : State :=
  { s with pe := { s.pe with level := s.pe.level.set 0 g (v % 2 ^ 24) } }

/-- SLEN of the active bank: 0 or above 12 is taken as 12. -/
def State.slen (s : State) (e : Nat) : Nat :=
  let n := s.rd R.PE_A_SHIFT.SLEN e
  if n = 0 ∨ 12 < n then 12 else n

/-- The shift register. -/
def State.shreg (s : State) (e : Nat) : Nat := s.rd R.PE_SHREG.SHIFT e
/-- SCNT. -/
def State.scnt (s : State) (e : Nat) : Nat := s.rd R.PE_STATUS.SCNT e
/-- DIR: MSB first? -/
def State.msbFirst (s : State) (e : Nat) : Bool := s.on R.PE_A_SHIFT.DIR e
/-- The shift-out bit (R355). -/
def State.shiftOut (s : State) (e : Nat) : Bool :=
  bit (s.shreg e) (if s.msbFirst e then s.slen e - 1 else 0)
/-- The register filled with SFILL. -/
def State.fillWord (s : State) (e : Nat) : Nat := if s.on R.PE_A_SHIFT.SFILL e then 2 ^ s.slen e - 1 else 0

/-- The program outputs with the shift-out bit of R359. -/
def State.progOut (s : State) (e : Nat) : Nat :=
  let o := s.pe.out.get 0 e
  if s.on R.PE_A_SHIFT.SOUT_EN e && s.shiftOut e then o ^^^ 2 ^ s.rd R.PE_A_SHIFT.SOUT_OUT e else o

/-- Is the engine running? -/
def State.peRunning (s : State) (e : Nat) : Bool := s.rd R.PE_STATUS.STATE e == 1

/-- The eight outputs that a running engine e makes (R344). -/
def State.liveOut (s : State) (e : Nat) : Nat :=
  if s.on R.PE_CFG.OSRC e then s.rd R.PE_STAGE.VALUE e % 256 else s.progOut e

/-- The eight outputs of engine e; those of a stopped one hold (R344). -/
def State.peOut (s : State) (e : Nat) : Nat := if s.peRunning e then s.liveOut e else s.pe.held.get 0 e

/-- The start of a tick: output 7 of every engine is what FLAG and GFLAG show in it (R350, R355). -/
def State.flagsTick (s : State) : State :=
  { s with pe := { s.pe with zeroOld := [], flags := (List.range 64).foldl (fun v e => v + ofBool (bit (s.peOut e) 7) * 2 ^ e) 0 } }

/-- The counter of engine e is about to change: whether it was 0 at the start of the tick is kept (R350, R360). -/
def State.keepZero (s : State) (e : Nat) : State :=
  if s.pe.zeroOld.any fun x => x.1 == e then s
  else { s with pe := { s.pe with zeroOld := (e, s.rd R.PE_CNT.COUNT e == 0) :: s.pe.zeroOld } }

/-- CZERO of engine e as at the start of the tick. -/
def State.countZero (s : State) (e : Nat) : Bool :=
  match s.pe.zeroOld.find? fun x => x.1 == e with
  | some x => x.2
  | none => s.rd R.PE_CNT.COUNT e == 0

/-- Level of input source `code` of engine e (R352); CZERO, FLAG and GFLAG as at the start of the tick (R350). -/
def State.peSource (s : State) (e code : Nat) : Bool :=
  if code < 24 then bit (s.peLevel (e / 8)) code
  else if code < 32 then bit s.pe.flags (e / 8 * 8 + (code - 24))
  else if code = 32 then s.countZero e
  else if code = 33 then s.scnt e == s.slen e
  else if code = 34 then (s.peTx e).isEmpty
  else if code = 35 then decide (8 ≤ (s.peRx e).length)
  else if code = 36 then s.shiftOut e
  else if code < 40 then false
  else if code < 48 then bit s.pe.flags (8 * (code - 40))
  else if code < 56 then false
  else bit (s.pe.sticky.get 0 e) (code - 56)

/-- The comparator that index k of group g's sticky sources names (R352). -/
def State.steepName (s : State) (g k : Nat) : Nat :=
  match k with
  | 0 => s.rd R.PE_GSTEEP0.COMP0 g
  | 1 => s.rd R.PE_GSTEEP0.COMP1 g
  | 2 => s.rd R.PE_GSTEEP0.COMP2 g
  | 3 => s.rd R.PE_GSTEEP0.COMP3 g
  | 4 => s.rd R.PE_GSTEEP1.COMP0 g
  | 5 => s.rd R.PE_GSTEEP1.COMP1 g
  | 6 => s.rd R.PE_GSTEEP1.COMP2 g
  | _ => s.rd R.PE_GSTEEP1.COMP3 g

/-- The sticky sources of group g that comparator n sets, as a mask (R353). -/
def State.steepMask (s : State) (g n : Nat) : Nat :=
  (List.range 8).foldl (fun v k => if s.steepName g k = n then v + 2 ^ k else v) 0

/-- Put the sticky copies of engine e. -/
def State.setSticky (s : State) (e v : Nat) : State :=
  { s with pe := { s.pe with sticky := s.pe.sticky.set 0 e v } }

/-- Comparator n's trigger line sets the copies that name it, at the end of its tick (R353). -/
def State.steepLine (s : State) (n : Nat) : State :=
  (List.range 64).foldl (fun t e => t.setSticky e (t.pe.sticky.get 0 e ||| t.steepMask (e / 8) n)) s

/-- At the end of a tick, every line that was high in it sets the copies that name its comparator (R353). -/
def State.steepLines (s : State) : State :=
  if s.time.trig = 0 then s
  else ((List.range 64).filter fun n => bit s.time.trig.toNat n).foldl State.steepLine s

/-! ### Step actions (10 R349, R354 to R362) -/

/-- COUNT (R360). -/
def State.peCount (s : State) (e code : Nat) : State :=
  let c := s.rd R.PE_CNT.COUNT e
  match code with
  | 1 => (s.keepZero e).wr R.PE_CNT.COUNT (s.rd R.PE_CNT_RELOAD.COUNT e) e
  | 2 => (s.keepZero e).wr R.PE_CNT.COUNT ((c + 65535) % 65536) e
  | 3 => (s.keepZero e).wr R.PE_CNT.COUNT ((c + 1) % 65536) e
  | _ => s

/-- The register after one shift that brings `b` in at the vacated end (R355). -/
def shifted (len reg : Nat) (msb b : Bool) : Nat :=
  if msb then (2 * reg + ofBool b) % 2 ^ len else reg % 2 ^ len / 2 + ofBool b * 2 ^ (len - 1)

/-- SHIFT with the level `sin` of source SIN (R355, R356). -/
def State.peShift (s : State) (e code : Nat) (sin : Bool) : State :=
  if code = 0 then s
  else
    let b := if code = 2 then s.on R.PE_A_SHIFT.SFILL e else sin
    let n := if s.scnt e < s.slen e then s.scnt e + 1 else 1
    ((s.wr R.PE_SHREG.SHIFT (shifted (s.slen e) (s.shreg e) (s.msbFirst e) b) e).wr R.PE_STATUS.SCNT n e).wr
      R.PE_STATUS.WIP (ofBool (n != s.slen e)) e

/-- PUSH: the SLEN bits of the shift register (R354, R358). -/
def State.pePush (s : State) (e : Nat) : State :=
  let s1 := if 8 ≤ (s.peRx e).length then (s.bump R.PE_ERRCNT.RX_OVF e).raise R.engine_INT.RX_OVF e
    else s.setPeRx e (s.peRx e ++ [s.shreg e % 2 ^ s.slen e])
  (s1.wr R.PE_STATUS.SCNT 0 e).wr R.PE_STATUS.WIP 0 e

/-- POP (R357). -/
def State.pePop (s : State) (e : Nat) : State :=
  let s1 := match s.peTx e with
    | w :: t => (s.setPeTx e t).wr R.PE_SHREG.SHIFT (w % 2 ^ s.slen e) e
    | [] => ((s.wr R.PE_SHREG.SHIFT (s.fillWord e) e).bump R.PE_ERRCNT.TX_UNF e).raise R.engine_INT.TX_UNF e
  (s1.wr R.PE_STATUS.SCNT 0 e).wr R.PE_STATUS.WIP 1 e

/-- FIFO. -/
def State.peFifo (s : State) (e code : Nat) : State :=
  match code with
  | 1 => s.pePop e
  | 2 => s.pePush e
  | 3 => (s.pePush e).pePop e
  | _ => s

/-- Payload of a Pin-Engine Event Message (R362). -/
def State.peMessage (s : State) (e k : Nat) : Nat :=
  s.rd R.PE_STATUS.STEP e * 2 ^ 30 + k * 2 ^ 28 + s.rd R.PE_CNT.COUNT e * 2 ^ 12 + s.shreg e

/-- ENk and CHk of PE_EVMBX. -/
def State.evMbx (s : State) (e k : Nat) : Bool × Nat :=
  match k with
  | 1 => (s.on R.PE_EVMBX.EN1 e, s.rd R.PE_EVMBX.CH1 e)
  | 2 => (s.on R.PE_EVMBX.EN2 e, s.rd R.PE_EVMBX.CH2 e)
  | _ => (s.on R.PE_EVMBX.EN3 e, s.rd R.PE_EVMBX.CH3 e)

/-- EVENT k (R362). -/
def State.peEvent (s : State) (e k : Nat) : State :=
  if k = 0 then s
  else
    let s1 := (s.raiseBits (128 + e) (2 ^ (k - 1))).postSources (.engine e) 3 k e
    if (s1.evMbx e k).1 then s1.mbxCommit (0x3000 + e) (s1.evMbx e k).2 (s1.peMessage e k) else s1

/-- The actions of step word `w`, `sin` being the level of SIN at the start of the tick (R349). OUT is ignored
with OSRC = 1 (R344). -/
def State.peActions (s : State) (e w : Nat) (sin : Bool) : State :=
  let s1 := ((s.peCount e (bitsOf w 51 50)).peShift e (bitsOf w 49 48) sin).peFifo e (bitsOf w 53 52)
  let s2 := if bit w 47 || s1.on R.PE_CFG.OSRC e then s1 else
    { s1 with pe := { s1.pe with out := s1.pe.out.set 0 e (bitsOf w 46 39) } }
  s2.peEvent e (bitsOf w 55 54)

/-- enter(n) of R350. -/
def State.peEnter (s : State) (e n : Nat) (sin : Bool) : State :=
  let w := s.peStep e n
  ((s.wr R.PE_STATUS.STEP n e).peActions e w sin).wr R.PE_STATUS.HOLD (bitsOf w 63 56) e

/-! ### Program banks (10 R370 to R374) -/

/-- Step words of engine e's shadow bank, from the register store. -/
def State.shadowWords (s : State) (e : Nat) : SMap DWord :=
  ((List.range 128).map fun n => (e * 128 + n,
    BitVec.ofNat 64 (s.rd R.PE_STEP_HIn.WORD e n * 2 ^ 32 + s.rd R.PE_STEP_LOn.WORD e n))).filter fun x => x.2 != 0

/-- Write 128 words to the shadow bank of engine e. -/
def State.putShadow (s : State) (e : Nat) (w : Nat → Nat) : State :=
  (List.range 128).foldl (fun t n =>
    (t.wr R.PE_STEP_LOn.WORD (w n % 2 ^ 32) e n).wr R.PE_STEP_HIn.WORD (w n / 2 ^ 32) e n) s

/-- Exchange two registers. -/
def State.exchange (s : State) (a b : Nat) : State := (s.setReg a (s.reg b)).setReg b (s.reg a)

/-- SCNT above the new SLEN becomes the new SLEN (R373). -/
def State.clampScnt (s : State) (e : Nat) : State :=
  if s.slen e < s.scnt e then (s.wr R.PE_STATUS.SCNT (s.slen e) e).wr R.PE_STATUS.WIP 0 e
  else if s.scnt e = s.slen e then s.wr R.PE_STATUS.WIP 0 e else s

/-- Put ARM and its copy. -/
def State.setArm (s : State) (e : Nat) (b : Bool) : State :=
  (s.wr R.PE_ECTRL.ARM (ofBool b) e).wr R.PE_STATUS.ARMED (ofBool b) e

/-- A swap exchanges the roles of the two banks (R371, R373). -/
def State.peSwap (s : State) (e : Nat) : State :=
  let sh := s.shadowWords e
  let old := s.pe.active
  let s1 := s.putShadow e (fun n => (old.get 0 (e * 128 + n)).toNat)
  let keepLow := old.filter fun x => decide (x.1 < e * 128)
  let keepHigh := old.filter fun x => decide (e * 128 + 128 ≤ x.1)
  let s2 := { s1 with pe := { s1.pe with active := keepLow ++ sh ++ keepHigh } }
  let s3 := ((s2.exchange (R.PE_S_INSEL.all.addr e 0) (R.PE_A_INSEL.all.addr e 0)).exchange
    (R.PE_S_WRAP.all.addr e 0) (R.PE_A_WRAP.all.addr e 0)).exchange
    (R.PE_S_SHIFT.all.addr e 0) (R.PE_A_SHIFT.all.addr e 0)
  (((s3.wr R.PE_STATUS.BANK (1 - s3.rd R.PE_STATUS.BANK e) e).setArm e false).clampScnt e).raise
    R.engine_INT.SWAPPED e

/-- Is a swap armed? -/
def State.armed (s : State) (e : Nat) : Bool := s.on R.PE_ECTRL.ARM e

/-! ### Engine ticks, starts, stops (10 R350, R365 to R368, R371) -/

/-- Level at the start of the tick, in `s`, of the source that SIN of the bank active in `b` names (R355). -/
def State.sin (s b : State) (e : Nat) : Bool := s.peSource e (b.rd R.PE_A_SHIFT.SIN e)

/-- The index that the four inputs form. -/
def State.peIndex (s : State) (e : Nat) : Nat :=
  ofBool (s.peSource e (s.rd R.PE_A_INSEL.IN3 e)) * 8 + ofBool (s.peSource e (s.rd R.PE_A_INSEL.IN2 e)) * 4 +
  ofBool (s.peSource e (s.rd R.PE_A_INSEL.IN1 e)) * 2 + ofBool (s.peSource e (s.rd R.PE_A_INSEL.IN0 e))

/-- The sticky copies that an evaluation of engine e samples as 1. -/
def State.sampled (s : State) (e : Nat) : Nat :=
  [s.rd R.PE_A_INSEL.IN0 e, s.rd R.PE_A_INSEL.IN1 e, s.rd R.PE_A_INSEL.IN2 e, s.rd R.PE_A_INSEL.IN3 e].foldl
    (fun v c => if 56 ≤ c ∧ s.peSource e c = true then v ||| 2 ^ (c - 56) else v) 0

/-- An evaluation: branch, advance, or stay (R350, R351). -/
def State.peEvaluate (s : State) (e : Nat) : State :=
  let w := s.peStep e (s.rd R.PE_STATUS.STEP e)
  let i := s.peIndex e
  let s1 := s.setSticky e (s.pe.sticky.get 0 e ^^^ s.sampled e)
  if bit w (16 + i) then s1.peEnter e (bitsOf w 38 32) (s.sin s e)
  else if bit w i then
    if s1.rd R.PE_STATUS.STEP e = s1.rd R.PE_A_WRAP.END e then
      let s2 := if s1.armed e then s1.peSwap e else s1
      s2.peEnter e (s2.rd R.PE_A_WRAP.START e) (s.sin s2 e)
    else s1.peEnter e ((s1.rd R.PE_STATUS.STEP e + 1) % 128) (s.sin s e)
  else s1

/-- One engine tick (R350). -/
def State.peTick (s : State) (e : Nat) : State :=
  if s.peRunning e then
    let h := s.rd R.PE_STATUS.HOLD e
    if 0 < h then s.wr R.PE_STATUS.HOLD (h - 1) e else s.peEvaluate e
  else s

/-- Apply the pending divider with this tick as engine tick 0 (R363, R364). -/
def State.peClock (s : State) (e : Nat) : State :=
  let d : Word := if s.rd R.PE_DIV.INT e = 0 then 0x100 else s.reg (R.PE_DIV.all.addr e 0)
  { s with pe := { s.pe with div := s.pe.div.set 0 e d, t0 := s.pe.t0.set 0 e s.tick
                             ticks := s.pe.ticks.set (0, 0) e (0, s.tick) } }

/-- The core tick of engine tick n, counted from the last start or clock restart (R363). -/
def State.peTickAt (s : State) (e n : Nat) : Nat := s.pe.t0.get 0 e + n * max 256 (s.pe.div.get 0 e).toNat / 256

/-- Is engine e's next engine tick due in this core tick (R363)? One engine tick is made in a core tick; one
whose tick no row has asked for is made in a later one (DESIGN CHOICE, log 22). -/
def State.peDue (s : State) (e : Nat) : Bool :=
  let (n, last) := s.pe.ticks.get (0, 0) e
  decide (last < s.tick) && decide (s.peTickAt e (n + 1) ≤ s.tick)

/-- The engine tick that falls in this core tick, where it is due. -/
def State.peDivided (s : State) (e : Nat) : State :=
  if s.peDue e then
    ({ s with pe := { s.pe with ticks := s.pe.ticks.set (0, 0) e ((s.pe.ticks.get (0, 0) e).1 + 1, s.tick) } } :
      State).peTick e
  else s

/-- Has engine e been started in this tick? -/
def State.startedNow (s : State) (e : Nat) : Bool := s.pe.started.get none e == some s.tick

/-- A start (R365). -/
def State.peBegin (s : State) (e : Nat) : State :=
  let wip := s.on R.PE_STATUS.WIP e
  let s1 := if s.armed e then s.peSwap e else s
  let s2 := if wip then s1.raise R.engine_INT.PARTIAL_LOST e else s1
  let s3 := ((s2.wr R.PE_SHREG.SHIFT (s2.fillWord e) e).wr R.PE_STATUS.SCNT 0 e).wr R.PE_STATUS.WIP 0 e
  let s4 := ({ s3 with pe := { s3.pe with started := s3.pe.started.set none e (some s.tick) } } : State).setSticky e 0
    |>.peClock e
  (s4.wr R.PE_STATUS.STATE 1 e).peEnter e 0 (s.sin s1 e)

/-- A start; a second one in its tick is one with the first (R368). -/
def State.peStart (s : State) (e : Nat) : State := if s.startedNow e then s else s.peBegin e

/-- A clock restart (R366); with a start in its tick it acts as the start (R368). -/
def State.peRestart (s : State) (e : Nat) : State := if s.startedNow e then s else s.peClock e

/-- The engines of a mask of group g. -/
def maskEngines (g mask : Nat) : List Nat := ((List.range 8).filter (bit mask)).map (8 * g + ·)

/-- PE_GSTART of group g. -/
def State.groupStart (s : State) (g mask : Nat) : State := (maskEngines g mask).foldl State.peStart s
/-- PE_GRESTART of group g. -/
def State.groupRestart (s : State) (g mask : Nat) : State := (maskEngines g mask).foldl State.peRestart s

/-- STOP: the outputs hold (R344, R368). A stop in the tick of a start applies before it, so that the engine
runs (R368). -/
def State.peStop (s : State) (e : Nat) : State :=
  if s.startedNow e then s
  else ({ s with pe := { s.pe with held := s.pe.held.set 0 e (s.peOut e) } } : State).wr R.PE_STATUS.STATE 0 e

/-- ARM (R371). -/
def State.peArm (s : State) (e : Nat) : State :=
  if s.peRunning e then s.setArm e true else s.peSwap e

/-- DISARM (R372). -/
def State.peDisarm (s : State) (e : Nat) : State := s.setArm e false

/-- A write of PE_ECTRL: stop first, then DISARM, then ARM (DEDUCED, log 22). -/
def State.ectrl (s : State) (e : Nat) (stop disarm arm : Bool) : State :=
  let s1 := if stop then s.peStop e else s
  let s2 := if disarm then s1.peDisarm e else s1
  if arm then s2.peArm e else s2

/-! ### FIFO and stage accesses (10 R345, R346, R361) -/

/-- PE_TX_PUSH. -/
def State.peTxPush (s : State) (e : Nat) (v : Word) : RegRes :=
  if 8 ≤ (s.peTx e).length then
    { s := (s.bump R.PE_ERRCNT.TX_FULL e).raise R.engine_INT.TX_FULL e, cause := some 10 }
  else { s := s.setPeTx e (s.peTx e ++ [getBits v 11 0]) }

/-- PE_RX_PEEK. -/
def State.peRxPeek (s : State) (e : Nat) : Nat :=
  match s.peRx e with
  | w :: _ => w
  | [] => 2 ^ 31

/-- PE_RX_POP. -/
def State.peRxPop (s : State) (e : Nat) : RegRes :=
  match s.peRx e with
  | w :: t => { s := s.setPeRx e t, data := w }
  | [] => { s := s.bump R.PE_ERRCNT.RX_EMPTY e, cause := some 10 }

/-- PE_STAGE (R345). -/
def State.peStage (s : State) (e : Nat) (v : Word) : State :=
  let p : Half := BitVec.ofNat 16 v.toNat
  let x := if s.on R.PE_OBIND.EN e && qDead (ptQual p) then aSubstVal (s.attr (s.rd R.PE_OBIND.INDEX e))
    else ptVal p
  s.wr R.PE_STAGE.VALUE x e

/-- The stage takes SUBST_VALUE while its bound point reads INVALID or NEVER (R346). -/
def State.stageSubst (s : State) (e : Nat) : State :=
  let i := s.rd R.PE_OBIND.INDEX e
  if s.on R.PE_OBIND.EN e && qDead (ptQual (s.localPt i)) then s.wr R.PE_STAGE.VALUE (aSubstVal (s.attr i)) e
  else s

/-- Every bound stage at a boundary or at activation (R346). -/
def State.stagesSubst (s : State) : State := (List.range 64).foldl State.stageSubst s

/-! ### Pins and latches (10 R340 to R342, R347) -/

/-- OUTLATCH of group g: the pin latches take the outputs (R341). -/
def State.outLatch (s : State) (g : Nat) : State :=
  let l := (List.range 8).foldl (fun m k => m.set 0 (8 * g + k) (s.peOut (8 * g + k))) s.pe.latch
  { s with pe := { s.pe with latch := l } }

/-- INLATCH of group g (R347). -/
def State.inLatch (s : State) (g : Nat) : State :=
  (List.range 8).foldl (fun t k => t.wr R.PE_CNTLAT.COUNT (t.rd R.PE_CNT.COUNT (8 * g + k)) (8 * g + k))
    (s.wr R.PE_GINLAT.PINS (s.peLevel g) g)

/-- Does a MAC in RGMII mode hold pin n of bank g (13 R448)? -/
def State.macPin (s : State) (g n : Nat) : Bool :=
  let m := 2 * (g - 6) + n / 12
  decide (6 ≤ g ∧ g < 8 ∧ n < 24) && s.on R.MAC_CTRL.EN m && !s.on R.MAC_CTRL.IF m

/-- What the engine's driver of pin n of bank g does: none when it is off (R340 to R342, 21 R643), and on a pin that
a MAC holds and drives itself (13 R448). -/
def State.pinDrive (s : State) (g n : Nat) : Option Bool :=
  let e := 8 * g + s.rd R.PE_PINn.ENG g n
  let o := s.rd R.PE_PINn.OUTSEL g n
  let v := match s.rd R.PE_PINn.MODE g n with
    | 1 => some (bit (s.peOut e) o)
    | 2 => some (bit (s.pe.latch.get 0 e) o)
    | _ => none
  match v with
  | none => none
  | some b =>
    if s.macPin g n = true ∨ s.power.rail.get 0 g = 0 ∨ s.power.holds ≠ [] ∨ s.rd R.KET_STATUS.STATE = 3 then none else
    let b := b != s.on R.PE_PINn.INV g n
    if s.on R.PE_PINn.OD g n && b then none else some b

/-! ### PE_PROGRAMS (10 R375 to R377) -/

/-- An engine entry of PE_PROGRAMS. -/
structure EngineEntry where
  engine : Nat
  act : Nat
  steps : Nat
  regs : List Nat
  words : List Nat

/-- Parse `n` engine entries, whose lengths depend on STEPS; also the bytes they take. -/
def parseEngines : Nat → List Byte → List EngineEntry × Nat
  | 0, _ => ([], 0)
  | n + 1, l =>
    let steps := le l 2 2
    let len := 40 + 8 * steps
    let (t, k) := parseEngines n (l.drop len)
    ({ engine := le l 0 1, act := le l 1 1, steps := steps, regs := (entriesOf 4 ((l.drop 4).take 32)).map leNat,
       words := (entriesOf 8 ((l.drop 40).take (8 * steps))).map leNat } :: t, len + k)

/-- Group entries and engine entries of PE_PROGRAMS. -/
def parsePe (l : List Byte) : List (List Byte) × List EngineEntry :=
  let gs := le l 1 1
  (entriesOf 112 ((l.drop 16).take (112 * gs)), (parseEngines (le l 0 1) (l.drop (16 + 112 * gs))).1)

/-- Bytes that the counts of PE_PROGRAMS call for (04 R661). -/
def peLen (l : List Byte) : Nat :=
  16 + 112 * le l 1 1 + (parseEngines (le l 0 1) (l.drop (16 + 112 * le l 1 1))).2

/-- Register k of an engine entry: PE_CFG, PE_DIV, PE_S_INSEL, PE_S_WRAP, PE_S_SHIFT, PE_CNT_RELOAD,
PE_EVMBX, PE_OBIND. -/
def EngineEntry.reg (x : EngineEntry) (k : Nat) : Nat := x.regs.getD k 0

/-- Checks of one engine entry (R377). -/
def EngineEntry.ok (x : EngineEntry) : Bool :=
  let wrap := x.reg 3
  let slen := bitsOf (x.reg 4) 3 0
  decide (x.engine < 64) && decide (1 ≤ x.steps) && decide (x.steps ≤ 128) &&
  decide (bitsOf wrap 6 0 ≤ bitsOf wrap 14 8) && decide (bitsOf wrap 14 8 < x.steps) &&
  x.words.all (fun w => decide (bitsOf w 38 32 < x.steps)) &&
  decide (1 ≤ slen) && decide (slen ≤ 12) && bitsOf (x.reg 1) 23 8 != 0 && decide (x.act ≤ 2) &&
  !(bit (x.reg 7) 31 && decide (bitsOf (x.reg 7) 11 0 < 0x100))

/-- Checks of PE_PROGRAMS (R377). -/
def peCheck (l : List Byte) : Bool :=
  let (gs, es) := parsePe l
  decide (le l 0 1 ≤ 64) && decide (le l 1 1 ≤ 8) && es.all EngineEntry.ok &&
  allDistinct (es.map (·.engine)) && allDistinct (gs.map fun g => le g 0 1) &&
  gs.all fun g => decide (le g 0 1 < 8) && (List.range 24).all fun n => bitsOf (le g (16 + 4 * n) 4) 1 0 != 3

/-- A register takes the fields that its description gives; reserved bits read 0. -/
def regFields (d : RegDesc) (v : Nat) : Word :=
  d.fields.foldl (fun w f => putBits w f.hi f.lo (bitsOf v f.hi f.lo)) 0

/-- A group entry takes effect (R376). -/
def State.loadGroup (s : State) (x : List Byte) : State :=
  let g := le x 0 1
  let s1 := (s.setReg (R.PE_GSTEEP0.all.addr g 0) (regFields R.PE_GSTEEP0.desc (le x 4 4))).setReg
    (R.PE_GSTEEP1.all.addr g 0) (regFields R.PE_GSTEEP1.desc (le x 8 4))
  (List.range 24).foldl (fun t n =>
    t.setReg (R.PE_PINn.all.addr g n) (regFields R.PE_PINn.desc (le x (16 + 4 * n) 4))) s1

/-- The registers of an engine entry. -/
def State.loadEngineRegs (s : State) (x : EngineEntry) : State :=
  let put (t : State) (d : RegDesc) (f : Fld) (k : Nat) : State :=
    t.setReg (f.addr x.engine 0) (regFields d (x.reg k))
  let s1 := put (put (put s R.PE_CFG.desc R.PE_CFG.all 0) R.PE_DIV.desc R.PE_DIV.all 1)
    R.PE_S_INSEL.desc R.PE_S_INSEL.all 2
  let s2 := put (put (put s1 R.PE_S_WRAP.desc R.PE_S_WRAP.all 3) R.PE_S_SHIFT.desc R.PE_S_SHIFT.all 4)
    R.PE_CNT_RELOAD.desc R.PE_CNT_RELOAD.all 5
  put (put s2 R.PE_EVMBX.desc R.PE_EVMBX.all 6) R.PE_OBIND.desc R.PE_OBIND.all 7

/-- An engine entry takes effect (R376). -/
def State.loadEngine (s : State) (x : EngineEntry) : State :=
  let s1 := ((s.loadEngineRegs x).setArm x.engine false).putShadow x.engine (fun n => x.words.getD n 0)
  match x.act with
  | 0 => s1.peArm x.engine
  | 1 => (s1.setArm x.engine true).peStart x.engine
  | _ => (s1.peStop x.engine).peArm x.engine

/-- Activation of PE_PROGRAMS (R376). -/
def State.activatePe (s : State) (l : List Byte) : State :=
  let (gs, es) := parsePe l
  es.foldl State.loadEngine (gs.foldl State.loadGroup s)

/-! ### Arms that need no register access -/

/-- ENGINE_TICK (R350, R363). -/
def execEngineTick (e pins : Nat) (s : State) : Host.Outcome State Fault Refusal :=
  if e < 64 then s.powered ((s.seePins (e / 8) pins).peDivided e) else .next s

end Sys2Proof.Machine
end

