-- ==== Sys2Proof/Machine/Wake.lean ====
section
/-! DEFINITION. The wake unit (12): vetoes, wake sources and the record, the two agreement modes, arming
and disarming. The power-down itself stands in Power.lean. -/

namespace Sys2Proof.Machine

/-- State codes of WK_STATUS. -/
inductive WakeRun where
  | awake | armed | committed | dwell | asleep | exiting
  deriving DecidableEq, Repr

/-- The state of the wake unit. -/
def State.wakeRun (s : State) : WakeRun :=
  match s.rd R.WK_STATUS.STATE with
  | 0 => .awake | 1 => .armed | 2 => .committed | 3 => .dwell | 4 => .asleep | _ => .exiting

/-- Put the state of the wake unit. -/
def State.setWakeRun (s : State) (w : WakeRun) : State :=
  s.wr R.WK_STATUS.STATE (match w with
    | .awake => 0 | .armed => 1 | .committed => 2 | .dwell => 3 | .asleep => 4 | .exiting => 5)

/-! ### Vetoes (12 R428) -/

/-- Is any CAN controller in NORMAL, LISTEN or LOOPBACK mode? -/
def State.canBusy (s : State) : Bool :=
  (List.range 12).any fun c => decide (1 ≤ s.rd R.CAN_STATUS.STATE c) && decide (s.rd R.CAN_STATUS.STATE c ≤ 3)

/-- MODE of WK_CTRL, 3 taken as OFF. -/
def State.wakeMode (s : State) : Nat := s.rd R.WK_CTRL.MODE % 3

/-- Does the unit veto sleep? -/
def State.veto (s : State) : Bool :=
  s.wakeMode == 0 || s.canBusy || (s.rd R.WK_STAY.REQ != 0 && !s.on R.WK_MAXAWAKE.EXPIRED)

/-! ### Disarm and wake decision (12 R420, R426, R437, R441 to R443) -/

/-- Drive WAKE_N low. -/
def State.driveWake (s : State) : State := { s with wake := { s.wake with driving := true } }

/-- Disarm (R437); `line` says that the wake was on WAKE_N itself. The idle intervals of R432 are counted anew
(DESIGN CHOICE, log 47). -/
def State.disarm (s : State) (line : Bool) : State :=
  let s0 := { s with wake := { s.wake with kaIdle := 0 } }
  let s1 := ((s0.setWakeRun .awake).bump R.WK_CNT.ABORTS).raise R.wakeUnit_INT.ABORT
  if line then s1 else s1.driveWake

/-- An ARMED unit whose VETO has become 1 disarms (R437). -/
def State.vetoCheck (s : State) : State :=
  if s.wakeRun = .armed ∧ s.veto = true then s.disarm false else s

/-- WK_PEND bit of a source. -/
def wakeBit (kind detail : Nat) : Nat :=
  match kind with
  | 1 => 0
  | 2 => 1 + detail
  | 6 => 17 + detail
  | 7 => 19
  | 8 => 20
  | _ => 5 + detail

/-- The wake decision (R443). -/
def State.wakeDecide (s : State) (kind detail late periods : Nat) : State :=
  let s1 := ((s.wr R.WK_REC.KIND kind).wr R.WK_REC.DETAIL detail).wr R.WK_REC.LATE_KIND late
  let s2 := ((s1.wr R.WK_REC_TIME.PERIODS periods).wr R.WK_MAXAWAKE.EXPIRED 0).setWakeRun .exiting
  let s3 := { s2 with wake := { s2.wake with driving := true, inh := true, late := none, dwell := [] } }
  s3.raise R.wakeUnit_INT.WOKE

/-- A further source of the sample in which the wake decision was taken: it sets its WK_PEND bit, and the record takes
it when it is the lower one and the record is not that of a late wake (R426). -/
def State.sameSample (s : State) (kind detail : Nat) : State :=
  let s1 := s.wr R.WK_PEND.all (s.rd R.WK_PEND.all ||| 2 ^ wakeBit kind detail)
  let k := s.rd R.WK_REC.KIND
  let d := s.rd R.WK_REC.DETAIL
  if k ≠ 9 ∧ (kind < k ∨ (kind = k ∧ detail < d)) then (s1.wr R.WK_REC.KIND kind).wr R.WK_REC.DETAIL detail else s1

/-- A source is seen (R425, R426, R437, R441, R442), `periods` LFXTAL periods after the power-down. Rows that give the
same number of periods are of one sample. -/
def State.wakeSeen (s : State) (kind detail periods : Nat) : State :=
  let b := wakeBit kind detail
  if bit (s.rd R.WK_EN.all) b then
    match s.wakeRun with
    | .awake => s
    | .exiting => if s.rd R.WK_REC_TIME.PERIODS = periods then s.sameSample kind detail else s
    | .armed => s.disarm (kind == 1)
    | .committed =>
      let s1 := s.wr R.WK_PEND.all (s.rd R.WK_PEND.all ||| 2 ^ b)
      if s1.wake.late.isNone then { s1 with wake := { s1.wake with late := some (kind, detail) } } else s1
    | .dwell =>
      let s1 := s.wr R.WK_PEND.all (s.rd R.WK_PEND.all ||| 2 ^ b)
      { s1 with wake := { s1.wake with dwell := s1.wake.dwell ++ [(kind, detail)] } }
    | .asleep => (s.wr R.WK_PEND.all (s.rd R.WK_PEND.all ||| 2 ^ b)).wakeDecide kind detail 0 periods
  else s

/-- The source of lowest KIND, and of lowest DETAIL within it (R426) (DEDUCED, log 47). -/
def lowestSource : List (Nat × Nat) → Option (Nat × Nat)
  | [] => none
  | a :: t => match lowestSource t with
    | none => some a
    | some b => if a.1 < b.1 ∨ (a.1 = b.1 ∧ a.2 ≤ b.2) then some a else some b

/-- The dwell ends (R440 to R442). -/
def State.dwellOver (s : State) (periods : Nat) : State :=
  match s.wake.late with
  | some (k, d) => (s.bump R.WK_CNT.LATE).wakeDecide 9 d k periods
  | none => match lowestSource s.wake.dwell with
    | some (k, d) => s.wakeDecide k d 0 periods
    | none => s.setWakeRun .asleep

/-! ### Agreement (12 R430 to R436) -/

/-- WK_CTRL.COORD. -/
def State.coord (s : State) : Bool := s.on R.WK_CTRL.COORD

/-- The commit cycle of a commit started now (R432, R435). -/
def State.commitCycle (s : State) : Nat :=
  (s.rd R.RING_CYC_NUM.CYCLE + s.ring.active.units + s.rd R.WK_CTRL.COMMIT_MARGIN) % 65536

/-- A token word. -/
def tokenWord (commit veto : Bool) (round ccycle : Nat) : Word :=
  BitVec.ofNat 32 (ofBool commit * 2 ^ 31 + ofBool veto * 2 ^ 30 + round % 4096 * 2 ^ 16 + ccycle % 65536)

/-- A stored token with COMMIT = 1 and VETO = 0 arms a unit that does not veto (R436). -/
def State.armBy (s : State) (t : Word) : State :=
  if getBits t 31 31 = 1 ∧ getBits t 30 30 = 0 ∧ s.veto = false ∧ (s.wakeRun = .awake ∨ s.wakeRun = .armed) then
    (s.setWakeRun .armed).wr R.WK_STATUS.CCYCLE (getBits t 15 0)
  else s

/-- Put the token to forward. -/
def State.forwardNext (s : State) (t : Word) : State := { s with wake := { s.wake with tokenDue := some t } }

/-- A token has returned to the coordinator (R435). -/
def State.tokenBack (s : State) (t : Word) : State :=
  let s1 := s.raise R.wakeUnit_INT.TOKEN_BACK
  if getBits t 31 31 = 0 ∧ getBits t 30 30 = 0 then
    let c := tokenWord true false (getBits t 27 16) s1.commitCycle
    ((s1.setReg (R.WK_TOKEN.all.addr 0 0) c).forwardNext c).armBy c
  else if getBits t 31 31 = 1 ∧ getBits t 30 30 = 1 then
    (if s1.wakeRun = .armed then s1.disarm false else s1).driveWake
  else s1

/-- A write of WK_TOKEN (R433 to R436): one that comes over the ring to a coordinator outside keep-alive mode is a
returned token. A unit with MODE = OFF vetoes, and acts on the token as it does in consent-ring mode (DEDUCED, log
47). -/
def State.tokenWrite (s : State) (who : Initiator) (v : Word) : State :=
  let t := tokenWord (getBits v 31 31 == 1) (getBits v 30 30 == 1 || s.veto) (getBits v 27 16) (getBits v 15 0)
  let s1 := s.setReg (R.WK_TOKEN.all.addr 0 0) t
  let remote := match who with | .ringUnit _ => true | _ => false
  if s1.coord && remote && s1.wakeMode != 1 then s1.tokenBack t
  else (if s1.wakeMode = 1 then s1 else s1.forwardNext t).armBy t

/-- The unit that follows `a` in DYN_ORDER, or the coordinator after the last one (R434). -/
def nextInOrder (a coordinator : Nat) : List Nat → Nat
  | [] => coordinator
  | [_] => coordinator
  | b :: c :: t => if b = a then c else nextInOrder a coordinator (c :: t)

/-- Offset of an internal address of the register of `f`. -/
def Fld.at (f : Fld) : Nat := f.addr 0 0

/-- TOKEN_FORWARD (R432, R434). On a ring of one unit the token is back at once. In keep-alive mode the coordinator arms
itself once it has written to the last unit. -/
def State.tokenForward (s : State) : State :=
  match s.wake.kaWrites, s.wake.tokenDue with
  | u :: t, _ =>
    let s1 := { s with wake := { s.wake with kaWrites := t } }
    let s2 := s1.farWrite u R.WK_TOKEN.all.at (s.reg R.WK_TOKEN.all.at)
    if t.isEmpty then s2.armBy (s.reg R.WK_TOKEN.all.at) else s2
  | [], some v =>
    let s1 := { s with wake := { s.wake with tokenDue := none } }
    let u := nextInOrder s.ring.addr s.ring.active.master (s.ring.active.dynOrder.map (·.unit))
    if u = s.ring.addr then s1.tokenBack v else s1.farWrite u R.WK_TOKEN.all.at v
  | [], none => s

/-- Set keep-alive bits. -/
def State.kaOr (s : State) (v : Nat) : State := s.wr R.WK_KA_SET.BITS (s.rd R.WK_KA_SET.BITS ||| v)

/-- KA_SEND (R431). -/
def State.kaSendStep (s : State) : State :=
  if s.wakeMode = 1 ∧ s.veto = true then
    let b := 2 ^ s.rd R.WK_CTRL.KA_BIT
    if s.coord then s.kaOr b
    else s.farWrite s.ring.active.master R.WK_KA_SET.all.at (BitVec.ofNat 32 b)
  else s

/-- The coordinator starts the commit of keep-alive mode (R432): one token write in each cycle, then it arms itself; it
is alone on the ring where there is nothing to write. The idle intervals are counted anew (DESIGN CHOICE, log 47). -/
def State.kaCommit (s : State) : State :=
  let c := tokenWord true false 0 s.commitCycle
  let us := (s.ring.active.dynOrder.map (·.unit)).filter (· != s.ring.addr)
  let s1 := (s.raise R.wakeUnit_INT.KA_IDLE).setReg R.WK_TOKEN.all.at c
  let s2 := { s1 with wake := { s1.wake with kaWrites := us, kaIdle := 0 } }
  if us.isEmpty then s2.armBy c else s2

/-- KA_INTERVAL_END at the coordinator (R432). No commit starts while one is under way (DEDUCED, log 47). -/
def State.kaInterval (s : State) : State :=
  if s.coord && s.wakeMode == 1 then
    let v := s.rd R.WK_KA_SET.BITS
    let n := if v = 0 then s.wake.kaIdle + 1 else 0
    let s1 := (s.wr R.WK_KA_VEC.BITS v).wr R.WK_KA_SET.BITS 0
    let s2 := { s1 with wake := { s1.wake with kaIdle := n } }
    if max 1 (s2.rd R.WK_CTRL.KA_DWELL) ≤ n ∧ s2.wakeRun = .awake ∧ s2.wake.kaWrites = [] then s2.kaCommit else s2
  else s

/-! ### Arms -/

/-- WAKE_N_SEEN (R420): not while the unit drives the line itself. -/
def execWakeNSeen (p : Nat) (s : State) : Host.Outcome State Fault Refusal :=
  if s.wake.driving then .next s else .next (s.wakeSeen 1 0 p)

/-- WKUP_SEEN (R421). -/
def execWkupSeen (k p : Nat) (s : State) : Host.Outcome State Fault Refusal :=
  if k < 4 then .next (s.wakeSeen 2 k p) else .next s

/-- RING_DETECT (R423): armed from power-down complete until the wake decision; one of the same sample as the decision
counts with it (R426). -/
def execRingDetect (port : RingPort) (p : Nat) (s : State) : Host.Outcome State Fault Refusal :=
  if s.wakeRun = .dwell ∨ s.wakeRun = .asleep ∨ s.wakeRun = .exiting then
    .next (s.wakeSeen 6 (match port with | .e => 0 | .w => 1) p)
  else .next s

/-- HOST_WAKE (R424). -/
def execHostWake (which p : Nat) (s : State) : Host.Outcome State Fault Refusal :=
  if which < 3 then .next (s.wakeSeen 7 which p) else .next s

/-- WAKE_TIMER_EXPIRE: WK_TIMER counts from power-down complete. -/
def execWakeTimerExpire (p : Nat) (s : State) : Host.Outcome State Fault Refusal :=
  if s.rd R.WK_TIMER.PERIODS ≠ 0 ∧ (s.wakeRun = .dwell ∨ s.wakeRun = .asleep ∨ s.wakeRun = .exiting) then
    .next (s.wakeSeen 8 0 p)
  else .next s

/-- WAKE_PULSE_END (R420). -/
def execWakePulseEnd (s : State) : Host.Outcome State Fault Refusal :=
  .next { s with wake := { s.wake with driving := false } }

/-- MAXAWAKE_EXPIRE (R429). -/
def execMaxawakeExpire (s : State) : Host.Outcome State Fault Refusal :=
  if s.rd R.WK_MAXAWAKE.SECONDS ≠ 0 ∧ s.on R.WK_MAXAWAKE.EXPIRED = false then
    .next (((s.wr R.WK_MAXAWAKE.EXPIRED 1).raise R.wakeUnit_INT.MAXAWAKE).alarm 2 1 0 (s.rd R.WK_STAY.REQ))
  else .next s

/-- KA_SEND (R431). -/
def execKaSend (s : State) : Host.Outcome State Fault Refusal := .next s.kaSendStep

/-- KA_INTERVAL_END (R432). -/
def execKaIntervalEnd (s : State) : Host.Outcome State Fault Refusal := .next s.kaInterval

/-- TOKEN_FORWARD (R434). -/
def execTokenForward (s : State) : Host.Outcome State Fault Refusal := .next s.tokenForward

/-- DWELL_END (R440). -/
def execDwellEnd (p : Nat) (s : State) : Host.Outcome State Fault Refusal :=
  if s.wakeRun = .dwell then .next (s.dwellOver p) else .next s

end Sys2Proof.Machine
end

