-- ==== Sys2Proof/Machine/Can.lean ====
section
/-! DEFINITION. The CAN FD controllers and the Strainer (11): modes, acceptance filtering, receive FIFOs,
transmission, errors, bus-off, and wake. Bus timing and the bit-level protocol of ISO 11898-1 reach the
model as the events and operands of its commands. -/

namespace Sys2Proof.Machine

/-- Controller c. -/
def State.canCtl (s : State) (c : Nat) : CanState := s.can.ctl.get {} c
/-- Put controller c. -/
def State.setCan (s : State) (c : Nat) (k : CanState) : State :=
  { s with can := { s.can with ctl := s.can.ctl.set {} c k } }
/-- Mode in effect. -/
def State.canMode (s : State) (c : Nat) : Nat := s.rd R.CAN_STATUS.STATE c
/-- PHASE: 0 integrating, 1 idle, 2 receiving, 3 transmitting. -/
def State.canPhase (s : State) (c : Nat) : Nat := s.rd R.CAN_STATUS.PHASE c
/-- Is the controller bus-off? -/
def State.canOff (s : State) (c : Nat) : Bool := s.rd R.CAN_STATUS.ERRST c == 2
/-- Does the controller drive CANn_TX recessive whatever it has to send (R379, R382)? -/
def State.canRecessive (s : State) (c : Nat) : Bool :=
  s.canMode c == 0 || s.canMode c == 3 || s.canMode c == 4 || s.canOff c

/-! ### Settings (11 R386, R389, R391) -/

/-- Kernel cycles of a nominal bit, with its quanta. -/
def State.nomBit (s : State) (c : Nat) : Nat × Nat :=
  let q := 3 + s.rd R.CAN_NTIME.SEG1 c + s.rd R.CAN_NTIME.SEG2 c
  ((s.rd R.CAN_NTIME.PRESC c + 1) * q, q)
/-- Kernel cycles of a data bit, with its quanta. -/
def State.dataBit (s : State) (c : Nat) : Nat × Nat :=
  let q := 3 + s.rd R.CAN_DTIME.SEG1 c + s.rd R.CAN_DTIME.SEG2 c
  ((s.rd R.CAN_DTIME.PRESC c + 1) * q, q)

/-- Offset of the secondary sample point in kernel cycles (R387). -/
def State.sspOffset (s : State) (c : Nat) : Nat :=
  if s.on R.CAN_LOOPC.AUTO c then (2 + s.rd R.CAN_DTIME.SEG1 c) * (s.rd R.CAN_DTIME.PRESC c + 1)
  else s.rd R.CAN_LOOPC.SSP_OFS c

/-- Bit Timing Limits (R386); `rsw` is RSW_EN as written. -/
def State.timingOk (s : State) (c : Nat) (rsw : Bool) : Bool :=
  let (nc, nq) := s.nomBit c
  let (dc, dq) := s.dataBit c
  let seg1 := s.rd R.CAN_NTIME.SEG1 c + 1
  let dseg1 := s.rd R.CAN_DTIME.SEG1 c + 1
  let dseg2 := s.rd R.CAN_DTIME.SEG2 c + 1
  decide (2 ≤ seg1) && decide (seg1 ≤ 192) && decide (s.rd R.CAN_NTIME.SJW c ≤ s.rd R.CAN_NTIME.SEG2 c) &&
  decide (8 ≤ nq) && decide (80 ≤ nc) &&
  decide (dseg1 ≤ 48) && decide (dseg2 ≤ 24) && decide (s.rd R.CAN_DTIME.SJW c < 24) &&
  decide (s.rd R.CAN_DTIME.SJW c ≤ s.rd R.CAN_DTIME.SEG2 c) && decide (5 ≤ dq) && decide (10 ≤ dc) &&
  decide (dc ≤ nc) &&
  (if s.on R.CAN_LOOPC.EN c then decide (s.rd R.CAN_DTIME.PRESC c ≤ 1) && decide (s.sspOffset c ≤ 255)
   else !(rsw && decide (dc < 40)))

/-- TXN, RXF0N and RXF1N. -/
def State.txn (s : State) (c : Nat) : Nat := s.rd R.CAN_RAMCFG.TXN c
/-- Elements of FIFO f. -/
def State.rxn (s : State) (c : Nat) (f : Bool) : Nat :=
  if f then s.rd R.CAN_RAMCFG.RXF1N c else s.rd R.CAN_RAMCFG.RXF0N c
/-- Base address of the message RAM. -/
def State.canBase (s : State) (c : Nat) : Nat := s.rd R.CAN_RAM.BASE c * 16

/-- Is the RAM layout valid (R391)? -/
def State.ramOk (s : State) (c : Nat) : Bool :=
  let n := s.txn c + s.rxn c false + s.rxn c true
  decide (s.txn c ≤ 32) && decide (s.rxn c false ≤ 64) && decide (s.rxn c true ≤ 64) && decide (1 ≤ n) &&
  decide (0x10000000 ≤ s.canBase c) && decide (s.canBase c + 80 * n ≤ 0x10400000)

/-- Data bytes of a frame (R389). -/
def dlcBytes (rtr fdf : Bool) (dlc : Nat) : Nat :=
  if rtr then 0
  else if dlc ≤ 8 then dlc
  else if !fdf then 8
  else match dlc with
    | 9 => 12 | 10 => 16 | 11 => 20 | 12 => 24 | 13 => 32 | 14 => 48 | _ => 64

/-! ### Memory accesses of engines -/

/-- An engine's access meets an error response: recorded in page 0 (20 R634, 01 R20). -/
def State.engineErr (s : State) (write : Bool) (cause a : Nat) : State := s.capture 0 .hardware write 8 cause a

/-- Read `[a, a + n)` in 64-bit words, each an access that `get` makes: one that receives an error response gives
zeros and is recorded in page 0 (DEDUCED, log 50). -/
def State.wordsGet (s : State) (get : State → Nat → Nat → State × Option (List Byte)) (a n : Nat) :
    List Nat → State × List Byte
  | [] => (s, [])
  | w :: t =>
    let lo := max a w
    let len := min (a + n) (w + 8) - lo
    let r := get s lo len
    let u := match r.2 with
      | some l => (r.1, l)
      | none => (r.1.engineErr false 5 lo, List.replicate len 0)
    let y := u.1.wordsGet get a n t
    (y.1, u.2 ++ y.2)

/-- Read bytes of the SRAM with their ECC; errors are counted and recorded (15 R509, R510). -/
def State.sramBytes (s : State) (a n : Nat) : State × List Byte :=
  if inSram a n then
    s.wordsGet (fun t lo len =>
      let r := t.sramCheck (wordsOf 2 lo len)
      (r.1, if r.2 then some (r.1.memBytes lo len) else none)) a n (wordsOf 8 a n)
  else (s.engineErr false 1 a, List.replicate n 0)
/-- Write bytes to the SRAM. -/
def State.sramPut (s : State) (a : Nat) (l : List Byte) : State :=
  if inSram a l.length then s.sramWrite .hardware a l.length (leNat l) else s.engineErr true 1 a

/-- CAUSE of the refusal of an engine's access to `n` bytes outside the SRAM: no raw window (R20), or the
first page that refuses it (15 R520). -/
def State.rawRefusal (s : State) (a n : Nat) (write : Bool) : Option Nat :=
  if a + n ≤ 0x4000000 then (wordsOf 0x400 a n).findSome? fun p => s.rawRefused p write else some 1

/-- Data memory of an engine: bytes of the SRAM or of the Caddy raw window. A refused or failed read is
recorded in page 0 (R20, 20 R634); a refused one gives zeros. -/
def State.engineGet (s : State) (a n : Nat) : State × List Byte :=
  if inSram a n then s.sramBytes a n
  else match s.rawRefusal a n false with
    | some c => (s.engineErr false c a, List.replicate n 0)
    | none => s.wordsGet (fun t lo len =>
        let r := t.cadCheck (lo / 8 * 8)
        (r.1, if r.2 then some (r.1.rawBytes lo len) else none)) a n (wordsOf 8 a n)

/-- Write bytes to the SRAM or to the Caddy raw window; a refused write has no effect and is recorded in
page 0 (R20, 20 R634). -/
def State.enginePut (s : State) (a : Nat) (l : List Byte) : State :=
  if inSram a l.length then s.sramPut a l
  else match s.rawRefusal a l.length true with
    | some c => s.engineErr true c a
    | none => ((wordsOf 8 a l.length).foldl (fun t w =>
        if a ≤ w ∧ w + 8 ≤ a + l.length then t.setEcc w .clean else (t.cadCheck w).1) s).memPut a l

/-! ### The bound context (11 R410, R411) -/

/-- Count one in an event counter of the bound context of block `kind`, `target` (modulo 2³²). -/
def State.ctxCount (s : State) (kind target off : Nat) : State :=
  match s.boundCtx kind target with
  | some x => s.setCtxWord x off ((s.ctxWord x off + 1) % 2 ^ 32)
  | none => s
/-- Put a word of the bound context. -/
def State.ctxPut (s : State) (kind target off v : Nat) : State :=
  match s.boundCtx kind target with
  | some x => s.setCtxWord x off v
  | none => s
/-- BUF_HEAD and BUF_TAIL follow the FIFOs' GET and PUT. -/
def State.canPointers (s : State) (c : Nat) : State :=
  (s.ctxPut 2 c 0x24 (s.rd R.CAN_RXF0.GET c + s.rd R.CAN_RXF1.GET c * 65536)).ctxPut 2 c 0x28
    (s.rd R.CAN_RXF0.PUT c + s.rd R.CAN_RXF1.PUT c * 65536)

/-- A detached operation completes when every buffer it requested has ended (R410). -/
def State.canDetachEnd (s : State) (c : Nat) : State :=
  let k := s.canCtl c
  let (open_, ended) := k.waiting.partition fun w => k.owned.any fun o => o.1 == w.2
  ended.foldl (fun (t : State) w => t.completeNode w.1 (ofBool (k.failed.contains w.2)))
    (s.setCan c { k with waiting := open_, failed := k.failed.filter fun x => !(ended.any fun w => w.2 == x) })

/-! ### Transmission (11 R406 to R409) -/

/-- Is buffer b pending? -/
def State.canPending (s : State) (c b : Nat) : Bool := bit (s.rd R.CAN_TXREQ.BUF c) b
/-- Put or clear bit b of a 32-bit field. -/
def State.putBit (s : State) (f : Fld) (inst b : Nat) (v : Bool) : State :=
  let x := s.rd f inst
  s.wr f (if v then x ||| 2 ^ b else x &&& (0xFFFFFFFF - 2 ^ b % 2 ^ 32)) inst

/-- Buffer b ends with RESULT `r` (R408): ATTEMPTS and RESULT are written, the request clears, and the
bound context's detached operation may complete. -/
def State.canEnd (s : State) (c b r : Nat) (ts : Option (Nat × Nat)) : State :=
  let k := s.canCtl c
  let a := s.canBase c + 80 * b
  let n := min (k.tries.get 0 b) 255
  let s1 := s.sramPut (a + 4) (leBytes 3 (n * 2 ^ 16 + r * 2 ^ 13))
  let s2 := match ts with
    | some (sec, ns) => s1.sramPut (a + 8) (leBytes 4 ns ++ leBytes 4 sec)
    | none => s1
  let s3 := ((s2.putBit R.CAN_TXREQ.BUF c b false).putBit R.CAN_TXABORT.BUF c b false).setCan c
    { k with order := k.order.filter (· != b), tries := k.tries.set 0 b 0,
             onBus := if (k.onBus.map (·.buf)) = some b then none else k.onBus
             owned := k.owned.filter (·.2 != b)
             failed := if r = 1 then k.failed else k.failed ++ (k.owned.filter (·.2 == b)).map (·.1) }
  let s4 := if r = 1 then (s3.putBit R.CAN_TXDONE.BUF c b true).raise R.can_INT.TXDONE c
    else (s3.putBit R.CAN_TXFAIL.BUF c b true).raise R.can_INT.TXFAIL c
  s4.canDetachEnd c

/-- Every pending request ends with RESULT `r`. -/
def State.canEndAll (s : State) (c r : Nat) : State :=
  (s.canCtl c).order.foldl (fun t b => t.canEnd c b r none) s

/-- A write of CAN_TXREQ (R406, R410): bits at or above TXN are ignored. -/
def State.canRequest (s : State) (who : Initiator) (c : Nat) (bits : Nat) : State :=
  let nu := (List.range (min 32 (s.txn c))).filter fun b => bit bits b && !s.canPending c b
  let k := s.canCtl c
  let mine := match who with
    | .core n => if (s.core n).inop && s.boundCtx 2 c == some (s.core n).opCtx then nu.map fun b => ((s.core n).opCtx, b) else []
    | _ => []
  let s1 := s.wr R.CAN_TXREQ.BUF (nu.foldl (fun v b => v ||| 2 ^ b) (s.rd R.CAN_TXREQ.BUF c)) c
  s1.setCan c { k with order := k.order ++ nu, owned := k.owned ++ mine }

/-- A write of CAN_TXABORT (R409). -/
def State.canAbort (s : State) (c : Nat) (bits : Nat) : State :=
  (List.range (min 32 (s.txn c))).foldl (fun t b =>
    if bit bits b && t.canPending c b then
      if ((t.canCtl c).onBus.map (·.buf)) = some b then t.putBit R.CAN_TXABORT.BUF c b true
      else t.canEnd c b 2 none
    else t) s

/-- Parse an element's header words and data. -/
def canParse (w0 w1 : Nat) (data : List Byte) : CanFrame :=
  let rtr := bit w0 30 && !bit w0 29
  let fdf := bit w0 29
  { xtd := bit w0 31, rtr := rtr, fdf := fdf, brs := bit w1 31, esi := bit w1 30, dlc := bitsOf w1 27 24
    id := bitsOf w0 28 0, data := data.take (dlcBytes rtr fdf (bitsOf w1 27 24)) }

/-- Arbitration field of a frame as a number: the lower one wins (ISO 11898-1). -/
def arbKey (f : CanFrame) : Nat :=
  if f.xtd then f.id / 2 ^ 18 * 2 ^ 21 + 2 ^ 20 + 2 ^ 19 + f.id % 2 ^ 18 * 2 + ofBool f.rtr
  else f.id % 2 ^ 11 * 2 ^ 21 + ofBool f.rtr * 2 ^ 20

/-- The frame of buffer b, and its header words, in the bytes of its element. -/
def canElemOf (b : Nat) (l : List Byte) : CanOnBus :=
  let w0 := leNat (l.take 4)
  let w1 := leNat ((l.drop 4).take 4)
  { buf := b, frame := canParse w0 w1 (l.drop 16), word0 := w0, word1 := w1 }

/-- Address of the element of buffer b. -/
def State.txAddr (s : State) (c b : Nat) : Nat := s.canBase c + 80 * b

/-- The element of buffer b as it stands. -/
def State.canElem (s : State) (c b : Nat) : CanOnBus := canElemOf b (s.memBytes (s.txAddr c b) 80)

/-- The pending buffer that wins; the earliest request among equal fields (R406). -/
def State.canWinner (s : State) (c : Nat) : List Nat → Option CanOnBus
  | [] => none
  | b :: t =>
    let x := s.canElem c b
    match s.canWinner c t with
    | none => some x
    | some y => if arbKey x.frame ≤ arbKey y.frame then some x else some y

/-- The frame that a controller sends: classical, with a classical frame's data, from a classical-only one (R381,
R389), BRS by RSW_EN (R381), and ESI by the error state (R378, R412; ISO 11898-1, PRESUMED, log 24). -/
def State.canSends (s : State) (c : Nat) (f : CanFrame) : CanFrame :=
  let fd := f.fdf && s.on R.CAN_CTRL.FD_EN c
  { f with fdf := fd, brs := f.brs && fd && s.on R.CAN_CTRL.RSW_EN c, esi := fd && s.rd R.CAN_STATUS.ERRST c == 1
           data := f.data.take (dlcBytes f.rtr fd f.dlc) }

/-- CAN_ARBITRATION (R392, R406). A controller that has nothing to offer receives the frame of another node that
begins then (DEDUCED, log 43). -/
def State.canArbitrate (s : State) (c : Nat) : State :=
  let k := s.canCtl c
  if 1 ≤ s.canMode c ∧ s.canMode c ≤ 3 ∧ s.canPhase c = 1 ∧ s.canOff c = false ∧ k.onBus.isNone = true then
    match if s.canMode c = 2 then none else s.canWinner c k.order with
    | none => if s.canMode c = 3 then s else s.wr R.CAN_STATUS.PHASE 2 c
    | some x =>
      let (s1, l) := s.sramBytes (s.txAddr c x.buf) 80
      let y := canElemOf x.buf l
      (s1.wr R.CAN_STATUS.PHASE 3 c).setCan c
        { k with onBus := some { y with frame := s.canSends c y.frame }
                 tries := k.tries.set 0 x.buf (k.tries.get 0 x.buf + 1) }
  else s

/-- An attempt has not succeeded with what `r` (3 LOST, 4 ERROR) says: the buffer ends aborted, ends by
TRIES, or stays pending (R407, R409). -/
def State.canFailed (s : State) (c b r : Nat) : State :=
  let k := s.canCtl c
  let s1 := s.setCan c { k with onBus := none }
  let lim := s.rd R.CAN_CTRL.TRIES c
  if bit (s.rd R.CAN_TXABORT.BUF c) b then s1.canEnd c b 2 none
  else if lim ≠ 0 ∧ lim ≤ k.tries.get 0 b then s1.canEnd c b r none
  else s1

/-- A measured loop delay (R387): MIN and MAX follow LAST. -/
def State.canLoop (s : State) (c d : Nat) : State :=
  let v := min d 255
  ((s.wr R.CAN_LOOP.LAST v c).wr R.CAN_LOOP.MIN (min v (s.rd R.CAN_LOOP.MIN c)) c).wr
    R.CAN_LOOP.MAX (max v (s.rd R.CAN_LOOP.MAX c)) c

/-- Put TEC and REC. -/
def State.putErr (s : State) (c tec rec : Nat) : State :=
  (s.wr R.CAN_ERRCNT.TEC (min tec 511) c).wr R.CAN_ERRCNT.REC (min rec 255) c

/-- A success brings the error state back to active when both counters are below 128 (R412). -/
def State.canRelax (s : State) (c : Nat) : State :=
  if s.canOff c = false ∧ s.rd R.CAN_ERRCNT.TEC c < 128 ∧ s.rd R.CAN_ERRCNT.REC c < 128 then
    (s.wr R.CAN_STATUS.ERRST 0 c).wr R.CAN_ERRCNT.PASSIVE 0 c
  else s

/-- In LOOPBACK mode a frame that was sent goes to the Strainer like a received one (R385). -/
def State.canOwnFrame (s : State) (c : Nat) (f : CanFrame) (sec ns : Nat) : State :=
  if s.canMode c = 3 ∧ (s.canCtl c).held.isNone = true then
    s.setCan c { s.canCtl c with held := some (f, sec, ns) }
  else s

/-- Does the frame measure the loop delay `d` (R387)? An edge before MIN_GAP is ignored. -/
def State.canMeasures (s : State) (c : Nat) (f : CanFrame) (d : Nat) : Bool :=
  s.on R.CAN_LOOPC.EN c && f.fdf && f.brs && decide (s.rd R.CAN_LOOPC.MIN_GAP c ≤ d)

/-- A loop delay measured in an FD frame sent with BRS recessive, and the secondary sample point that follows from
it (R387). -/
def State.canMeasured (s : State) (c : Nat) (f : CanFrame) : Option Nat → State
  | some d =>
    if s.canMeasures c f d then
      let t := s.canLoop c d
      t.setCan c { t.canCtl c with ssp := min d 255 + t.sspOffset c }
    else s
  | none => s

/-- Is the delay measured in the frame a bit error (R387)? -/
def State.canLate (s : State) (c : Nat) (f : CanFrame) : Option Nat → Bool
  | some d => s.canMeasures c f d && decide (255 < d)
  | none => false

/-- A success lowers TEC by 1 (R412). -/
def State.tecGood (s : State) (c : Nat) : State :=
  (s.putErr c (s.rd R.CAN_ERRCNT.TEC c - 1) (s.rd R.CAN_ERRCNT.REC c)).canRelax c

/-- A frame was sent (R408, R411). -/
def State.canSent (s : State) (c : Nat) (x : CanOnBus) (sec ns : Nat) : State :=
  (((s.tecGood c).canOwnFrame c x.frame sec ns).canEnd c x.buf 1
    (some (sec, ns))).ctxCount 2 c 0x14

/-! ### Modes (11 R382 to R384, R414, R415) -/

/-- INIT takes effect: every pending request ends ABORTED (R383). -/
def State.canInit (s : State) (c : Nat) : State :=
  let k := s.canCtl c
  ((((s.wr R.CAN_STATUS.STATE 0 c).wr R.CAN_STATUS.PHASE 0 c).setCan c { k with onBus := none }).canEndAll c 2)

/-- A mode other than INIT takes effect; SLEEP waits for the bus (R415). -/
def State.canEnter (s : State) (c m : Nat) (fromInit : Bool) : State :=
  let s1 := if fromInit then (s.requestDom 6).wr R.CAN_STATUS.PHASE 0 c else s
  if m = 4 then s1 else s1.wr R.CAN_STATUS.STATE m c

/-- Recovery starts (R414). -/
def State.canRecover (s : State) (c : Nat) : State :=
  if s.canOff c = true ∧ s.canMode c ≠ 5 ∧ s.rd R.CAN_CTRL.MODE c ≠ 4 then s.wr R.CAN_STATUS.STATE 5 c else s

/-- A write of CAN_CTRL: none for the error responses of R382, R384 and R415. -/
def State.canCtrl (s : State) (c : Nat) (v : Word) : State × Bool :=
  let m := getBits v 2 0
  let old := s.rd R.CAN_CTRL.MODE c
  let rsw := getBits v 5 5 == 1
  if 5 ≤ m then (s, false)
  else if m = 4 ∧ (s.rd R.CAN_TXREQ.BUF c ≠ 0 ∨ s.canOff c = true) then (s, false)
  else if old = 0 ∧ m ≠ 0 ∧ s.timingOk c rsw = false then (s.wr R.CAN_STATUS.CFGERR 1 c, false)
  else if old = 0 ∧ m ≠ 0 ∧ s.ramOk c = false then (s.wr R.CAN_STATUS.CFGERR 2 c, false)
  else
    let s0 := if old = 0 ∧ m ≠ 0 then s.wr R.CAN_STATUS.CFGERR 0 c else s
    let s1 := (((s0.wr R.CAN_CTRL.TRIES (getBits v 11 8) c).wr R.CAN_CTRL.RSW_EN (getBits v 5 5) c).wr
      R.CAN_CTRL.FD_EN (getBits v 4 4) c).wr R.CAN_CTRL.MODE m c
    let s2 := if bit v.toNat 31 then s1.canRecover c else s1
    let s3 :=
      if s2.canOff c = true ∨ m = old then s2
      else if m = 0 then (if s2.canPhase c ≤ 1 then s2.canInit c else s2)
      else s2.canEnter c m (old == 0)
    (s3.vetoCheck, true)

/-! ### Receiving (11 R393 to R401) -/

/-- Strainer element i. -/
def State.strElem (s : State) (i : Nat) : Nat := (s.can.elems.get 0 (i % 2048)).toNat

/-- Does element `e` match (R398, R399)? -/
def strMatch (e id : Nat) (xtd rtr : Bool) : Bool :=
  let m := if xtd then 2 ^ 29 else 2 ^ 11
  let a := bitsOf e 57 29 % m
  let b := bitsOf e 28 0 % m
  bit e 58 == rtr && !(!bit e 61 && bit e 60) &&
  (match bitsOf e 63 62 with
    | 1 => decide (a ≤ id) && decide (id ≤ b)
    | 2 => id == a || id == b
    | 3 => (id &&& b) == (a &&& b)
    | _ => false)

/-- The first matching element of a list (R400). -/
def State.strFind (s : State) (id : Nat) (xtd rtr : Bool) (base : Nat) : Nat → Option Nat
  | 0 => none
  | n + 1 =>
    if strMatch (s.strElem base) id xtd rtr then some base else s.strFind id xtd rtr (base + 1) n

/-- A fate: KEEP, FIFO, PRIO, whether no element matched, and the matching index. -/
structure Fate where
  keep : Bool
  fifo : Bool
  prio : Bool
  miss : Bool
  fidx : Nat

/-- The fate of a frame (R400). -/
def State.fate (s : State) (c : Nat) (f : CanFrame) : Fate :=
  let r := if f.xtd then R.CAN_FLT_XTD.BASE else R.CAN_FLT_STD.BASE
  let n := if f.xtd then R.CAN_FLT_XTD.COUNT else R.CAN_FLT_STD.COUNT
  match s.strFind f.id f.xtd f.rtr (s.rd r c) (s.rd n c) with
  | some i => let e := s.strElem i; ⟨bit e 61, bit e 60, bit e 59, false, i % 2048⟩
  | none =>
    let m := if f.rtr then s.rd R.CAN_FLT_CTRL.MISS_RTR c
      else if f.xtd then s.rd R.CAN_FLT_CTRL.MISS_XTD c else s.rd R.CAN_FLT_CTRL.MISS_STD c
    if bitsOf m 2 1 = 1 then ⟨false, false, false, true, 0⟩ else ⟨bit m 2, bit m 1, bit m 0, true, 0⟩

/-- The receive element of a frame, without its data (R388). -/
def rxHeader (f : CanFrame) (x : Fate) (sec ns : Nat) : List Byte :=
  leBytes 4 (ofBool f.xtd * 2 ^ 31 + ofBool f.rtr * 2 ^ 30 + ofBool f.fdf * 2 ^ 29 + f.id % 2 ^ 29) ++
  leBytes 4 (ofBool f.brs * 2 ^ 31 + ofBool f.esi * 2 ^ 30 + ofBool x.prio * 2 ^ 29 + ofBool x.miss * 2 ^ 28 +
    f.dlc % 16 * 2 ^ 24 + x.fidx % 2048) ++ leBytes 4 (ns % 2 ^ 30) ++ leBytes 4 sec

/-- Fields of FIFO f: OVW, FILL, PUT, GET. -/
structure FifoFlds where
  ovw : Fld
  fill : Fld
  put : Fld
  get : Fld
/-- The fields of FIFO 0 or 1. -/
def fifoFlds (f : Bool) : FifoFlds :=
  if f then ⟨R.CAN_RXF1.OVW, R.CAN_RXF1.FILL, R.CAN_RXF1.PUT, R.CAN_RXF1.GET⟩
  else ⟨R.CAN_RXF0.OVW, R.CAN_RXF0.FILL, R.CAN_RXF0.PUT, R.CAN_RXF0.GET⟩

/-- Address of element i of FIFO f. -/
def State.rxAddr (s : State) (c : Nat) (f : Bool) (i : Nat) : Nat :=
  s.canBase c + 80 * (s.txn c + (if f then s.rxn c false else 0) + i)

/-- Write the element at PUT and announce it (R388, R395). -/
def State.rxStore (s : State) (c : Nat) (f : CanFrame) (x : Fate) (sec ns : Nat) : State :=
  let q := fifoFlds x.fifo
  let p := s.rd q.put c
  let n := max 1 (s.rxn c x.fifo)
  let s1 := s.sramPut (s.rxAddr c x.fifo p) (rxHeader f x sec ns ++ f.data.take (dlcBytes f.rtr f.fdf f.dlc))
  let s2 := (s1.wr q.put ((p + 1) % n) c).wr q.fill (min (s.rd q.fill c + 1) n) c
  let s3 := (s2.raise (if x.fifo then R.can_INT.F1_NEW else R.can_INT.F0_NEW) c).postSources (.can c) 7
    (ofBool x.fifo) c
  (s3.ctxCount 2 c (if x.fifo then 0x1C else 0x18)).canPointers c

/-- A full FIFO loses a frame (R396). -/
def State.rxLoss (s : State) (c : Nat) (f : Bool) : State :=
  (s.bump R.CAN_RXLOSS.HI c).raise (if f then R.can_INT.F1_LOSS else R.can_INT.F0_LOSS) c

/-- Store or lose a kept frame (R395, R396). -/
def State.rxKeep (s : State) (c : Nat) (f : CanFrame) (x : Fate) (sec ns : Nat) : State :=
  let q := fifoFlds x.fifo
  let n := s.rxn c x.fifo
  if s.rd q.fill c < n then s.rxStore c f x sec ns
  else if s.on q.ovw c && n != 0 then
    ((s.rxLoss c x.fifo).wr q.get ((s.rd q.get c + 1) % n) c).rxStore c f x sec ns
  else s.rxLoss c x.fifo

/-- STRAINER_SEARCH (R393, R400, R401). -/
def State.strSearch (s : State) (c wait : Nat) : State :=
  match (s.canCtl c).held with
  | none => s
  | some (f, sec, ns) =>
    let s1 := s.setCan c { s.canCtl c with held := none }
    let s2 := s1.wr R.STR_STATUS.MAXWAIT (max (min wait 6144) (s1.rd R.STR_STATUS.MAXWAIT))
    let x := s2.fate c f
    let s3 := if x.prio then s2.raise R.can_INT.PRIO_RX c else s2
    if x.keep then s3.rxKeep c f x sec ns else s3.bump R.CAN_RXLOSS.LO c

/-- CAN_RXFf_ACK (R397): false for an error response. -/
def State.rxAck (s : State) (c : Nat) (f : Bool) (get : Nat) : State × Bool :=
  let q := fifoFlds f
  let n := s.rxn c f
  let d := (get + n - s.rd q.get c) % (max 1 n)
  if get < n ∧ d ≤ s.rd q.fill c then
    let freed := if d = 0 ∧ get ≠ s.rd q.get c then n else d
    (((s.wr q.get get c).wr q.fill (s.rd q.fill c - freed) c).canPointers c, true)
  else (s, false)

/-! ### Errors, bus-off and wake (11 R412, R413, R416, R417) -/

/-- Bus-off is entered (R413). -/
def State.busOff (s : State) (c : Nat) : State :=
  let k := s.canCtl c
  let s1 := ((s.wr R.CAN_STATUS.ERRST 2 c).wr R.CAN_STATUS.PHASE 0 c).setCan c { k with onBus := none }
  (((s1.canEndAll c 5).raise R.can_INT.BUSOFF c).bump R.CAN_BUSERR.LO c).alarm (28 + c) 1 c (s.rd R.CAN_ERRCNT.TEC c)

/-- The controller wakes (R417): KIND 1 EDGE, 2 FRAME, 3 ERRCNT. -/
def State.canWoke (s : State) (c kind periods : Nat) : State :=
  ((((s.wr R.CAN_WK_STATUS.WOKE 1 c).wr R.CAN_WK_STATUS.KIND kind c).setCan c { s.canCtl c with woken := true }).raise
    R.can_INT.WAKE c).wakeSeen (2 + kind) c periods

/-- Is the frame a wake frame (R416)? -/
def State.wakeFrame (s : State) (c : Nat) (f : CanFrame) : Bool :=
  let mask := s.rd R.CAN_WK_IDMASK.ID c
  let d := s.rd R.CAN_WK_DATA_LO.MASK c + s.rd R.CAN_WK_DATA_HI.MASK c * 2 ^ 32
  !f.fdf && !f.rtr && f.xtd == s.on R.CAN_WK_CFG.XTD c && (f.id &&& mask) == (s.rd R.CAN_WK_ID.ID c &&& mask) &&
  (!s.on R.CAN_WK_CFG.DLC_EN c || f.dlc == s.rd R.CAN_WK_CFG.DLC c) &&
  (!s.on R.CAN_WK_CFG.DATA_EN c || (leNat f.data &&& d) != 0)

/-- May the sleeping controller still wake? It wakes on the first enabled event of its sleep (R416), and again once
software has cleared WOKE (DEDUCED, log 43). -/
def State.canAsleep (s : State) (c : Nat) : Bool :=
  s.canMode c == 4 && !((s.canCtl c).woken && s.on R.CAN_WK_STATUS.WOKE c)

/-- CAN_WAKE (R416, R417). -/
def State.canWakeEvent (s : State) (c : Nat) (w : CanWake) (periods : Nat) : State :=
  if s.canAsleep c then
    match w with
    | .edge => if s.on R.CAN_WK_CFG.EDGE_EN c then s.canWoke c 1 periods else s
    | .frame f =>
      if s.on R.CAN_WK_CFG.FRAME_EN c && s.wakeFrame c f then
        ((s.wr R.CAN_WK_FID.ID f.id c).wr R.CAN_WK_STATUS.DLC f.dlc c).canWoke c 2 periods
      else s
    | .errcnt =>
      if s.on R.CAN_WK_CFG.ERR_EN c && s.rd R.CAN_WK_STATUS.FEC c == 32 then s.canWoke c 3 periods else s
  else s

/-- REC after a frame received without error: less by 1, or a value from 119 to 127 that ISO 11898-1 leaves
to the implementation when it was above 127 (log 24) (PRESUMED). -/
def State.recGood (s : State) (c : Nat) : State :=
  let r := s.rd R.CAN_ERRCNT.REC c
  if 127 < r then
    let (v, s1) := s.free
    s1.putErr c (s1.rd R.CAN_ERRCNT.TEC c) (119 + v.toNat % 9)
  else s.putErr c (s.rd R.CAN_ERRCNT.TEC c) (r - 1)

/-- The thresholds of R412 that TEC and REC have passed. -/
def State.canThresholds (s : State) (c oldT oldR : Nat) : State :=
  let t := s.rd R.CAN_ERRCNT.TEC c
  let r := s.rd R.CAN_ERRCNT.REC c
  let s1 := if (oldT < 96 ∧ 96 ≤ t) ∨ (oldR < 96 ∧ 96 ≤ r) then s.raise R.can_INT.WARN c else s
  let s2 := if s1.rd R.CAN_STATUS.ERRST c = 0 ∧ (128 ≤ t ∨ 128 ≤ r) then
      ((((s1.wr R.CAN_STATUS.ERRST 1 c).wr R.CAN_ERRCNT.PASSIVE 1 c).raise R.can_INT.PASSIVE c).event
        (28 + c) 2 c (min t 255 + r * 256)) else s1
  if 255 < t then s2.busOff c else s2

/-- CAN_BUS_ERROR (R412, R416): in SLEEP it counts in FEC and changes no error counter. -/
def State.canError (s : State) (c kind : Nat) (dataPhase : Bool) (tec rec : Nat) : State :=
  if s.canMode c = 4 then s.wr R.CAN_WK_STATUS.FEC (min (s.rd R.CAN_WK_STATUS.FEC c + 1) 32) c
  else if 1 ≤ s.canMode c ∧ s.canMode c ≤ 3 ∧ s.canOff c = false then
    let t := s.rd R.CAN_ERRCNT.TEC c
    let r := s.rd R.CAN_ERRCNT.REC c
    let s1 := s.wr (if dataPhase then R.CAN_STATUS.DATA_ERR else R.CAN_STATUS.LAST_ERR) kind c
    let s2 := (((s1.bump R.CAN_BUSERR.HI c).raise R.can_INT.PROTO c).ctxCount 2 c 0x20).putErr c (t + tec) (r + rec)
    (if s2.canPhase c = 2 then s2.wr R.CAN_STATUS.PHASE 1 c else s2).canThresholds c t r
  else s

/-- CAN_FRAME_VALID (R381, R385, R393, R416) (DEDUCED, log 43). An FD frame is a form error of a classical-only
controller (R381), which adds 1 to REC (ISO 11898-1, PRESUMED, log 24). -/
def State.canValid (s : State) (c : Nat) (f : CanFrame) (sec ns : Nat) : State :=
  let k := s.canCtl c
  if s.canMode c = 4 then
    if f.fdf || f.rtr then s else s.wr R.CAN_WK_STATUS.FEC (s.rd R.CAN_WK_STATUS.FEC c - 1) c
  else if 1 ≤ s.canMode c ∧ s.canMode c ≤ 2 ∧ 1 ≤ s.canPhase c ∧ s.canOff c = false ∧ k.onBus.isNone = true ∧
      k.held.isNone = true then
    if f.fdf && !s.on R.CAN_CTRL.FD_EN c then (s.wr R.CAN_STATUS.PHASE 1 c).canError c 3 false 0 1
    else (((s.recGood c).canRelax c).wr R.CAN_STATUS.PHASE 1 c).setCan c { k with held := some (f, sec, ns) }
  else s

/-- CAN_TX_END. A loop delay of more than 255 kernel cycles is a bit error of the frame: the dominant res bit was not
seen in time (R387); it adds 8 to TEC (ISO 11898-1, PRESUMED, log 24). -/
def State.canTxEnd (s : State) (c : Nat) (e : CanEnd) : State :=
  match (s.canCtl c).onBus with
  | none => s
  | some x =>
    let failed (t : State) : State := ((t.wr R.CAN_STATUS.PHASE 1 c).bump R.CAN_RETRY.LO c).canFailed c x.buf 4
    let late (t : State) : State :=
      let u := (t.bump R.CAN_RETRY.LO c).canError c 6 false 8 0
      if u.canOff c then u else (u.wr R.CAN_STATUS.PHASE 1 c).canFailed c x.buf 4
    match e with
    | .sent sec ns loop =>
      let t := s.canMeasured c x.frame loop
      if s.canLate c x.frame loop then late t else (t.wr R.CAN_STATUS.PHASE 1 c).canSent c x sec ns
    | .lost => ((s.wr R.CAN_STATUS.PHASE 2 c).bump R.CAN_RETRY.HI c).canFailed c x.buf 3
    | .error loop =>
      let t := s.canMeasured c x.frame loop
      if s.canLate c x.frame loop then late t else failed t

/-! ### Strainer registers and the CAN_FILTERS section (11 R403 to R405) -/

/-- INDEX advances after an HI access with INC = 1. -/
def State.strNext (s : State) : State :=
  if s.on R.STR_ADDR.INC then s.wr R.STR_ADDR.INDEX ((s.rd R.STR_ADDR.INDEX + 1) % 2048) else s

/-- Put element i. -/
def State.setElem (s : State) (i v : Nat) : State :=
  { s with can := { s.can with elems := s.can.elems.set 0 i (BitVec.ofNat 64 v) } }

/-- STR_DATA_LO is staged. -/
def State.strLo (s : State) (v : Word) : State := { s with can := { s.can with staged := v } }

/-- STR_DATA_HI commits the whole element. -/
def State.strHi (s : State) (v : Word) : State :=
  (s.setElem (s.rd R.STR_ADDR.INDEX) (v.toNat * 2 ^ 32 + s.can.staged.toNat)).strNext

/-- Parse CAN_FILTERS: controller entries and element entries. -/
def parseFilters (l : List Byte) : List (List Byte) × List (Nat × Nat) :=
  let n := le l 2 1
  (entriesOf 16 ((l.drop 16).take (16 * n)),
   (entriesOf 16 ((l.drop (16 + 16 * n)).take (16 * le l 0 2))).map fun e => (le e 0 2, le e 8 8))

/-- Bytes that the counts of CAN_FILTERS call for. -/
def filtersLen (l : List Byte) : Nat := 16 + 16 * le l 2 1 + 16 * le l 0 2

/-- Is a miss fate legal? -/
def missOk (m : Nat) : Bool := bitsOf m 2 1 != 1

/-- The standard windows that a section's controller entries give. -/
def stdWindows (cs : List (List Byte)) : List (Nat × Nat) := cs.map fun e => (le e 4 2, le e 6 2)

/-- Has an element inside a standard window an identifier above 0x7FF (R405)? -/
def tooWide (e : Nat) : Bool :=
  bitsOf e 63 62 != 0 &&
    (decide (0x7FF < bitsOf e 57 29) || (bitsOf e 63 62 != 3 && decide (0x7FF < bitsOf e 28 0)))

/-- Does index i lie in one of the windows? -/
def inWindow (ws : List (Nat × Nat)) (i : Nat) : Bool :=
  ws.any fun w => decide (w.1 ≤ i) && decide (i < w.1 + w.2)

/-- The standard windows of the controllers that a section does not name, which keep their state (R404). -/
def State.keptWindows (s : State) (cs : List (List Byte)) : List (Nat × Nat) :=
  ((List.range 12).filter fun c => !(cs.any fun e => le e 0 1 == c)).map fun c =>
    (s.rd R.CAN_FLT_STD.BASE c, s.rd R.CAN_FLT_STD.COUNT c)

/-- The identifiers of the elements inside standard windows, once the section has taken effect: its elements in every
window, and the elements that it does not name in the windows that it gives (R405). -/
def State.windowsOk (s : State) (cs : List (List Byte)) (es : List (Nat × Nat)) : Bool :=
  let ws := stdWindows cs
  es.all (fun e => !(inWindow (ws ++ s.keptWindows cs) e.1 && tooWide e.2)) &&
  ws.all fun w => (List.range w.2).all fun i =>
    es.any (fun e => e.1 == w.1 + i) || !tooWide (s.strElem (w.1 + i))

/-- Checks of CAN_FILTERS (R405). -/
def State.filtersCheck (s : State) (l : List Byte) : Bool :=
  let (cs, es) := parseFilters l
  decide (le l 0 2 ≤ 2048) && decide (le l 2 1 ≤ 12) &&
  cs.all (fun e => decide (le e 0 1 < 12) && decide (le e 4 2 + le e 6 2 ≤ 2048) &&
    decide (le e 8 2 + le e 10 2 ≤ 2048) && missOk (bitsOf (le e 2 2) 2 0) && missOk (bitsOf (le e 2 2) 6 4) &&
    missOk (bitsOf (le e 2 2) 10 8)) &&
  allDistinct (cs.map fun e => le e 0 1) && allDistinct (es.map (·.1)) &&
  es.all (fun e => decide (e.1 < 2048) && !(!bit e.2 61 && bit e.2 60) &&
    !(bitsOf e.2 63 62 == 1 && decide (bitsOf e.2 28 0 < bitsOf e.2 57 29))) && s.windowsOk cs es

/-- A controller entry takes effect (R404). -/
def State.loadFilter (s : State) (e : List Byte) : State :=
  let c := le e 0 1
  let m := le e 2 2
  let s1 := ((s.wr R.CAN_FLT_CTRL.MISS_STD m c).wr R.CAN_FLT_CTRL.MISS_XTD (m / 16) c).wr R.CAN_FLT_CTRL.MISS_RTR (m / 256) c
  (((s1.wr R.CAN_FLT_STD.BASE (le e 4 2) c).wr R.CAN_FLT_STD.COUNT (le e 6 2) c).wr
    R.CAN_FLT_XTD.BASE (le e 8 2) c).wr R.CAN_FLT_XTD.COUNT (le e 10 2) c

/-- Activation of CAN_FILTERS (R404). -/
def State.activateFilters (s : State) (l : List Byte) : State :=
  let (cs, es) := parseFilters l
  es.foldl (fun t e => t.setElem e.1 e.2) (cs.foldl State.loadFilter s)

/-! ### Arms that need no register access -/

/-- Do the controllers work: not in reset and not in DEEP (R418)? -/
def State.canOn (s : State) : Bool := s.power.holds.isEmpty && decide (s.rd R.KET_STATUS.STATE < 3)

/-- An event of a controller or of the Strainer, which are unpowered in DEEP (R418). -/
def State.canRow (s t : State) : Host.Outcome State Fault Refusal := .next (if s.canOn then t else s)

/-- CAN_INIT_EFFECT (R383): the frame in progress has ended. -/
def execCanInitEffect (c : Nat) (s : State) : Host.Outcome State Fault Refusal :=
  s.canRow <|
    if c < 12 ∧ s.rd R.CAN_CTRL.MODE c = 0 ∧ s.canMode c ≠ 0 ∧ s.canPhase c ≤ 1 ∧ s.canOff c = false then
      (s.canInit c).vetoCheck
    else s

/-- CAN_SLEEP_EFFECT (R415, R416): FEC is 0 on entry. -/
def execCanSleepEffect (c : Nat) (s : State) : Host.Outcome State Fault Refusal :=
  s.canRow <|
    if c < 12 ∧ s.rd R.CAN_CTRL.MODE c = 4 ∧ s.canMode c ≠ 4 ∧ s.canPhase c ≤ 1 ∧ s.canOff c = false then
      (((s.wr R.CAN_STATUS.STATE 4 c).wr R.CAN_STATUS.PHASE 1 c).wr R.CAN_WK_STATUS.FEC 0 c).setCan c
        { s.canCtl c with woken := false }
    else s

/-- CAN_BUS_INTEGRATED (R383). -/
def execCanBusIntegrated (c : Nat) (s : State) : Host.Outcome State Fault Refusal :=
  s.canRow <|
    if c < 12 ∧ s.canMode c ≠ 0 ∧ s.canPhase c = 0 ∧ s.canOff c = false then s.wr R.CAN_STATUS.PHASE 1 c else s

/-- CAN_FRAME_VALID. -/
def execCanFrameValid (c : Nat) (f : CanFrame) (sec ns : Nat) (s : State) : Host.Outcome State Fault Refusal :=
  s.canRow (if c < 12 then (s.canValid c f sec ns) else s)

/-- The controller whose waiting search is served next: round-robin by number (R402). -/
def State.nextSearch (s : State) : Option Nat :=
  ((List.range 12).map fun i => (s.can.served + 1 + i) % 12).find? fun c => (s.canCtl c).held.isSome

/-- STRAINER_SEARCH: the search whose turn it is (R402). -/
def execStrainerSearch (c wait : Nat) (s : State) : Host.Outcome State Fault Refusal :=
  s.canRow <|
    if c < 12 ∧ s.nextSearch = some c then
      ({ s with can := { s.can with served := c } } : State).strSearch c wait
    else s

/-- CAN_ARBITRATION. -/
def execCanArbitration (c : Nat) (s : State) : Host.Outcome State Fault Refusal :=
  s.canRow (if c < 12 then (s.canArbitrate c) else s)

/-- CAN_TX_END. -/
def execCanTxEnd (c : Nat) (e : CanEnd) (s : State) : Host.Outcome State Fault Refusal :=
  s.canRow (if c < 12 then (s.canTxEnd c e) else s)

/-- CAN_BUS_ERROR. -/
def execCanBusError (c kind : Nat) (dp : Bool) (tec rec : Nat) (s : State) : Host.Outcome State Fault Refusal :=
  s.canRow (if c < 12 ∧ 1 ≤ kind ∧ kind ≤ 6 then (s.canError c kind dp tec rec) else s)

/-- CAN_RECOVERY_END (R414): the controller takes up the mode that MODE holds. -/
def execCanRecoveryEnd (c : Nat) (s : State) : Host.Outcome State Fault Refusal :=
  s.canRow <|
    if c < 12 ∧ s.canMode c = 5 ∧ s.canOff c = true then
      let s1 := (((s.putErr c 0 0).wr R.CAN_STATUS.ERRST 0 c).wr R.CAN_ERRCNT.PASSIVE 0 c).wr R.CAN_STATUS.PHASE 1 c
      let m := s1.rd R.CAN_CTRL.MODE c
      ((if m = 0 then s1.canInit c else s1.wr R.CAN_STATUS.STATE m c).vetoCheck)
    else s

/-- CAN_WAKE. -/
def execCanWake (c : Nat) (w : CanWake) (p : Nat) (s : State) : Host.Outcome State Fault Refusal :=
  s.canRow (if c < 12 then (s.canWakeEvent c w p) else s)

end Sys2Proof.Machine
end

