-- ==== Sys2Proof/Machine/Switch.lean ====
section
/-! DEFINITION. The switch core (14) and the descriptor rings of MACs, switch and host (13, 14, 16): frames
in the shared buffer, lookup and learning, egress queues, push-out, transmit and receive rings. -/

namespace Sys2Proof.Machine

/-! ### Rings (13, 14 R497, R498, 16 R546) -/

/-- A register of ring `r` (MAC m ring q: 8m + q, switch: 32 + q, host: 40 + q), read from the three
blocks' fields. -/
def State.ringRd (s : State) (mac sw host : Fld) (r : Nat) : Nat :=
  if r < 32 then s.rd mac (r / 8) (r % 8) else if r < 40 then s.rd sw 0 (r - 32) else s.rd host 0 (r - 40)
/-- Put a register of ring `r`. -/
def State.ringWr (s : State) (mac sw host : Fld) (r v : Nat) : State :=
  if r < 32 then s.wr mac v (r / 8) (r % 8) else if r < 40 then s.wr sw v 0 (r - 32) else s.wr host v 0 (r - 40)

/-- Base address of transmit ring r. -/
def State.txBase (s : State) (r : Nat) : Nat :=
  s.ringRd R.MAC_TXRq_BASE.BASE R.SW_TXRq_BASE.BASE R.PCIE_HTXRq_BASE.BASE r * 32
/-- SIZE of transmit ring r. -/
def State.txSize (s : State) (r : Nat) : Nat :=
  s.ringRd R.MAC_TXRq_SIZE.SIZE R.SW_TXRq_SIZE.SIZE R.PCIE_HTXRq_SIZE.SIZE r
/-- HEAD of transmit ring r. -/
def State.txHead (s : State) (r : Nat) : Nat :=
  s.ringRd R.MAC_TXRq_PTR.HEAD R.SW_TXRq_PTR.HEAD R.PCIE_HTXRq_PTR.HEAD_or_PUT r
/-- TAIL of transmit ring r. -/
def State.txTail (s : State) (r : Nat) : Nat :=
  s.ringRd R.MAC_TXRq_PTR.TAIL R.SW_TXRq_PTR.TAIL R.PCIE_HTXRq_PTR.TAIL_or_GET r
/-- Base address of receive ring r. -/
def State.rxBase (s : State) (r : Nat) : Nat :=
  s.ringRd R.MAC_RXRq_BASE.BASE R.SW_RXRq_BASE.BASE R.PCIE_HRXRq_BASE.BASE r * 32
/-- SIZE of receive ring r. -/
def State.rxSize (s : State) (r : Nat) : Nat :=
  s.ringRd R.MAC_RXRq_SIZE.SIZE R.SW_RXRq_SIZE.SIZE R.PCIE_HRXRq_SIZE.SIZE r
/-- PUT of receive ring r. -/
def State.rxPut (s : State) (r : Nat) : Nat :=
  s.ringRd R.MAC_RXRq_PTR.PUT R.SW_RXRq_PTR.PUT R.PCIE_HRXRq_PTR.HEAD_or_PUT r
/-- GET of receive ring r. -/
def State.rxGet (s : State) (r : Nat) : Nat :=
  s.ringRd R.MAC_RXRq_PTR.GET R.SW_RXRq_PTR.GET R.PCIE_HRXRq_PTR.TAIL_or_GET r

/-- MAC m. -/
def State.macOf (s : State) (m : Nat) : MacState := s.eth.macs.get {} m
/-- Put MAC m. -/
def State.setMac (s : State) (m : Nat) (v : MacState) : State :=
  { s with eth := { s.eth with macs := s.eth.macs.set {} m v } }

/-- The bound context's buffer pointers of MAC m (13 R464). -/
def State.macPointers (s : State) (m : Nat) : State :=
  let t := 8 * m + s.rd R.MAC_PD.TXQ m
  let r := 8 * m + s.rd R.MAC_PD.RXQ m
  (s.ctxPut 1 m 0x24 (s.txHead t + s.rxGet r * 65536)).ctxPut 1 m 0x28 (s.txTail t + s.rxPut r * 65536)

/-- A detached operation completes when every descriptor its context holds has ended (13 R463). -/
def State.macDetachEnd (s : State) (m : Nat) : State :=
  let k := s.macOf m
  let (open_, ended) := k.waiting.partition fun w => k.owned.any fun o => o.1 == w.2
  ended.foldl (fun (t : State) w => t.completeNode w.1 (ofBool (k.failed.contains w.2)))
    (s.setMac m { k with waiting := open_, failed := k.failed.filter fun x => !(ended.any fun w => w.2 == x) })

/-- A context's share of an ended descriptor of a MAC ring that it holds (13 R463); the event counters are those of the
context that is bound to the MAC (R464). -/
def State.macDescEnd (s : State) (r idx res : Nat) : State :=
  let m := r / 8
  let k := s.macOf m
  match k.owned.find? fun o => o.2 == (r % 8, idx) with
  | none => s.macPointers m
  | some o =>
    let s1 := s.setMac m { k with owned := k.owned.filter (·.2 != (r % 8, idx))
                                  failed := if res = 1 then k.failed else k.failed ++ [o.1] }
    let s2 := if s.boundCtx 1 m = some o.1 then s1.ctxCount 1 m (if res = 1 then 0x14 else 0x20) else s1
    (s2.macPointers m).macDetachEnd m

/-- INT_STATUS of a descriptor that ended other than SENT. -/
def State.txError (s : State) (r : Nat) : State :=
  if r < 32 then s.raise R.mac_INT.TXERR (r / 8)
  else if r < 40 then s.raise R.switchCore_INT.TXERR else s.raise R.pcie_INT.HTXERR

/-- The descriptor at HEAD ends (13 R461): STATUS is written and HEAD advances. -/
def State.descEnd (s : State) (r : Nat) (d : DescProg) (res : Nat) : State :=
  let s1 := s.sramPut (s.txBase r + 32 * d.idx + 12) (leBytes 4 (res * 2 ^ 29 + d.out % 65536))
  let s2 := s1.ringWr R.MAC_TXRq_PTR.HEAD R.SW_TXRq_PTR.HEAD R.PCIE_HTXRq_PTR.HEAD_or_PUT r
    ((d.idx + 1) % max 1 (s1.txSize r))
  let s3 := if res = 1 then s2 else s2.txError r
  if r < 32 then s3.macDescEnd r d.idx res else s3

/-- Descriptors in work of ring r, from HEAD on. -/
def State.ringProg (s : State) (r : Nat) : List DescProg := s.eth.rings.get [] r
/-- Put them. -/
def State.setRing (s : State) (r : Nat) (l : List DescProg) : State :=
  { s with eth := { s.eth with rings := s.eth.rings.set [] r l } }

/-- Descriptors end in ring order (13, Transmit rings). -/
def State.endHeads (s : State) (r : Nat) : List DescProg → State
  | [] => s.setRing r []
  | d :: t =>
    match d.result with
    | some res => (s.descEnd r d res).endHeads r t
    | none => s.setRing r (d :: t)

/-- Change the descriptor `idx` of ring r, then end what can end. -/
def State.descUpdate (s : State) (r idx : Nat) (f : DescProg → DescProg) : State :=
  s.endHeads r ((s.ringProg r).map fun d => if d.idx = idx then f d else d)

/-- A segment has left or been delivered. -/
def segOut (d : DescProg) : DescProg :=
  let d := { d with out := d.out + 1 }
  if d.result.isNone && d.out == d.segs then { d with result := some 1 } else d

/-- The descriptor fails with RESULT `res`, unless it has ended. -/
def descFail (res : Nat) (d : DescProg) : DescProg := { d with result := some (d.result.getD res) }

/-! ### Frames and queues (14 R478, R485) -/

/-- Frame f. -/
def State.frame (s : State) (f : Nat) : Option EthFrame := s.eth.frames.get none f
/-- Put or drop frame f. -/
def State.setFrame (s : State) (f : Nat) (x : Option EthFrame) : State :=
  { s with eth := { s.eth with frames := s.eth.frames.set none f x } }
/-- Queue of class c at port p. -/
def State.queue (s : State) (p c : Nat) : List QEntry := s.eth.queues.get [] (p * 8 + c)
/-- Put a queue. -/
def State.setQueue (s : State) (p c : Nat) (l : List QEntry) : State :=
  { s with eth := { s.eth with queues := s.eth.queues.set [] (p * 8 + c) l } }
/-- What port p sends or delivers. -/
def State.sending (s : State) (p : Nat) : Option Sending := s.eth.sending.get none p
/-- Put it. -/
def State.setSending (s : State) (p : Nat) (x : Option Sending) : State :=
  { s with eth := { s.eth with sending := s.eth.sending.set none p x } }
/-- Cells that a frame's bytes need: never more than 8 (14 R477). -/
def EthFrame.need (x : EthFrame) : Nat := min 8 ((wireLen x.data + 255) / 256)
/-- Cells of frame f. -/
def State.cellsOf (s : State) (f : Nat) : Nat := match s.frame f with | some x => x.cells | none => 0
/-- Cells held by a queue: of the copies that wait, and of the one that its port sends or delivers (14 R478). -/
def State.queueCells (s : State) (p c : Nat) : Nat :=
  ((s.queue p c).map fun e => s.cellsOf e.frame).sum +
  (match s.sending p with | some g => if g.cls = c then s.cellsOf g.frame else 0 | none => 0)

/-- Is MAC m enabled, with the ETH domain on (17 R572)? -/
def State.macOn (s : State) (m : Nat) : Bool := s.on R.MAC_CTRL.EN m && s.dom 4 == 3

/-- Put a new frame, under the next number. -/
def State.newFrame (s : State) (x : EthFrame) : State :=
  let t := s.setFrame s.eth.next (some x)
  { t with eth := { t.eth with next := t.eth.next + 1 } }

/-- A frame enters the switch core at port p (14 R475): none while it is disabled. -/
def State.ingress (s : State) (x : EthFrame) : State :=
  if s.on R.SW_CTRL.EN then (s.bump R.SW_PRXp.FRAMES 0 x.port).newFrame x else s

/-- Is the frame copied from a MAC's transmit ring? It goes to that MAC's queue and is not forwarded (14 R476). -/
def EthFrame.ofMacRing (x : EthFrame) : Bool := match x.ring with | some (r, _) => decide (r < 32) | none => false

/-- Has the MAC that takes the frame in still to check it at its end (13 R454)? -/
def EthFrame.unchecked (x : EthFrame) : Bool := decide (x.port < 4) && x.ring.isNone && !x.checked

/-- Class of a frame from port p (14 R476). -/
def State.classOf (s : State) (p : Nat) (l : List Byte) : Nat :=
  if tagged l then bitsOf (s.rd R.SW_PCFGp.PCPMAP 0 p) (3 * pcpOf l + 2) (3 * pcpOf l)
  else s.rd R.SW_PCFGp.DEFCLS 0 p

/-- Is frame f being sent or delivered by some port? -/
def State.onWire (s : State) (f : Nat) : Bool :=
  s.eth.sending.any fun e => match e.2 with | some g => g.frame == f | none => false

/-- Is frame f a segment of descriptor i of ring r? -/
def State.segOf (s : State) (r i f : Nat) : Bool :=
  match s.frame f with
  | some x => x.ring == some (r, i)
  | none => false

/-- A descriptor that ended other than SENT sends no further segments (13 R461): its waiting copies go. -/
def State.dropSegments (s : State) (r i : Nat) : State :=
  let qs := s.eth.queues.map fun e => (e.1, e.2.filter fun q => !s.segOf r i q.frame)
  let fs := s.eth.frames.map fun e => (e.1, e.2.map fun x =>
    if x.ring = some (r, i) then { x with refs := if s.onWire e.1 then 1 else 0, dropped := !s.onWire e.1 } else x)
  { s with eth := { s.eth with queues := qs.filter fun e => !e.2.isEmpty, frames := fs } }

/-- No descriptor index: that of a frame whose descriptor has ended. -/
def noDesc : Nat := 1024

/-- The frames of descriptor i of ring r lose their tie to it: it ends, and its index comes again. -/
def State.untie (s : State) (r i : Nat) : State :=
  { s with eth := { s.eth with frames := s.eth.frames.map fun e => (e.1, e.2.map fun x =>
      if x.ring = some (r, i) then { x with ring := some (r, noDesc) } else x) } }

/-- A descriptor ends with RESULT `res` other than SENT; the other copies of a switch or host ring's frame
proceed (14 R488, R490). -/
def State.descLost (s : State) (r i res : Nat) : State :=
  ((if r < 32 then s.dropSegments r i else s).untie r i).descUpdate r i (descFail res)

/-- One copy of frame f is done; `sent` when it left or was delivered. -/
def State.copyDone (s : State) (f : Nat) (sent : Bool) : State :=
  match s.frame f with
  | none => s
  | some x =>
    let s1 := s.setFrame f (some { x with refs := x.refs - 1 })
    match x.ring with
    | none => s1
    | some (r, i) =>
      if i = noDesc then s1
      else if !sent then s1.descLost r i 2
      else if x.refs ≤ 1 then s1.descUpdate r i segOut else s1

/-- Drop frame f's copies that no port has begun to send. -/
def State.unqueue (s : State) (f : Nat) : State :=
  s.eth.queues.foldl (fun (t : State) e =>
    if e.2.any (·.frame == f) then
      ({ t with eth := { t.eth with queues := t.eth.queues.set [] e.1 (e.2.filter (·.frame != f)) } }).copyDone f false
    else t) s

/-- Frame f is dropped: its waiting copies go, its ring descriptor ends DROPPED. -/
def State.dropFrame (s : State) (f : Nat) : State :=
  match s.frame f with
  | none => s
  | some x =>
    let s1 := (s.setFrame f (some { x with dropped := true })).unqueue f
    match x.ring with
    | some (r, i) => if i = noDesc then s1 else s1.descLost r i 2
    | none => s1

/-! ### Forwarding table (14 R479 to R484) -/

/-- Entry i. -/
def State.fdb (s : State) (i : Nat) : FdbEntry := s.eth.fdb.get {} i
/-- Put entry i. -/
def State.setFdb (s : State) (i : Nat) (e : FdbEntry) : State :=
  { s with eth := { s.eth with fdb := s.eth.fdb.set {} i e } }
/-- The valid entry of a key. -/
def State.fdbFind (s : State) (mac vid : Nat) : Option (Nat × FdbEntry) :=
  s.eth.fdb.find? fun e => e.2.valid && e.2.mac == mac && e.2.vid == vid
/-- Valid entries. -/
def State.fdbUsed (s : State) : Nat := (s.eth.fdb.filter (·.2.valid)).length

/-- SWITCH_LOOKUP (R479, R480), once the first 64 bytes of a MAC's frame have arrived; a frame of a MAC's transmit ring
is not forwarded (R476). -/
def State.lookup (s : State) (f : Nat) : State :=
  match s.frame f with
  | none => s
  | some x =>
    if x.looked || x.dropped || x.ofMacRing || (decide (x.port < 4) && x.ring.isNone && decide (wireLen x.data < 64)) then s
    else
      let d := dstOf x.data
      let hit := s.fdbFind d (vidOf x.data)
      let m := match hit with
        | some e => e.2.mask
        | none => if groupAddr d then s.rd R.SW_CTRL.MCAST else s.rd R.SW_CTRL.FLOOD
      let mask := if bit m x.port then m - 2 ^ x.port else m
      let u := match hit with
        | some e => if e.2.unit = 0 then 0x7FF else e.2.unit
        | none => 0x7FF
      let s1 := s.setFrame f (some { x with looked := true, mask := mask, unit := u })
      if mask = 0 then (s1.bump R.SW_PDROPp.NOROUTE 0 x.port).dropFrame f else s1

/-- Learning (R482) from the source of a good frame. -/
def State.learn (s : State) (x : EthFrame) : State :=
  let a := srcOf x.data
  let v := vidOf x.data
  if s.on R.SW_PCFGp.LEARN 0 x.port && !groupAddr a then
    let e : FdbEntry :=
      { mac := a, vid := v, valid := true, static := false, unit := if x.port = 5 then x.srcUnit else 0,
        mask := 2 ^ x.port, age := 0 }
    match s.fdbFind a v with
    | some (i, old) => if old.static then s else s.setFdb i e
    | none =>
      match (List.range 1024).find? fun i => !(s.fdb i).valid with
      | some i => s.setFdb i e
      | none => (s.bump R.SW_FDB_STATUS.LEARN_FULL).raise R.switchCore_INT.LEARN_FULL
  else s

/-- AGE_TICK (R483): none while TIME = 0. -/
def State.ageStep (s : State) : State :=
  let lim := s.rd R.SW_AGE.TIME
  let f (e : FdbEntry) : FdbEntry :=
    if e.valid && !e.static then
      let a := min (e.age + 1) 255
      { e with age := a, valid := decide (a < lim) }
    else e
  if lim = 0 then s
  else { s with eth := { s.eth with fdb := s.eth.fdb.map fun e => (e.1, f e.2) } }

/-- OP 1: entry `i` into SW_FDB_DATA. -/
def State.fdbReadOp (s : State) (i : Nat) : State :=
  let e := s.fdb i
  let s1 := ((s.wr R.SW_FDB_DATA0.MAC_LO (e.mac % 2 ^ 32)).wr R.SW_FDB_DATA1.VID e.vid).wr
    R.SW_FDB_DATA1.MAC_HI (e.mac / 2 ^ 32)
  ((((s1.wr R.SW_FDB_DATA2.VALID (ofBool e.valid)).wr R.SW_FDB_DATA2.STATIC (ofBool e.static)).wr
    R.SW_FDB_DATA2.UNIT e.unit).wr R.SW_FDB_DATA2.PORTMASK e.mask).wr R.SW_FDB_DATA2.AGE e.age

/-- OP 2: SW_FDB_DATA into entry `i`; false where a second valid entry of the key would arise (R481). -/
def State.fdbWriteOp (s : State) (i : Nat) : State × Bool :=
  let e : FdbEntry :=
    { mac := s.rd R.SW_FDB_DATA1.MAC_HI * 2 ^ 32 + s.rd R.SW_FDB_DATA0.MAC_LO, vid := s.rd R.SW_FDB_DATA1.VID,
      valid := s.on R.SW_FDB_DATA2.VALID, static := s.on R.SW_FDB_DATA2.STATIC, unit := s.rd R.SW_FDB_DATA2.UNIT,
      mask := s.rd R.SW_FDB_DATA2.PORTMASK, age := s.rd R.SW_FDB_DATA2.AGE }
  let twin := s.eth.fdb.any fun x => x.1 != i && x.2.valid && x.2.mac == e.mac && x.2.vid == e.vid
  if e.valid && twin then (s, false) else (s.setFdb i e, true)

/-- OP 3: every learned entry becomes invalid. -/
def State.fdbFlushOp (s : State) : State :=
  let f (e : FdbEntry) : FdbEntry := if e.static then e else { e with valid := false }
  { s with eth := { s.eth with fdb := s.eth.fdb.map fun e => (e.1, f e.2) } }

/-- A write of SW_FDB_SEL; false for the error response of R481, which changes nothing. -/
def State.fdbSel (s : State) (op i : Nat) : State × Bool :=
  let s1 := s.wr R.SW_FDB_SEL.INDEX i
  match op with
  | 1 => (s1.fdbReadOp (i % 1024), true)
  | 2 => if (s1.fdbWriteOp (i % 1024)).2 then ((s1.fdbWriteOp (i % 1024)).1, true) else (s, false)
  | 3 => (s1.fdbFlushOp, true)
  | _ => (s1, true)

/-! ### Queueing and marks (14 R485, R488, R493) -/

/-- Does a copy that enters this queue meet the threshold of its class? -/
def State.overThr (s : State) (p c : Nat) : Bool :=
  s.on R.SW_MARKq.EN 0 c && decide (s.rd R.SW_MARKq.THR 0 c ≤ s.queueCells p c)

/-- Put a copy of frame f into the queue of class c at port p. -/
def State.enqueue (s : State) (f p c : Nat) (l : List Byte) : State :=
  let above := s.overThr p c
  let ecn := ecnOf l
  let mark := above && (ecn == some 1 || ecn == some 2)
  let s1 := if mark then s.bump R.SW_PPUSHp.MARKED 0 p
    else if above && ecn != some 3 then s.bump R.SW_PPUSHp.NOTECT 0 p else s
  let s2 := s1.setQueue p c (s1.queue p c ++ [⟨f, mark⟩])
  match s2.frame f with
  | some x => s2.setFrame f (some { x with refs := x.refs + 1, queued := true })
  | none => s2

/-- Has a frame that entered at the same port before frame f, and has its class, still to enter its queues (R495)? -/
def State.overtakes (s : State) (f : Nat) (x : EthFrame) : Bool :=
  s.eth.frames.any fun e => decide (e.1 < f) && (match e.2 with
    | some y => y.port == x.port && y.cls == x.cls && !y.queued && !y.dropped && !y.ofMacRing
    | none => false)

/-- SWITCH_ENQUEUE: a frame that was looked up enters the queues of its mask, behind the earlier ones of its port and
class (R485, R488, R495). -/
def State.enqueueAll (s : State) (f : Nat) : State :=
  match s.frame f with
  | none => s
  | some x =>
    if x.looked && !x.queued && !x.dropped && !s.overtakes f x then
      let big := bit x.mask 5 && decide (1564 < wireLen x.data)
      let ports := (List.range 8).filter fun p => bit x.mask p && !(p == 5 && big)
      let s1 := ports.foldl (fun t p => t.enqueue f p x.cls x.data) s
      let s2 := if big then s1.bump R.SW_RP_STATUS.TOOBIG else s1
      let s3 := if ports.isEmpty then s2.dropFrame f else s2
      match x.ring, big with
      | some (r, i), true => s3.descLost r i 2
      | _, _ => s3
    else s

/-! ### Cells and push-out (14 R477, R478, R490, R491) -/

/-- The free pool. -/
def State.cellsFree (s : State) : Nat := s.rd R.SW_CELLS.FREE

/-- Is the copy a candidate for push-out by class `cls`: its last byte has arrived and its queue's class is
lower? Copies in queues have not begun to leave. -/
def State.candidate (s : State) (e : QEntry) : Bool :=
  match s.frame e.frame with
  | some x => x.ended
  | none => false

/-- The candidate nearest to the tail of a queue: copies behind it have not wholly arrived (R490). -/
def State.lastCandidate (s : State) (p c : Nat) : Option QEntry := ((s.queue p c).filter s.candidate).getLast?

/-- The port whose queue of class c holds the most cells, the lower number on a tie, among queues that hold a
candidate (R490). -/
def State.pushPort (s : State) (c : Nat) : Option Nat :=
  ((List.range 8).filter fun p => (s.lastCandidate p c).isSome).foldl (fun b p => match b with
      | none => some p
      | some q => if s.queueCells q c < s.queueCells p c then some p else some q) none

/-- The queue that gives way to class `cls` (R490). -/
def State.pushChoice (s : State) (cls : Nat) : Option (Nat × Nat) :=
  ((List.range 8).filter (· < cls)).findSome? fun c => (s.pushPort c).map fun p => (p, c)

/-- PUSH_OUT of one frame (R490, R492). -/
def State.pushStep (s : State) (cls : Nat) : State :=
  if s.cellsFree = 0 then
    match s.pushChoice cls with
    | none => s
    | some (p, c) =>
      match s.lastCandidate p c with
      | none => s
      | some e =>
        ((s.setQueue p c ((s.queue p c).filter fun x => x.frame != e.frame)).bump R.SW_PPUSHp.PUSHED 0 p).copyDone
          e.frame false
  else s

/-- CELL_ALLOCATE for the next 256 bytes of frame f (R477, R491): with an empty pool and no candidate a
forwarded frame is dropped, a ring frame waits. -/
def State.allocCell (s : State) (f : Nat) : State :=
  match s.frame f with
  | none => s
  | some x =>
    if x.dropped || decide (x.need ≤ x.cells) then s
    else if 0 < s.cellsFree then
      let x1 := { x with cells := x.cells + 1, ended := x.ended || (x.ofMacRing && x.cells + 1 == x.need) }
      (s.wr R.SW_CELLS.FREE (s.cellsFree - 1)).setFrame f (some x1)
    else if (s.pushChoice x.cls).isSome || x.ring.isSome then s
    else ((s.bump R.SW_PDROPp.NOBUF 0 x.port).raise R.switchCore_INT.NOBUF).dropFrame f

/-- CELL_FREE: the cells return when no queue or port holds the frame (R478). A dropped frame whose end has not
arrived is still known: it is counted, and its source learned, at its end (R482, R486, 13 R455). -/
def State.freeCells (s : State) (f : Nat) : State :=
  match s.frame f with
  | none => s
  | some x =>
    if x.refs = 0 ∧ (x.dropped = true ∨ (x.queued = true ∧ x.ended = true)) then
      (s.wr R.SW_CELLS.FREE (s.cellsFree + x.cells)).setFrame f
        (if x.unchecked || (!x.ended && !x.ofMacRing) then some { x with cells := 0 } else none)
    else s

/-- SWITCH_FRAME_END (R482, R486): with all its cells stored the frame becomes eligible; a frame from port 5 is checked
for its FCS alone, one from an ETH port has been checked by R454, and the source of a good frame is learned, dropped or
not. -/
def State.frameEnd (s : State) (f : Nat) : State :=
  match s.frame f with
  | none => s
  | some x =>
    if x.ended || x.ofMacRing || x.unchecked || (!x.dropped && decide (x.cells < x.need)) then s
    else
      let gone := x.dropped && x.refs == 0 && x.cells == 0
      let s1 := s.setFrame f (if gone then none else some { x with ended := true })
      if !x.fcsBad then s1.learn x
      else (if x.port = 5 then s1.bump R.SW_RP_STATUS.BADFCS else s1).dropFrame f

/-! ### Transmit descriptors (13 R459, R465 to R467, 14 R497) -/

/-- A write of TAIL: false for the error response of R459. -/
def State.tailOk (s : State) (r tail : Nat) : Bool :=
  let n := s.txSize r
  decide (2 ≤ n) && decide (tail < n)

/-- Put TAIL; a core that runs an operation bound to the MAC gives its context the new descriptors (R463). -/
def State.putTail (s : State) (who : Initiator) (r tail : Nat) : State :=
  let n := max 1 (s.txSize r)
  let old := s.txTail r
  let s1 := s.ringWr R.MAC_TXRq_PTR.TAIL R.SW_TXRq_PTR.TAIL R.PCIE_HTXRq_PTR.TAIL_or_GET r tail
  if r < 32 then
    let k := s1.macOf (r / 8)
    let add := (List.range ((tail + n - old) % n)).map fun i => (r % 8, (old + i) % n)
    let mine := match who with
      | .core c => if (s.core c).inop && s.boundCtx 1 (r / 8) == some (s.core c).opCtx then add.map fun a => ((s.core c).opCtx, a) else []
      | _ => []
    (s1.setMac (r / 8) { k with owned := k.owned ++ mine }).macPointers (r / 8)
  else if r < 40 then
    let p := match who with | .core c => if c < 8 then 6 else 7 | _ => 7
    { s1 with eth := { s1.eth with ringPort := s1.eth.ringPort.set 7 (r - 32) p } }
  else s1

/-- A Send Descriptor. -/
structure SendDesc where
  addr : Nat
  len : Nat
  hdr : Nat
  lso : Bool
  ts : Bool
  rsvd : Nat
  mss : Nat
  l3 : Nat
  l4 : Nat
  rules : List FieldRule

/-- Parse a Send Descriptor. -/
def parseDesc (b : List Byte) : SendDesc :=
  { addr := le b 0 4, len := le b 4 2, hdr := le b 6 1, lso := bit (le b 7 1) 0, ts := bit (le b 7 1) 1, rsvd := le b 7 1 / 4
    mss := le b 8 2, l3 := le b 10 1, l4 := le b 11 1
    rules := [0, 1, 2, 3].map fun i =>
      { kind := le b (16 + 4 * i) 1, off := le b (17 + 4 * i) 1, adj := le b (18 + 4 * i) 2 } }

/-- MAXLEN of MAC m, values out of range taken as 1,522; 2,048 for the other rings. -/
def State.maxLen (s : State) (r : Nat) : Nat :=
  if r < 32 then
    let n := s.rd R.MAC_CTRL.MAXLEN (r / 8)
    if 64 ≤ n ∧ n ≤ 2048 then n else 1522
  else 2048

/-- Segments of a descriptor (R465). -/
def SendDesc.segs (d : SendDesc) : Nat :=
  if d.lso then (if d.len ≤ d.hdr then 1 else (d.len - d.hdr + d.mss - 1) / max 1 d.mss) else 1

/-- Does a descriptor keep the ranges of Send Descriptor and Field Updates (R459, R466, R497)? -/
def SendDesc.ok (d : SendDesc) (r maxlen : Nat) (data : List Byte) : Bool :=
  let h := if d.lso then d.hdr else d.len
  !(decide (32 ≤ r) && (d.lso || d.ts)) && d.rsvd == 0 &&
  (rangeOf d.addr == some .sram || rangeOf d.addr == some .raw) && rangeOf (d.addr + d.len - 1) == rangeOf d.addr &&
  (if d.lso then decide (14 ≤ d.hdr) && decide (d.hdr ≤ 254) && decide (d.hdr ≤ d.len) && decide (1 ≤ d.mss) &&
      decide (d.mss + 4 + d.hdr ≤ maxlen)
   else decide (14 ≤ d.len) && decide (d.len + 4 ≤ maxlen)) &&
  d.rules.all fun x => x.ok data h

/-- The descriptor that ring r works on next: the last one in work if segments of it remain, else the one
behind it; none when HEAD to TAIL is empty. -/
def State.nextDesc (s : State) (r : Nat) : Option (Nat × Nat) :=
  let p := s.ringProg r
  let n := max 1 (s.txSize r)
  match p.getLast? with
  | some d =>
    if d.result.isNone && decide (d.queued < d.segs) then some (d.idx, d.queued)
    else if (d.idx + 1) % n = s.txTail r then none else some ((d.idx + 1) % n, 0)
  | none => if s.txHead r = s.txTail r then none else some (s.txHead r, 0)

/-- Bytes of segment k with its field updates (R465, R466). Without LSO the payload that KIND 1 counts is
not stated, so it is a free value (log 23) (DESIGN CHOICE). -/
def State.segment (s : State) (d : SendDesc) (k : Nat) (data : List Byte) : State × List Byte :=
  if d.lso then
    let pay := ((data.drop d.hdr).drop (k * d.mss)).take d.mss
    (s, applyRules d.rules k d.mss pay.length d.l3 d.l4 (k + 1 == d.segs) (data.take d.hdr ++ pay))
  else
    let (v, s1) := s.free
    (s1, applyRules d.rules 0 0 (v.toNat % 65536) d.l3 d.l4 true data)

/-- The descriptor begins: an entry in work, ended ERROR at once where its ranges are broken. -/
def State.startDesc (s : State) (r idx segs : Nat) (ok : Bool) : State :=
  s.setRing r (s.ringProg r ++ [⟨idx, segs, 0, 0, if ok then none else some 3⟩])

/-- A frame is padded to 60 bytes (R460). -/
def padded (l : List Byte) : List Byte := l ++ List.replicate (60 - l.length) 0

/-- The frame of a segment: a MAC ring's enters the MAC's queue, a switch or host ring's is looked up. -/
def State.segFrame (s : State) (r idx : Nat) (l : List Byte) (stamp : Option Nat) : State :=
  let q := r % 8
  let port := if r < 32 then r / 8 else if r < 40 then s.eth.ringPort.get 7 q else 4
  let cls := if 32 ≤ r ∧ r < 40 then q else if r < 32 then q else s.classOf 4 l
  let data := if r < 32 then padded l else l
  let f := s.eth.next
  let x : EthFrame := { data := data, port := port, ring := some (r, idx), cls := cls, cells := 1,
                        checked := true, stamp := stamp, ended := decide (r < 32) && decide ((wireLen data + 255) / 256 ≤ 1) }
  let s1 := (s.wr R.SW_CELLS.FREE (s.cellsFree - 1)).setFrame f (some x)
  let s2 := { s1 with eth := { s1.eth with next := f + 1 } }
  let s3 := if r < 32 then s2 else s2.bump R.SW_PRXp.FRAMES 0 port
  let s4 := s3.descUpdate r idx fun d => { d with queued := d.queued + 1 }
  if r < 32 then s4.enqueue f (r / 8) q data else s4

/-- Does a frame of ring r still lack cells (R491)? -/
def State.storing (s : State) (r : Nat) : Bool :=
  s.eth.frames.any fun e => match e.2 with
    | some x => (x.ring.map (·.1)) == some r && !x.dropped && decide (x.cells < x.need)
    | none => false

/-- LSO_SEGMENT_ENQUEUE (R467): the next segment of ring r is copied from memory and enters its queue once
its first cell is stored; the ring waits while no cell is free, or a frame of it lacks cells (R491). -/
def State.segStep (s : State) (r : Nat) : State :=
  let on := (if r < 32 then s.macOn (r / 8) else s.on R.SW_CTRL.EN) && !s.storing r
  match s.nextDesc r with
  | none => s
  | some (idx, k) =>
    if on && decide (2 ≤ s.txSize r) && decide (0 < s.cellsFree) then
      let (s0, db) := s.sramBytes (s.txBase r + 32 * idx) 32
      let d := parseDesc db
      let (s1, data) := s0.engineGet d.addr d.len
      let ok := d.ok r (s1.maxLen r) data
      let s2 := if k = 0 then s1.startDesc r idx d.segs ok else s1
      if ok then
        let (s3, l) := s2.segment d k data
        s3.segFrame r idx l (if k = 0 ∧ d.ts = true then some idx else none)
      else s2.descUpdate r idx (descFail 3)
    else s

/-! ### Receive rings (13 R456 to R458, 14 R498, 16 R546) -/

/-- A write of GET: false for the error response of R456. -/
def State.getOk (s : State) (r get : Nat) : Bool :=
  let n := s.rxSize r
  decide (get < n) && decide ((get + n - s.rxGet r) % max 1 n ≤ (s.rxPut r + n - s.rxGet r) % max 1 n)

/-- Put GET. -/
def State.putGet (s : State) (r get : Nat) : State :=
  let s1 := s.ringWr R.MAC_RXRq_PTR.GET R.SW_RXRq_PTR.GET R.PCIE_HRXRq_PTR.TAIL_or_GET r get
  if r < 32 then s1.macPointers (r / 8) else s1

/-- Bytes 6 to 31 of a Receive Descriptor. -/
def rxDescBytes (len flags entry : Nat) (t : Option Nat) : List Byte :=
  leBytes 2 len ++ leBytes 1 flags ++ leBytes 1 entry ++ leBytes 6 0 ++
  (match t with
    | some x => leBytes 8 (x / 16 / 1000000000) ++ leBytes 4 (x / 16 % 1000000000) ++ leBytes 2 (x % 16 * 4096)
    | none => leBytes 14 0) ++ leBytes 2 0

/-- A frame for ring r finds no descriptor, or one too small (R457). -/
def State.rxRefused (s : State) (r : Nat) (big : Bool) : State :=
  if r < 32 then
    let m := r / 8
    let s1 := (s.bump (if big then R.MAC_RXDROP_D.LO else R.MAC_RXDROP_D.HI) m).raise R.mac_INT.RXDROP m
    if r % 8 = s.rd R.MAC_PD.RXQ m then s1.ctxCount 1 m 0x1C else s1
  else if r < 40 then
    (s.bump (if big then R.SW_RXDROP.TOOBIG else R.SW_RXDROP.NODESC)).raise R.switchCore_INT.RXDROP
  else s.raise R.pcie_INT.HRXDROP

/-- What follows a delivery to ring r (R457, R464, R498, R546). -/
def State.rxAnnounce (s : State) (r : Nat) : State :=
  if r < 32 then
    let m := r / 8
    let s1 := (s.raise R.mac_INT.RX m).postSources (.mac m) 6 (r % 8) m
    (if r % 8 = s.rd R.MAC_PD.RXQ m then s1.ctxCount 1 m 0x18 else s1).macPointers m
  else if r < 40 then (s.raise R.switchCore_INT.RX).postSources (.mac 4) 6 (r - 32) 4
  else s.raise R.pcie_INT.HRX

/-- Deliver `data` to receive ring r: whether it was delivered (R456 to R458). -/
def State.rxDeliver (s : State) (r : Nat) (x : EthFrame) (data : List Byte) : State × Bool :=
  let n := s.rxSize r
  let p := s.rxPut r
  if n < 2 ∨ (p + 1) % max 1 n = s.rxGet r then (s.rxRefused r false, false)
  else
    let a := s.rxBase r + 32 * p
    let (s0, db) := s.sramBytes a 8
    if le db 4 2 < data.length then (s0.rxRefused r true, false)
    else
      let stamp := decide (r < 32) && ((ptpOff data).isSome || s0.on R.MAC_CTRL.TS_ALL (r / 8))
      let entry := if r < 32 then x.entry else x.port
      let s1 := (s0.enginePut (le db 0 4) data).sramPut (a + 6)
        (rxDescBytes data.length (ofBool stamp) entry (if stamp then some x.time else none))
      let s2 := s1.ringWr R.MAC_RXRq_PTR.PUT R.SW_RXRq_PTR.PUT R.PCIE_HRXRq_PTR.HEAD_or_PUT r ((p + 1) % max 1 n)
      (s2.rxAnnounce r, true)

/-! ### Egress of ports 4 to 7 (14 R485, R487, R498) -/

/-- May a frame leave port p before its last byte has arrived (R486)? -/
def State.cutThrough (s : State) (p : Nat) (x : EthFrame) : Bool :=
  decide (p < 4) && decide (x.port < 4) && x.ring.isNone &&
    decide (s.rd R.MAC_STATUS.SPEED p ≤ s.rd R.MAC_STATUS.SPEED x.port)

/-- May the copy leave port p now (R486)? -/
def State.eligible (s : State) (p f : Nat) : Bool :=
  match s.frame f with
  | none => false
  | some x =>
    !x.dropped && (x.ended || s.cutThrough p x)

/-- The highest-numbered queue of a list whose head may leave. -/
def State.pickQueue (s : State) (p : Nat) (cs : List Nat) : Option (Nat × QEntry × List QEntry) :=
  cs.findSome? fun c =>
    match s.queue p c with
    | e :: t => if s.eligible p e.frame then some (c, e, t) else none
    | [] => none

/-- The bytes of a copy as it leaves, with its mark (R494). -/
def State.copyBytes (s : State) (f : Nat) (mark : Bool) : List Byte :=
  match s.frame f with
  | some x => if mark then markCe x.data else x.data
  | none => []

/-- The body of a SWITCH message: the frame, its FCS, and 0 to 3 zero bytes (R487). -/
def switchBody (l : List Byte) : List Byte :=
  let b := l ++ leBytes 4 (crc32 l).toNat
  b ++ List.replicate ((4 - b.length % 4) % 4) 0

/-- The SWITCH message of a copy at port 5 (R480, R487). -/
def State.copyMsg (s : State) (e : QEntry) : DynMsg :=
  let b := switchBody (s.copyBytes e.frame e.mark)
  { type := 4, dest := match s.frame e.frame with | some x => x.unit | none => 0x7FF, body := b
    pad := b.length - 4 - (s.copyBytes e.frame e.mark).length }

/-- The copies that may leave port 5, each with its class, in the order of R485. -/
def State.ringCopies (s : State) : List (Nat × QEntry) :=
  [7, 6, 5, 4, 3, 2, 1, 0].flatMap fun c =>
    ((s.queue 5 c).takeWhile fun e => s.eligible 5 e.frame).map fun e => (c, e)

/-- The copies whose messages fit in `n` bytes, up to the first that does not (R487). -/
def State.fitCopies (s : State) : Nat → List (Nat × QEntry) → List (Nat × QEntry)
  | _, [] => []
  | n, x :: t =>
    let k := 8 + (s.copyMsg x.2).body.length
    if k ≤ n then x :: s.fitCopies (n - k) t else []

/-- The copies that a dynamic frame takes where `n` bytes remain in it: at most SW_RP_CTRL.BYTES bytes of messages
(R487). -/
def State.frameCopies (s : State) (n : Nat) : List (Nat × QEntry) :=
  s.fitCopies (min n (min 1564 (s.rd R.SW_RP_CTRL.BYTES))) s.ringCopies

/-- The copies leave their queues at port 5. -/
def State.takeCopies (s : State) (l : List (Nat × QEntry)) : State :=
  l.foldl (fun (t : State) x => t.setQueue 5 x.1 ((t.queue 5 x.1).filter fun e => e.frame != x.2.frame)) s

/-- Port 5 has sent the copies in a dynamic frame. -/
def State.sentCopies (s : State) (l : List (Nat × QEntry)) : State :=
  l.foldl (fun (t : State) x => (t.bump R.SW_PTXp.FRAMES 0 5).copyDone x.2.frame true) (s.takeCopies l)

/-- SWITCH_EGRESS: port 4, 6 or 7 takes its next copy. ETH ports send by R469, and port 5 starts in the dynamic frame,
whose own row takes its copies (DEDUCED, log 22). -/
def State.egress (s : State) (p : Nat) : State :=
  if p < 4 ∨ p = 5 ∨ 7 < p ∨ (s.sending p).isSome = true then s
  else match s.pickQueue p [7, 6, 5, 4, 3, 2, 1, 0] with
    | none => s
    | some (c, e, t) => (s.setQueue p c t).setSending p (some { frame := e.frame, cls := c, mark := e.mark, time := 0 })

/-- Receive ring of a copy at port p: the MAC of arrival's for a cluster port, the switch's otherwise, the
host's at port 4. -/
def rxRing (p c : Nat) (x : EthFrame) : Nat :=
  if p = 4 then 40 + c else if x.port < 4 ∧ x.ring.isNone = true then 8 * x.port + c else 32 + c

/-- SWITCH_DELIVER: the copy that port p has taken goes to its ring (R498). -/
def State.deliver (s : State) (p : Nat) : State :=
  if p = 4 ∨ p = 6 ∨ p = 7 then
    match s.sending p with
    | none => s
    | some g =>
      let s1 := s.setSending p none
      match s1.frame g.frame with
      | none => s1
      | some x =>
        match s1.rxDeliver (rxRing p g.cls x) x (s1.copyBytes g.frame g.mark) with
        | (s2, true) => (s2.bump R.SW_PTXp.FRAMES 0 p).copyDone g.frame true
        | (s2, false) => s2.copyDone g.frame false
  else s

/-! ### Arms that need no register access -/

/-- SWITCH_LOOKUP. -/
def execSwitchLookup (f : Nat) (s : State) : Host.Outcome State Fault Refusal := s.powered (s.lookup f)
/-- SWITCH_ENQUEUE. -/
def execSwitchEnqueue (f : Nat) (s : State) : Host.Outcome State Fault Refusal := s.powered (s.enqueueAll f)
/-- CELL_ALLOCATE. -/
def execCellAllocate (f : Nat) (s : State) : Host.Outcome State Fault Refusal := s.powered (s.allocCell f)
/-- PUSH_OUT. -/
def execPushOut (cls : Nat) (s : State) : Host.Outcome State Fault Refusal := s.powered (s.pushStep cls)
/-- SWITCH_FRAME_END. -/
def execSwitchFrameEnd (f : Nat) (s : State) : Host.Outcome State Fault Refusal := s.powered (s.frameEnd f)
/-- SWITCH_EGRESS. -/
def execSwitchEgress (p : Nat) (s : State) : Host.Outcome State Fault Refusal := s.powered (s.egress p)
/-- SWITCH_DELIVER. -/
def execSwitchDeliver (p : Nat) (s : State) : Host.Outcome State Fault Refusal := s.powered (s.deliver p)
/-- CELL_FREE. -/
def execCellFree (f : Nat) (s : State) : Host.Outcome State Fault Refusal := s.powered (s.freeCells f)
/-- AGE_TICK. -/
def execAgeTick (s : State) : Host.Outcome State Fault Refusal := s.powered s.ageStep
/-- LSO_SEGMENT_ENQUEUE. -/
def execLsoSegmentEnqueue (r : Nat) (s : State) : Host.Outcome State Fault Refusal :=
  if r < 48 then s.powered (s.segStep r) else .next s

end Sys2Proof.Machine
end

