-- ==== Sys2Proof/Machine/Mac.lean ====
section
/-! DEFINITION. The Ethernet MACs (13): address filter, receive checks, link, gate control lists,
transmission and its timestamps, and the GCL section. -/

namespace Sys2Proof.Machine

/-! ### Receiving (13 R450, R453 to R455) -/

/-- The filter entry that a destination matches: the lowest enabled one. -/
def State.filterHit (s : State) (m dst : Nat) : Option Nat :=
  (List.range 16).find? fun n => s.on R.MAC_ADDRn_HI.EN m n &&
    s.rd R.MAC_ADDRn_HI.ADDR_HI m n * 2 ^ 32 + s.rd R.MAC_ADDRn_LO.ADDR_LO m n == dst

/-- Does a destination pass, and with which ENTRY (R453)? -/
def State.filterPass (s : State) (m dst : Nat) : Option Nat :=
  if s.rd R.MAC_FILT.MODE m = 0 then some 0xFF
  else match s.filterHit m dst with
    | some n => some n
    | none => if dst = 2 ^ 48 - 1 ∧ s.on R.MAC_FILT.BCAST m = true then some 0xFF else none

/-- A time in 1/16 ns less a latency, resolved to 0.25 ns (05 R196). -/
def resolved (t : Int) : Nat := (t / 4 * 4).toNat

/-- MAC_RX_FILTER. The MAC stops taking bytes after MAXLEN + 1, the four of the FCS included (R454). While the switch
core is disabled the frame goes nowhere, and the MAC counts it at its end (R455). -/
def State.rxFilter (s : State) (m : Nat) (data : List Byte) (t : Nat) : State :=
  if s.macOn m && s.on R.MAC_STATUS.LINK m then
    match s.filterPass m (dstOf data) with
    | none => s.bump R.MAC_RXDROP_C.HI m
    | some e =>
      let time := resolved ((t : Int) - s.rd R.TB_ING_LATp.LAT 0 m)
      let x : EthFrame :=
        { data := data.take (s.maxLen (8 * m) - 3), port := m, cls := s.classOf m data, entry := e, time := time }
      if s.on R.SW_CTRL.EN then s.ingress x else s.newFrame { x with ended := true, dropped := true }
  else s

/-- The counter of the first cause that applies at a frame's end (R454), or none for a good frame. -/
def State.rxCause (s : State) (m : Nat) (data : List Byte) (symbol fcsBad : Bool) : Option Fld :=
  if symbol then some R.MAC_RXDROP_B.LO
  else if wireLen data < 64 then some R.MAC_RXDROP_A.LO
  else if s.maxLen (8 * m) < wireLen data then some R.MAC_RXDROP_B.HI
  else if fcsBad then some R.MAC_RXDROP_A.HI
  else if be data (typeOff data) 2 = 0x8808 then some R.MAC_RXDROP_C.LO
  else none

/-- MAC_RX_END (R454, R455). -/
def State.rxEnd (s : State) (f : Nat) (symbol fcsBad : Bool) : State :=
  match s.frame f with
  | none => s
  | some x =>
    if x.unchecked then
      match s.rxCause x.port x.data symbol fcsBad with
      | some c => ((s.setFrame f (some { x with checked := true, fcsBad := true })).bump c x.port).dropFrame f
      | none => (s.setFrame f (some { x with checked := true })).bump R.MAC_RXCNT.FRAMES x.port
    else s

/-- Drop the heads of every queue while the link is down (R471). -/
def State.dropDown (s : State) (m : Nat) : State :=
  (List.range 8).foldl (fun t q =>
    (t.queue m q).foldl (fun u e => ((u.setQueue m q ((u.queue m q).drop 1)).bump R.MAC_TXDROP.LINKDOWN m).copyDone
      e.frame false) t) s

/-- Put the link state; each change of LINK sets INT_STATUS.LINK (R447, R450), and a link that goes down drops the
frames that wait (R471). -/
def State.putLink (s : State) (m : Nat) (up : Bool) : State :=
  if s.on R.MAC_STATUS.LINK m = up then s
  else
    let s1 := (s.wr R.MAC_STATUS.LINK (ofBool up) m).raise R.mac_INT.LINK m
    if up then s1 else s1.dropDown m

/-- Does the link state come from the PHY (R450)? -/
def State.linkFromPhy (s : State) (m : Nat) : Bool := s.on R.MAC_CTRL.IF m || s.on R.MAC_CTRL.INBAND m

/-- Is MAC m's SGMII lane without its clock (17 R571)? -/
def State.laneDead (s : State) (m : Nat) : Bool := s.on R.MAC_CTRL.IF m && !s.power.ringClk

/-- MAC_LINK_CHANGE: a half-duplex link is treated as down; in RGMII mode without in-band status the link
is taken as up at MAC_CTRL.SPEED. -/
def State.linkChange (s : State) (m : Nat) (up : Bool) (speed : Nat) (half sync : Bool) : State :=
  if s.macOn m && s.linkFromPhy m && !s.laneDead m then
    (((s.wr R.MAC_STATUS.SPEED (min speed 2) m).wr R.MAC_STATUS.HALF (ofBool half) m).wr
      R.MAC_STATUS.SYNC (ofBool sync) m).putLink m (up && !half)
  else s

/-- The link as MAC_CTRL leaves it: down while the MAC is off, up in RGMII mode without in-band status. -/
def State.linkByCtrl (s : State) (m : Nat) : State :=
  if !s.macOn m then s.putLink m false
  else if s.linkFromPhy m then s
  else (s.wr R.MAC_STATUS.SPEED (min (s.rd R.MAC_CTRL.SPEED m) 2) m).putLink m true

/-! ### Gate control lists (13 R468 to R472) -/

/-- A gate list as it runs: intervals in half nanoseconds with their gate states. -/
abbrev GateList := List (Nat × Nat)

/-- Cut or extend a list to the cycle's length. -/
def fitCycle : Nat → GateList → GateList
  | _, [] => []
  | c, [(_, g)] => [(c, g)]
  | c, (d, g) :: t => if c ≤ d then [(c, g)] else (d, g) :: fitCycle (c - d) t

/-- Words of a bank: configuration, cycle and entries. -/
structure GateBank where
  cfg : Word
  cycle : Word
  sec : Word
  ns : Word
  words : SMap Word

/-- The shadow bank of MAC m. -/
def State.gclShadow (s : State) (m : Nat) : GateBank :=
  { cfg := s.reg (R.MAC_GCL_CFG.all.addr m 0), cycle := s.reg (R.MAC_GCL_CYCLE.all.addr m 0)
    sec := s.reg (R.MAC_GCL_BASE_SEC.all.addr m 0), ns := s.reg (R.MAC_GCL_BASE_NS.all.addr m 0)
    words := (s.regs.filter fun e => decide (R.MAC_GCL_INTn.all.addr m 0 ≤ e.1) &&
      decide (e.1 < R.MAC_GCL_INTn.all.addr m 256)).map fun e => ((e.1 - R.MAC_GCL_INTn.all.addr m 0) / 4, e.2) }
/-- The active bank. -/
def State.gclActive (s : State) (m : Nat) : GateBank :=
  let k := s.macOf m
  { cfg := k.gclCfg, cycle := k.gclCycle, sec := k.gclSec, ns := k.gclNs, words := k.gcl }

/-- Entries of a bank, values above 256 taken as 256. -/
def GateBank.count (b : GateBank) : Nat := min 256 (getBits b.cfg 8 0)
/-- RING mode? -/
def GateBank.ring (b : GateBank) : Bool := b.cfg.getLsbD 31
/-- Gate state of entry k. -/
def GateBank.gates (b : GateBank) (k : Nat) : Nat := (b.words.get 0 (2 * k + 1)).toNat % 256
/-- Interval of entry k in ns. -/
def GateBank.interval (b : GateBank) (k : Nat) : Nat := (b.words.get 0 (2 * k)).toNat
/-- Cycle length in half nanoseconds. -/
def State.gclCycleLen (s : State) (b : GateBank) : Nat :=
  if b.ring then 5 * s.cycleTicks else 2 * b.cycle.toNat
/-- The list of one cycle (R468). -/
def State.gateList (s : State) (b : GateBank) : GateList :=
  fitCycle (s.gclCycleLen b) ((List.range b.count).map fun k => (2 * b.interval k, b.gates k))

/-- Do the gates follow the active list? -/
def State.gated (s : State) (m : Nat) : Bool := s.on R.MAC_GCL_CTRL.EN m && (s.gclActive m).count != 0

/-- Has a RING-mode list no ring cycle to follow (R468)? -/
def State.gclIdle (s : State) (b : GateBank) : Bool := b.ring && s.rd R.RING_CYC_STATUS.SEG == 4

/-- 2³² seconds in units of 2⁻⁴⁰ ns: the range of an ABSOLUTE base (05 R200). -/
def secWrap : Nat := 2 ^ 32 * 1000000000 * 2 ^ 40

/-- Local time less BASE, modulo 2³² s: none where BASE lies in the future (R468, 05 R200). -/
def State.pastBase (s : State) (b : GateBank) : Option Nat :=
  let base : Nat := (b.sec.toNat * 1000000000 + b.ns.toNat % 2 ^ 30) * 2 ^ 40
  let d : Int := ((s.now : Int) + halfTick - base) % (secWrap : Int)
  if 2 * d < (secWrap : Int) then some d.toNat else none

/-- Local time of the last cycle start of a list that has come: the ring cycle boundary, or the last instant
BASE + n × CYCLE_NS, n a natural number (R468) (DEDUCED, log 44). -/
def State.lastStart (s : State) (b : GateBank) : Option Nat :=
  if b.ring then (if s.gclIdle b then none else some s.time.cycStart)
  else (s.pastBase b).map fun d => s.now + halfTick - d % max 1 (b.cycle.toNat * 2 ^ 40)

/-- Local time at which the present list cycle of MAC m began: of an ABSOLUTE list the last BASE + n × CYCLE_NS, by the
time as it stands after any step (R468). -/
def State.gclStartAt (s : State) (m : Nat) : Nat :=
  if (s.gclActive m).ring then (s.macOf m).gclFrom else (s.lastStart (s.gclActive m)).getD (s.macOf m).gclFrom

/-- How far into the present list cycle the present tick starts, in half nanoseconds to the nearest tick (R468). -/
def State.gclPos (s : State) (m : Nat) : Nat := (s.now + halfTick - s.gclStartAt m) / 2 ^ 39

/-- The entry of a list in effect `pos` half nanoseconds into its cycle; the last one holds (R468). -/
def entryAt : List Nat → Nat → Nat
  | [], _ => 0
  | [_], _ => 0
  | d :: t, pos => if pos < d then 0 else entryAt t (pos - d) + 1

/-- The entry of the active list in effect. -/
def State.gclNow (s : State) (m : Nat) : Nat :=
  let b := s.gclActive m
  entryAt ((List.range b.count).map fun k => 2 * b.interval k) (s.gclPos m)

/-- The gate state in effect. -/
def State.gatesNow (s : State) (m : Nat) : Nat :=
  let b := s.gclActive m
  if !s.gated m then 0xFF
  else if s.gclIdle b then s.rd R.MAC_GCL_CTRL.IDLE_GATES m
  else b.gates (s.gclNow m)

/-- Half nanoseconds from the start of the present list cycle to the next cycle start of the shadow bank, where an
armed swap ends the old list (R472): none while a RING-mode shadow has no ring cycle to wait for. -/
def State.swapAt (s : State) (m : Nat) : Option Nat :=
  let b := s.gclShadow m
  let next : Option Nat :=
    if b.ring then (if s.gclIdle b then none else some s.time.cycNext)
    else some (match s.pastBase b with
      | some d => s.now + halfTick - d % max 1 (b.cycle.toNat * 2 ^ 40) + b.cycle.toNat * 2 ^ 40
      | none => s.now + (((b.sec.toNat * 1000000000 + b.ns.toNat % 2 ^ 30) * 2 ^ 40 : Nat) - (s.now : Int)).natAbs % secWrap)
  next.map fun t => (t - s.gclStartAt m) / 2 ^ 39

/-- The first `c` half nanoseconds of a list. -/
def cutList : Nat → GateList → GateList
  | _, [] => []
  | c, (d, g) :: t => if c ≤ d then [(c, g)] else (d, g) :: cutList (c - d) t

/-- `n` half nanoseconds of a list that repeats every `c`. -/
def repeated (l : GateList) (c n : Nat) : GateList :=
  cutList n (List.replicate (n / max 1 c + 1) l).flatten

/-- How much of `need` remains after walking a list from `skip`, none where gate q closes before. -/
def walkOpen (q : Nat) : GateList → Nat → Nat → Option Nat
  | [], _, need => some need
  | (d, g) :: t, skip, need =>
    if need = 0 then some 0
    else if d ≤ skip then walkOpen q t (skip - d) need
    else if bit g q then walkOpen q t 0 (need - (d - skip))
    else none

/-- What a bank does to the gates for `n` half nanoseconds: its list, the idle gates while no ring cycle runs, or
every gate open for a count of 0 (R468). -/
def State.bankGates (s : State) (m : Nat) (b : GateBank) (n : Nat) : GateList :=
  if b.count = 0 then [(n, 0xFF)]
  else if s.gclIdle b then [(n, s.rd R.MAC_GCL_CTRL.IDLE_GATES m)]
  else repeated (s.gateList b) (s.gclCycleLen b) n

/-- The gates of MAC m from the start of the present list cycle, for `n` half nanoseconds: the active list, then
from the instant of an armed swap the shadow list (R469, R472). -/
def State.gatesAhead (s : State) (m n : Nat) : GateList :=
  match if s.on R.MAC_GCL_CTRL.ARM m then s.swapAt m else none with
  | some k => s.bankGates m (s.gclActive m) (min n k) ++ s.bankGates m (s.gclShadow m) (n - k)
  | none => s.bankGates m (s.gclActive m) n

/-- Does gate q stay open for `need` half nanoseconds from the present tick on, through the following cycles and an
armed swap (R469)? (DEDUCED, log 44). -/
def State.staysOpen (s : State) (m q need : Nat) : Bool :=
  !s.on R.MAC_GCL_CTRL.EN m || walkOpen q (s.gatesAhead m (s.gclPos m + need)) (s.gclPos m) need == some 0

/-- Longest run of open gate q in a list, `run` being the run that has led up to it. -/
def longestOpen (q : Nat) : GateList → Nat → Nat
  | [], run => run
  | (d, g) :: t, run => if bit g q then longestOpen q t (run + d) else max run (longestOpen q t 0)

/-- Longest continuous open time of queue q, windows joined across the cycle end; none when the gate never
closes (R470). -/
def maxOpen (q : Nat) (l : GateList) : Option Nat :=
  if l.all fun e => bit e.2 q then none else some (longestOpen q (l ++ l) 0)

/-- Wire time of a frame of `n` bytes in half nanoseconds at speed code `sp` (R469). -/
def wireTime (sp n : Nat) : Nat := (8 + n + 12) * (if sp = 0 then 1600 else if sp = 1 then 160 else 16)

/-- Length that R469 takes for a frame at MAC m: MAXLEN for a cut-through frame whose end has not arrived (14 R486). -/
def State.txLen (s : State) (m : Nat) (x : EthFrame) : Nat :=
  if !x.ended && s.cutThrough m x then s.maxLen (8 * m) else max 64 (wireLen x.data)

/-- Is the length of the frame known at MAC m: it has arrived, comes from a ring, or counts as MAXLEN? -/
def State.lenKnown (s : State) (m : Nat) (x : EthFrame) : Bool := x.ended || x.ring.isSome || s.cutThrough m x

/-- Can the frame never fit the list (R470)? -/
def State.neverFits (s : State) (m q : Nat) (x : EthFrame) : Bool :=
  s.gated m && s.lenKnown m x && (match maxOpen q (s.gateList (s.gclActive m)) with
    | some n => decide (n < wireTime (s.rd R.MAC_STATUS.SPEED m) (s.txLen m x))
    | none => false)

/-- Drop the frames at the head of queue q that can never fit. -/
def State.dropUnfit (s : State) (m q : Nat) : Nat → State
  | 0 => s
  | n + 1 =>
    match s.queue m q with
    | [] => s
    | e :: t =>
      match s.frame e.frame with
      | none => s
      | some x =>
        if s.neverFits m q x then
          (((s.setQueue m q t).bump R.MAC_TXDROP.GCL m).copyDone e.frame false).dropUnfit m q n
        else s

/-- As `dropUnfit` for every queue of MAC m. -/
def State.dropAllUnfit (s : State) (m : Nat) : State :=
  (List.range 8).foldl (fun t q => t.dropUnfit m q (t.queue m q).length) s

/-- MAC_GCL_STATUS shows the gates in effect and, while they follow the list, its entry (R468). -/
def State.gclShow (s : State) (m : Nat) : State :=
  let s1 := s.wr R.MAC_GCL_STATUS.GATES (s.gatesNow m) m
  if !s.gated m then s1.wr R.MAC_GCL_STATUS.ENTRY 0 m
  else if s.gclIdle (s.gclActive m) then s1
  else s1.wr R.MAC_GCL_STATUS.ENTRY (s.gclNow m) m

/-- Entry k of the active list begins: where the gates follow the list, its instant must have come, and that of the
entry behind it not (R468). -/
def State.gclEntry (s : State) (m k : Nat) : State :=
  if s.gated m && !s.gclIdle (s.gclActive m) && s.gclNow m != k then s else s.gclShow m

/-- Put a bank into the shadow registers. -/
def State.putShadowGcl (s : State) (m : Nat) (b : GateBank) : State :=
  let s1 := (((s.setReg (R.MAC_GCL_CFG.all.addr m 0) b.cfg).setReg (R.MAC_GCL_CYCLE.all.addr m 0) b.cycle).setReg
    (R.MAC_GCL_BASE_SEC.all.addr m 0) b.sec).setReg (R.MAC_GCL_BASE_NS.all.addr m 0) b.ns
  (List.range 512).foldl (fun t i => t.setReg (R.MAC_GCL_INTn.all.addr m 0 + 4 * i) (b.words.get 0 i)) s1

/-- A swap (R470, R472): the banks exchange their roles, and frames that can never fit are dropped. -/
def State.gclSwap (s : State) (m : Nat) : State :=
  let new := s.gclShadow m
  let old := s.gclActive m
  let s1 := s.putShadowGcl m old
  let s2 := s1.setMac m { s1.macOf m with gclCfg := new.cfg, gclCycle := new.cycle, gclSec := new.sec,
                                          gclNs := new.ns, gcl := new.words }
  let s3 := ((s2.wr R.MAC_GCL_CTRL.ARM 0 m).wr R.MAC_GCL_CTRL.BANK (1 - s2.rd R.MAC_GCL_CTRL.BANK m) m).raise
    R.mac_INT.GSWAP m
  s3.dropAllUnfit m

/-- The list cycle of MAC m began at local time `t`. -/
def State.gclBegin (s : State) (m t : Nat) : State :=
  (s.setMac m { s.macOf m with gclFrom := t }).gclShow m

/-- Does an armed swap fall due: a cycle start of the shadow bank after the write that armed it (R472)? -/
def State.swapDue (s : State) (m : Nat) : Option Nat :=
  if s.on R.MAC_GCL_CTRL.ARM m then (s.lastStart (s.gclShadow m)).filter ((s.macOf m).gclArmed < ·) else none

/-- A list cycle starts, once its instant has come: an armed swap takes place at a cycle start of the shadow bank;
then entry 0 begins (R468, R472). -/
def State.gclStart (s : State) (m : Nat) : State :=
  match s.swapDue m with
  | some t => (s.gclSwap m).gclBegin m t
  | none =>
    match s.lastStart (s.gclActive m) with
    | some t => if (s.macOf m).gclFrom ≠ t then s.gclBegin m t else s
    | none => s.gclShow m

/-- A ring boundary starts the cycle of every RING-mode list, and of an armed RING-mode shadow (R468). -/
def State.gclBoundary (s : State) : State := (List.range 4).foldl State.gclStart s

/-- A write of MAC_GCL_CTRL: DISARM first, then ARM. -/
def State.gclCtrl (s : State) (m : Nat) (v : Word) : State :=
  let s1 := (s.wr R.MAC_GCL_CTRL.EN (getBits v 31 31) m).wr R.MAC_GCL_CTRL.IDLE_GATES (getBits v 7 0) m
  let s2 := if getBits v 29 29 = 1 then s1.wr R.MAC_GCL_CTRL.ARM 0 m else s1
  let s3 := if getBits v 30 30 = 1 then
      (s2.wr R.MAC_GCL_CTRL.ARM 1 m).setMac m { s2.macOf m with gclArmed := s2.now + halfTick }
    else s2
  s3.gclShow m

/-! ### Transmission (13 R461, R462, R469 to R471) -/

/-- Queues of MAC m whose gates are open, highest first. -/
def State.openQueues (s : State) (m : Nat) : List Nat :=
  [7, 6, 5, 4, 3, 2, 1, 0].filter fun q => bit (s.gatesNow m) q

/-- MAC_TX_START: the head of the highest open queue that has a frame starts, if its gate stays open for
its wire time (R469); with the link down every frame that waits is dropped (R471). A row that names another queue
stands for no start (log 9). -/
def State.txStart (s : State) (m queue t : Nat) : State :=
  if !s.on R.MAC_STATUS.LINK m then s.dropDown m
  else if !s.macOn m || (s.sending m).isSome then s
  else
    let s0 := s.dropAllUnfit m
    match s0.pickQueue m (s0.openQueues m) with
    | none => s0
    | some (q, e, rest) =>
      match s0.frame e.frame with
      | none => s0
      | some x =>
        if q = queue ∧ s0.staysOpen m q (wireTime (s0.rd R.MAC_STATUS.SPEED m) (s0.txLen m x)) = true then
          let time := resolved ((t : Int) + s0.rd R.TB_EGR_LATp.LAT 0 m)
          (s0.setQueue m q rest).setSending m (some ⟨e.frame, q, e.mark, time⟩)
        else s0

/-- Store a transmit timestamp (R462). -/
def State.storeStamp (s : State) (m : Nat) (x : TxStamp) : State :=
  let k := s.macOf m
  if 16 ≤ k.stamps.length then s.bump R.MAC_TXDROP.TSLOST m
  else (s.setMac m { k with stamps := k.stamps ++ [x] }).raise R.mac_INT.TXTS m

/-- The timestamp that a descriptor's first segment asks for, whatever has become of the descriptor (R462). -/
def State.stampFor (s : State) (m : Nat) (x : EthFrame) (time : Nat) : State :=
  match x.stamp, x.ring with
  | some i, some (r, _) => s.storeStamp m ⟨time, r % 8, i⟩
  | _, _ => s

/-- The bytes that leave MAC m: marked, and corrected when a PTP event message is forwarded from one ETH
port to another (05 R197, 14 R494, R496). -/
def State.wireBytes (s : State) (m : Nat) (g : Sending) (x : EthFrame) : State × List Byte :=
  let l := padded (s.copyBytes g.frame g.mark)
  if x.port < 4 ∧ x.ring.isNone = true then s.ptpCorrect l x.port m x.time g.time else (s, l)

/-- MAC_TX_END (R461). A frame that proved bad after it had begun to leave ends with the complemented FCS
(05 R199). -/
def State.txEnd (s : State) (m : Nat) : State :=
  match s.sending m with
  | none => s
  | some g =>
    let s1 := s.setSending m none
    match s1.frame g.frame with
    | none => s1
    | some x =>
      let (s2, l) := s1.wireBytes m g x
      let s3 := (s2.stampFor m x g.time).emit (.eth m l x.dropped)
      let s4 := (s3.bump R.MAC_TXCNT.FRAMES m).bump R.SW_PTXp.FRAMES 0 m
      s4.copyDone g.frame (!x.dropped)

/-- MAC_TXTS_PEEK or POP (R462): the head, or EMPTY. -/
def State.txtsPeek (s : State) (m : Nat) : Nat :=
  match (s.macOf m).stamps with
  | x :: _ => x.q * 2 ^ 27 + x.idx % 1024 * 2 ^ 16 + x.time % 16 * 4096
  | [] => 2 ^ 31
/-- Time of the head timestamp in ns. -/
def State.txtsNs (s : State) (m : Nat) : Nat :=
  match (s.macOf m).stamps with
  | x :: _ => x.time / 16
  | [] => 0
/-- MAC_TXTS_POP. -/
def State.txtsPop (s : State) (m : Nat) : RegRes :=
  { s := s.setMac m { s.macOf m with stamps := (s.macOf m).stamps.drop 1 }, data := s.txtsPeek m }

/-! ### GCL section (13 R473, R474) -/

/-- Parse `n` lists: header bytes and entries; also the bytes they take. -/
def parseGcl : Nat → List Byte → List (List Byte × List (Nat × Nat)) × Nat
  | 0, _ => ([], 0)
  | n + 1, l =>
    let c := le l 2 2
    let es := (entriesOf 8 ((l.drop 32).take (8 * c))).map fun e => (le e 0 4, le e 4 1)
    let (t, k) := parseGcl n (l.drop (32 + 8 * c))
    ((l.take 32, es) :: t, 32 + 8 * c + k)

/-- Bytes that the counts of a GCL section call for. -/
def gclLen (l : List Byte) : Nat := 16 + (parseGcl (le l 0 1) (l.drop 16)).2

/-- Checks of a GCL section (R474). -/
def gclCheck (l : List Byte) : Bool :=
  let ls := (parseGcl (le l 0 1) (l.drop 16)).1
  decide (le l 0 1 ≤ 4) && allDistinct (ls.map fun x => le x.1 0 1) &&
  ls.all fun x => decide (le x.1 0 1 < 4) && decide (1 ≤ le x.1 2 2) && decide (le x.1 2 2 ≤ 256) &&
    x.2.all (fun e => e.1 != 0) && decide (le x.1 1 1 ≤ 1) &&
    (le x.1 1 1 == 1 || (le x.1 4 4 != 0 && decide (le x.1 12 4 < 1000000000)))

/-- One list takes effect (R474). -/
def State.loadGcl (s : State) (x : List Byte × List (Nat × Nat)) : State :=
  let h := x.1
  let m := le h 0 1
  let b : GateBank :=
    { cfg := BitVec.ofNat 32 (le h 1 1 * 2 ^ 31 + le h 2 2), cycle := BitVec.ofNat 32 (le h 4 4),
      sec := BitVec.ofNat 32 (le h 8 4), ns := BitVec.ofNat 32 (le h 12 4),
      words := ((List.range x.2.length).zip x.2).flatMap fun e =>
        [(2 * e.1, BitVec.ofNat 32 e.2.1), (2 * e.1 + 1, BitVec.ofNat 32 e.2.2)] }
  let s1 := ((((s.wr R.MAC_GCL_CTRL.ARM 0 m).putShadowGcl m b).wr R.MAC_GCL_CTRL.IDLE_GATES (le h 16 1) m).wr
    R.MAC_GCL_CTRL.EN 1 m).wr R.MAC_GCL_CTRL.ARM 1 m
  let s2 := s1.setMac m { s1.macOf m with gclArmed := s1.now + halfTick }
  if b.ring then (s2.gclSwap m).gclBegin m s2.time.cycStart else s2.gclShow m

/-- Activation of a GCL section (R474). -/
def State.activateGcl (s : State) (l : List Byte) : State :=
  (parseGcl (le l 0 1) (l.drop 16)).1.foldl State.loadGcl s

/-! ### Arms that need no register access -/

/-- MAC_RX_FILTER. -/
def execMacRxFilter (m : Nat) (data : List Byte) (t : Nat) (s : State) : Host.Outcome State Fault Refusal :=
  if m < 4 then s.powered (s.rxFilter m data t) else .next s
/-- MAC_RX_END. -/
def execMacRxEnd (f : Nat) (sym bad : Bool) (s : State) : Host.Outcome State Fault Refusal :=
  s.powered (s.rxEnd f sym bad)
/-- MAC_LINK_CHANGE. -/
def execMacLinkChange (m : Nat) (up : Bool) (speed : Nat) (half sync : Bool) (s : State) :
    Host.Outcome State Fault Refusal :=
  if m < 4 then s.powered (s.linkChange m up speed half sync) else .next s
/-- MAC_TX_START. -/
def execMacTxStart (m q t : Nat) (s : State) : Host.Outcome State Fault Refusal :=
  if m < 4 then s.powered (s.txStart m q t) else .next s
/-- MAC_TX_END. -/
def execMacTxEnd (m : Nat) (s : State) : Host.Outcome State Fault Refusal :=
  if m < 4 then s.powered (s.txEnd m) else .next s
/-- GCL_ENTRY_START. -/
def execGclEntryStart (m k : Nat) (s : State) : Host.Outcome State Fault Refusal :=
  if m < 4 then s.powered (s.gclEntry m k) else .next s
/-- GCL_CYCLE_START. -/
def execGclCycleStart (m : Nat) (s : State) : Host.Outcome State Fault Refusal :=
  if m < 4 then s.powered (s.gclStart m) else .next s

end Sys2Proof.Machine
end

