-- ==== Sys2Proof/Machine/TableSet.lean ====
section
/-! DEFINITION. Table sets (04, R158 to R161, R661): the image format, the ring's own sections, and the
checks of a load in their order. -/

namespace Sys2Proof.Machine

/-! ### Directory (04 R158) -/

/-- A directory entry. -/
structure Section where
  type : Nat
  off : Nat
  len : Nat

/-- The directory of a set image. -/
def sectionsOf (b : List Byte) : List Section :=
  (List.range (min 32 (le b 6 2))).map fun k =>
    let o := 64 + 16 * k
    { type := le b o 2, off := le b (o + 4) 4, len := le b (o + 8) 4 }

/-- The body of a section, empty where it is absent. -/
def body (b : List Byte) (t : Nat) : List Byte :=
  match (sectionsOf b).find? fun x => x.type == t with
  | some x => (b.drop x.off).take x.len
  | none => []

/-- Does the set hold a section of this TYPE? -/
def hasSection (b : List Byte) (t : Nat) : Bool := (sectionsOf b).any fun x => x.type == t

/-- TYPEs of Table-Set Sections. -/
def sectionTypes : List Nat :=
  [0x01, 0x02, 0x03, 0x04, 0x10, 0x11, 0x12, 0x13, 0x20, 0x21, 0x22, 0x23, 0x24, 0x25, 0x26]

/-! ### The ring's own sections -/

/-- Parse SLOTS. -/
def parseSlots (l : List Byte) : List SlotEntry :=
  (entriesOf 8 l).map fun e =>
    let b6 := le e 6 1
    { slot := le e 0 2, owner := le e 2 2, hops := le e 4 2, phase := bitsOf b6 4 2, period := 2 ^ bitsOf b6 1 0
      hold := le e 7 1 }

/-- Parse THROUGH. -/
def parseThrough (l : List Byte) : List ThroughEntry :=
  (entriesOf 4 l).map fun e =>
    let w := leNat e
    { member := bitsOf w 10 0, mirror := bit w 11, points := bitsOf w 23 16, hold := bitsOf w 31 24 }

/-- Parse DYN_ORDER. -/
def parseDyn (l : List Byte) : List DynEntry :=
  (entriesOf 4 l).map fun e =>
    let w := leNat e
    { unit := bitsOf w 10 0, hops := bitsOf w 21 11, max := bitsOf w 29 22 }

/-- Parse RX_MAP. -/
def parseRx (l : List Byte) : List RxEntry :=
  (entriesOf 8 l).map fun e =>
    let w := leNat e
    { src := bitsOf w 63 53, thru := bit w 52, frame := bitsOf w 51 47, pos := bitsOf w 46 38, dest := bitsOf w 22 0 }

/-- Parse `n` point lists of TX_MAP; the number of bytes they take goes with them. -/
def parseLists : Nat → List Byte → List (List Nat) × Nat
  | 0, _ => ([], 0)
  | n + 1, l =>
    let p := le l 0 2
    let pts := (entriesOf 4 ((l.drop 2).take (4 * p))).map fun e => bitsOf (leNat e) 22 0
    let (t, k) := parseLists n (l.drop (2 + 4 * p))
    (pts :: t, 2 + 4 * p + k)

/-- Is unit u a through member? -/
def memberOf (th : List ThroughEntry) (u : Nat) : Bool := th.any fun e => e.member == u

/-- Bytes that TX_MAP's counts call for; `field` says that a field list comes first. -/
def txLength (l : List Byte) (field : Bool) : Nat := 2 + (parseLists (le l 0 2 + ofBool field) (l.drop 2)).2

/-- The ring's sections of a set image. -/
def parseSet (b : List Byte) : TableSet :=
  let c := body b 0x01
  let th := parseThrough (body b 0x03)
  let u := le b 0x14 2 % 2048
  let tx := body b 0x10
  let field := memberOf th u
  let lists := if tx.isEmpty then [] else (parseLists (le tx 0 2 + ofBool field) (tx.drop 2)).1
  let fl := le c 0x1E 2
  { common := le b 0x10 4, unit := u, cycleTicks := le c 0 4, thTicks := le c 4 4, stTicks := le c 8 4,
    dynTicks := le c 0x0C 4, slotTicks := le c 0x10 2, nSlots := le c 0x12 2, dynMinislots := le c 0x14 2,
    guardTicks := le c 0x16 2, hMax := le c 0x18 4, units := le c 0x1C 2, auth := bit fl 0, fallback := bit fl 1,
    master := le c 0x20 2 % 2048, timeMaster := le c 0x22 2 % 2048,
    backups := [le c 0x24 2 % 2048, le c 0x26 2 % 2048, le c 0x28 2 % 2048], standbyRoot := le c 0x2A 2 % 2048,
    frameMax := if le c 0x2C 2 = 0 then 1024 else le c 0x2C 2,
    slots := parseSlots (body b 0x02), through := th, dynOrder := parseDyn (body b 0x04),
    txField := if field then lists.headD [] else [], txFrames := if field then lists.drop 1 else lists,
    rx := parseRx (body b 0x11), hostRole := hasSection b 0x13,
    hostCmd := (entriesOf 4 (body b 0x13)).map fun e => bitsOf (leNat e) 22 0 }

/-! ### Structure (R661) -/

/-- Bytes that the format of a section gives (R661). -/
def lengthOk (b : List Byte) (x : Section) : Bool :=
  let l := (b.drop x.off).take x.len
  match x.type with
  | 0x01 => x.len == 64
  | 0x02 => x.len % 8 == 0
  | 0x03 => x.len % 4 == 0
  | 0x04 => x.len % 4 == 0
  | 0x10 => x.len == txLength l (memberOf (parseThrough (body b 0x03)) (le b 0x14 2 % 2048))
  | 0x11 => x.len % 8 == 0
  | 0x12 => x.len == 30720
  | 0x13 => x.len % 4 == 0
  | 0x20 => decide (16 ≤ x.len) && x.len == graphLen l
  | 0x21 => decide (16 ≤ x.len) && x.len == descsLen l
  | 0x22 => decide (16 ≤ x.len) && x.len == peLen l
  | 0x23 => x.len % 16 == 0
  | 0x24 => decide (16 ≤ x.len) && x.len == filtersLen l
  | 0x25 => decide (16 ≤ x.len) && x.len == gclLen l
  | 0x26 => x.len % 16 == 0
  | _ => false

/-- Two byte ranges that share no byte. -/
def apart (a n c m : Nat) : Bool := n == 0 || m == 0 || decide (a + n ≤ c) || decide (c + m ≤ a)

/-- The first section that breaks R661, by TYPE (0: header or directory), or none (DEDUCED, log 36). -/
def structureError (b : List Byte) : Option Nat :=
  let n := le b 6 2
  let secs := sectionsOf b
  if le b 0 4 ≠ 0x4E425453 ∨ le b 4 2 ≠ 1 ∨ le b 8 4 ≠ b.length then some 0
  else if n = 0 ∨ 32 < n ∨ b.length < 64 + 16 * n then some 0
  else if secs.any (fun x => !sectionTypes.contains x.type) || !allDistinct (secs.map (·.type)) then some 0
  else
    let bad := secs.find? fun x =>
      decide (b.length < x.off + x.len) || !apart x.off x.len 0 (64 + 16 * n) ||
      secs.any (fun y => y.type != x.type && !apart x.off x.len y.off y.len) || !lengthOk b x
    match bad with
    | some x => some x.type
    | none => if hasSection b 0x01 then none else some 0

/-! ### Contents (R131, R161) -/

/-- Times of R131 in 1/80 ns: the wire time of n bytes, IFG, RT_MAX, G. -/
def TableSet.wire (t : TableSet) (n : Nat) : Nat := n * (if t.fallback then 128 else 64)
/-- IFG. -/
def TableSet.ifg (t : TableSet) : Nat := if t.fallback then 2048 else 1024
/-- RT_MAX. -/
def TableSet.rtMax (t : TableSet) : Nat := t.units * t.hMax * 5
/-- G. -/
def TableSet.guard (t : TableSet) : Nat := t.guardTicks * 200
/-- Bytes of the through frame without its tag, as Frame Kinds counts them. -/
def TableSet.thruBytes (t : TableSet) : Nat := 68 + (t.through.map fun e => 4 + 2 * e.points).sum
/-- Bytes of the through frame on the wire. -/
def TableSet.thruLen (t : TableSet) : Nat := t.thruBytes + (if t.auth then 8 else 0)
/-- W_max. -/
def TableSet.wMax (t : TableSet) : Nat := t.wire (t.frameMax + (if t.auth then 8 else 0))

/-- R131, with the range of R129 (DEDUCED, log 36). -/
def TableSet.segmentsOk (t : TableSet) : Bool :=
  decide (t.rtMax + t.wire t.thruLen + 2 * t.guard ≤ t.thTicks * 200) &&
  decide (t.hMax * 5 + t.wMax + t.ifg + t.guard ≤ t.slotTicks * 200) &&
  decide (t.nSlots * t.slotTicks * 200 + t.rtMax + t.wMax + 2 * t.guard ≤ t.stTicks * 200) &&
  decide (512 * t.dynMinislots / 5 * 200 + t.rtMax + 2 * t.guard ≤ t.dynTicks * 200) &&
  decide (t.thTicks + t.stTicks + t.dynTicks + 800 ≤ t.cycleTicks) &&
  decide (10000 ≤ t.cycleTicks) && decide (t.cycleTicks ≤ 4000000)

/-- Does the slot transmit in cycle c (R144)? -/
def SlotEntry.active (e : SlotEntry) (c : Nat) : Bool := c % e.period == e.phase

/-- Two entries of one slot that transmit in one cycle (R161). -/
def TableSet.collides (t : TableSet) : Bool :=
  (List.range 8).any fun c => !allDistinct ((t.slots.filter (·.active c)).map (·.slot))

/-- Non-decreasing. -/
def sorted : List Nat → Bool
  | a :: b :: r => decide (a ≤ b) && sorted (b :: r)
  | _ => true

/-- The placement rule of R161 for the transmitting slots of one cycle. -/
def TableSet.placed (t : TableSet) : List SlotEntry → Bool
  | a :: b :: r =>
    decide (a.hops ≤ b.hops) &&
    decide (t.hMax * 5 * (b.hops - a.hops) + t.wMax + t.ifg + t.guard ≤ (b.slot - a.slot) * t.slotTicks * 200) &&
    t.placed (b :: r)
  | _ => true

/-- The entry that owner u's k-th slot has (R145). -/
def TableSet.ownSlots (t : TableSet) (u : Nat) : List SlotEntry := t.slots.filter fun e => e.owner == u

/-- Points that a member's mirror adds to each of its static frames (R142). -/
def TableSet.mirrorPoints (t : TableSet) (u : Nat) : Nat :=
  match t.through.find? fun e => e.member == u with
  | some e => if e.mirror then e.points else 0
  | none => 0

/-- Ranges of the CYCLE fields that R131 does not test (CYCLE Section). -/
def TableSet.cycleOk (t : TableSet) : Bool :=
  decide (t.nSlots ≤ 1024) && decide (t.dynMinislots ≤ 4096) && decide (4 ≤ t.guardTicks) &&
  decide (t.guardTicks ≤ 400) && decide (28 ≤ t.frameMax) && decide (t.frameMax ≤ 1024)

/-- Bytes of the unit's own static frame of its slot k, its mirrored points included; a slot for which TX_MAP has
no list carries the mirror only (R142, R145). -/
def TableSet.ownBytes (t : TableSet) (k : Nat) : Nat :=
  28 + 2 * ((t.txFrames.getD k []).length + t.mirrorPoints t.unit)

/-- The limits of R161: CYCLE fields, slots, through fields, own frames, the field list (DEDUCED, log 36). -/
def TableSet.limitsError (t : TableSet) : Option Nat :=
  if !t.cycleOk then some 1
  else if t.slots.any fun e => decide (t.nSlots ≤ e.slot) then some 2
  else if decide (64 < t.through.length) || (t.through.any fun e => decide (128 < e.points)) ||
    decide (16384 < t.thruBytes) then some 3
  else if (List.range (t.ownSlots t.unit).length).any fun k => decide (t.frameMax < t.ownBytes k) then some 0x10
  else match t.through.find? fun e => e.member == t.unit with
    | some e => if t.txField.length = e.points then none else some 0x10
    | none => none

/-! ### STEEP section (05 R207) -/

/-- Checks of STEEP; a comparator that posts a token names no LOOP_IN of the graph (06 R230) (DEDUCED, log 36). -/
def steepCheck (graph l : List Byte) : Bool :=
  let g := parseGraph graph
  let es := entriesOf 16 l
  allDistinct (es.map fun e => le e 0 1) &&
  es.all fun e =>
    let c := le e 4 4
    decide (le e 0 1 < 64) && bit c 30 && decide (bitsOf c 15 12 < 8) && decide (bitsOf c 25 19 < 2 ^ bitsOf c 28 26) &&
    !(bitsOf c 15 12 == 5 && g.isLoopIn (le e 12 2 % 4096) (bitsOf (le e 12 2) 13 12))

/-! ### The load check (R161) -/

/-- The first block section that fails its own chapter's checks. -/
def State.blockError (s : State) (b : List Byte) : Option Nat :=
  let ok (t : Nat) (c : List Byte → Bool) : Bool := !hasSection b t || c (body b t)
  if !pourCheck (body b 0x20) [] then some 0x20
  else if !moversCheck (body b 0x20) (body b 0x21) then some 0x21
  else if !ok 0x22 peCheck then some 0x22
  else if !ok 0x23 (steepCheck (body b 0x20)) then some 0x23
  else if !ok 0x24 s.filtersCheck then some 0x24
  else if !ok 0x25 gclCheck then some 0x25
  else if !bindingsOk (parseBindings (body b 0x26)) then some 0x26
  else none

/-- COMMON_CHECK as the unit computes it (Table-Set Header). -/
def commonCheck (b : List Byte) : Nat :=
  (crc32 (body b 0x01 ++ body b 0x02 ++ body b 0x03 ++ body b 0x04)).toNat

/-- SET_CRC as the unit computes it. -/
def setCrc (b : List Byte) : Nat := (crc32 (putAt b 0x0C [0, 0, 0, 0])).toNat

/-- Own HOPS and UNIT disagree with the ring. -/
def State.hopsError (s : State) (t : TableSet) : Option Nat :=
  let h := s.rd R.RING_ENUM_STATUS.HOPS
  if t.unit ≠ s.ring.addr then some 0
  else if (t.ownSlots t.unit).any fun e => e.hops != h then some 2
  else if t.dynOrder.any fun e => e.unit == t.unit && e.hops != h then some 4
  else none

/-- The first failure of a set image: ERR and SECTION, or none (R161). -/
def State.setError (s : State) (b : List Byte) : Option (Nat × Nat) :=
  match structureError b with
  | some x => some (1, x)
  | none =>
    let t := parseSet b
    if setCrc b ≠ le b 0x0C 4 ∨ commonCheck b ≠ t.common then some (2, 0)
    else if !t.segmentsOk then some (3, 1)
    else if t.collides then some (4, 2)
    else if !sorted (t.slots.map (·.slot)) then some (5, 2)
    else if !((List.range 8).all fun c => t.placed (t.slots.filter (·.active c))) then some (5, 2)
    else if !sorted (t.dynOrder.map (·.hops)) then some (5, 4)
    else match s.hopsError t with
      | some x => some (6, x)
      | none =>
        if s.fallbackRate && !t.fallback then some (7, 1)
        else match t.limitsError with
          | some x => some (4, x)
          | none =>
            if t.auth && s.otpBytes 0x095 8 == List.replicate 32 0 then some (9, 1)
            else (s.blockError b).map fun x => (9, x)

/-! ### Loading (R160) -/

/-- State code of set n (RING_TS_STATUS). -/
def State.setState (s : State) (n : Nat) : Nat := bitsOf (s.rd R.RING_TS_STATUS.STATE) (4 * n + 3) (4 * n)
/-- Put it. -/
def State.putSetState (s : State) (n v : Nat) : State :=
  s.setReg (R.RING_TS_STATUS.STATE.addr 0 0) (putBits (s.reg (R.RING_TS_STATUS.STATE.addr 0 0)) (4 * n + 3) (4 * n) v)

/-- Is set n active, or named by a running countdown (R160)? -/
def State.setBusy (s : State) (n : Nat) : Bool :=
  s.setState n == 4 || ((s.ring.mcRunning || s.ring.mcStart) && s.ring.mcNext == n)

/-- RING_TS_ERR takes a failure. -/
def State.loadError (s : State) (n err sec : Nat) : State :=
  ((s.wr R.RING_TS_ERR.ERR err).wr R.RING_TS_ERR.SET n).wr R.RING_TS_ERR.SECTION sec

/-- Does memory refuse a read of `n` bytes at `a` to an engine: its CAUSE (R20, 15 R520)? -/
def State.engineRefusal (s : State) (a n : Nat) : Option Nat := if inSram a n then none else s.rawRefusal a n false

/-- The bytes of the set at RING_TS_ADDR: TOTAL_LEN of them, or the header alone where memory refuses them;
an error response is recorded in page 0 (01 R20). -/
def State.copySet (s : State) : State × List Byte :=
  let a := s.rd R.RING_TS_ADDR.ADDR * 64
  let head := s.engineGet a 64
  let n := le head.2 8 4
  match s.engineRefusal a n with
  | none => s.engineGet a n
  | some c => if (s.engineRefusal a 64).isSome then head else (s.engineErr false c a, head.2)

/-- RING_TS_LOAD with START = 1 (R160). -/
def State.tsLoad (s : State) (n : Nat) : State :=
  let s1 := s.wr R.RING_TS_LOAD.SET n
  if s1.setBusy n then s1.loadError n 8 0
  else
    let (s2, l) := s.copySet
    let s3 := s2.wr R.RING_TS_LOAD.SET n
    ({ s3 with ring := { s3.ring with sets := s3.ring.sets.set [] n l } } : State).putSetState n 1

/-- RING_TS_LOAD with DROP = 1 (R160). -/
def State.tsDrop (s : State) (n : Nat) : State :=
  let s1 := s.wr R.RING_TS_LOAD.SET n
  if s1.setBusy n then s1
  else ({ s1 with ring := { s1.ring with sets := s1.ring.sets.set [] n [] } } : State).putSetState n 0

/-- A write of RING_TS_LOAD: START wins over DROP. -/
def State.tsWrite (s : State) (v : Word) : State :=
  let n := getBits v 2 0
  if getBits v 31 31 = 1 then s.tsLoad n
  else if getBits v 30 30 = 1 then s.tsDrop n
  else s.wr R.RING_TS_LOAD.SET n

/-- TS_LOAD_COMPLETE (R161). -/
def State.tsComplete (s : State) (n : Nat) : State :=
  if s.setState n = 1 then
    match s.setError (s.ring.sets.get [] n) with
    | none =>
      let s1 := s.putSetState n 2
      if (parseSet (s.ring.sets.get [] n)).auth then s1.askKeys (max 1 s.epoch) else s1
    | some (e, x) => (s.putSetState n 3).loadError n e x
  else s

/-- TS_LOAD_COMPLETE (R161). -/
def execTsLoadComplete (n : Nat) (s : State) : Host.Outcome State Fault Refusal :=
  if n < 8 then s.powered (s.tsComplete n) else .next s

end Sys2Proof.Machine
end

