-- ==== Sys2Proof/Machine/Keeper.lean ====
section
/-! DEFINITION. The keeper (18): certificates, images and their checks, and the services of mailbox channel
63. The wipe of R599 and the boot itself run at a start (Power.lean). -/

namespace Sys2Proof.Machine

/-! ### Random bits and self-tests (18 R602, R608 to R610) -/

/-- The next `n` bytes of the random bit generator (R608). -/
def State.randomBytes (s : State) (n : Nat) : List Byte × State :=
  ((List.range n).map (Config.drbg s.sec.blocks), { s with sec := { s.sec with blocks := s.sec.blocks + 1 } })

/-- SEC_DBG_NONCE, least significant byte of LO first (R602). -/
def State.nonceBytes (s : State) : List Byte := (List.range 8).map (Config.drbg s.sec.nonce)

/-- A fresh nonce. -/
def State.newNonce (s : State) : State :=
  { s with sec := { s.sec with nonce := s.sec.blocks, blocks := s.sec.blocks + 1 } }

/-- A self-test failure (R609): the flag, its interrupt and an ALARM. -/
def State.selfTestFail (s : State) (bitmap : Nat) : State :=
  ((s.wr R.SEC_STATUS.ST_FAIL 1).raise R.keeper_INT.ST_FAIL).alarm 3 2 0 bitmap

/-- The power-up self-tests have ended before the keeper checks or serves anything (R609). -/
def State.selfTestsEnd (s : State) : State :=
  if s.on R.SEC_STATUS.ST_DONE then s
  else
    let s1 := s.wr R.SEC_STATUS.ST_DONE 1
    if s1.sec.selfTest = 0 then s1 else s1.selfTestFail s1.sec.selfTest

/-! ### OTP (18 R595, R596) -/

/-- OR a value into OTP word `w` (R596). -/
def State.otpOr (s : State) (w v : Nat) : State :=
  { s with sec := { s.sec with otp := s.sec.otp.set 0 w (BitVec.ofNat 32 (s.otp w ||| v)) } }

/-- Program bytes into the words from `w` on, the first byte in bits 7 to 0. -/
def State.otpPut (s : State) (w : Nat) : List Byte → State
  | a :: b :: c :: d :: t => (s.otpOr w (leNat [a, b, c, d])).otpPut (w + 1) t
  | _ => s

/-- Are the words `w` to `w + n - 1` programmed: not all 0? -/
def State.otpSet (s : State) (w n : Nat) : Bool := (List.range n).any fun i => s.otp (w + i) != 0

/-- May OTP_PROGRAM program word `w` in life-cycle state `l` (OTP Map, R596)? -/
def otpAllowed (l : LifeCycle) (w : Nat) : Bool :=
  let test := l == .test
  let prov := l == .provision
  if w ≤ 1 ∨ w = 3 ∨ (8 ≤ w ∧ w ≤ 0x53) then test
  else if w = 4 ∨ w = 5 then test || prov
  else if (0x54 ≤ w ∧ w ≤ 0x83) ∨ (0x85 ≤ w ∧ w ≤ 0x8C) ∨ (0x95 ≤ w ∧ w ≤ 0x9C) then prov
  else if w = 0x84 ∨ (0xA0 ≤ w ∧ w ≤ 0x1FF) then prov || l == .field
  else false

/-- Is OTP word `w` secret (R595)? -/
def otpSecret (w : Nat) : Bool := decide (0x85 ≤ w) && decide (w ≤ 0x9C)

/-- ROLLBACK (R603). -/
def State.rollback (s : State) : Nat := bitCount (s.otp 6 + 2 ^ 32 * s.otp 7) 64

/-! ### Keys (18 R601, R603) -/

/-- First OTP word of the hash of a key slot: 0 to 3 owner, 4 maker. -/
def hashWord (slot : Nat) : Nat := if slot = 4 then 0x48 else 0x54 + 12 * slot

/-- Does the key match its programmed, unrevoked slot (R601, R603)? -/
def State.keyOk (s : State) (slot : Nat) (key : List Byte) : Bool :=
  decide (slot ≤ 4) && s.otpSet (hashWord slot) 12 && (slot == 4 || !bit (s.otp 0x84) slot) &&
  (beBytes 48 (sha384 key).toNat == s.otpBytes (hashWord slot) 12)

/-- Are images signed by the key of this slot accepted in the present state (R600)? -/
def State.imageSlotOk (s : State) (slot : Nat) : Bool :=
  match s.lifeCycle with
  | .test => slot == 4
  | .back => slot == 4
  | .provision => decide (slot < 4)
  | .field => decide (slot < 4)
  | .scrap => false

/-- The combinations of KIND and KEY_SLOT that R601 allows: KIND 1 DEBUG, 2 SCRAP, 3 RETURN. -/
def certAllowed (l : LifeCycle) (kind slot : Nat) : Bool :=
  match l with
  | .test => false
  | .provision => kind == 1 && decide (slot ≤ 4)
  | .field => ((kind == 1 || kind == 2) && decide (slot < 4)) || (kind == 3 && slot == 4)
  | .back => kind == 1 && slot == 4
  | .scrap => false

/-- Is the certificate or token `l`, with its key behind it, accepted (R601)? Its NONCE is the most significant byte
of SEC_DBG_NONCE_HI first. -/
def State.certOk (s : State) (l : List Byte) : Bool :=
  let key := (l.drop 120).take 96
  (l.length == 216) && (be l 0 4 == 0x53564443) && s.keyOk (be l 5 1) key && (be l 8 8 == s.serial) &&
  ((l.drop 16).take 8 == s.nonceBytes.reverse) &&
  ecdsaOk key (sha384 (l.take 24)) ((l.drop 24).take 96) &&
  certAllowed s.lifeCycle (be l 4 1) (be l 5 1)

/-! ### Images (18, Secure boot) -/

/-- A section entry of an image header. -/
structure ImgSection where
  type : Nat
  target : Nat
  off : Nat
  len : Nat
  dest : Nat

/-- An image as its header gives it. -/
structure Image where
  head : List Byte
  payload : List Byte
  magic : Nat
  format : Nat
  flags : Nat
  version : Nat
  len : Nat
  slot : Nat
  count : Nat
  entry : Nat
  sections : List ImgSection

/-- Read an image (Image Header): the payload is what follows the header, PAYLOAD_LEN bytes of it. -/
def parseImage (l : List Byte) : Image :=
  let n := le l 0x0C 4
  let count := le l 0x11 1
  { head := l.take 0x200, payload := (l.drop 0x200).take n, magic := le l 0 4, format := le l 4 2, flags := le l 6 2
    version := le l 8 4, len := n, slot := le l 0x10 1, count := count, entry := le l 0x14 4
    sections := (List.range (min count 12)).map fun i =>
      let o := 0xD0 + 16 * i
      { type := le l o 1, target := le l (o + 1) 1, off := le l (o + 4) 4, len := le l (o + 8) 4, dest := le l (o + 12) 4 } }

/-- ENC of an image. -/
def Image.enc (i : Image) : Bool := bit i.flags 0

/-- Check 1: MAGIC, FORMAT, SECTIONS and PAYLOAD_LEN are in range, and the payload is there. -/
def Image.formOk (i : Image) : Bool :=
  (i.magic == 0x5356494D) && (i.format == 1) && decide (1 ≤ i.count) && decide (i.count ≤ 12) &&
  (i.len % 16 == 0) && decide (i.len ≤ 0x7F0000 - 0x200) && (i.payload.length == i.len)

/-- Do the `n` bytes at raw-window address `a` lie within one carve-out (15 R527)? -/
def State.inCarve (s : State) (a n : Nat) : Bool :=
  (wordsOf 0x400 a n).all (fun p => (s.page (p / 0x400)).owner == .carve) &&
  decide (a + n ≤ 0x4000000) &&
  (wordsOf 0x400 a n).all fun p => (s.page (p / 0x400)).carve == (s.page (a / 0x400)).carve

/-- Does a section lie within its destination (check 7)? -/
def State.destOk (s : State) (x : ImgSection) : Bool :=
  let sram := decide (0x10000000 ≤ x.dest) && decide (x.dest + x.len ≤ 0x10400000)
  match x.type with
  | 1 => decide (x.target ≤ 16) && decide (x.dest + x.len ≤ 0x8000)
  | 2 => decide (x.target ≤ 16) && decide (x.dest + x.len ≤ 0x8000)
  | 3 => sram
  | 4 => s.inCarve x.dest x.len
  | 5 => decide (x.target ≤ 7) && (sram || s.inCarve x.dest x.len)
  | _ => false

/-- Put bytes at a section's destination. -/
def State.putSection (s : State) (x : ImgSection) (l : List Byte) : State :=
  match x.type with
  | 1 => s.coreWrite x.target x.dest l.length (leNat l)
  | 2 => s.coreWrite x.target (0x8000 + x.dest) l.length (leNat l)
  | _ => s.enginePut x.dest l

/-- The payload in clear, with ENC = 1 decrypted under IMG_KEY (check 6); the customer key is not used in
RETURN (R599). -/
def State.clearPayload (s : State) (i : Image) : Option (List Byte) :=
  if i.enc then
    if s.lifeCycle = .back then none
    else gcmOpen (s.otpBytes 0x85 8) ((i.head.drop 0x80).take 12) (i.head.take 0x80) i.payload
      ((i.head.drop 0x90).take 16)
  else some i.payload

/-- Is the image's signature good (check 3)? -/
def Image.signed (i : Image) : Bool :=
  ecdsaOk ((i.head.drop 0x20).take 96) (sha384 (i.head.take 0x1A0)) ((i.head.drop 0x1A0).take 96)

/-- The Boot Checks in table order: the code of the first that fails, 0 when none does (R603). -/
def State.imageError (s : State) (i : Image) : Nat :=
  if !i.formOk then 1
  else if !(s.keyOk i.slot ((i.head.drop 0x20).take 96) && s.imageSlotOk i.slot) then 2
  else if !i.signed then 3
  else if i.version % 256 < s.rollback then 4
  else if beBytes 48 (sha384 i.payload).toNat ≠ (i.head.drop 0xA0).take 48 then 5
  else if (s.clearPayload i).isNone then 6
  else if !i.sections.all (fun x => decide (x.off + x.len ≤ i.len) && s.destOk x) then 7
  else if bit (s.otp 5) 5 && s.lifeCycle == .field && !i.enc then 8
  else if s.on R.SEC_STATUS.ST_FAIL then 9
  else 0

/-- Every section of an image goes to its destination. -/
def State.loadSections (s : State) (payload : List Byte) (xs : List ImgSection) : State :=
  xs.foldl (fun (t : State) x => t.putSection x ((payload.drop x.off).take x.len)) s

/-- Every destination that a failed image wrote is filled with 0 (R603). -/
def State.wipeSections (s : State) (i : Image) : State :=
  if i.formOk then
    i.sections.foldl (fun (t : State) x => if t.destOk x then t.putSection x (List.replicate x.len 0) else t) s
  else s

/-- SYS loads a table set of the image (04 R160). -/
def State.loadSetOf (s : State) (x : ImgSection) : State :=
  if x.type = 5 then (s.wr R.RING_TS_ADDR.ADDR (x.dest / 64)).tsLoad x.target else s

/-- What SYS does with a good image (R603): it loads the table sets, releases the cores that the image has
loaded with code, and jumps to ENTRY. -/
def State.runImage (s : State) (i : Image) : State :=
  let s1 := s.loadSections ((s.clearPayload i).getD []) i.sections
  let s2 := (s1.wr R.SEC_STATUS.BOOT_OK 1).wr R.SEC_STATUS.SVN (i.version % 256)
  let s3 := i.sections.foldl State.loadSetOf s2
  let s4 := i.sections.foldl (fun (t : State) x =>
    if x.type = 1 ∧ x.target < 16 then (t.wr R.CC_CTRL.RUN 1 x.target).coreStart x.target else t) s3
  let s5 := s4.setCore 16 { s4.core 16 with pc := BitVec.ofNat 32 (0xE0000000 + i.entry) }
  { s5 with sec := { s5.sec with waitHost := false } }

/-- A failed slot: its code, its interrupt, and its destinations filled with 0 (R603). -/
def State.imageFailed (s : State) (i : Image) (code : Nat) (b : Bool) : State :=
  ((s.wr (if b then R.SEC_BOOT_ERR.SLOT_B else R.SEC_BOOT_ERR.SLOT_A) code).raise R.keeper_INT.BOOT_FAIL).wipeSections i

/-- How the flash is read and written with the present LB_FL_CFG: LINES 3 is taken as 0 and DIV 0 as 1 (16 R557, R558). -/
def State.flashMode (s : State) : FlashMode :=
  { lines := s.rd R.LB_FL_CFG.LINES % 3, addrBytes := 3 + s.rd R.LB_FL_CFG.ADDR4, dummy := s.rd R.LB_FL_CFG.DUMMY
    div := max 1 (s.rd R.LB_FL_CFG.DIV) }

/-- The boot ROM reads `n` flash bytes at `a` with its command (16 R557). -/
def State.flashRead (s : State) (op a n : Nat) : State := s.emit (.flash op (some a) n false [] s.flashMode)

/-- Where image slot A, or B, lies in the flash (18, Secure boot). -/
def slotAt (b : Bool) : Nat := if b then 0x800000 else 0x10000

/-- Try one slot: true when its image runs. The boot ROM reads the payload with command `op`. -/
def State.trySlot (s0 : State) (op : Nat) (l : List Byte) (b : Bool) : State × Bool :=
  let i := parseImage l
  let s := s0.flashRead op (slotAt b + 0x200) i.payload.length
  match s.imageError i with
  | 0 => ((s.wr R.SEC_STATUS.BOOT_SLOT (ofBool b)).runImage i, true)
  | code => (s.imageFailed i code b, false)

/-- Is slot B tried first: the good MAGIC and the higher VERSION (R603)? -/
def slotBFirst (a b : List Byte) : Bool :=
  let x := parseImage a
  let y := parseImage b
  y.magic == 0x5356494D && (x.magic != 0x5356494D || decide (x.version < y.version))

/-- The boot ROM reads both headers with command `op` and tries both slots; when both fail, an ALARM, and SYS waits for a
host image (R603). -/
def State.bootSlots (s0 : State) (op : Nat) (slotA slotB : List Byte) : State :=
  let s := (s0.flashRead op (slotAt false) 0x200).flashRead op (slotAt true) 0x200
  let first := slotBFirst slotA slotB
  let pickSlot (b : Bool) : List Byte := if b then slotB else slotA
  match s.trySlot op (pickSlot first) first with
  | (t, true) => t
  | (t, false) =>
    match t.trySlot op (pickSlot (!first)) (!first) with
    | (u, true) => u
    | (u, false) =>
      let v := u.alarm 3 3 0 (u.rd R.SEC_BOOT_ERR.all)
      { v with sec := { v.sec with waitHost := true } }

/-- SEC_HOST_IMG: while SYS waits in boot ROM, the image there is checked in the same way (R603). The image
lies in SRAM bank 2. -/
def State.hostImage (s0 : State) : State :=
  let a := 4 * s0.rd R.SEC_HOST_IMG.ADDR
  if s0.sec.waitHost = false then s0
  else
    let s1 := s0.selfTestsEnd
    let (s, l) := if 0x10040000 ≤ a ∧ a < 0x10060000 then s1.sramBytes a (0x10060000 - a) else (s1, [])
    let i := parseImage l
    match s.imageError i with
    | 0 => (s.wr R.SEC_BOOT_ERR.SLOT_B 0).runImage i
    | code => s.imageFailed i code true

/-! ### Services (18 R593, R594) -/

/-- STATUS of a reply. -/
inductive Status where
  | ok | refused | badArg | failed
  deriving DecidableEq, Repr

/-- Code of a STATUS. -/
def Status.code : Status → Nat
  | .ok => 0 | .refused => 1 | .badArg => 2 | .failed => 3

/-- What a service answers: the state, STATUS, and RESULT where the spec gives one. -/
structure Reply where
  s : State
  status : Status
  result : Option Nat := none

/-- Requesters of the services (Keeper Services): the sender stamp's class and number. A reserved service answers
BAD_ARG to all but class 2, which is REFUSED every service (R594). -/
def requesterOk (svc stamp : Nat) : Bool :=
  let cls := stamp / 4096
  match svc with
  | 1 => decide (cls ≤ 1)
  | 2 => decide (cls ≤ 1)
  | 3 => stamp == 16
  | 4 => stamp == 16 || cls == 1
  | 5 => stamp == 16 || cls == 1
  | 6 => stamp == 16 || cls == 1
  | 7 => stamp == 16
  | 8 => decide (cls ≤ 1)
  | _ => cls != 2

/-- The certificate or token at an address, with its key. -/
def State.certAt (s : State) (a : Nat) : List Byte := if inSram a 216 then (s.sramBytes a 216).2 else []

/-- The token of an LC_REQUEST in FIELD is read (R598); its errors are counted (15 R509, R510). -/
def State.tokenRead (s : State) (a : Nat) : State :=
  if s.lifeCycle = .field ∧ inSram a 216 = true then (s.sramBytes a 216).1 else s

/-- RANDOM. -/
def State.svcRandom (s : State) (_stamp a : Nat) : Reply :=
  if s.on R.SEC_STATUS.RBG_FAIL then ⟨s, .failed, none⟩
  else if a % 64 = 0 ∧ inSram a 64 = true then
    let (l, t) := s.randomBytes 64
    ⟨t.sramPut a l, .ok, none⟩
  else ⟨s, .badArg, none⟩

/-- DERIVE (R605): not in RETURN, where no customer key is used (R599) (DEDUCED, log 28). -/
def State.svcDerive (s : State) (stamp a : Nat) : Reply :=
  if s.lifeCycle = .back then ⟨s, .refused, none⟩
  else if inSram a 64 = true then
    let (t, l) := s.sramBytes a 64
    let k := kdf (s.otpBytes 0x8D 8) (ascii "APP" ++ l.take 32) (beBytes 2 stamp ++ l.drop 32)
    ⟨t.sramPut a k, .ok, none⟩
  else ⟨s, .badArg, none⟩

/-- RING_KEYS (R606). Without a FABRIC_KEY it fails. -/
def State.svcRingKeys (s : State) (_stamp e : Nat) : Reply :=
  if s.lifeCycle = .back then ⟨s, .refused, none⟩
  else if e = 0 ∨ 65535 < e then ⟨s, .badArg, none⟩
  else if s.otpSet 0x95 8 then ⟨s.fetchKeys e, .ok, none⟩
  else ⟨s, .failed, none⟩

/-- The LC byte that an accepted LC_REQUEST programs (R598), or the STATUS that turns it away. -/
def State.lcTarget (s : State) (a : Nat) : Except Status Nat :=
  match s.lifeCycle with
  | .test =>
    if a = 1 then
      if s.on R.SEC_STATUS.RBG_FAIL then .error .failed
      else if s.otpSet 0 2 && s.otpSet 0x48 12 then .ok 0 else .error .refused
    else if a = 4 then .ok 3 else .error .refused
  | .provision =>
    if a = 2 then
      if s.otpSet 0x54 12 && (!bit (s.otp 5) 5 || s.otpSet 0x85 8) then .ok 1 else .error .refused
    else if a = 4 then .ok 3 else .error .refused
  | .field =>
    let l := s.certAt a
    if s.certOk l && be l 4 1 == 3 then .ok 2
    else if s.certOk l && be l 4 1 == 2 then .ok 3
    else .error .refused
  | .back => if a = 4 then .ok 3 else .error .refused
  | .scrap => .error .refused

/-- The work of an accepted transition before the reset: HUK when leaving TEST for PROVISION, and all eight
bits of the target byte (R597, R598). -/
def State.lcProgram (s : State) (byte : Nat) : State :=
  let s1 := if byte = 0 then
      let (l, t) := s.randomBytes 32
      t.otpPut 0x8D l
    else s
  s1.otpOr 2 (0xFF * 256 ^ byte)

/-- DEBUG_OPEN (R601, R602): what earlier certificates opened since the reset stays open. -/
def State.svcDebugOpen (s : State) (_stamp a : Nat) : Reply :=
  if s.lifeCycle = .test then ⟨s, .refused, none⟩
  else if s.on R.SEC_STATUS.RBG_FAIL then ⟨s, .failed, none⟩
  else if inSram a 216 = true then
    let l := s.certAt a
    let s := (s.sramBytes a 216).1
    if s.certOk l && be l 4 1 == 1 then
      let t := (s.wr R.SEC_STATUS.DBG_OPEN 1).wr R.SEC_STATUS.PERMS (s.rd R.SEC_STATUS.PERMS ||| be l 6 2 % 4)
      ⟨(t.raise R.keeper_INT.DBG_OPEN).newNonce, .ok, none⟩
    else ⟨s, .failed, none⟩
  else ⟨s, .badArg, none⟩

/-- The pairs of an OTP_PROGRAM list. -/
def otpPairs (l : List Byte) (n : Nat) : List (Nat × Nat) :=
  (List.range n).map fun i => (le l (8 * i) 4, le l (8 * i + 4) 4)

/-- OTP_PROGRAM (R596): the whole list is checked before anything is programmed. -/
def State.svcOtpProgram (s : State) (_stamp a : Nat) : Reply :=
  if inSram a 4 = true then
    let (s1, h) := s.sramBytes a 4
    let n := le h 0 4
    if inSram (a + 4) (8 * n) = true then
      let (s2, l) := s1.sramBytes (a + 4) (8 * n)
      let ps := otpPairs l n
      if ps.all (fun p => otpAllowed s.lifeCycle p.1) then
        ⟨ps.foldl (fun (t : State) p => t.otpOr p.1 p.2) s2, .ok, none⟩
      else ⟨s2, .refused, none⟩
    else ⟨s1, .badArg, none⟩
  else ⟨s, .badArg, none⟩

/-- SVN_COMMIT (R603): an ARG above the SVN of the running image is REFUSED, and one outside 0 to 64 is a bad one. -/
def State.svcSvnCommit (s : State) (_stamp n : Nat) : Reply :=
  if s.rd R.SEC_STATUS.SVN < n then ⟨s, .refused, none⟩
  else if 64 < n then ⟨s, .badArg, none⟩
  else if n ≤ s.rollback then ⟨s, .ok, none⟩
  else ⟨(s.otpOr 6 ((2 ^ n - 1) % 2 ^ 32)).otpOr 7 ((2 ^ n - 1) / 2 ^ 32), .ok, none⟩

/-- SELFTEST (R610): `bitmap` is what the known-answer tests find. -/
def State.svcSelfTest (bitmap : Nat) (s : State) (_stamp _arg : Nat) : Reply :=
  let b := bitmap % 32
  if b = 0 then ⟨s, .ok, some 0⟩ else ⟨s.selfTestFail b, .failed, some b⟩

/-- A request before its service runs: STATUS where the requester, the state or the self-tests turn it away
(R594, R600, R609) (DEDUCED, log 40). -/
def State.turnedAway (s : State) (svc stamp : Nat) : Option Status :=
  if s.lifeCycle = .scrap then some .refused
  else if !requesterOk svc stamp then some .refused
  else if s.on R.SEC_STATUS.ST_FAIL && svc != 8 then some .failed
  else none

/-- KEEP answers: the reply's message, and the counters (R594). RESULT is open where the spec gives none. -/
def State.keeperReply (r : Reply) (svc chan : Nat) : State :=
  let s1 := if r.status = .ok then r.s.bump R.SEC_SVC_CNT.SERVED else r.s.bump R.SEC_SVC_CNT.REFUSED
  match r.result with
  | some v => s1.mbxCommit (0x4000 + svc) chan (r.status.code * 2 ^ 40 + v)
  | none => s1.free.2.mbxCommit (0x4000 + svc) chan (r.status.code * 2 ^ 40 + s1.free.1.toNat % 2 ^ 32)

/-- The request at the head of channel 63: SERVICE, stamp, REPLY and ARG (R593). -/
def State.keeperHead (s : State) : Option (Nat × Nat × Nat × Nat) :=
  (s.chan 63).head?.map fun m =>
    let v := m.toNat
    (bitsOf v 47 40, bitsOf v 63 48, bitsOf v 37 32, bitsOf v 31 0)

/-- May KEEP serve: it is out of reset, and its clock is on (17 R579)? -/
def State.keeperUp (s : State) : Bool := ((s.core 17).run == .run || (s.core 17).run == .idle) && s.clocked 17

/-- KEEP takes the request at the head of channel 63 when it is for a service that `p` holds, runs it and
answers (R594). -/
def State.keeperServe (s0 : State) (p : Nat → Bool) (f : State → Nat → Nat → Reply) : State :=
  match s0.keeperHead with
  | some (svc, stamp, chan, arg) =>
    if p svc && s0.keeperUp then
      let s := (s0.mbxPop (.core 17) 63).s.selfTestsEnd
      match s.turnedAway svc stamp with
      | some st => State.keeperReply ⟨s, st, none⟩ svc chan
      | none => State.keeperReply (f s stamp arg) svc chan
    else s0
  | none => s0

/-! ### Commands -/

/-- RANDOM: KEEP serves a request of service 1. -/
def execRandom (s : State) : Host.Outcome State Fault Refusal := s.powered (s.keeperServe (· == 1) State.svcRandom)
/-- DERIVE: KEEP serves a request of service 2. -/
def execDerive (s : State) : Host.Outcome State Fault Refusal := s.powered (s.keeperServe (· == 2) State.svcDerive)
/-- RING_KEYS: KEEP serves a request of service 3. -/
def execRingKeys (s : State) : Host.Outcome State Fault Refusal := s.powered (s.keeperServe (· == 3) State.svcRingKeys)
/-- DEBUG_OPEN: KEEP serves a request of service 5. -/
def execDebugOpen (s : State) : Host.Outcome State Fault Refusal :=
  s.powered (s.keeperServe (· == 5) State.svcDebugOpen)
/-- OTP_PROGRAM: KEEP serves a request of service 6. -/
def execOtpProgram (s : State) : Host.Outcome State Fault Refusal :=
  s.powered (s.keeperServe (· == 6) State.svcOtpProgram)
/-- SVN_COMMIT: KEEP serves a request of service 7. -/
def execSvnCommit (s : State) : Host.Outcome State Fault Refusal :=
  s.powered (s.keeperServe (· == 7) State.svcSvnCommit)
/-- SELFTEST: KEEP serves a request of service 8. -/
def execSelftest (bitmap : Nat) (s : State) : Host.Outcome State Fault Refusal :=
  s.powered (s.keeperServe (· == 8) (State.svcSelfTest bitmap))
/-- KEEPER_BAD_SERVICE: KEEP serves a request of a reserved service. -/
def execKeeperBadService (s : State) : Host.Outcome State Fault Refusal :=
  s.powered (s.keeperServe (fun n => n == 0 || decide (9 ≤ n)) fun t _ _ => ⟨t, .badArg, none⟩)
/-- RBG_HEALTH_FAIL (R608): the generator stops. -/
def execRbgHealthFail (s : State) : Host.Outcome State Fault Refusal :=
  s.powered (((s.wr R.SEC_STATUS.RBG_FAIL 1).raise R.keeper_INT.RBG_FAIL).alarm 3 1 0 0)

end Sys2Proof.Machine
end

