-- ==== Sys2Proof/Machine/Power.lean ====
section
/-! DEFINITION. Resets, start-up, power-down and resume, Kettle's timed events and the bank rails (12 R438 to
R445; 17; 21 R639). -/

namespace Sys2Proof.Machine

/-! ### Reset (17 R569, R584, Reset Sources) -/

/-- Does the register at internal address `a` lie in the always-on domain: the wake unit's page, RING_STICKY
(03 R108) and KET_RESET_CAUSE (R584)? -/
def aoReg (a : Nat) : Bool :=
  a / 0x1000 == 0xF0002 || a == R.RING_STICKY.ADDR.addr 0 0 || a == R.KET_RESET_CAUSE.CAUSE.addr 0 0

/-- A reset sets its bit in KET_RESET_CAUSE (R584). -/
def State.cause (s : State) (b : Nat) : State :=
  s.wr R.KET_RESET_CAUSE.CAUSE (s.rd R.KET_RESET_CAUSE.CAUSE ||| 2 ^ b)

/-- SRAM banks 0 and 1, which DEEP retains (12 R446). -/
def retained (a : Nat) : Bool := decide (0x10000000 ≤ a) && decide (a < 0x10040000)

/-- What a reset leaves (Reset Sources): the always-on domain, the OTP, what lies outside the device, and the
model's own fields; with `banks`, SRAM banks 0 and 1 as well (DEDUCED, log 25). -/
def State.cleared (s : State) (banks : Bool) : State :=
  let lfx := s.rd R.KET_STATUS.LFX_OK
  let t : State :=
    { regs := s.regs.filter (fun e => aoReg e.1)
      mem := if banks then { bytes := s.mem.bytes.filter (fun e => retained e.1)
                             ecc := s.mem.ecc.filter (fun e => retained e.1) } else {}
      wake := { s.wake with late := none, dwell := [], inh := true }
      sec := { otp := s.sec.otp, blocks := s.sec.blocks, nonce := s.sec.nonce }
      host := { perst := s.host.perst }
      power := { holds := s.power.holds, ringClk := s.power.ringClk, rail := s.power.rail, board := s.power.board }
      pe := { level := s.pe.level }
      answer := s.answer, out := s.out, tick := s.tick, fresh := s.fresh, pending := s.pending }
  t.wr R.KET_STATUS.LFX_OK lfx

/-- A power-down or an exit that a reset finds is aborted (R584); an exit is remembered until WAKE_SRC is
written at the next RUN (12 R427). -/
def State.abortSleep (s : State) : State :=
  if 2 ≤ s.rd R.WK_STATUS.STATE ∧ s.rd R.WK_STATUS.STATE ≤ 4 then s.setWakeRun .awake else s

/-- The device enters reset and stays there until `h` ends (R569, R570, Reset Sources). -/
def State.enterReset (s : State) (h : ResetHold) : State :=
  let t := s.abortSleep.cleared false
  { t with power := { t.power with holds := h :: t.power.holds.filter (· != h) } }

/-! ### Start-up (17 R587, 18 R599) -/

/-- Factory SRAM repairs, but into a spare that has failed its test (15 R515, 18 R595). -/
def State.factoryRepairs (s : State) : State :=
  (List.range 64).foldl (fun (t : State) i =>
    let w := t.otp (8 + i)
    let b := bitsOf w 13 9
    if bit w 31 && t.spareGood b (bitsOf w 16 16) then
      if bit w 16 then (t.wr R.SRAM_REPAIRb.V1 1 0 b).wr R.SRAM_REPAIRb.REG1 (bitsOf w 8 0) 0 b
      else (t.wr R.SRAM_REPAIRb.V0 1 0 b).wr R.SRAM_REPAIRb.REG0 (bitsOf w 8 0) 0 b
    else t) s

/-- The OTP part of the wipe in RETURN and SCRAP (R599). -/
def State.wipeOtp (s : State) : State :=
  let ones (t : State) (w : Nat) : State := t.otpOr w 0xFFFFFFFF
  ((List.range 0x18).map (0x85 + ·) ++ (List.range 0x160).map (0xA0 + ·)).foldl ones s

/-- Is the device to be wiped at this start (R599)? -/
def State.wipes (s : State) : Bool := s.lifeCycle == .back || s.lifeCycle == .scrap

/-- A protected core leaves reset at start-up. -/
def State.releaseCore (s : State) (c : Nat) : State := (s.wr R.CC_CTRL.RUN 1 c).setCore c { run := .run }

/-- Domains at 300 µs of the start-up: MAIN, SRAM, CADDY and SYS run, RING ramps and PCIE waits for it. -/
def State.startDomains (s : State) : State :=
  let t := ((((s.putDom 0 3).putDom 1 3).putDom 2 3).putDom 7 3).putDom 3 1
  ({ t with power := { t.power with requests := [5] } } : State).regrant false

/-- The device reaches RUN: WAKE_SRC is written after a wake (12 R427). -/
def State.reachRun (s : State) : State :=
  if s.rd R.WK_STATUS.STATE = 5 then
    (s.setWakeRun .awake).statusSet 0x007
      (s.rd R.WK_REC.KIND + 16 * s.rd R.WK_REC.DETAIL + 256 * s.rd R.WK_REC.LATE_KIND)
  else s

/-- The start-up sequence up to 300 µs (R587): OTP values, SYS and KEEP out of reset, a fresh nonce (18
R602). -/
def State.startHardware (s : State) (banks : Bool) : State :=
  let wipe := s.wipes
  let t := s.cleared (banks && !wipe)
  let t := if wipe then t.wipeOtp else t
  let t := (t.factoryRepairs.setRate (signed 32 (t.otp 3))).startDomains
  let t := ((t.releaseCore 16).releaseCore 17).newNonce
  (t.statusSet 0x037 (t.rd R.KET_RESET_CAUSE.CAUSE)).reachRun

/-- Does the flash hold a parameter block (16 R557)? -/
def hasParams (b : List Byte) : Bool := be b 0 4 == 0x53564650

/-- The command with which the boot ROM reads every byte after the parameter block (16 R557). -/
def flashOpcode (b : List Byte) : Nat := if hasParams b then le b 4 1 else 0x03

/-- The boot ROM reads flash bytes 0 to 15 with command 0x03, and loads LB_FL_CFG from the flash parameter block (16
R557). -/
def State.flashParams (s0 : State) (b : List Byte) : State :=
  let s := s0.flashRead 0x03 0 16
  if hasParams b then
    let m := le b 5 1
    (((s.wr R.LB_FL_CFG.LINES (m % 4)).wr R.LB_FL_CFG.ADDR4 (bitsOf m 2 2)).wr R.LB_FL_CFG.DUMMY (le b 6 1 % 32)).wr
      R.LB_FL_CFG.DIV (le b 7 1)
  else s

/-- COLD_EN and PRIO from COLD_PRIO when that OTP field is programmed (R587, R589). -/
def State.coldFromOtp (s : State) : State :=
  let w := s.otp 5
  if bit w 4 then (s.wr R.RING_COLD_CTRL.COLD_EN 1).wr R.RING_COLD_CTRL.PRIO (w % 16) else s

/-- What the boot ROM on SYS does with the board (R587, 16 R557, 18 R603); in SCRAP it loads no image and
leaves COLD_EN = 0 (18 R600) (DEDUCED, log 27). -/
def State.bootRom (s : State) (b : Board) : State :=
  if s.lifeCycle = .scrap then s
  else ((s.coldFromOtp.flashParams b.params).selfTestsEnd).bootSlots (flashOpcode b.params) b.slotA b.slotB

/-- The whole start-up on board `b` (R587). -/
def State.startUp (s : State) (b : Board) (banks : Bool) : State :=
  let t := ({ s with power := { s.power with board := b } } : State).startHardware banks
  let t := { t with sec := { t.sec with selfTest := b.selfTest } }
  t.bootRom b

/-- A reset whose cause does not last: the sequence begins again at once (R584). -/
def State.resetNow (s : State) (bitNo : Nat) (b : Board) : State := ((s.cause bitNo).abortSleep).startUp b false

/-- A hold ends; when none is left, the start-up runs. -/
def State.releaseHold (s : State) (h : ResetHold) (b : Board) : State :=
  if s.power.holds.contains h then
    let t := { s with power := { s.power with holds := s.power.holds.filter (· != h) } }
    if t.power.holds.isEmpty then t.startUp b false else t
  else s

/-! ### Power-down and resume (12 R439, R444, R445; 17 R581 to R583) -/

/-- Operations that still run are aborted (12 R439). -/
def State.abortOps (s : State) : State :=
  let s1 := s.cores.foldl (fun (t : State) e =>
    if e.2.inop then (t.setCore e.1 { t.core e.1 with inop := false, run := .idle }).abortNode e.2.opNode else t) s
  s1.movers.foldl (fun (t : State) e =>
    if e.2.busy then (t.movStop e.1).abortNode e.2.node else t) s1

/-- The link states that a power-down loses: ring ports, PCI Express and MACs (R582). -/
def State.linksOff (s : State) : State :=
  let t := ((s.setLink .e 0).setLink .w 0).linkLost
  (List.range 4).foldl (fun (u : State) m => u.putLink m false) t

/-- The domains that NAP or DEEP turn off: all but CAN in NAP (Power Domains). -/
def State.domainsOff (s : State) (deep : Bool) : State :=
  let can := if deep then 0 else s.dom 6
  let t := (s.wr R.KET_DOM.STATE 0).putDom 6 can
  ({ t with power := { t.power with requests := [] } } : State).regrant false

/-- Every cluster core that is out of reset is idle with g0 to g15 reading 0 after a power gating (08 R272). -/
def State.gateCores (s : State) (cs : List Nat) : State :=
  cs.foldl (fun (t : State) c =>
    let k := t.core c
    if k.run = .reset then t.setCore c { k with g := [] } else t.setCore c { k with g := [], run := .idle, level := .thread }) s

/-- POWER_DOWN_COMPLETE (12 R439): Kettle enters the target, the dwell begins, and for DEEP with INH_DEEP = 1
INH falls (12 R422). -/
def State.powerDownEnd (s : State) : State :=
  let deep := s.power.deep
  let s1 := ((s.abortOps.gateCores (List.range 16)).linksOff).domainsOff deep
  let s2 := ((s1.wr R.KET_STATUS.STATE (if deep then 3 else 2)).setWakeRun .dwell).bump R.WK_CNT.SLEEPS
  if deep && s2.on R.WK_CTRL.INH_DEEP then { s2 with wake := { s2.wake with inh := false } } else s2

/-- The ring starts again by cold start after a NAP (12 R444): what is known only of a running ring ends. -/
def State.ringResume (s : State) : State :=
  let t := s.coldRestart.wr R.RING_ENUM_STATUS.STATE 0
  { t with ring := { t.ring with portE := { t.ring.portE with first := none, probe := none }
                                 portW := { t.ring.portW with first := none, probe := none } } }

/-- The time base at resume (12 R445): `from_` is the time at the power-down, which moves on by the periods spent asleep,
30,517.578125 ns each, and the servo enters HOLDOVER, without a slew and with no cycle spent there. -/
def State.timeResume (s : State) (from_ periods : Nat) : State :=
  let t := s.setNow ((from_ + periods * (1000000000 * 2 ^ 25) : Nat) : Int)
  if t.rd R.TB_CTRL.REF = 0 then
    let u := (t.setServo .holdover).endSlew
    { u with time := { u.time with holdover := 0 } }
  else t

/-- Hold counts and host-loss counts start at 0 again (12 R445). -/
def State.countsResume (s : State) : State :=
  { s with pt := { s.pt with miss := [], liveMiss := [], upd := [], wsrcUpd := [], liveUpd := [] } }

/-- Domains after NAP: MAIN, SRAM, CADDY and SYS have ramped, RING ramps, PCIE and, when a MAC is enabled,
ETH wait. -/
def State.resumeDomains (s : State) : State :=
  let can := s.dom 6
  let t := ((((((s.wr R.KET_DOM.STATE 0).putDom 0 3).putDom 1 3).putDom 2 3).putDom 7 3).putDom 3 1).putDom 6 can
  let eth := (List.range 4).any fun m => t.on R.MAC_CTRL.EN m
  ({ t with power := { t.power with requests := if eth then [5, 4] else [5] } } : State).regrant false

/-- Core c starts again at vector 0 after a NAP, unless its RUN bit holds it in reset (R582, 08 R304). -/
def State.restartCore (s : State) (c : Nat) : State :=
  if s.on R.CC_CTRL.RUN c then s.setCore c { run := .run } else s

/-- NAP_EXIT_COMPLETE (R582, NAP Exit): SYS starts at vector 0 with its general registers 0, as KEEP does
(DEDUCED, log 26). -/
def State.napExit (s : State) (periods : Nat) : State :=
  let s1 := ((s.ringResume.timeResume s.now periods).countsResume.wr R.KET_STATUS.STATE 0).wr R.KET_STATUS.RESUME 2
  let s2 := s1.resumeDomains
  ((s2.restartCore 16).restartCore 17).reachRun.syncRing

/-! ### Kettle's timed events (17 R573 to R580) -/

/-- A temperature reading (R574, KET_THERM): TEMP follows, and a reading that reaches WARN raises THERMAL and
an ALARM. -/
def State.newTemp (s : State) (temp : Nat) : State :=
  let lim := (s.rd R.KET_THERM.WARN + 64) * 16
  let old := (s.stored 0x005).toNat % 4096
  let s1 := s.statusSet 0x005 temp
  if old < lim ∧ lim ≤ temp then (s1.raise R.kettle_INT.THERMAL).alarm 1 2 0 temp else s1

/-- KETTLE_GRANT (R573, R575): the request of domain d is answered when it is the next one and no domain
ramps. -/
def State.grant (s : State) (d : Nat) : State :=
  match s.power.requests with
  | [] => s
  | x :: t =>
    if x = d ∧ (List.range 12).all (fun k => s.dom k != 1) = true then
      ({ s with power := { s.power with requests := t } } : State).setDom d 1
    else s

/-- May the clock of domain d (SYS or a cluster) stop (R579)? -/
def State.mayDoze (s : State) (d : Nat) : Bool :=
  let quiet (c : Nat) : Bool :=
    let k := s.core c
    k.run == .reset || (k.run == .idle && !k.inop && (c == 17 || (s.slot c).phase == .empty) &&
      (s.nextSource c true).isNone && (s.nextSource c false).isNone)
  s.rd R.KET_GATE.DOZE_US != 0 && s.dom d == 3 &&
    (if d = 7 then quiet 16 && quiet 17 else decide (8 ≤ d) && decide (d < 12) &&
      [0, 1, 2, 3].all fun i => quiet (4 * (d - 8) + i))

/-- CLUSTER_GATE (R580): a stopped cluster whose OFF_EN bit is set loses its power. -/
def State.gateCluster (s : State) (c : Nat) : State :=
  if c < 4 ∧ bit (s.rd R.KET_GATE.OFF_EN) c = true ∧ s.dom (8 + c) = 2 then
    (s.setDom (8 + c) 0).gateCores [4 * c, 4 * c + 1, 4 * c + 2, 4 * c + 3]
  else s

/-! ### Kettle's register writes -/

/-- KET_STATE_REQ with ENTER = 1 (R581): false for its error response. -/
def State.stateReq (s : State) (deep : Bool) : State × Bool :=
  if s.canBusy || (s.rd R.WK_STATUS.STATE != 0) then (s, false) else (s.commitSleep true deep, true)

/-- KET_RST (Reset Sources): KEY 0xC5 resets the device. -/
def State.ketRst (s : State) (key : Nat) (b : Board) : State :=
  if key = 0xC5 then (s.resetNow 3 b).ok else s

/-- The watchdog's count begins again (R586). -/
def State.wdogRestart (s : State) : State := { s with power := { s.power with wdogAt := s.tick } }

/-- KET_WDOG (R586): EN is set by writing 1, and KICK restarts the count; TIMEOUT is written only while EN = 0. -/
def State.wdogWrite (s : State) (v : Word) : State :=
  if s.on R.KET_WDOG.EN then (if getBits v 30 30 = 1 then s.wdogRestart else s)
  else
    let s1 := s.wr R.KET_WDOG.TIMEOUT (getBits v 15 0)
    if getBits v 31 31 = 1 then (s1.wr R.KET_WDOG.EN 1).wdogRestart else s1

/-- TIMEOUT milliseconds, 400,000 ticks each, have passed without a kick; a TIMEOUT of 0 is taken as 1 (R586). -/
def State.wdogDue (s : State) : Bool :=
  s.on R.KET_WDOG.EN && decide (s.power.wdogAt + max 1 (s.rd R.KET_WDOG.TIMEOUT) * 400000 ≤ s.tick)

/-- KET_CTRL (R578): false for the error response of a CAP outside 100 to 1,600. -/
def State.ketCtrl (s : State) (v : Word) : State × Bool :=
  let cap := getBits v 10 0
  if cap < 100 ∨ 1600 < cap then (s, false)
  else (((s.wr R.KET_CTRL.CAP cap).wr R.KET_CTRL.MIN_DUTY (getBits v 19 16)).regrant false, true)

/-! ### Commands -/

/-- SUPPLIES_VALID (R568). -/
def execSuppliesValid (b : Board) (s : State) : Host.Outcome State Fault Refusal := .next (s.releaseHold .supplies b)
/-- POWER_ON_RESET (R569): everything takes its reset value, always-on registers included; the supplies are
not valid yet. -/
def execPowerOnReset (s : State) : Host.Outcome State Fault Refusal :=
  let t := ({ s with regs := [], wake := {} } : State).cleared false
  .next { t with power := { t.power with holds := .supplies :: t.power.holds.filter (· != .supplies) } }
/-- BROWNOUT (R569); while INH has switched the rails off in DEEP their fall is no brownout. -/
def execBrownout (s : State) : Host.Outcome State Fault Refusal :=
  .next (if s.rd R.KET_STATUS.STATE = 3 ∧ s.wake.inh = false then s else (s.cause 1).enterReset .supplies)
/-- PIN_RESET. -/
def execPinReset (s : State) : Host.Outcome State Fault Refusal := .next ((s.cause 2).enterReset .resetN)
/-- CLKLOSS (R570). -/
def execClkloss (s : State) : Host.Outcome State Fault Refusal := .next ((s.cause 6).enterReset .refclk)
/-- THERMAL_RESET. -/
def execThermalReset (s : State) : Host.Outcome State Fault Refusal := .next ((s.cause 7).enterReset .thermal)
/-- RESET_N_RELEASE. -/
def execResetNRelease (b : Board) (s : State) : Host.Outcome State Fault Refusal := .next (s.releaseHold .resetN b)
/-- REFCLK_RETURN (R570). -/
def execRefclkReturn (b : Board) (s : State) : Host.Outcome State Fault Refusal := .next (s.releaseHold .refclk b)
/-- THERMAL_RESET_RELEASE. -/
def execThermalResetRelease (b : Board) (s : State) : Host.Outcome State Fault Refusal :=
  .next (s.releaseHold .thermal b)
/-- RING_REFCLK_LOSS (R571): both ring ports and every SGMII lane go DOWN, with an ALARM. -/
def execRingRefclkLoss (s : State) : Host.Outcome State Fault Refusal :=
  let t := { s with power := { s.power with ringClk := false } }
  .next (if s.awake then
    let u := (t.portDown .e).portDown .w
    ((List.range 4).foldl (fun (v : State) m => if v.on R.MAC_CTRL.IF m then (v.wr R.MAC_STATUS.SYNC 0 m).putLink m false else v) u).alarm 16 6 0 0
  else t)
/-- RING_REFCLK_RETURN (R571): the ports may train again. -/
def execRingRefclkReturn (s : State) : Host.Outcome State Fault Refusal :=
  .next { s with power := { s.power with ringClk := true } }
/-- WDOG_EXPIRE (R586), once its time has come; not in NAP or DEEP. -/
def execWdogExpire (b : Board) (s : State) : Host.Outcome State Fault Refusal :=
  s.powered (if s.wdogDue then s.resetNow 5 b else s)
/-- KETTLE_GRANT. -/
def execKettleGrant (d : Nat) (s : State) : Host.Outcome State Fault Refusal := s.powered (s.grant d)
/-- KETTLE_EVALUATE (R574, R577). -/
def execKettleEvaluate (temp : Nat) (s : State) : Host.Outcome State Fault Refusal :=
  s.powered ((s.newTemp temp).regrant true)
/-- The ramp of domain d ends (R573): isolation is released and the clock starts; a MAC that was enabled before a NAP has
its link from MAC_CTRL again (R582, 13 R450). -/
def State.rampEnd (s : State) (d : Nat) : State :=
  let t := s.setDom d 3
  if d = 4 then (List.range 4).foldl State.linkByCtrl t else t

/-- DOMAIN_RAMP_DONE (R573). -/
def execDomainRampDone (d : Nat) (s : State) : Host.Outcome State Fault Refusal :=
  s.powered (if d < 12 ∧ s.dom d = 1 then s.rampEnd d else s)
/-- DOZE_STOP (R579). -/
def execDozeStop (d : Nat) (s : State) : Host.Outcome State Fault Refusal :=
  s.powered (if s.mayDoze d then s.setDom d 2 else s)
/-- CLUSTER_GATE (R580). -/
def execClusterGate (c : Nat) (s : State) : Host.Outcome State Fault Refusal := s.powered (s.gateCluster c)
/-- THERMAL_WARN (KET_THERM). -/
def execThermalWarn (temp : Nat) (s : State) : Host.Outcome State Fault Refusal := s.powered (s.newTemp temp)
/-- LFXTAL_TAKEOVER (17, Clocks). -/
def execLfxtalTakeover (s : State) : Host.Outcome State Fault Refusal := .next (s.wr R.KET_STATUS.LFX_OK 1)
/-- COMMIT_POINT (12 R438): the start of the commit cycle of an ARMED unit. -/
def execCommitPoint (s : State) : Host.Outcome State Fault Refusal := s.powered s.commitPoint
/-- POWER_DOWN_ABORT (12 R439): 20 µs after the commit point, operations that still run are aborted. -/
def execPowerDownAbort (s : State) : Host.Outcome State Fault Refusal :=
  s.powered (if s.wakeRun = .committed then s.abortOps else s)
/-- POWER_DOWN_COMPLETE (12 R439). -/
def execPowerDownComplete (s : State) : Host.Outcome State Fault Refusal :=
  s.powered (if s.wakeRun = .committed then s.powerDownEnd else s)
/-- NAP_EXIT_COMPLETE (R582). -/
def execNapExitComplete (periods : Nat) (s : State) : Host.Outcome State Fault Refusal :=
  .next (if s.wakeRun = .exiting ∧ s.rd R.KET_STATUS.STATE = 2 ∧ s.power.holds = [] then s.napExit periods else s)
/-- DEEP_EXIT (R583): the start-up sequence, with SRAM banks 0 and 1 kept; the time base resumes as 12 R445 says. -/
def execDeepExit (x : DeepExit) (s : State) : Host.Outcome State Fault Refusal :=
  .next (if s.wakeRun = .exiting ∧ s.rd R.KET_STATUS.STATE = 3 ∧ s.power.holds = [] then
    (((s.cause 8).startUp x.board true).timeResume s.now x.periods).wr R.KET_STATUS.RESUME 3 else s)
/-- LC_REQUEST (18 R598): an accepted transition programs its byte and resets the device with cause SW. -/
def execLcRequest (b : Board) (s : State) : Host.Outcome State Fault Refusal :=
  s.powered <|
    match s.keeperHead with
    | some (4, stamp, chan, arg) =>
      if s.keeperUp then
        let t := ((s.mbxPop (.core 17) 63).s.selfTestsEnd).tokenRead arg
        match t.turnedAway 4 stamp, t.lcTarget arg with
        | some st, _ => State.keeperReply ⟨t, st, none⟩ 4 chan
        | none, .error st => State.keeperReply ⟨t, st, none⟩ 4 chan
        | none, .ok byte => (t.lcProgram byte).resetNow 3 b
      else s
    | _ => s
/-- BANK_RAIL_CLASS_DETECT (21 R639): a bank without a class takes one; a rail below 1.0 V ends it. -/
def execBankRailClassDetect (bank mv : Nat) (s : State) : Host.Outcome State Fault Refusal :=
  let cls := if mv < 2100 then 1 else if mv ≤ 2900 then 2 else 3
  .next (if 8 ≤ bank then s
    else if mv < 1000 then { s with power := { s.power with rail := s.power.rail.set 0 bank 0 } }
    else if s.power.rail.get 0 bank = 0 then { s with power := { s.power with rail := s.power.rail.set 0 bank cls } }
    else s)

end Sys2Proof.Machine
end

