-- ==== Sys2Proof/Machine/Ring.lean ====
section
/-! DEFINITION. The ring cycle (04): activation of a table set, cycle boundaries, through and static frames,
the mode change, self-silence, and the allocation of the dynamic segment. -/

namespace Sys2Proof.Machine

/-! ### Activation (04 R166, R169; 02 R59, R63) -/

/-- POINT_ATTR takes effect (R169): a point that keeps WCLASS and WSRC keeps everything. -/
def State.activateAttrs (s : State) (l : List Byte) : State :=
  let new : SMap DWord := ((List.range 3840).zip (entriesOf 8 l)).filterMap fun e =>
    if leNat e.2 = 0 then none else some (0x100 + e.1, BitVec.ofNat 64 (leNat e.2))
  let keys := (s.pt.attr.map (·.1) ++ new.map (·.1)).eraseDups
  keys.foldl (fun (t : State) i =>
    let o := (s.pt.attr.get 0 i).toNat
    let n := (new.get 0 i).toNat
    if aClass n ≠ 0 ∧ aClass o = aClass n ∧ aWsrc o = aWsrc n then t
    else (t.setStored i (pointReset i)).setMiss i 0) { s with pt := { s.pt with attr := new } }

/-- The image role ends: both images' pages are freed and a held snapshot is released (02 R63). -/
def State.dropImages (s : State) : State :=
  let s1 := s.dropSnap
  let s2 := s1.pt.livePt.foldl (fun t e => if e.2.backed then t.freePage .image e.2.ppn else t) s1
  let s3 := { s2 with pt := { s2.pt with livePt := [], snapReq := false, snapRead := false, liveMiss := [], liveUpd := [] } }
  (((s3.wr R.CAD_SNAP_STATUS.VALID 0).wr R.CAD_SNAP_STATUS.ABORT 0).wr R.CAD_SNAP_STATUS.CYCLE 0).wr R.CAD_IMG_CTRL.IMG_EN 0

/-- Back every live-image slot that the active set names a point in (02 R59). -/
def State.backNamed (s : State) : State :=
  let named := (s.ring.active.rx.map (·.dest) ++ s.ring.active.hostCmd).filter fun a => a / 4096 != s.ring.addr
  ((named.map (· / 512)).eraseDups).foldl (fun (t : State) slot =>
    if neverBacked slot || (t.live slot).backed then t
    else match t.backSlot slot with
      | some u => u
      | none => t.allocFail .image) s

/-- The image role follows the set (02 R56, R59, R63). -/
def State.imageRole (s : State) : State :=
  if s.ring.active.hostRole then (s.wr R.CAD_IMG_CTRL.IMG_EN 1).backNamed
  else if s.imgEn then s.dropImages
  else s

/-- One entry of a state array takes value `v` (07 R249, R250): in memory, in a local point, or in another unit through a
remote-unit window. A refused write has no effect and is recorded in page 0 (01 R20). -/
def State.putEntry (s : State) (a n v : Nat) : State :=
  match rangeOf a with
  | some .points =>
    (List.range (n / 2)).foldl (fun (t : State) k =>
      t.setStored (a % 0x2000 / 2 + k) (BitVec.ofNat 16 (v / 65536 ^ k))) s
  | some .remote => (s.bridgeIssue .hardware a n v true false).1
  | some .raw => s.enginePut a (leBytes n v)
  | some .sram => s.enginePut a (leBytes n v)
  | _ => s.engineErr true 3 a

/-- The state array of a FILTER becomes 0, that of a CHANGE 0x8000 in every entry (07 R249, R250). -/
def State.fillArray (s : State) (d : Desc) (op : Nat) : State :=
  if (op = 6 ∨ op = 7) ∧ d.ok op = true then
    (List.range d.count).foldl (fun (t : State) i =>
      t.putEntry (d.aux + stateSize op * i) (stateSize op) (if op = 6 then 0x8000 else 0)) s
  else s

/-- The table set fills the state arrays of its mover nodes (07 R249, R250). -/
def State.fillArrays (s : State) : State :=
  s.pour.nodes.foldl (fun (t : State) e =>
    match s.moverNode e.2.toNat with
    | some (d, op) => t.fillArray d op
    | none => t) s

/-- STEEP: the comparators named take their entries (05 R207). -/
def State.activateSteep (s : State) (l : List Byte) : State :=
  (entriesOf 16 l).foldl (fun (t : State) e =>
    let n := le e 0 1
    (((t.steepKeep n).setReg (R.STP_CTRLn.EN.addr 0 n) (regFields R.STP_CTRLn.desc (le e 4 4))).setReg
      (R.STP_TIMEn.TIME.addr 0 n) (regFields R.STP_TIMEn.desc (le e 8 4))).setReg
      (R.STP_ARGn.ARG.addr 0 n) (regFields R.STP_ARGn.desc (le e 12 4))) s

/-- Is this unit the time master that its active set names: MASTER's cycle master, or the unit named apart from it
(01 R25)? -/
def State.namedTimeMaster (s : State) : Bool :=
  let a := s.ring.active
  if a.timeMaster = 0 ∨ a.timeMaster = a.master then s.ring.cycleMaster else s.ring.addr == a.timeMaster

/-- The time-master role follows the set that becomes active (01 R25): a holder that the set still names keeps it
(03 R91), and a new holder takes it once both its estimates are known (01 R26). A unit that has joined, or that was
stranded, does not take a role by the set it adopts, and one that has returned retakes none before the next cold start
(05 R190). -/
def State.roleBySet (s : State) (adopt : Bool) : State :=
  if !s.namedTimeMaster then s.endTimeMaster
  else if s.ring.timeMaster || adopt || s.ring.returned || !s.bothKnown then s
  else s.becomeTimeMaster

/-- Activation of set n in one boundary tick (R166); `adopt`: by a header's SET (R168, R114). -/
def State.activateSet (s : State) (n : Nat) (adopt : Bool) : State :=
  let b := s.ring.sets.get [] n
  let old := s.rd R.RING_CYC_STATUS.ACTIVE_SET
  let s1 := if s.ring.haveActive then s.putSetState old 2 else s
  let s2 := ((s1.putSetState n 4).wr R.RING_CYC_STATUS.ACTIVE_SET n).wr R.RING_CYC_STATUS.STRANDED 0
  let s3 := { s2 with ring := { s2.ring with active := parseSet b, haveActive := true } }
  let s4 := (s3.activateAttrs (body b 0x12)).imageRole
  let s5 := (((s4.activateGraph (body b 0x20)).activateDescs (body b 0x21)).fillArrays).activateBindings (body b 0x26)
  let s6 := if hasSection b 0x22 then s5.activatePe (body b 0x22) else s5
  let s7 := (s6.activateSteep (body b 0x23)).stagesSubst
  let s8 := if hasSection b 0x24 then s7.activateFilters (body b 0x24) else s7
  let s9 := if hasSection b 0x25 then s8.activateGcl (body b 0x25) else s8
  ((s9.roleBySet adopt).parkedStep .e).parkedStep .w

/-! ### The unit in its ring -/

/-- Units with an address, master included (04, UNITS of the through header). -/
def State.unitCount (s : State) : Nat := (s.ring.confirmed.filter fun a => !s.ring.vacant.contains a).length

/-- May the unit send static frames and write through fields (01 R26, 03 R91, R114, 04 R148, R168)? -/
def State.maySend (s : State) : Bool :=
  s.cycling && s.ring.haveActive && s.ring.addr != 0 && s.rd R.RING_ENUM_STATUS.STATE == 5 &&
  !s.on R.RING_CYC_STATUS.SILENCED && !s.on R.RING_CYC_STATUS.STRANDED && !s.orphan &&
  (s.ring.talking || s.ring.cycleMaster || (s.bothKnown && s.ring.hdrOk && s.servo != .unset &&
    !s.beyondHalf s.offsetNow))

/-! ### Authentication (04 R170 to R172, 18 R606, R607) -/

/-- Does the tag of a frame verify? `tagger` is the nonce address. -/
def State.tagGood (s : State) (tagger epoch : Nat) (l : List Byte) : Bool :=
  s.holdsKey epoch && (l.drop (l.length - 12)).take 8 ==
    tagOf (s.heldKey epoch) tagger epoch (l.take (l.length - 12))

/-- A frame of this unit: the tag where the active set has AUTH, and the CRC. -/
def State.sealed (s : State) (l : List Byte) : List Byte :=
  sealWith true (if s.ring.active.auth then l ++ tagOf (s.heldKey s.epoch) s.ring.addr s.epoch l else l)

/-- Length of a frame of `n` bytes before its tag and CRC. -/
def State.withTag (s : State) (n : Nat) : Nat := n + 4 + (if s.ring.active.auth then 8 else 0)

/-- A tag failure (R172). -/
def State.tagFail (s : State) (l : List Byte) : State :=
  ((s.bump R.RING_AUTH_STATUS.FAIL).statusCount 0x025).alarm 17 3 (fSrc l) (fKind l + 256 * fSeq l)

/-- Does a copy pass authentication (R170 to R172)? Its tag verifies with a key that the gateway holds, or it
carries none and the active set asks for none. -/
def State.authentic (s : State) (l : List Byte) : Bool :=
  let thru := fKind l == 1
  let epoch := if thru then be l 54 2 else s.epoch
  let tagger := if thru then be l 58 2 % 2048 else fSrc l
  if fAuth l then s.tagGood tagger epoch l else !s.ring.active.auth

/-- A through frame with AUTH = 1 makes the gateway ask for the keys of its epoch, where it lacks that key (18 R607). They
come after the frame, which fails where its epoch is neither held key (18 R606). -/
def State.askFor (s : State) (l : List Byte) : State :=
  if frameGood l && fAuth l && fKind l == 1 then s.askKeys (be l 54 2) else s

/-- Validity of a received copy by CRC and tag (R95, R172): bad CRCs and bad tags are counted. The spec gives no
order of the two checks: the CRC is checked first, and a copy with a bad CRC is not counted in FAIL (DESIGN CHOICE,
log 37). -/
def State.checkCopy (s : State) (p : RingPort) (kind : Nat) (l : List Byte) : State × Bool :=
  if !frameGood l || fKind l != kind then (s.badFrame p l, false)
  else if s.authentic l then (s, true)
  else (s.tagFail l, false)

/-! ### Announcements (04 R138; 03 R112, R115, R117) -/

/-- A FAULT announcement is recorded (03 R117, R119): a new position while one is recorded is a second fault, and so are
two ends that are not those of one fault; a countdown of the master aborts (04 R167). -/
def State.actFault (s : State) (e w : Nat) : State :=
  let e0 := s.rd R.RING_FAULT.EAST_OF
  let w0 := s.rd R.RING_FAULT.WEST_OF
  let second := s.on R.RING_FAULT.ACTIVE && ((e0 != 0 && e != 0 && e != e0) || (w0 != 0 && w != 0 && w != w0))
  let s1 := (s.wr R.RING_FAULT.ACTIVE 1).wr R.RING_FAULT.ISLAND (ofBool (second || s.on R.RING_FAULT.ISLAND))
  let s2 := if e = 0 then s1 else s1.wr R.RING_FAULT.EAST_OF e
  let s3 := if w = 0 then s2 else s2.wr R.RING_FAULT.WEST_OF w
  let r := { s3.ring with downE := if e = 0 then s3.ring.downE else withUnit s3.ring.downE e
                          downW := if w = 0 then s3.ring.downW else withUnit s3.ring.downW w
                          mcFault := s3.ring.mcFault || s3.ring.mcRunning }
  let s4 := ({ s3 with ring := r } : State).secondFault
  s4.vacate (s4.lostUnits (s4.rd R.RING_FAULT.EAST_OF) (s4.rd R.RING_FAULT.WEST_OF))

/-- What an announcement has said a unit other than the master has no more to announce itself (03 R112, R115, R117,
R118). -/
def State.heard (s : State) (op a b : Nat) : State :=
  let covered (x : Announce) : Bool :=
    x.op == op && (op == 4 || ((x.a == 0 || x.a == a) && (op == 2 || x.b == 0 || x.b == b)))
  let off (l : List Nat) (u : Nat) : List Nat := if op = 4 then [] else if op = 1 then l.filter (· != u) else l
  if s.ring.cycleMaster then s
  else
    { s with ring := { s.ring with
        toAnnounce := s.ring.toAnnounce.filter fun x => !covered x
        parked := if op = 1 then s.ring.parked.filter (fun u => u != a && u != b) else s.ring.parked
        downE := off s.ring.downE a, downW := off s.ring.downW b } }

/-- A unit acts on the first copy of an announcement that it receives, and remembers it for 32,768 cycles, half the
range of RC_CYCLE (R138) (DEDUCED, log 32). -/
def State.actOn (s : State) (op a b cyc : Nat) : State :=
  if op = 0 ∨ 4 < op ∨ s.ring.actedOn.contains (op, cyc) = true then s
  else
    let old := s.ring.actedOn.filter fun x => decide ((cyc + 65536 - x.2) % 65536 < 32768)
    let s0 := ({ s with ring := { s.ring with actedOn := (op, cyc) :: old } } : State).heard op a b
    match op with
    | 1 =>
      let me := s.ring.addr
      let e := if a = me ∧ me ≠ 0 then some cyc else s0.ring.spliceE
      let w := if b = me ∧ me ≠ 0 then some cyc else s0.ring.spliceW
      { s0 with ring := { s0.ring with spliceE := e, spliceW := w } }
    | 2 => { s0 with ring := { s0.ring with detachAt := some (a, cyc) } }
    | 3 => s0.actFault a b
    | _ =>
      let s1 := ((s0.wr R.RING_FAULT.ACTIVE 0).wr R.RING_FAULT.ISLAND 0).wr R.RING_FAULT.EAST_OF 0
      s1.wr R.RING_FAULT.WEST_OF 0

/-- Priority of an announcement: FAULT, FAULT_CLEAR, DETACH, SPLICE (R138). -/
def announceRank (a : Announce) : Nat :=
  match a.op with
  | 3 => 0 | 4 => 1 | 2 => 2 | _ => 3

/-- The announcement with the highest priority that a header may carry: no splice or detach while a
countdown runs (R162). -/
def State.nextAnnounce (s : State) : Option Announce :=
  let ok (a : Announce) : Bool := decide (3 ≤ a.op) || !(s.ring.mcRunning || s.ring.mcStart)
  (List.range 4).findSome? fun r => s.ring.toAnnounce.find? fun a => ok a && announceRank a == r

/-- The announcement as the header of cycle c carries it: a first carrier sets RC_CYCLE, the present cycle
for a fault, two cycles ahead for a splice or a detach. -/
def Announce.stamped (a : Announce) (c : Nat) : Announce :=
  if 3 ≤ a.op then (if a.left = 4 then { a with cycle := c % 65536, left := 3 } else { a with left := a.left - 1 })
  else if a.left = 0 then { a with cycle := (c + 2) % 65536, left := 1 }
  else { a with left := a.left + 1 }

/-- The queue after the header of cycle c carried `x` as `y`: a splice or detach that was announced once and
was displaced now is named for a later boundary (R138). -/
def State.carried (s : State) (x y : Announce) : State :=
  let q := s.ring.toAnnounce.filterMap fun a =>
    if a = x then (if 3 ≤ y.op ∧ y.left = 0 then none else some y)
    else if a.op ≤ 2 ∧ a.left = 1 then some { a with left := 0 }
    else some a
  { s with ring := { s.ring with toAnnounce := q } }

/-- May RING_E of a unit that reported a parked link be the one: it is down, or no port of the unit is known to be? -/
def State.eastParked (s : State) (u : Nat) : Bool := s.ring.downE.contains u || !s.ring.downW.contains u
/-- The same of RING_W. -/
def State.westParked (s : State) (u : Nat) : Bool := s.ring.downW.contains u || !s.ring.downE.contains u

/-- Does unit u wait for the report of the other end of its link: a neighbour, no vacant address between, whose port
towards it is down? -/
def State.otherWaits (s : State) (u : Nat) : Bool :=
  let near (a b : Nat) : Bool := (s.ring.active.between (s.ring.active.hopsOf a) (s.ring.active.hopsOf b)).isEmpty
  (s.ring.downE.contains u && s.ring.downW.any fun v => v != u && near u v) ||
  (s.ring.downW.contains u && s.ring.downE.any fun v => v != u && near v u)

/-- The splices for reported units, and the units that wait on (R111, R112): two units that face each other are the
ends of one splice; one across from a unit that joins is named alone, as both ends where its down port is not known; and
a unit waits while the other end of its own link has not reported (DEDUCED, log 32). -/
def State.splices (s : State) : List Announce × List Nat :=
  let l := s.ring.parked
  let pairs := l.filterMap fun u =>
    if s.eastParked u then ((l.find? fun v => v != u && s.westParked v && s.faces u v).map fun v => (u, v)) else none
  let rest := l.filter fun u => !(pairs.any fun x => x.1 == u || x.2 == u)
  let one (u : Nat) : Announce := ⟨1, if s.eastParked u then u else 0, if s.westParked u then u else 0, 0, 0⟩
  (pairs.map (fun x => ⟨1, x.1, x.2, 0, 0⟩) ++ (rest.filter fun u => !s.otherWaits u).map one, rest.filter s.otherWaits)

/-- Parked links that were reported become splices (03 R112). -/
def State.splicesDue (s : State) : State :=
  { s with ring := { s.ring with parked := s.splices.2, toAnnounce := s.ring.toAnnounce ++ s.splices.1 } }

/-- With a fault recorded and no end of any fault down the master announces FAULT_CLEAR (03 R118). -/
def State.clearDue (s : State) : State :=
  if s.on R.RING_FAULT.ACTIVE && s.ring.downE.isEmpty && s.ring.downW.isEmpty &&
      !(s.ring.toAnnounce.any fun a => decide (3 ≤ a.op)) then s.announce ⟨4, 0, 0, 0, 4⟩
  else s

/-- The ends that a splice restored are down no longer (03 R118). -/
def State.restored (s : State) (x : Announce) : State :=
  let s1 := if x.a ≠ 0 ∧ s.rd R.RING_FAULT.EAST_OF = x.a then s.wr R.RING_FAULT.EAST_OF 0 else s
  let s2 := if x.b ≠ 0 ∧ s1.rd R.RING_FAULT.WEST_OF = x.b then s1.wr R.RING_FAULT.WEST_OF 0 else s1
  { s2 with ring := { s2.ring with downE := s2.ring.downE.filter (· != x.a), downW := s2.ring.downW.filter (· != x.b) } }

/-- Announced splices and detaches of this master that take effect at the start of cycle c are over. -/
def State.masterEffects (s : State) (c : Nat) : State :=
  let done := s.ring.toAnnounce.filter fun a => decide (a.op ≤ 2) && decide (2 ≤ a.left) && a.cycle == c % 65536
  let s1 := { s with ring := { s.ring with toAnnounce := s.ring.toAnnounce.filter fun a => !done.contains a } }
  done.foldl (fun (t : State) a =>
    if a.op = 1 then ({ t with ring := { t.ring with joinDue := true } } : State).restored a else t) s1

/-- A port goes UP at its splice boundary (03 R112), while what its unit reported still holds (R111). -/
def State.spliceUp (s : State) (p : RingPort) : State := if s.parkVerdict p = 1 then s.setLink p 5 else s

/-- A port is PARKED by a detach (03 R115): its link is no news to report. -/
def State.parkOff (s : State) (p : RingPort) : State :=
  if s.up p then (s.setLink p 6).setPort p { s.port p with told := 1 } else s

/-- This unit leaves the ring at its detach boundary (03 R115). -/
def State.leaveRing (s : State) : State :=
  let s1 := { s.endTimeMaster with ring := { s.endTimeMaster.ring with
                cycleMaster := false, addr := 0, talking := false, detachAt := none, mcRunning := false } }
  let s2 := ((s1.wr R.RING_ENUM_STATUS.STATE 0).wr R.RING_CYC_STATUS.SEG 4).wr R.RING_LNK_CTRL.DETACH 0
  (s2.parkOff .e).parkOff .w

/-- A neighbour of the unit u that detaches sets the link to it PARKED: in a ring of two units both its links (03 R115).
In start-up cycles, without an active set, the cycle master alone can detach, and UNITS tells its neighbours. -/
def State.parkTowards (s : State) (u : Nat) : State :=
  let t := s.ring.active
  let n := max 1 (s.rd R.RING_ENUM_STATUS.UNITS)
  let has := s.ring.haveActive
  let west := if has then (t.between (t.hopsOf u) s.hops).all s.ring.vacant.contains else s.hops == 1 % n
  let east := if has then (t.between s.hops (t.hopsOf u)).all s.ring.vacant.contains else (s.hops + 1) % n == 0
  let s1 := if west then s.parkOff .w else s
  if east then s1.parkOff .e else s1

/-- Splices and detaches that take effect at the start of cycle c (03 R112, R115). -/
def State.linkEffects (s : State) (c : Nat) : State :=
  let k := c % 65536
  let s1 : State := if s.ring.spliceE = some k then
      ({ s with ring := { s.ring with spliceE := none } } : State).spliceUp .e else s
  let s3 : State := if s1.ring.spliceW = some k then
      ({ s1 with ring := { s1.ring with spliceW := none } } : State).spliceUp .w else s1
  match s3.ring.detachAt with
  | some (u, c') =>
    if c' ≠ k then s3
    else if u = s3.ring.addr then s3.leaveRing
    else
      let s4 := { s3.parkTowards u with ring := { (s3.parkTowards u).ring with detachAt := none } }
      s4.vacate [u]
  | none => s3

end Sys2Proof.Machine
end

