-- ==== Sys2Proof/Machine/Trace.lean ====
section
/-! DEFINITION. The trace unit (19): the record format, window closes, gap records, the buffer path, the
ring path and the collector, and the software record port. -/

namespace Sys2Proof.Machine

/-! ### Record format (19 R612) -/

/-- Code of a class. -/
def TraceClass.code : TraceClass → Nat
  | .alarm => 0 | .event => 1 | .trace => 2 | .debug => 3

/-- Class of a code. -/
def classOfCode : Nat → TraceClass
  | 0 => .alarm | 1 => .event | 2 => .trace | _ => .debug

/-- The first header word. -/
def TraceRec.word0 (r : TraceRec) : Nat :=
  r.cls.code * 2 ^ 30 + r.kind % 4 * 2 ^ 28 + r.page % 1024 * 2 ^ 18 + r.code % 128 * 2 ^ 11 + r.aux % 2048

/-- The second header word. -/
def TraceRec.word1 (r : TraceRec) : Nat :=
  ofBool r.sync * 2 ^ 31 + ofBool r.close * 2 ^ 30 + r.unit % 2048 * 2 ^ 16 + r.seq % 65536

/-- The fields of a record, each with its length in bytes. -/
def TraceRec.fields (r : TraceRec) : List (Nat × Nat) :=
  [(4, r.word0), (4, r.word1), (8, r.first.sec * 2 ^ 32 + r.first.ns)] ++
  match r.kind with
  | 1 => [(4, r.delta), (4, r.count), (8, r.data)]
  | 2 => [(4, r.delta), (2, bitsOf r.data 15 0), (2, bitsOf r.data 31 16), (2, bitsOf r.data 47 32),
          (2, bitsOf r.data 63 48), (4, 0)]
  | _ => [(16, r.data)]

/-- A record in memory: each field little-endian (R612). -/
def TraceRec.bytes (r : TraceRec) : List Byte := r.fields.flatMap fun f => leBytes f.1 f.2

/-- A record in a TRACE message: each field most significant byte first (R612). -/
def TraceRec.wire (r : TraceRec) : List Byte := r.fields.flatMap fun f => beBytes f.1 f.2

/-- A record read from a TRACE message. -/
def parseRec (b : List Byte) : TraceRec :=
  let w0 := be b 0 4
  let w1 := be b 4 4
  let k := bitsOf w0 29 28
  let d := match k with
    | 1 => be b 24 8
    | 2 => be b 20 2 + be b 22 2 * 2 ^ 16 + be b 24 2 * 2 ^ 32 + be b 26 2 * 2 ^ 48
    | _ => be b 16 16
  { cls := classOfCode (w0 / 2 ^ 30), kind := k, page := bitsOf w0 27 18, code := bitsOf w0 17 11, aux := w0 % 2048
    sync := bit w1 31, close := bit w1 30, unit := bitsOf w1 26 16, seq := w1 % 65536
    first := ⟨be b 8 4, be b 12 4 % 2 ^ 30⟩, delta := be b 16 4, count := be b 20 4, data := d }

/-! ### Windows and gaps (19 R615, R619) -/

/-- Microseconds between two stamps. -/
def microsBetween (a b : Stamp) : Nat := ((b.sec * 1000000000 + b.ns) - (a.sec * 1000000000 + a.ns)) / 1000

/-- WINDOW milliseconds have passed since T_FIRST of an entry; a WINDOW of 0 is taken as 1 (R615). -/
def State.windowOver (s : State) (e : AlarmEntry) : Bool :=
  decide (max 1 (s.rd R.TRC_CTRL.WINDOW) * 1000 ≤ microsBetween e.first s.stamp)

/-- ALARM_WINDOW_CLOSE: the open entry of this key closes once its window is over (R615); the overflow entry has its
own key. -/
def State.windowClose (s : State) (unit page code aux : Nat) : State :=
  let hit (e : AlarmEntry) : Bool :=
    e.unit == unit && e.page == page && e.code == code && e.aux == aux && s.windowOver e
  let shut (e : AlarmEntry) : AlarmEntry := if hit e then { e with closing := true } else e
  { s with trace := { s.trace with entries := s.trace.entries.map shut
                                   overflow := s.trace.overflow.map shut } }.placeOffers

/-- A GAP record with these drop counts (R612, R619); its PAGE is the trace page, CODE and AUX are 0
(DESIGN CHOICE, log 41). -/
def State.gapRec (s : State) (unit counts : Nat) (a b : Stamp) : TraceRec :=
  { cls := .alarm, kind := 2, page := 4, code := 0, aux := 0, sync := s.synced, close := false, unit := unit
    seq := 0, first := a, delta := microsBetween a b, count := 0, data := counts }

/-- May a GAP record be offered: the fill is below 96, or a count has reached 65,535; and the queue has
room (R619). -/
def State.gapOpen (s : State) (n : Nat) : Bool :=
  n != 0 && (decide (s.trace.queue.length < 96) || (n == 65535 && decide (s.trace.queue.length < 256)))

/-- The drops of this unit's own records go into a GAP record. -/
def State.gapOwn (s : State) : State :=
  let t := s.trace
  let n := max t.dropEvent (max t.dropTrace t.dropDebug)
  if s.gapOpen n then
    let r := s.gapRec s.ring.addr (t.dropEvent + t.dropTrace * 2 ^ 16 + t.dropDebug * 2 ^ 32) t.dropFirst t.dropLast
    { s with trace := { t with queue := t.queue ++ [r], dropEvent := 0, dropTrace := 0, dropDebug := 0 } }
  else s

/-- The losses of each source unit go into a GAP record with its UNIT (R621). -/
def State.gapLost (s : State) : List (Nat × LostCount) → State
  | [] => s
  | (u, c) :: t =>
    if s.gapOpen c.n then
      let r := s.gapRec u (c.n * 2 ^ 48) c.first c.last
      ({ s with trace := { s.trace with queue := s.trace.queue ++ [r], lost := s.trace.lost.set {} u {} } } : State).gapLost t
    else s.gapLost t

/-! ### Buffer path (19 R620) -/

/-- TRACE_BUFFER_WRITE: the oldest record goes to the buffer when PUT has room (R620). -/
def State.bufferWrite (s : State) : State :=
  let n := s.rd R.TRC_BUF_SIZE.SIZE
  match s.trace.queue with
  | [] => s
  | r :: t =>
    if s.on R.TRC_CTRL.EN = false ∨ s.on R.TRC_CTRL.BUF_EN = false ∨ n < 16 ∨ 262144 < n then s
    else
      let put := s.rd R.TRC_BUF_PUT.INDEX
      let next := (put + 1) % n
      if next = s.rd R.TRC_BUF_GET.INDEX then s.raise R.trace_INT.FULL
      else
        let s1 := { s with trace := { s.trace with queue := t } }
        let s2 := (s1.enginePut (s.rd R.TRC_BUF_BASE.BASE * 32 + 32 * put) r.bytes).wr R.TRC_BUF_PUT.INDEX next
        (if r.kind = 1 then s2.raise R.trace_INT.ALARM else if r.kind = 2 then s2.raise R.trace_INT.GAP else s2).placeOffers

/-! ### Ring path (19 R620) -/

/-- Records that a TRACE message may hold within BYTES and `room` bytes of the frame. -/
def State.traceCount (s : State) (room : Nat) : Nat :=
  if s.on R.TRC_CTRL.EN && s.on R.TRC_CTRL.RING_EN then
    min s.trace.queue.length ((min room (min 1544 (s.rd R.TRC_RING.BYTES)) - 8) / 32)
  else 0

/-- Number the records that leave (R620). -/
def numberRecs : Nat → List TraceRec → List TraceRec
  | _, [] => []
  | k, r :: t => { r with seq := k % 65536 } :: numberRecs (k + 1) t

/-- Take the TRACE message for a dynamic frame with `room` bytes left: none when no record goes. -/
def State.traceMsg (s : State) (room : Nat) : State × List DynMsg :=
  let n := s.traceCount room
  if n = 0 then (s, [])
  else
    let rs := numberRecs s.trace.seqOut (s.trace.queue.take n)
    let t := { s.trace with queue := s.trace.queue.drop n, seqOut := (s.trace.seqOut + n) % 65536 }
    (({ s with trace := t } : State).placeOffers,
     [{ type := 5, dest := s.rd R.TRC_RING.DEST, body := rs.flatMap TraceRec.wire }])

/-! ### Collector (19 R621) -/

/-- SEQ of a record from unit u: the records missing before it are LOST. -/
def State.seqSeen (s : State) (u seq : Nat) : State :=
  let last := s.trace.seqIn.get 0 u
  let miss := if last = 0 then 0 else (seq + 65536 - last % 65536) % 65536
  let s1 := { s with trace := { s.trace with seqIn := s.trace.seqIn.set 0 u (seq + 1) } }
  if miss = 0 then s1
  else
    let c := s1.trace.lost.get {} u
    let c1 : LostCount := { n := min 65535 (c.n + miss), first := if c.n = 0 then s.stamp else c.first, last := s.stamp }
    (({ s1 with trace := { s1.trace with lost := s1.trace.lost.set {} u c1 } } : State).bumpBy
      R.TRC_DROP_B.LO miss).statusCount 0x034

/-- A stamp `us` microseconds later. -/
def Stamp.after (a : Stamp) (us : Nat) : Stamp :=
  let n := a.ns + us * 1000
  ⟨(a.sec + n / 1000000000) % 2 ^ 32, n % 1000000000⟩

/-- A collected record goes into the queue unchanged; ALARM and GAP records take the path of R614. -/
def State.collectRec (s : State) (src : Nat) (r : TraceRec) : State :=
  let s1 := s.seqSeen src r.seq
  if r.cls = .alarm then
    s1.alarmOf { unit := r.unit, page := r.page, code := r.code, aux := r.aux, first := r.first,
                 last := r.first.after r.delta, sync := r.sync, count := if r.kind = 2 then 1 else r.count,
                 placed := 0, data := r.data, openOut := false, closing := false, gap := r.kind == 2 }
  else s1.queueRec r

/-- Every record of a TRACE message from unit `src` (R621). -/
def State.collect (s : State) (src : Nat) (body : List Byte) : State :=
  if s.on R.TRC_CTRL.EN && s.on R.TRC_CTRL.COLLECT then
    (entriesOf 32 body).foldl (fun t b => if b.length = 32 then t.collectRec src (parseRec b) else t) s
  else s

/-! ### Software record port (19 R622) -/

/-- A write of TRC_SW_DATAk: each core and host port stages for itself; others receive an error. -/
def State.swData (s : State) (who : Initiator) (k : Nat) (v : Word) : RegRes :=
  let st := stampOf who
  if 0x2000 ≤ st then { s := s, cause := some 10 }
  else { s := { s with trace := { s.trace with staged := s.trace.staged.set 0 (4 * st + k) v } } }

/-- Staged word k of a stamp. -/
def State.swWord (s : State) (st k : Nat) : Nat := (s.trace.staged.get 0 (4 * st + k)).toNat

/-- The staging words of a stamp are spent. -/
def State.swClear (s : State) (st : Nat) : State :=
  { s with trace := { s.trace with staged := s.trace.staged.filter fun e => e.1 / 4 != st } }

/-- A software ALARM takes the path of R614 (R622). -/
def State.swAlarm (s : State) (st : Nat) : State :=
  let x := { s.newAlarm 0x3FF (st / 4096) (st % 4096) (s.swWord st 0 + s.swWord st 1 * 2 ^ 32) with aux := st % 2048 }
  ((s.bump R.TRC_ALARMS.COUNT).statusCount 0x033).alarmOf x

/-- A software record of another class. -/
def State.swRec (s : State) (st cls : Nat) : State :=
  s.queueRec { cls := classOfCode cls, kind := 0, page := 0x3FF, code := st / 4096, aux := st % 2048, sync := s.synced
               close := false, unit := s.ring.addr, seq := 0, first := s.stamp, delta := 0, count := 0
               data := s.swWord st 0 + s.swWord st 1 * 2 ^ 32 + s.swWord st 2 * 2 ^ 64 + s.swWord st 3 * 2 ^ 96 }

/-- TRC_SW_COMMIT (R622). -/
def State.swCommit (s : State) (who : Initiator) (cls : Nat) : RegRes :=
  let st := stampOf who
  if 0x2000 ≤ st ∨ (cls = 3 ∧ s.traceDebugOpen = false) then { s := s, cause := some 10 }
  else if s.on R.TRC_CTRL.EN = false then { s := s.swClear st }
  else match cls with
    | 0 => { s := (s.swAlarm st).swClear st }
    | 1 => if s.on R.TRC_CLASS_EN.EVENT then { s := (s.swRec st 1).swClear st } else { s := s }
    | 2 => if s.on R.TRC_CLASS_EN.TRACE then { s := (s.swRec st 2).swClear st } else { s := s }
    | _ => if s.on R.TRC_CLASS_EN.DEBUG then { s := (s.swRec st 3).swClear st } else { s := s }

/-! ### Arms -/

/-- ALARM_WINDOW_CLOSE (R615). -/
def execAlarmWindowClose (unit page code aux : Nat) (s : State) : Host.Outcome State Fault Refusal :=
  s.powered (s.windowClose unit page code aux)

/-- GAP (R619, R621). -/
def execGap (s : State) : Host.Outcome State Fault Refusal :=
  s.powered (let s1 := s.gapOwn
             s1.gapLost s1.trace.lost)

/-- TRACE_BUFFER_WRITE (R620). -/
def execTraceBufferWrite (s : State) : Host.Outcome State Fault Refusal := s.powered s.bufferWrite

end Sys2Proof.Machine
end

