-- ==== Sys2Proof/Machine/RingCycle.lean ====
section
/-! DEFINITION. The ring cycle in motion (04): the boundary, the through frame as the master launches it and
as a unit handles a copy, static frames, and the mode change. -/

namespace Sys2Proof.Machine

/-! ### Gateway writes (01 R28, 04 R159, 06 R232) -/

/-- The gateway writes one point of an accepted frame. -/
def State.gwWrite (s : State) (src dest : Nat) (p : Half) (det : Nat) : State :=
  if dest / 4096 = s.ring.addr ∧ s.ring.addr ≠ 0 then (s.writeLocal (.gateway src) (dest % 4096) p det).1
  else (s.writeLive (.gateway src) dest p det).1

/-- Write the points that these receive-map entries take from a list of points. -/
def State.gwEntries (s : State) (pts : List Half) (det : Nat) : List RxEntry → State
  | [] => s
  | r :: t =>
    match pts[r.pos]? with
    | some p => (s.gwWrite r.src r.dest p det).gwEntries pts det t
    | none => s.gwEntries pts det t

/-- `n` points, big-endian, at offset o of a frame. -/
def pointsAt (l : List Byte) (o n : Nat) : List Half :=
  (List.range n).map fun i => BitVec.ofNat 16 (be l (o + 2 * i) 2)

/-- An update of member w's through field, from the through frame or its mirror (R142, 06 R232); the SUB of a KIND 2
source entry has no meaning. -/
def State.fieldUpdate (s : State) (w : Nat) (pts : List Half) (det : Nat) : State :=
  let s1 := s.gwEntries pts det (s.ring.active.rx.filter fun r => r.thru && r.src == w)
  let s2 : State := { s1 with ring := { s1.ring with thruUpd := s1.ring.thruUpd ++ [w] } }
  s2.postAll .gateway (s2.pour.sources.filter fun e => e.kind == 2 && e.id == w)

/-! ### The mode change at the master (04 R162 to R167) -/

/-- RING_MC_CTRL with START = 1 (R162). On a unit that is not cycle master the write has no effect; whether NEXT_SET
still takes its bits the spec does not say: the model stores them, as for any RW field (DESIGN CHOICE, log 34). -/
def State.mcRequest (s : State) (n : Nat) : State :=
  let s1 := s.wr R.RING_MC_CTRL.NEXT_SET n
  let refuse (t : State) (r : Nat) : State :=
    if t.ring.mcRunning || t.ring.mcStart then t.wr R.RING_MC_STATUS.REASON r
    else (t.wr R.RING_MC_STATUS.STATE 3).wr R.RING_MC_STATUS.REASON r
  if !s.ring.cycleMaster then s1
  else if s1.setState n ≠ 2 then refuse s1 5
  else if s1.ring.mcRunning || s1.ring.mcStart then refuse s1 6
  else if s1.on R.RING_FAULT.ACTIVE then refuse s1 4
  else if (s1.ring.toAnnounce.any fun a => decide (a.op ≤ 2)) || !s1.ring.parked.isEmpty then refuse s1 6
  else ({ s1 with ring := { s1.ring with mcStart := true, mcNext := n } }).wr R.RING_MC_STATUS.REASON 0

/-- A write of RING_MC_CTRL. -/
def State.mcCtrl (s : State) (v : Word) : State :=
  if getBits v 31 31 = 1 then s.mcRequest (getBits v 2 0) else s.wr R.RING_MC_CTRL.NEXT_SET (getBits v 2 0)

/-- The countdown as the next header carries it: a waiting start begins with COUNT = 3 (R163). -/
def State.mcBegin (s : State) : State :=
  if s.ring.mcStart then
    ({ s with ring := { s.ring with mcStart := false, mcRunning := true, mcCount := 3, mcReturned := false
                                    mcOk := false, mcFault := false, mcZero := false } } : State).wr
      R.RING_MC_STATUS.STATE 1
  else s

/-- GO and ABORT of the header that the master is about to send (R165, R167). -/
def State.mcFlags (s : State) : Bool × Bool :=
  if !s.ring.mcRunning then (false, false)
  else if s.ring.mcFault then (false, true)
  else if s.ring.mcCount = 0 then (s.ring.mcOk, !s.ring.mcOk)
  else (false, false)

/-- What sending that header does to the master's own countdown (R165 to R167). When STATE becomes DONE the spec does
not say: it is DONE from the launch of the GO frame (DESIGN CHOICE, log 34). -/
def State.mcSent (s : State) (go abort : Bool) : State :=
  if go then
    ({ s with ring := { s.ring with mcActivate := some s.ring.mcNext, mcZero := true } } : State).wr R.RING_MC_STATUS.STATE 2
  else if abort then
    let r := if s.ring.mcFault then 4 else if s.ring.mcReturned then s.ring.mcReason else 3
    ({ s with ring := { s.ring with mcRunning := false } } : State).wr R.RING_MC_STATUS.STATE 3 |>.wr R.RING_MC_STATUS.REASON r
  else s

/-- The first valid returned copy of the COUNT = 1 frame is evaluated (R165). -/
def State.mcEvaluate (s : State) (l : List Byte) : State :=
  let b := be l 16 1
  if bit b 7 = true ∧ b / 4 % 4 = 1 ∧ s.ring.mcRunning = true ∧ s.ring.mcReturned = false then
    let a := be l 26 2
    let n := be l 28 2 % 2048 - 1
    let nack := bit a 15
    let ok := !nack && a % 2048 == n
    let r := if ok then 0 else if nack then 2 else 1
    ((({ s with ring := { s.ring with mcReturned := true, mcOk := ok, mcReason := r } } : State).wr
      R.RING_MC_STATUS.ACKS (a % 2048)).wr R.RING_MC_STATUS.EXPECTED n).wr R.RING_MC_STATUS.REASON r
  else s

/-! ### Launching the through frame (04 R137 to R139, R170) -/

/-- Address of the time master as the header names it. -/
def State.timeMasterAddr (s : State) : Nat :=
  let a := s.ring.active
  if s.ring.timeMaster || !s.ring.haveActive then s.ring.addr else if a.timeMaster = 0 then a.master else a.timeMaster

/-- Bytes 16 to 63 of the through frame, with an announcement. -/
def State.thruHeader (s : State) (go abort : Bool) (x : Option Announce) : List Byte :=
  let r := s.ring
  let b16 := if r.mcRunning then 128 + r.mcNext % 8 * 16 + r.mcCount % 4 * 4 + ofBool go * 2 + ofBool abort else 0
  let next := if r.mcRunning then le (r.sets.get [] r.mcNext) 0x10 4 else 0
  let y := x.getD ⟨0, 0, 0, 0, 0⟩
  beBytes 1 b16 ++ beBytes 1 (if r.haveActive then s.rd R.RING_CYC_STATUS.ACTIVE_SET else 0) ++
  beBytes 4 (if r.haveActive then r.active.common else 0) ++ beBytes 4 next ++ beBytes 2 0 ++
  beBytes 2 s.unitCount ++ beBytes 1 y.op ++ beBytes 1 0 ++ beBytes 2 y.a ++ beBytes 2 y.b ++ beBytes 2 y.cycle ++
  beBytes 2 s.timeMasterAddr ++ beBytes 8 s.time.sec ++ beBytes 4 s.time.ns ++ beBytes 2 (s.time.sub / 2 ^ 24) ++
  beBytes 2 (if r.active.auth then s.epoch else 0) ++ beBytes 1 r.active.through.length ++ beBytes 1 0 ++
  beBytes 2 (if r.active.auth then r.addr else 0) ++ beBytes 4 0

/-- The member fields as launched (R139). The unit of DATA_LEN the spec does not state: the model counts bytes, twice
FIELD_POINTS (DESIGN CHOICE, log 37). -/
def TableSet.emptyFields (t : TableSet) : List Byte :=
  t.through.flatMap fun e => beBytes 2 e.member ++ beBytes 2 (2 * e.points) ++
    (List.range e.points).flatMap fun _ => [0xF0, 0x00]

/-- The master launches the through frame of the cycle that begins (R137, R138, R163) (DEDUCED, log 33). -/
def State.launch (s : State) : State :=
  let c := s.rd R.RING_CYC_NUM.CYCLE
  let s1 := s.splicesDue.clearDue.mcBegin
  let (go, abort) := s1.mcFlags
  let x := s1.nextAnnounce
  let y := x.map fun a => a.stamped c
  let rest := s1.thruHeader go abort y ++ s1.ring.active.emptyFields
  let n := s1.withTag (16 + rest.length)
  let units := s1.rd R.RING_ENUM_STATUS.UNITS
  let s2 := s1.sendBoth fun dir =>
    s1.sealed (fHeader 1 s1.ring.active.auth dir units s1.ring.addr n 0 c ++ rest)
  let s3 := match x, y with
    | some a, some b => (s2.carried a b).actOn b.op b.a b.b b.cycle
    | _, _ => s2
  s3.mcSent go abort

/-! ### The end of a cycle (03 R91, R96, 04 R148, R154) -/

/-- The k-th slot of its owner, for every entry of SLOTS. -/
def TableSet.slotIds (t : TableSet) : List (SlotEntry × Nat) :=
  let rec go : List SlotEntry → List SlotEntry → List (SlotEntry × Nat)
    | _, [] => []
    | seen, e :: r => (e, (seen.filter fun x => x.owner == e.owner).length) :: go (seen ++ [e]) r
  go [] t.slots

/-- One expected frame of the cycle that ends is counted when a copy, or both, were missed (03 R96); the through frame
comes from whichever unit launches it. -/
def State.countFrame (s : State) (id : FrameId) : State :=
  let same (x : FrameId) : Bool := x.kind == id.kind && x.cycle == id.cycle && (id.kind == 1 || x == id)
  if !s.ring.accepted.any same then (s.bump R.RING_COPY_CNT.LOST_BOTH).statusCount 0x021
  else if !s.ring.twice.any same && s.up .e && s.up .w && !s.on R.RING_FAULT.ACTIVE then
    (s.bump R.RING_COPY_CNT.LOST_ONE).statusCount 0x020
  else s

/-- Every expected frame of the cycle that ends. The spec does not say whether an allocated dynamic frame is an
expected frame: the model counts the through frame and the frames of SLOTS (DESIGN CHOICE, log 37). -/
def State.countCopies (s : State) : State :=
  let c := s.rd R.RING_CYC_NUM.CYCLE
  let st := (s.ring.active.slotIds.filter fun e => e.1.owner != s.ring.addr && e.1.active c).map fun e =>
    (⟨e.1.owner, 2, e.2, c⟩ : FrameId)
  let th := if s.ring.cycleMaster then [] else [(⟨0, 1, 0, c⟩ : FrameId)]
  (th ++ st).foldl State.countFrame s

/-- Self-silence at a boundary (04 R148): a unit that the holdover limit silenced needs a reference again (05 R191). -/
def State.silenceStep (s : State) : State :=
  let q := s.offsetNow
  if s.on R.RING_CYC_STATUS.SILENCED then
    if s.withinQuarter q = true ∧ (s.ring.silentHold = false ∨ s.servo ≠ .holdover) then
      let n := s.ring.goodCycles + 1
      let s1 := { s with ring := { s.ring with goodCycles := if 4 ≤ n then 0 else n
                                               silentHold := s.ring.silentHold && decide (n < 4) } }
      if 4 ≤ n then (s1.wr R.RING_CYC_STATUS.SILENCED 0).event 17 2 0 0 else s1
    else { s with ring := { s.ring with goodCycles := 0 } }
  else if s.beyondHalf q then s.enterSilence 0
  else s

/-- A port's counts of one cycle. -/
def State.portCycle (s : State) (p : RingPort) : State :=
  let v := s.port p
  let n := if s.on (fldKnown p) = false ∧ 4 ≤ s.link p then v.unknownCycles + 1 else 0
  s.setPort p { v with badCrc := 0, unknownCycles := n }

/-- Outstanding bridge accesses have waited one more cycle (03 R124). -/
def State.bridgeAge (s : State) : State :=
  { s with ring := { s.ring with bridge := s.ring.bridge.map fun b => { b with age := b.age + 1 } } }

/-- The cycle that ends. -/
def State.endCycle (s : State) : State :=
  let s1 := (s.countCopies.silenceStep.countHoldover.portCycle .e).portCycle .w
  let s2 := s1.bridgeAge
  if s2.imgEn then s2.beatCycle else s2

/-- A countdown ends with the cycle of its COUNT = 0 frame: activation, or a unit that acknowledged and
missed the frame is stranded (R166, R168). -/
def State.mcBoundary (s : State) : State :=
  let ended := s.ring.mcRunning && s.ring.mcCount == 0
  let lost := ended && s.ring.mcAcked && !s.ring.mcZero
  let n := s.ring.mcActivate
  let s1 := { s with ring := { s.ring with mcRunning := s.ring.mcRunning && !ended
                                           mcCount := s.ring.mcCount - 1, mcActivate := none
                                           mcAcked := s.ring.mcAcked && !ended, mcZero := s.ring.mcZero && !ended } }
  let s2 := { s1 with ring := { s1.ring with mcAdopt := false } }
  match n with
  | some k => s2.activateSet k s.ring.mcAdopt
  | none =>
    if lost then ({ s2 with ring := { s2.ring with talking := false } } : State).wr R.RING_CYC_STATUS.STRANDED 1 else s2

/-! ### Roles at a boundary (05 R188, R190) -/

/-- Rank of unit u: 0 the table set's master, 1 to 3 a backup, 4 any other unit. -/
def TableSet.rank (t : TableSet) (u : Nat) : Nat :=
  if u = t.master then 0
  else match (t.backups.zip [1, 2, 3]).find? fun e => e.1 == u && e.1 != 0 with
    | some e => e.2
    | none => 4

/-- Roles given up, and a backup or the cycle master that takes over (R188, R190). A role is taken only with both
link-delay estimates known (01 R26, 03 R91); a stranded unit transmits nothing and takes none (04 R168), and one that
has returned retakes none before the next cold start (05 R190; DEDUCED, log 33). -/
def State.roleStep (s : State) : State :=
  let a := s.ring.active
  let n := s.rd R.TB_STATUS.SILENT
  if s.ring.yieldRoles then
    let s1 := s.endTimeMaster
    { s1 with ring := { s1.ring with cycleMaster := false, yieldRoles := false, mcRunning := false, mcStart := false
                                     returned := true } }
  else if !s.ring.haveActive || s.ring.addr == 0 then s
  else if !s.bothKnown then s
  else if s.ring.cycleMaster then
    (if !s.ring.timeMaster && (s.namedTimeMaster || decide (3 ≤ n)) then s.becomeTimeMaster else s)
  else
    let r := a.rank s.ring.addr
    if 1 ≤ r ∧ r ≤ 3 ∧ 2 + r ≤ n ∧ s.on R.RING_CYC_STATUS.STRANDED = false ∧ s.ring.returned = false then
      ({ s with ring := { s.ring with cycleMaster := true } } : State).becomeTimeMaster
    else s

/-! ### Allocation of the dynamic segment (04 R150 to R154) -/

/-- The allocation of R152: unit, start and length of every entry that is allocated. -/
def TableSet.allocate (t : TableSet) (req : Nat → Nat) : List DynEntry → Nat → Option (Nat × Nat × Nat) → List (Nat × Nat × Nat)
  | [], _, _ => []
  | e :: rest, cursor, prev =>
    let r := min (req e.unit) e.max
    if r = 0 then t.allocate req rest cursor prev
    else
      let start := match prev with
        | none => cursor
        | some (ps, pr, ph) => max cursor (ps + pr + (t.hMax * (e.hops - ph) + 4095) / 4096)
      if t.dynMinislots < start + r then []
      else (e.unit, start, r) :: t.allocate req rest (start + r) (some (start, r, e.hops))

/-- The request that this unit knows of unit u for the cycle that begins. -/
def State.requestOf (s : State) (u : Nat) : Nat :=
  match s.ring.requests.find? fun e => e.1 == u with
  | some e => e.2
  | none => 0

/-- A DYN_ORDER entry whose FSEQ 0 frame was due in the cycle that ended and was not accepted (R154). -/
def State.missedRequest (s : State) (c : Nat) : Bool :=
  let t := s.ring.active
  t.dynOrder.any fun e => e.unit != s.ring.addr &&
    (match (t.ownSlots e.unit).head? with
      | some x => x.active c && !(s.ring.requests.any fun r => r.1 == e.unit)
      | none => false)

/-- The allocation for the cycle that begins; `c` is the cycle that ended. With a request missing (R154) the unit
knows no allocation of the others: it sends nothing and receives whatever comes. A cycle in which the own request
loses to the break is counted in either case (R153). -/
def State.allocateOwn (s : State) (c : Nat) : State :=
  let t := s.ring.active
  let all := t.allocate s.requestOf t.dynOrder 0 none
  let mine := all.find? fun e => e.1 == s.ring.addr
  let missed := s.missedRequest c
  let r := { s.ring with requests := [], alloc := if missed then [] else all
                         minislot := if missed then none else mine.map (·.2) }
  let s0 : State := { s with ring := r }
  let s1 := if missed then s0.bump R.RING_DYN_STATUS.NOALLOC else s0
  if mine.isNone && s.requestOf s.ring.addr != 0 && s.ring.addr != 0 then s1.bump R.RING_DYN_STATUS.DEFER else s1

/-! ### The boundary (04 R129, R130) -/

/-- What a cycle knows only of itself starts again. -/
def State.freshCycle (s : State) : State :=
  { s with ring := { s.ring with accepted := [], twice := [], thruSeen := false, thetaOther := none, thruUpd := []
                                 staticRead := none, fieldRead := none }
           time := { s.time with firedCycle := 0 } }

/-- Other blocks' work at a boundary: bound stages (10 R346), gate lists (13), counters of BCLR nodes (06 R208). -/
def State.blocksBoundary (s : State) : State := s.stagesSubst.gclBoundary.boundaryClear

/-- Does the unit hold a set with AUTH = 1 as VALID or ACTIVE (18 R607)? -/
def State.authSet (s : State) : Bool :=
  (List.range 8).any fun n => (s.setState n == 2 || s.setState n == 4) && (parseSet (s.ring.sets.get [] n)).auth

/-- KEY_EPOCH of the cycle that begins (18 R606, R607): 0 without AUTH, 1 in the first cycle with it; the master
moves to the next epoch after 2³¹ cycles under one. The gateway asks for a key that it lacks, and after a move for the
key of the epoch after it. -/
def State.epochStep (s : State) : State :=
  let old := s.epoch
  let full := s.ring.cycleMaster && decide (2 ^ 31 ≤ s.ring.epochCycles) && decide (old < 65535)
  let e := if s.ring.active.auth then (if old = 0 then 1 else if full then old + 1 else old) else 0
  let n := if e = old then s.ring.epochCycles + 1 else 0
  let s1 := ({ s with ring := { s.ring with epochCycles := n } } : State).wr R.RING_AUTH_STATUS.EPOCH e
  if e ≠ old then s1.fetchKeys e else if s1.authSet then s1.askKeys (max 1 e) else s1

/-- KEY_EPOCH of an accepted through frame: a move to another epoch asks for its keys, and starts its cycles (18
R606). -/
def State.followEpoch (s : State) (e : Nat) : State :=
  if e = s.epoch then s
  else (({ s with ring := { s.ring with epochCycles := 0 } } : State).wr R.RING_AUTH_STATUS.EPOCH e).fetchKeys e

/-- The local time at which the cycle begins, and at which the next one will (R129): the end of the cycle before it,
or now for the first one. -/
def State.cycleTimes (s : State) (first : Bool) : State :=
  let b := if first then s.now else s.time.cycNext
  { s with time := { s.time with cycStart := b, cycNext := b + s.cycleTicks * (2 * halfTick) } }

/-- May a cycle begin in this tick: the unit's local time has reached the end of the present one (R129), or the
master of an enumerated ring begins the first one? -/
def State.boundaryDue (s : State) : Bool :=
  if s.cycling then s.reached s.time.cycNext else s.ring.cycleMaster && s.rd R.RING_ENUM_STATUS.STATE == 5

/-- CYCLE_BOUNDARY: hold rules first (02 R72) and a requested freeze, which takes the points as they then stand (02
R66); then what takes effect at the boundary, the allocation, and at the cycle master the launch (DEDUCED, log 39). -/
def State.boundary (s : State) : State :=
  let first := !s.cycling
  if !s.boundaryDue then s
  else
    let c0 := s.rd R.RING_CYC_NUM.CYCLE
    let c := if first then c0 else (c0 + 1) % 2 ^ 32
    let s1 := if first then s else s.endCycle
    let s2 := ((s1.holdAll.snapFreeze c).mcBoundary.roleStep).cycleTimes first
    let s3 := ((s2.wr R.RING_CYC_NUM.CYCLE c).commitPoint.wr R.RING_CYC_STATUS.SEG 0).masterEffects c
    let s4 := (s3.linkEffects c).allocateOwn c0
    let s5 := s4.freshCycle.blocksBoundary.epochStep
    let s6 := if s5.ring.cycleMaster && s5.cycling then s5.launch else s5
    let s7 := (s6.parkedStep .e).parkedStep .w
    (s7.postAll .gateway (s7.pour.sources.filter fun x => x.kind == 4)).syncRing

/-! ### A through-frame copy at a unit (04 R138 to R143, R164 to R168; 05 R180 to R182, R190) -/

/-- A member field of a through frame: offset of its field header, member, WRITTEN, points. -/
structure Field where
  off : Nat
  member : Nat
  written : Bool
  points : Nat

/-- The member fields of a through frame (R139). -/
def fieldsFrom (l : List Byte) : Nat → Nat → List Field
  | 0, _ => []
  | n + 1, o =>
    let w := be l o 2
    let p := be l (o + 2) 2 / 2
    { off := o, member := w % 2048, written := bit w 15, points := p } :: fieldsFrom l n (o + 4 + 2 * p)

/-- The fields of a frame. -/
def fieldsOf (l : List Byte) : List Field := fieldsFrom l (min 64 (be l 56 1)) 64

/-- The frame's header names the active set of this unit (R114). -/
def State.sameSet (s : State) (l : List Byte) : Bool :=
  s.ring.haveActive && be l 17 1 % 8 == s.rd R.RING_CYC_STATUS.ACTIVE_SET && be l 18 4 == s.ring.active.common

/-- A point as this unit puts it into a frame (02 R76, 04 R140). -/
def State.pointOut (s : State) (a : Nat) : Half :=
  s.sentPt a (if a / 4096 = s.ring.addr then s.localPt (a % 4096) else s.liveRead a)

/-- The ECC of what the gateway reads for a point; a read that receives an error response gives 0 (15 R510). -/
def State.outCheck (s : State) (a : Nat) : State × Bool :=
  if a / 4096 = s.ring.addr then s.ptCheck (a % 4096) else s.liveCheck a 1

/-- The gateway reads points for a frame, with their ECC (02 R64, 15 R508 to R510). -/
def State.pointsOut (s : State) : List Nat → State × List Half
  | [] => (s, [])
  | a :: r =>
    let c := s.outCheck a
    let y := c.1.pointsOut r
    (y.1, (if c.2 then c.1.pointOut a else 0) :: y.2)

/-- The through field's points, read once per cycle (R140). -/
def State.readField (s : State) : State :=
  match s.ring.fieldRead with
  | some _ => s
  | none =>
    let x := s.pointsOut s.ring.active.txField
    { x.1 with ring := { x.1.ring with fieldRead := some x.2 } }

/-- The copy with this member's field written (R140). -/
def State.writeField (s : State) (l : List Byte) : List Byte :=
  match (fieldsOf l).find? fun f => f.member == s.ring.addr with
  | none => l
  | some f =>
    let pts := (s.ring.fieldRead.getD []).take f.points
    putAt (putAt l f.off (beBytes 2 (0x8000 + f.member))) (f.off + 4) (pts.flatMap fun p => beBytes 2 p.toNat)

/-- Does this unit acknowledge the countdown of a header (R164, 18 R607)? -/
def State.acks (s : State) (l : List Byte) : Bool :=
  let n := be l 16 1 / 16 % 8
  let b := s.ring.sets.get [] n
  let t := parseSet b
  let first := if s.epoch = 0 then 1 else s.epoch
  s.setState n == 2 && le b 0x10 4 == be l 22 4 && (!t.auth || s.holdsKey first)

/-- The copy with the acknowledge field updated (R164). -/
def State.ackCopy (s : State) (l : List Byte) : List Byte :=
  if bit (be l 16 1) 7 then
    let a := be l 26 2
    let v := if s.acks l then a / 2048 * 2048 + (a + 1) % 2048 else (if bit a 15 then a else a + 32768)
    putAt l 26 (beBytes 2 v)
  else l

/-- A changed copy gets a new tag, complemented where the incoming tag was bad, and a new CRC, complemented where
the incoming CRC was (R135, R171). -/
def State.resealThru (s : State) (orig l : List Byte) : List Byte :=
  let b := bodyOf l
  if fAuth orig then
    let core := putAt (b.take (b.length - 8)) 58 (beBytes 2 s.ring.addr)
    let good := s.authentic orig
    let tag := (tagOf (s.heldKey (be l 54 2)) s.ring.addr (be l 54 2) core).map fun x => if good then x else ~~~x
    reseal orig (core ++ tag)
  else reseal orig b

/-- Does this unit write its field into a through-frame copy of its active set (R140)? Not in self-silence, nor with
an estimate unknown, nor stranded (R168). -/
def State.writesField (s : State) (m : List Byte) : Bool :=
  memberOf s.ring.active.through s.ring.addr && s.ring.addr != 0 && s.sameSet m && s.cycling &&
  s.rd R.RING_ENUM_STATUS.STATE == 5 && !s.on R.RING_CYC_STATUS.SILENCED && !s.on R.RING_CYC_STATUS.STRANDED && s.bothKnown

/-- The copy as this unit sends it on; it is cut where its port has gone DOWN by now (03 R94). -/
def State.passThru (s : State) (p : RingPort) (orig m : List Byte) : State :=
  let s1 := if s.writesField m then s.readField else s
  let w := s1.ackCopy (if s.writesField m then s1.writeField m else m)
  s1.forward p (if w == m then m else s1.resealThru orig w)

/-- θ of a through-frame copy, in 2⁻¹⁶ ns (05 R180): `t` the arrival of byte 0, resolved to 0.25 ns. -/
def thetaOf (l : List Byte) (t : Nat) : Int :=
  ((t * quarterNs : Nat) : Int) - ((originAt l 40 + fAcc l * 4096 : Nat) : Int)

/-- The measurement of a valid copy (05 R180 to R182): the copy over fewer hops, valid, is the one, even where its port
allows no measurement. -/
def State.measureThru (s : State) (p : RingPort) (l : List Byte) (t : Nat) : State :=
  if s.rd R.TB_CTRL.REF ≠ 0 ∨ s.ring.timeMaster = true ∨ s.ring.cycleMaster = true then s
  else
    let east := decide (s.hops ≤ s.rd R.RING_ENUM_STATUS.UNITS - s.hops)
    if (fDir l == 0) == east then
      let s1 : State := { s with ring := { s.ring with thetaOther := none } }
      if s1.on (fldKnown p) then s1.measure (thetaOf l t) else s1
    else if s.on (fldKnown p) = false then s
    else if s.ring.accepted.any (·.kind == 1) && s.ring.thetaOther.isNone then s
    else { s with ring := { s.ring with thetaOther := some (thetaOf l t) } }

/-- Field points that a valid copy gives (R141): the eastbound copy for members of smaller HOPS, the
westbound one for the others; the cycle master takes the first copy that returns. -/
def State.takeFields (s : State) (l : List Byte) : List Field → State
  | [] => s
  | f :: r =>
    let east := decide (s.ring.active.hopsOf f.member < s.hops)
    let mine := s.ring.cycleMaster || (fDir l == 0) == east
    if f.written && mine && !s.ring.thruUpd.contains f.member && f.member != s.ring.addr then
      (s.fieldUpdate f.member (pointsAt l (f.off + 4) f.points) 0).takeFields l r
    else s.takeFields l r

/-- The countdown as the header of a valid copy states it (R163 to R166). -/
def State.mcFollow (s : State) (l : List Byte) : State :=
  let b := be l 16 1
  if bit b 7 then
    let n := b / 16 % 8
    let k := b / 4 % 4
    let go := bit b 1 && k == 0
    let r := { s.ring with mcNext := n, mcCount := k, mcRunning := !bit b 0, mcAcked := s.ring.mcAcked || s.acks l }
    if go then
      (if s.acks l then { s with ring := { r with mcZero := true, mcActivate := some n } } else { s with ring := { r with mcZero := true } })
    else if bit b 0 then { s with ring := { r with mcAcked := false, mcZero := false, mcActivate := none } }
    else { s with ring := r }
  else s

/-- A unit that is stranded, or that has joined, activates the set that a header names: also its own active set,
where it was stranded by missing an ABORT (R168, R114). -/
def State.adoptSet (s : State) (l : List Byte) : State :=
  let n := be l 17 1 % 8
  let st := s.setState n
  if (s.sameSet l && !s.on R.RING_CYC_STATUS.STRANDED) || s.rd R.RING_ENUM_STATUS.STATE != 5 || be l 18 4 == 0 then s
  else if (st == 2 || st == 4) && le (s.ring.sets.get [] n) 0x10 4 == be l 18 4 && s.ring.mcActivate.isNone then
    { s with ring := { s.ring with mcActivate := some n, mcAdopt := true } }
  else s

/-- The local time of this unit's cycle follows the first through frame that it accepts, whose cycle the master began
at ORIGIN_TIME (R129). -/
def State.joinCycle (s : State) (l : List Byte) : State :=
  let b := originAt l 40 * 2 ^ 24
  { s with time := { s.time with cycStart := b, cycNext := b + s.cycleTicks * (2 * halfTick) } }

/-- What the first valid copy of a cycle's through frame does (R138, R163, R168; 03 R104; 05 R186). A unit of an island
without a running cycle that hears the master again resumes its static frames by R114 (03 R120). -/
def State.thruFirst (s : State) (l : List Byte) : State :=
  let st := s.rd R.RING_ENUM_STATUS.STATE
  let s1 := if st ≤ 3 then s.wr R.RING_ENUM_STATUS.STATE 6 else s
  let s2 := s1.wr R.RING_CYC_NUM.CYCLE (fCycle l)
  let s3 := if s2.cycling then s2 else (s2.wr R.RING_CYC_STATUS.SEG 0).joinCycle l
  let s4 := ({ s3 with ring := { s3.ring with thruSeen := true, hdrOk := s3.sameSet l
                                              returned := s3.ring.returned || decide (st ≤ 3)
                                              talking := s3.ring.talking && !s3.orphan } } : State).followEpoch (be l 54 2)
  let s5 := (s4.mcFollow l).adoptSet l
  let s6 := s5.actOn (be l 30 1) (be l 32 2 % 2048) (be l 34 2 % 2048) (be l 36 2)
  let s7 := if s6.ring.timeMaster && be l 38 2 % 2048 != s6.ring.addr then
      { s6.endTimeMaster with ring := { s6.endTimeMaster.ring with returned := true } }
    else s6
  if s7.rd R.TB_CTRL.REF = 0 then s7.sawReference else s7

/-- A valid copy at a unit that does not launch (R95, R141): a copy with the source, cycle and FSEQ of one that was
accepted is its duplicate. -/
def State.thruValid (s : State) (p : RingPort) (l : List Byte) (t : Nat) : State :=
  let id : FrameId := ⟨fSrc l, 1, fSeq l, fCycle l⟩
  let seen := s.ring.accepted.contains id
  let s1 := if seen then s else s.thruFirst l
  let s2 := (s1.measureThru p l t).takeFields l (fieldsOf l)
  if seen then { s2 with ring := { s2.ring with twice := s2.ring.twice ++ [id] } }
  else { s2 with ring := { s2.ring with accepted := s2.ring.accepted ++ [id] } }

/-- A copy of the master's own frame has returned: the first valid one gives the countdown's result and the fields
(R141, R165; 03 R93). -/
def State.thruBack (s : State) (valid : Bool) (l : List Byte) : State :=
  if !s.ring.cycleMaster || !valid || s.ring.thruSeen then s
  else
    let s1 := s.mcEvaluate l
    ({ s1 with ring := { s1.ring with thruSeen := true } } : State).takeFields l (fieldsOf l)

/-- A PARKED port of a joining unit, or of an island without a running cycle, goes UP with the first frame after its
splice, and so does the other parked port of a unit that joins between two links: the first copy runs on to its
neighbour (03 R112, R113, R120). -/
def State.openParked (s : State) (p : RingPort) : State :=
  let ready (q : RingPort) : Bool := s.link q == 6 && s.on (fldKnown q) && !s.on (fldMismatch q)
  let joins := !s.orphan && (!s.cycling || s.rd R.RING_ENUM_STATUS.STATE == 6)
  if ready p && (joins || s.orphan) then
    (if joins && ready (other p) then (s.setLink p 5).setLink (other p) 5 else s.setLink p 5)
  else s

/-- Another launcher's valid frame at a unit that launches (05 R190): the lower rank is better. For equal ranks, of two
units that are neither master nor backup of the active set, the spec gives no outcome: the unit keeps its roles,
discards the frame and raises the ALARM (DESIGN CHOICE, log 57). -/
def State.rivalFrame (s : State) (p : RingPort) (m : List Byte) : State :=
  let a := s.ring.active
  if a.rank (fSrc m) < a.rank s.ring.addr then
    ({ s with ring := { s.ring with yieldRoles := true } } : State).forward p m
  else s.alarm 17 4 (fSrc m) (a.rank (fSrc m))

/-- THROUGH_FRAME_RECEIVE. The copy is judged, and changed, with the keys held as it passes; keys that it makes the
gateway ask for come after it (18 R606, R607). -/
def State.thruArrive (s0 : State) (p : RingPort) (l : List Byte) (t : Nat) : State :=
  let s := s0.openParked p
  if !s.up p then s0
  else
    let m := s.arrived p l
    let (s1, valid) := s.checkCopy p 1 l
    let s2 :=
      if fSrc l = s.ring.addr ∧ s.ring.addr ≠ 0 then s1.thruBack valid m
      else if s.ring.cycleMaster && valid then s1.rivalFrame p m
      else
        let s3 := (s1.passThru p l m).cutIfDown p l
        if valid then s3.thruValid p m t else s3
    (s2.askFor l).syncRing

/-! ### Static frames (04 R144 to R149, 01 R27) -/

/-- The entry of this unit's k-th slot when it transmits in the present cycle. -/
def State.dueSlot (s : State) (k : Nat) : Option SlotEntry :=
  ((s.ring.active.ownSlots s.ring.addr)[k]?).filter fun e => e.active (s.rd R.RING_CYC_NUM.CYCLE) && s.maySend

/-- The mirrored points that this unit appends (R142). -/
def State.mirrorList (s : State) : List Nat :=
  if s.ring.active.mirrorPoints s.ring.addr = 0 then [] else s.ring.active.txField

/-- STATIC_FRAME_READ (01 R27, 04 R142). -/
def State.staticReadStep (s : State) (k : Nat) : State :=
  match s.dueSlot k with
  | none => s
  | some _ =>
    let x := s.pointsOut ((s.ring.active.txFrames.getD k []) ++ s.mirrorList)
    { x.1 with ring := { x.1.ring with staticRead := some (k, x.2) } }

/-- Wire length of a message. -/
def DynMsg.len (m : DynMsg) : Nat := 8 + m.body.length

/-- The waiting messages that fit into `n` bytes, in order. -/
def fitMsgs : Nat → List DynMsg → List DynMsg
  | _, [] => []
  | n, m :: t => if m.len ≤ n then m :: fitMsgs (n - m.len) t else []

/-- Bytes of messages that a dynamic frame of r minislots holds (R151). -/
def State.dynBytes (s : State) (r : Nat) : Nat :=
  let t := s.ring.active
  min 1600 ((r * 20480 - t.ifg - t.guard) / t.wire 1 - (if t.auth then 8 else 0)) - 28

/-- Minislots of a dynamic frame with `n` bytes of messages (R151). -/
def State.dynSlots (s : State) (n : Nat) : Nat :=
  let t := s.ring.active
  if n = 0 then 0 else (t.wire (28 + n + (if t.auth then 8 else 0)) + t.ifg + t.guard + 20479) / 20480

/-- What a dynamic frame of `n` bytes takes: the messages that fit, and behind them, where none is left, copies at port 5
of the switch (14 R487). -/
def State.frameLoad (s : State) (n : Nat) : List DynMsg × List (Nat × QEntry) :=
  let go := fitMsgs n s.ring.msgs
  (go, if go.length = s.ring.msgs.length then s.frameCopies (n - (go.map DynMsg.len).sum) else [])

/-- Bytes of its messages. -/
def State.loadBytes (s : State) (x : List DynMsg × List (Nat × QEntry)) : Nat :=
  (x.1.map DynMsg.len).sum + (x.2.map fun e => (s.copyMsg e.2).len).sum

/-- Bytes of messages that fit a frame of `n` bytes, the TRACE message last (19 R620). -/
def State.dynLoad (s : State) (n : Nat) : Nat :=
  let m := s.loadBytes (s.frameLoad n)
  let k := s.traceCount (n - m)
  m + (if k = 0 then 0 else 8 + 32 * k)

/-- What still waits once the frame of `n` bytes that this cycle allocates has taken its messages and trace
records. -/
def State.afterFrame (s : State) (n : Nat) : State :=
  let x := s.frameLoad n
  let k := s.traceCount (n - s.loadBytes x)
  { s.takeCopies x.2 with ring := { s.ring with msgs := s.ring.msgs.drop x.1.length }
                          trace := { s.trace with queue := s.trace.queue.drop k } }

/-- The request for the next cycle (R151, R153): for the messages and records that no allocation stands for. -/
def State.dynRequest (s : State) : Nat :=
  let t := match s.ring.minislot with
    | some (_, r) => s.afterFrame (s.dynBytes r)
    | none => s
  let max := ((s.ring.active.dynOrder.find? fun e => e.unit == s.ring.addr).map (·.max)).getD 0
  min 1023 (s.dynSlots (t.dynLoad (s.dynBytes max)))

/-- STATIC_FRAME_SEND (R144, R145) (DEDUCED, log 37). What DYN_REQ holds in a frame with FSEQ other than 0 the spec
does not say: the model sends 0 (DESIGN CHOICE, log 37). -/
def State.staticSend (s : State) (k : Nat) : State :=
  match s.dueSlot k, s.ring.staticRead with
  | some e, some (k', pts) =>
    if k' ≠ k then s
    else
      let r := if k = 0 then s.dynRequest else 0
      let mir := min pts.length s.mirrorList.length
      let rest := beBytes 2 pts.length ++ beBytes 1 (r / 256) ++ beBytes 1 r ++ beBytes 2 e.slot ++ beBytes 2 mir ++
        pts.flatMap fun p => beBytes 2 p.toNat
      let n := s.withTag (16 + rest.length)
      let units := s.rd R.RING_ENUM_STATUS.UNITS
      let c := s.rd R.RING_CYC_NUM.CYCLE
      let s1 := s.sendBoth fun dir => s.sealed (fHeader 2 s.ring.active.auth dir units s.ring.addr n k c ++ rest)
      let q := if k = 0 then s1.ring.requests ++ [(s1.ring.addr, r)] else s1.ring.requests
      { s1 with ring := { s1.ring with staticRead := none, talking := true, requests := q
                                       request := if k = 0 then r else s1.ring.request } }
  | _, _ => s

/-- Deviation of R146 in 1/16 ns: `t` the arrival since the cycle's start in 0.25 ns, `slot` its start in
ticks, `acc` the path delay. -/
def deviation (t slot acc : Nat) : Int := ((t * 4 : Nat) : Int) - ((slot * 40 + acc : Nat) : Int)

/-- The points of an accepted static frame reach their destinations (R141, R142, R159; 06 R232). -/
def State.staticPoints (s : State) (l : List Byte) (det : Nat) : State :=
  let src := fSrc l
  let n := be l 16 2
  let pts := pointsAt l 24 n
  let mir := min n (be l 22 2)
  let s1 := (s.gwEntries pts det (s.ring.active.rx.filter fun r => !r.thru && r.src == src && r.frame == fSeq l))
  let s2 := s1.postSources .gateway 1 (fSeq l) src
  let mirrors := s2.ring.active.mirrorPoints src != 0
  if mirrors && !s2.ring.thruUpd.contains src then s2.fieldUpdate src (pts.drop (n - mir)) det else s2

/-- The deviation d lies in the edge band (R146). -/
def State.inEdge (s : State) (d : Int) : Bool := decide ((s.ring.active.guardTicks * 40 : Nat) < d.natAbs)

/-- The deviation d lies beyond 2G (R146). -/
def State.beyondEdge (s : State) (d : Int) : Bool := decide ((s.ring.active.guardTicks * 80 : Nat) < d.natAbs)

/-- Each copy is counted by its deviation, accepted or not (R146). -/
def State.countEdge (s : State) (d : Int) : State :=
  if s.beyondEdge d then (s.bump R.RING_EDGE_CNT.DISCARD).statusCount 0x023
  else if s.inEdge d then (s.bump R.RING_EDGE_CNT.EDGE).statusCount 0x022
  else s

/-- A static frame is accepted (R147): points, request, and the cycle master's measurement of a separate time master (05
R182). The rule speaks of that unit's static frame in the singular: of a time master that owns several slots each
accepted frame is measured (DESIGN CHOICE, log 57). -/
def State.staticAccept (s : State) (p : RingPort) (l : List Byte) (d : Int) : State :=
  let src := fSrc l
  let edge := s.inEdge d
  let s0 := s
  let req := be l 18 1 % 4 * 256 + be l 19 1
  let r := { s0.ring with accepted := s0.ring.accepted ++ [⟨src, 2, fSeq l, fCycle l⟩]
                          requests := if fSeq l = 0 then s0.ring.requests ++ [(src, req)] else s0.ring.requests }
  let s1 := ({ s0 with ring := r } : State).staticPoints l (if edge then 5 else 0)
  let a := s1.ring.active
  if s1.ring.cycleMaster && !s1.ring.timeMaster && a.timeMaster == src && s1.rd R.TB_CTRL.REF == 0 then
    (if s1.on (fldKnown p) then s1.measure (-d * 4096) else s1).sawReference
  else s1

/-- STATIC_FRAME_RECEIVE (R146, R147). A frame of this unit's own ends here (03 R93), and a copy of another cycle
than the present one is no expected frame (03 R95). -/
def State.staticArrive (s : State) (p : RingPort) (l : List Byte) (t : Nat) : State :=
  if !s.up p then s
  else if fSrc l = s.ring.addr ∧ s.ring.addr ≠ 0 then (s.checkCopy p 2 l).1
  else
    let m := s.arrived p l
    let (s1, valid) := (s.forward p m).checkCopy p 2 l
    let a := s1.ring.active
    let id : FrameId := ⟨fSrc l, 2, fSeq l, fCycle l⟩
    let now := fCycle l == s1.rd R.RING_CYC_NUM.CYCLE && s1.cycling
    match ((a.ownSlots (fSrc l))[fSeq l]?).filter fun e => e.active (fCycle l) && valid && s1.ring.haveActive && now with
    | none => s1
    | some e =>
      let d := deviation t (a.thTicks + e.slot * a.slotTicks) (fAcc m)
      let s2 := s1.countEdge d
      if s2.beyondEdge d then s2
      else if s2.ring.accepted.contains id then { s2 with ring := { s2.ring with twice := s2.ring.twice ++ [id] } }
      else (s2.staticAccept p m d).syncRing

/-! ### Arms -/

/-- The holdover limit silences the unit (05 R191). -/
def State.holdLimit (s : State) : State :=
  let s1 := s.enterSilence 1
  { s1 with ring := { s1.ring with silentHold := true } }

/-- HOLDOVER_LIMIT (05 R191). -/
def execHoldoverLimit (s : State) : Host.Outcome State Fault Refusal :=
  let lim := s.rd R.TB_CTRL.HOLD_LIMIT
  if s.servo = .holdover ∧ lim ≠ 0 ∧ lim ≤ s.time.holdover then s.powered s.holdLimit.syncRing else .next s
/-- CYCLE_BOUNDARY (R129). -/
def execCycleBoundary (s : State) : Host.Outcome State Fault Refusal := s.powered s.boundary
/-- THROUGH_FRAME_RECEIVE (R141). -/
def execThroughFrameReceive (p : RingPort) (l : List Byte) (t : Nat) (s : State) : Host.Outcome State Fault Refusal :=
  s.powered (s.thruArrive p l t)
/-- STATIC_FRAME_READ (01 R27). -/
def execStaticFrameRead (k : Nat) (s : State) : Host.Outcome State Fault Refusal := s.powered (s.staticReadStep k)
/-- STATIC_FRAME_SEND (R144). -/
def execStaticFrameSend (k : Nat) (s : State) : Host.Outcome State Fault Refusal := s.powered (s.staticSend k)
/-- STATIC_FRAME_RECEIVE (R147). -/
def execStaticFrameReceive (p : RingPort) (l : List Byte) (t : Nat) (s : State) : Host.Outcome State Fault Refusal :=
  s.powered (s.staticArrive p l t)
/-- STATIC_SEGMENT_END (06 R231): source entries of KIND 5 post; the dynamic segment begins (R130). -/
def execStaticSegmentEnd (s : State) : Host.Outcome State Fault Refusal :=
  if s.rd R.RING_CYC_STATUS.SEG = 1 then
    s.powered ((s.wr R.RING_CYC_STATUS.SEG 2).postAll .gateway (s.pour.sources.filter fun x => x.kind == 5))
  else .next s

end Sys2Proof.Machine
end

