-- ==== Sys2Proof/Machine/Steep.lean ====
section
/-! DEFINITION. Steep comparators (05 R200 to R207, R664). -/

namespace Sys2Proof.Machine

/-- Bit n of a pair of registers LO, HI. -/
def State.pairBit (s : State) (lo hi : Fld) (n : Nat) : Bool :=
  if n < 32 then bit (s.rd lo) n else bit (s.rd hi) (n - 32)

/-- Set bit n of a pair of registers LO, HI. -/
def State.setPair (s : State) (lo hi : Fld) (n : Nat) : State :=
  if n < 32 then s.wr lo (s.rd lo ||| 2 ^ n) else s.wr hi (s.rd hi ||| 2 ^ (n - 32))

/-- INT_STATUS[0] of the steep page while an enabled FIRED bit is 1 (R664). -/
def State.steepInt (s : State) : State :=
  if (s.rd R.STP_FIRED_LO.FIRED &&& s.rd R.STP_IEN_LO.IEN) != 0 || (s.rd R.STP_FIRED_HI.FIRED &&& s.rd R.STP_IEN_HI.IEN) != 0 then
    s.raiseBits 21 1
  else s

/-- Engines whose steep-start selection names comparator n (10, Starting). -/
def State.steepEngines (s : State) (n : Nat) : List Nat :=
  (List.range 64).filter fun e => s.on R.PE_CFG.SS_EN e && s.rd R.PE_CFG.SS_COMP e == n

/-- The ACTION of comparator n (R202), with the configuration that `v` holds (R205). -/
def State.steepAction (s v : State) (n : Nat) : State :=
  let arg := v.rd R.STP_ARGn.ARG 0 n
  let groups := (List.range 8).filter (bit arg)
  match v.rd R.STP_CTRLn.ACTION 0 n with
  | 1 => groups.foldl State.outLatch s
  | 2 => groups.foldl State.inLatch s
  | 3 => (s.steepEngines n).foldl State.peStart s
  | 4 => (s.steepEngines n).foldl State.peRestart s
  | 5 => s.post (.steep n) (arg % 4096) (arg / 4096)
  | 6 => if s.ring.cycleMaster then s.mcRequest (arg % 8) else s
  | 7 => s.event 21 1 n (v.rd R.STP_SECn.SEC 0 n * 2 ^ 32 + v.rd R.STP_TIMEn.TIME 0 n)
  | _ => s

/-- 2³² seconds in units of 2⁻⁴⁰ ns: the range of an ABSOLUTE target. -/
def absWrap : Nat := 2 ^ 32 * 1000000000 * 2 ^ 40

/-- The ABSOLUTE target of comparator n less local time, modulo 2³² s: a difference of 2³¹ s or more is a target
in the past, and counts as negative (R200). -/
def State.absAhead (s : State) (n : Nat) : Int :=
  let t : Nat := (s.rd R.STP_SECn.SEC 0 n * 1000000000 + s.rd R.STP_TIMEn.TIME 0 n) * 2 ^ 40
  let d : Int := ((t : Int) - (s.now : Int)) % (absWrap : Int)
  if 2 * d < (absWrap : Int) then d else d - (absWrap : Int)

/-- The CYCLE target of comparator n, STP_TIMEn ticks after the start of the present cycle, less local time
(R201, 04 R129). -/
def State.cycleAhead (s : State) (n : Nat) : Int :=
  ((s.time.cycStart + s.rd R.STP_TIMEn.TIME 0 n % 2 ^ 22 * (2 * halfTick) : Nat) : Int) - s.now

/-- How far ahead of local time the target of comparator n lies, in 2⁻⁴⁰ ns. -/
def State.steepAhead (s : State) (n : Nat) : Int :=
  if s.on R.STP_CTRLn.MODE 0 n then s.cycleAhead n else s.absAhead n

/-- May the CYCLE comparator n act in the present cycle (R201)? -/
def State.steepCycle (s : State) (n : Nat) : Bool :=
  s.cycling && s.rd R.RING_CYC_NUM.CYCLE % 2 ^ s.rd R.STP_CTRLn.PERIOD 0 n == s.rd R.STP_CTRLn.PHASE 0 n &&
  decide (s.rd R.STP_TIMEn.TIME 0 n % 2 ^ 22 < s.cycleTicks) && !bit s.time.firedCycle.toNat n

/-- Does comparator n fire in the present tick (R193, R200, R201), by its configuration at the tick's start (R205)? It is
enabled, may act, and the tick starts within 1.25 ns of its target or after it. -/
def State.steepDue (s : State) (n : Nat) : Bool :=
  let v := s.steepView
  v.on R.STP_CTRLn.EN 0 n && (!v.on R.STP_CTRLn.MODE 0 n || v.steepCycle n) && decide (v.steepAhead n ≤ halfTick)

/-- The firing is late: its target lies before the present tick, because the comparator became enabled after it
or because a forward step passed over it (R204). With a positive rate a target can lie within 1.25 ns of no tick's start:
R193 does not say when it fires; it fires in the next tick, and late (DESIGN CHOICE, log 57). -/
def State.steepLate (s : State) (n : Nat) : Bool := decide (s.steepView.steepAhead n < -(halfTick : Int))

/-- The firing, or the withheld firing, is spent: EN clears, or the cycle is marked (R200, R201, R206). -/
def State.steepSpent (s : State) (n : Nat) : State :=
  if s.steepView.on R.STP_CTRLn.MODE 0 n then
    { s with time := { s.time with firedCycle := s.time.firedCycle ||| BitVec.ofNat 64 (2 ^ n)
                                   firedNow := s.time.firedNow &&& ~~~BitVec.ofNat 64 (2 ^ n) } }
  else
    ({ s with time := { s.time with
        steepOld := s.time.steepOld.filter fun e => e.1 != R.STP_CTRLn.EN.addr 0 n } } : State).wr R.STP_CTRLn.EN 0 0 n

/-- STP_CTRLn is written: a CYCLE comparator that becomes enabled once its offset in the present cycle has come
does not fire in that cycle (R204, R205). `s` is the state before the write. -/
def State.steepEnabled (t s : State) (n : Nat) : State :=
  let cfg (u : State) : List Nat :=
    [u.rd R.STP_CTRLn.EN 0 n, u.rd R.STP_CTRLn.MODE 0 n, u.rd R.STP_CTRLn.PERIOD 0 n, u.rd R.STP_CTRLn.PHASE 0 n]
  if t.on R.STP_CTRLn.EN 0 n && t.on R.STP_CTRLn.MODE 0 n && cfg s != cfg t && decide (t.cycleAhead n ≤ halfTick) then
    { t with time := { t.time with
        firedCycle := t.time.firedCycle ||| BitVec.ofNat 64 (2 ^ n)
        firedNow := t.time.firedNow ||| (BitVec.ofNat 64 (2 ^ n) &&& ~~~t.time.firedCycle) } }
  else t

/-- Trigger line n is high in this tick (R202); the end of the tick sets the copies of 10 R353. -/
def State.steepTrigger (s : State) (n : Nat) : State :=
  { s with time := { s.time with trig := s.time.trig ||| BitVec.ofNat 64 (2 ^ n) } }

/-- Comparator n reaches its target (R202, R204, R206) (DEDUCED, log 46). -/
def State.steepFire (s : State) (n : Nat) : State :=
  if !s.steepDue n then s
  else if s.steepView.on R.STP_CTRLn.SILENT_HOLD 0 n && s.on R.RING_CYC_STATUS.SILENCED then
    (s.bump R.STP_STATUS.HELD).steepSpent n
  else
    let s1 := (s.steepAction s.steepView n).setPair R.STP_FIRED_LO.FIRED R.STP_FIRED_HI.FIRED n
    let s2 := if s.steepLate n then s1.setPair R.STP_LATE_LO.LATE R.STP_LATE_HI.LATE n else s1
    ((s2.steepSpent n).steepTrigger n).steepInt

/-- STEEP_FIRE (R202): the firing that the target and the time give; a row that calls a late firing timely, or a timely
one late, stands for no event (R204; log 9). -/
def execSteepFire (n : Nat) (late : Bool) (s : State) : Host.Outcome State Fault Refusal :=
  if n < 64 then s.powered (if late = s.steepLate n then s.steepFire n else s) else .next s

end Sys2Proof.Machine
end

