-- ==== Sys2Proof/Machine/RegRead.lean ====
section
/-! DEFINITION. Reads of register pages (20 R626 to R635): the common layout, registers that show state held
elsewhere, POP addresses and result registers. -/

namespace Sys2Proof.Machine

/-! ### The common layout (20 R627 to R633) -/

/-- The bits of a page's INT_STATUS: those of its block's table, and bit 0 on page 0 and on the steep page
(05 R664). -/
def intMask (ty : PageType) : Nat :=
  match ty with
  | .identity => 1
  | .steep => 1
  | _ =>
    match (regTable ty).find? (·.off == 0x010) with
    | some d => d.fields.foldl (fun v f => v + f.max * 2 ^ f.lo) 0
    | none => 0

/-- Does page `p` support soft reset (R626)? -/
def srstPage (p : Nat) : Bool := match pageRow p with | some r => r.srst | none => false

/-- PAGE_CTRL.EN of page p. -/
def State.pageEn (s : State) (p : Nat) : Bool := s.on R.PAGE_CTRL.EN p

/-- Is the block held or resetting (R630, R631)? -/
def State.held (s : State) (p : Nat) : Bool := s.on R.PAGE_STATUS.HELD p || (srstPage p && !s.pageEn p)

/-- Is the page in the 16 ticks of a soft reset, so that accesses to its own registers wait (R630)?
(DEDUCED, log 17). -/
def State.resetting (s : State) (p : Nat) : Bool := s.on R.PAGE_STATUS.HELD p && s.pageEn p

/-- Domain of a page's block: none for the always-on domain (17, Power Domains). -/
def pageDomain (p : Nat) : Option Nat :=
  match pageRow p with
  | none => none
  | some r =>
    match r.ty with
    | .kettle => none
    | .wakeUnit => none
    | .keeper => some 7
    | .pcie => some 5
    | .sram => some 1
    | .caddy => some 2
    | .ringLink => some 3
    | .mac => some 4
    | .can => some 6
    | .strainer => some 6
    | .core => some (domOf (p - r.first))
    | _ => some 0

/-- PAGE_STATUS.DOM_ON. -/
def State.domOn (s : State) (p : Nat) : Bool :=
  match pageDomain p with
  | none => true
  | some d => decide (2 ≤ s.dom d)

/-- A register of the common layout that no store holds: PAGE_ID, PAGE_CAPS, PAGE_STATUS, and INT_STATUS of
page 0. -/
def State.readCommon (s : State) (p : Nat) (row : PageRow) (off : Nat) : Option Nat :=
  if off = 0x000 then some (if p = 0 then 0xB1 else row.code * 2 ^ 24 + (p - row.first) * 2 ^ 16 + 1)
  else if off = 0x004 then
    let src := match row.src with | some b => b + (p - row.first) | none => 0x3FF
    some (src * 2 ^ 16 + ofBool row.remote * 16 + ofBool (row.ty == .wakeUnit) * 8 + 4 + ofBool row.srst * 2 +
      ofBool row.src.isSome)
  else if off = 0x00C then
    some (ofBool (s.domOn p) * 4 + ofBool (s.held p) * 2 + ofBool (s.on R.PAGE_CTRL.LOCK p))
  else if off = 0x010 ∧ p = 0 then some (s.intStatus 0)
  else none

/-! ### Plain registers (00 R9) -/

/-- The value after a read: RCL fields are 0. -/
def RegDesc.afterRead (d : RegDesc) (v : Word) : Word :=
  d.fields.foldl (fun w f => if f.acc = .rcl then putBits w f.hi f.lo 0 else w) v

/-- The value that a read returns: WO fields read 0. -/
def RegDesc.shown (d : RegDesc) (v : Word) : Word :=
  d.fields.foldl (fun w f => if f.acc = .wo then putBits w f.hi f.lo 0 else w) v

/-- Internal address of offset `off` of page p. -/
def regAt (p off : Nat) : Nat := 0xF0000000 + p * 0x1000 + off

/-- A read of a register that the store holds: RCL fields clear (00 R9). -/
def State.readPlain (s : State) (p off : Nat) (d : RegDesc) : RegRes :=
  let v := s.reg (regAt p off)
  { s := s.setReg (regAt p off) (d.afterRead v), data := (d.shown v).toNat }

/-! ### Registers that show state held elsewhere, and POP addresses -/

/-- Answer with data and no effect. -/
def State.shows (s : State) (v : Nat) : Option RegRes := some { s := s, data := v }

/-- Answer with a register in which fields have been refreshed. -/
def State.showsReg (s : State) (p off : Nat) (d : RegDesc) : Option RegRes := some (s.readPlain p off d)

/-- The keeper page (18, Registers). -/
def State.readKeeper (s : State) (off : Nat) (d : RegDesc) : Option RegRes :=
  let lc := s.lifeCycle.code
  if off = 0x040 then
    ((s.wr R.SEC_STATUS.LC lc).wr R.SEC_STATUS.ROLLBACK s.rollback).showsReg 3 off d
  else if off = 0x048 then s.shows (s.otp 0)
  else if off = 0x04C then s.shows (s.otp 1)
  else if off = 0x050 then s.shows (leNat (s.nonceBytes.take 4))
  else if off = 0x054 then s.shows (leNat (s.nonceBytes.drop 4))
  else if off = 0x064 then
    let w := s.rd R.SEC_OTP_ADDR.WORD
    if otpSecret w then some { s := s, cause := some 10 } else s.shows (s.otp w)
  else none

/-- The trace page: TRC_FILL. -/
def State.readTrace (s : State) (off : Nat) : Option RegRes :=
  if off = 0x05C then s.shows (s.trace.queue.length * 2 ^ 16 + s.trace.entries.length) else none

/-- Can vector v be sent (16 R539)? -/
def State.vectorOpen (s : State) (v : Nat) : Bool :=
  s.on R.PCIE_STATUS.MSIX_EN && !s.on R.PCIE_STATUS.FMASK && s.on R.PCIE_STATUS.BME && !s.on R.MSIX_CTRLv.MASK 0 v

/-- The vectors of presented sources that are routed to the host, with their keys, lowest source first. -/
def State.hostSources (s : State) : List (Nat × Nat) :=
  s.ic.src.filterMap fun e =>
    if decide (0x1000 ≤ e.1) && e.2 == .pending && s.sharedEn (e.1 - 0x1000) then
      match s.route (e.1 - 0x1000) with
      | .host v => some (e.1, v)
      | _ => none
    else none

/-- PBA dword k (16 R540). -/
def State.pba (s : State) (k : Nat) : Nat :=
  (List.range 32).foldl (fun a i =>
    a + ofBool (s.hostSources.any (fun e => e.2 == 32 * k + i) && !s.vectorOpen (32 * k + i)) * 2 ^ i) 0

/-- The PCI Express page: the PBA. -/
def State.readPcie (s : State) (off : Nat) : Option RegRes :=
  if 0xC00 ≤ off then s.shows (s.pba ((off - 0xC00) / 4)) else none

/-- Register of LB_HNEXT (16 R541). -/
def State.hnext (s : State) : Nat :=
  match s.nextHost with
  | some (k, _) => k - 0x1000
  | none => 2 ^ 31

/-- LB_HNEXT_POP claims the lowest presented source that is routed to the host. -/
def State.hnextPop (s : State) : RegRes :=
  match s.nextHost with
  | some (k, _) => { s := s.setSrc k (s.src k).claim, data := k - 0x1000 }
  | none => { s := s, data := 2 ^ 31 }

/-- May `who` use the flash registers (16 R558)? -/
def flashUser : Initiator → Bool
  | .core 16 => true
  | .core 17 => true
  | _ => false

/-- The local bus page: LB_HNEXT and the flash registers. -/
def State.readLocalBus (s : State) (who : Initiator) (off : Nat) : Option RegRes :=
  if off = 0x048 then s.shows s.hnext
  else if off = 0x04C then some s.hnextPop
  else if 0x060 ≤ off ∧ flashUser who = false then some { s := s, cause := some 10 }
  else none

/-- CAD_SNAP_STATUS, a result register (16 R563 to R565): REREAD on every read after the first. -/
def State.readSnapStatus (s : State) : RegRes :=
  let v := (s.reg (R.CAD_SNAP_STATUS.all.addr 0 0)).toNat
  if s.on R.CAD_SNAP_STATUS.VALID then
    { s := { s with pt := { s.pt with snapRead := true } }, data := v + ofBool s.pt.snapRead * 2 ^ 30 }
  else { s := s, data := v }

/-- CAD_IPT_DATA: the selected page-table entry (02). -/
def State.iptData (s : State) : Nat :=
  let slot := s.rd R.CAD_IPT_SEL.SLOT
  let e := if s.on R.CAD_IPT_SEL.IMG then s.snap slot else s.live slot
  if e.backed then 2 ^ 31 + ofBool e.shared * 2 ^ 30 + ofBool e.poison * 2 ^ 29 + e.ppn else 0

/-- CAD_IMG_PAGES: pages of the snapshot and of the live image. -/
def State.imgPages (s : State) : Nat :=
  let own (o : PageOwner) : Nat := (s.mem.pages.filter fun e => e.2.owner == o).length
  own .snap * 2 ^ 16 + own .image

/-- The Caddy image page. -/
def State.readCaddy (s : State) (off : Nat) (d : RegDesc) : Option RegRes :=
  if off = 0x044 then some s.readSnapStatus
  else if off = 0x04C then s.shows s.iptData
  else if off = 0x050 then s.shows s.imgPages
  else if off = 0x080 then s.shows s.popPage.1
  else if off = 0x084 then let (v, t) := s.popPage; some { s := t, data := v }
  else if off = 0x088 then s.shows s.popCell.1
  else if off = 0x08C then let (v, t) := s.popCell; some { s := t, data := v }
  else if off = 0x0C8 then s.shows (s.page (s.rd R.CAD_PATTR_SEL.PAGE)).encode
  else if 0x104 ≤ off ∧ off < 0x200 ∧ off % 8 = 4 then
    let n := (off - 0x104) / 8
    (s.wr R.CAD_CARVEn_PAGES.READY (ofBool (s.carveReady n)) 0 n).showsReg 8 off d
  else none

/-- POUR_FILL: entries of two levels (06). -/
def State.pourFill (s : State) (k : Nat) : Nat := s.fill (2 * k + 1) * 2 ^ 16 + s.fill (2 * k)

/-- The Pour page. -/
def State.readPour (s : State) (off : Nat) : Option RegRes :=
  if off = 0x044 then s.shows s.pourStatus
  else if 0x048 ≤ off ∧ off ≤ 0x054 then s.shows (s.pourFill ((off - 0x048) / 4))
  else if off = 0x058 then s.shows s.pourSlots
  else if off = 0x084 then s.shows s.nodeStateReg
  else if off = 0x08C then
    let x := s.rd R.POUR_CTX_SEL.CTX
    s.shows (ofBool (s.ctxHeld x) * 2 ^ 31 + x)
  else if 0x800 ≤ off then s.shows (s.ctxWinRead (off - 0x800))
  else none

/-- The mailbox page: COUNT, PEEK and POP. -/
def State.readMailbox (s : State) (who : Initiator) (off : Nat) (d : RegDesc) : Option RegRes :=
  if off < 0x100 then none
  else
    let n := (off - 0x100) / 32
    let head : Nat := match s.chan n with | m :: _ => m.toNat | [] => 0
    match off % 32 with
    | 4 => (s.wr R.MBX_STATUSn.COUNT (s.chan n).length 0 n).showsReg 10 off d
    | 16 => s.shows (head % 2 ^ 32)
    | 20 => s.shows (head / 2 ^ 32)
    | 24 => some (s.mbxPop who n)
    | _ => none

/-- The interrupt shared page: pending and active bits. -/
def State.readIcShared (s : State) (off : Nat) : Option RegRes :=
  if 0x080 ≤ off ∧ off < 0x0C0 then s.shows (s.icBits (0x1000 + 64 + 8 * (off - 0x080)) false)
  else if 0x0C0 ≤ off ∧ off < 0x100 then s.shows (s.icBits (0x1000 + 64 + 8 * (off - 0x0C0)) true)
  else none

/-- A mover page: MOV_STATUS. -/
def State.readMover (s : State) (m off : Nat) : Option RegRes :=
  if off = 0x044 then
    let k := s.mov m
    s.shows (ofBool k.busy * 2 ^ 31 + k.node * 2 ^ 16 + k.next % 1024)
  else none

/-- The ring bridge page: the semaphores (16 R560). -/
def State.readBridge (s : State) (who : Initiator) (off : Nat) : Option RegRes :=
  if 0x100 ≤ off ∧ off < 0x200 then
    let n := (off - 0x100) / 8
    if off % 8 = 0 then s.shows (s.semPeek n)
    else
      match s.semPop who n with
      | some (t, v) => some { s := t, data := v }
      | none => some { s := s, cause := some 10 }
  else none

/-- The switch core page: SW_FDB_STATUS.USED. -/
def State.readSwitch (s : State) (off : Nat) (d : RegDesc) : Option RegRes :=
  if off = 0x064 then (s.wr R.SW_FDB_STATUS.USED s.fdbUsed).showsReg 22 off d else none

/-- The Strainer page: STR_DATA (11). -/
def State.readStrainer (s : State) (off : Nat) : Option RegRes :=
  let e := s.strElem (s.rd R.STR_ADDR.INDEX)
  if off = 0x044 then s.shows (e % 2 ^ 32)
  else if off = 0x048 then some { s := s.strNext, data := e / 2 ^ 32 }
  else none

/-- A MAC page: the transmit timestamps (13 R462). -/
def State.readMac (s : State) (m off : Nat) : Option RegRes :=
  let ns := s.txtsNs m
  let sec := ns / 1000000000
  if off = 0x070 then s.shows (sec / 2 ^ 32)
  else if off = 0x074 then s.shows (sec % 2 ^ 32)
  else if off = 0x078 then s.shows (ns % 1000000000)
  else if off = 0x07C then s.shows (s.txtsPeek m)
  else if off = 0x080 then some (s.txtsPop m)
  else none

/-- A core page (08, Registers). -/
def State.readCore (s : State) (c off : Nat) (d : RegDesc) : Option RegRes :=
  if off = 0x044 then
    ((s.wr R.CC_STATUS.STATE (s.coreStatus c) c).wr R.CC_STATUS.LEVEL (s.core c).level.code c).showsReg (64 + c) off d
  else if off = 0x05C then some (s.coreRam c none)
  else none

/-- An interrupt core page (09, Registers). -/
def State.readIcCore (s : State) (c off : Nat) : Option RegRes :=
  if off = 0x058 then s.shows (s.icBits (c * 64) false)
  else if off = 0x05C then s.shows (s.icBits (c * 64 + 32) false)
  else if off = 0x060 then s.shows (s.icBits (c * 64) true)
  else if off = 0x064 then s.shows (s.icBits (c * 64 + 32) true)
  else if off = 0x070 then s.shows (s.icPeek c false)
  else if off = 0x074 then some (s.icPop c false)
  else if off = 0x078 then s.shows (s.icPeek c true)
  else if off = 0x07C then some (s.icPop c true)
  else none

/-- An engine page: the RX FIFO (10 R361). -/
def State.readEngine (s : State) (e off : Nat) : Option RegRes :=
  if off = 0x064 then s.shows (s.peRxPeek e)
  else if off = 0x068 then some (s.peRxPop e)
  else none

/-- A pin group page: the synchronised levels. -/
def State.readGroup (s : State) (g off : Nat) : Option RegRes :=
  if off = 0x050 then s.shows (s.peLevel g) else none

/-- Registers of a block that a read does not take from the store alone. -/
def State.readSpecial (s : State) (who : Initiator) (ty : PageType) (inst off : Nat) (d : RegDesc) : Option RegRes :=
  match ty with
  | .keeper => s.readKeeper off d
  | .trace => s.readTrace off
  | .pcie => s.readPcie off
  | .localBus => s.readLocalBus who off
  | .caddy => s.readCaddy off d
  | .pour => s.readPour off
  | .mailbox => s.readMailbox who off d
  | .icShared => s.readIcShared off
  | .mover => s.readMover inst off
  | .ringBridge => s.readBridge who off
  | .switchCore => s.readSwitch off d
  | .strainer => s.readStrainer off
  | .mac => s.readMac inst off
  | .core => s.readCore inst off d
  | .icCore => s.readIcCore inst off
  | .engine => s.readEngine inst off
  | .group => s.readGroup inst off
  | .wakeUnit =>
    if off = 0x068 then
      ((s.wr R.WK_STATUS.VETO (ofBool s.veto)).wr R.WK_STATUS.CAN_BUSY (ofBool s.canBusy)).showsReg 2 off d
    else none
  | _ => none

/-- A read of offset `off` of page p (20 R628). -/
def State.regRead (s : State) (who : Initiator) (p off : Nat) : RegRes :=
  match pageRow p with
  | none => { s := s, cause := some 1 }
  | some row =>
    match findReg row.ty off with
    | none => { s := s, cause := some 1 }
    | some d =>
      match s.readCommon p row off with
      | some v => { s := s, data := v }
      | none =>
        match s.readSpecial who row.ty (p - row.first) off d with
        | some r => r
        | none => s.readPlain p off d

end Sys2Proof.Machine
end

