-- ==== Sys2Proof/Machine/RegWrite.lean ====
section
/-! DEFINITION. Writes of register pages (20 R626 to R635): the common layout with lock and soft reset, the
access codes, and registers whose write does more than set a value. -/

namespace Sys2Proof.Machine

/-! ### Answers of a register write -/

/-- The write is accepted. -/
def State.wrote (s : State) : Option RegRes := some { s := s }

/-- The write receives an error response by a rule of the block's chapter. -/
def State.refuses (s : State) : Option RegRes := some { s := s, cause := some 10 }

/-- The write is accepted or receives an error response. -/
def State.judged (x : State × Bool) : Option RegRes :=
  some (if x.2 then { s := x.1 } else { s := x.1, cause := some 10 })

/-! ### Plain registers (00 R9) -/

/-- A register after a write of `v`: RW fields take it, W1C and W1S fields by their 1s. -/
def RegDesc.afterWrite (d : RegDesc) (old v : Word) : Word :=
  d.fields.foldl (fun w f =>
    let x := getBits v f.hi f.lo
    let o := getBits w f.hi f.lo
    match f.acc with
    | .rw => putBits w f.hi f.lo x
    | .w1c => putBits w f.hi f.lo (o &&& (f.max - x))
    | .w1s => putBits w f.hi f.lo (o ||| x)
    | _ => w) old

/-- Does the register hold any RW field (20 R632)? -/
def RegDesc.hasRw (d : RegDesc) : Bool := d.fields.any fun f => f.acc == .rw

/-- A write of a register that the store holds. -/
def State.writePlain (s : State) (p off : Nat) (d : RegDesc) (v : Word) : State :=
  s.setReg (regAt p off) (d.afterWrite (s.reg (regAt p off)) v)

/-! ### Soft reset (20 R630, R631) -/

/-- The block-specific registers of page p take their reset values. -/
def State.clearPage (s : State) (p : Nat) : State :=
  { s with regs := s.regs.filter fun e => !(decide (regAt p 0x040 ≤ e.1) && decide (e.1 < regAt (p + 1) 0)) }

/-- MOV_CTRL.HOLD of mover m (07): a running operation is aborted, with the points already issued still to be
written (R257), and a filling or loaded slot is discarded. -/
def State.movHold (s : State) (m : Nat) (hold : Bool) : State :=
  let s1 := s.wr R.MOV_CTRL.HOLD (ofBool hold) m
  if hold then
    let k := s1.mov m
    let s2 := if k.busy then (s1.movStop m).abortNode k.node else s1
    s2.discard (17 + m)
  else s1

/-- Pin engine e takes the state of 10 R369. -/
def State.engineReset (s : State) (e : Nat) : State :=
  let s1 := s.clearPage (128 + e)
  let p := s1.pe
  { s1 with pe := { p with active := p.active.filter (fun x => x.1 / 128 != e), out := p.out.set 0 e 0
                           sticky := p.sticky.set 0 e 0, tx := p.tx.set [] e [], rx := p.rx.set [] e []
                           div := p.div.erase e, t0 := p.t0.erase e, ticks := p.ticks.erase e
                           started := p.started.erase e, held := p.held.set 0 e 0, latch := p.latch.set 0 e 0 } }

/-- Is the frame one of MAC m's transmit rings? -/
def EthFrame.ofMac (x : EthFrame) (m : Nat) : Bool :=
  match x.ring with | some (r, _) => r / 8 == m && decide (r < 32) | none => false

/-- The frame that MAC m sends is cut: a forwarded one is a copy less. -/
def State.cutSending (s : State) (m : Nat) : State :=
  match s.sending m with
  | none => s
  | some g =>
    let t := s.setSending m none
    match t.frame g.frame with
    | some x => if x.ofMac m then t else t.copyDone g.frame false
    | none => t

/-- The frames of MAC m's rings leave its queues and the buffer, and their cells return (14 R478). -/
def State.dropOwn (s : State) (m : Nat) : State :=
  let own := s.eth.frames.filter fun e => match e.2 with | some x => x.ofMac m | none => false
  let cells := (own.map fun e => match e.2 with | some x => x.cells | none => 0).sum
  let t := { s with eth := { s.eth with
    rings := s.eth.rings.filter (fun e => e.1 / 8 != m || decide (32 ≤ e.1))
    frames := s.eth.frames.filter fun e => !own.contains e } }
  (List.range 8).foldl (fun (u : State) c => u.setQueue m c ((u.queue m c).filter fun q => (u.frame q.frame).isSome))
    (t.wr R.SW_CELLS.FREE (t.cellsFree + cells))

/-- Soft reset of MAC m (R630): its link goes down (13 R450), its rings' frames go, and a detached operation that waits for
its descriptors completes with SEL = 0b01. -/
def State.macReset (s : State) (m : Nat) : State :=
  let s1 := ((s.cutSending m).clearPage (24 + m)).dropOwn m
  let s2 := if s.on R.MAC_STATUS.LINK m then s1.raise R.mac_INT.LINK m else s1
  let s3 := (s2.setMac m {}).macPointers m
  (s.macOf m).waiting.foldl (fun (t : State) w => t.completeNode w.1 1) s3

/-- The effects of a soft reset on the block of page p (R630) (DEDUCED, log 17). -/
def State.blockReset (s : State) (p : Nat) : State :=
  match pageRow p with
  | none => s
  | some row =>
    let i := p - row.first
    match row.ty with
    | .mover => ((s.movHold i true).clearPage p)
    | .engine => s.engineReset i
    | .group => ((List.range 8).foldl (fun (t : State) k => t.engineReset (8 * i + k)) s).clearPage p
    | .mac => s.macReset i
    | .localBus => let t := s.clearPage p
      { t with host := { t.host with gwAddr := 0, gwStaged := 0, gwLatch := 0, gwInc := false, gwErr := false
                                     spiOpen := false, spiPartial := [], werr := false } }
    | _ => s

/-- PAGE_CTRL is written (R630 to R632): the state, or the CAUSE of an error response. -/
def State.pageCtrl (s : State) (p : Nat) (row : PageRow) (lock srst en : Bool) : RegRes :=
  if s.on R.PAGE_CTRL.LOCK p && (srst || en != s.pageEn p) then { s := s, cause := some 9 }
  else
    let s1 := if lock then s.wr R.PAGE_CTRL.LOCK 1 p else s
    if row.srst then
      let was := s1.pageEn p
      let s2 := s1.wr R.PAGE_CTRL.EN (ofBool en) p
      if srst then { s := (s2.blockReset p).wr R.PAGE_STATUS.HELD 1 p }
      else if was && !en then { s := s2.blockReset p }
      else { s := s2 }
    else { s := s1 }

/-! ### INT_STATUS, INT_ENABLE, INT_FORCE and ERR_CAPTURE (20 R633, R634) -/

/-- A held capture is released. -/
def State.clearCapture (s : State) (p : Nat) : State :=
  ((((s.wr R.ERR_CAPTURE.VALID 0 p).wr R.ERR_CAPTURE.OVER 0 p).wr R.ERR_ADDR.ADDR 0 p)).syncPage p

/-- A write of INT_STATUS: 1s clear event bits; on page 0 bit 0 releases the capture. -/
def State.intClear (s : State) (p : Nat) (ty : PageType) (v : Nat) : State :=
  if p = 0 then (if bit v 0 then s.clearCapture 0 else s)
  else
    let m := v &&& intMask ty
    let old := s.rd R.INT_STATUS.BITS p
    let t := (s.wr R.INT_STATUS.BITS (old - (old &&& m)) p).syncPage p
    if ty = .steep then t.steepInt else t

/-- A write of INT_FORCE: 1s set event bits as the block's event would; on page 0 bit 0 sets VALID. -/
def State.intForce (s : State) (p : Nat) (ty : PageType) (v : Nat) : State :=
  if p = 0 then
    if bit v 0 && !s.on R.ERR_CAPTURE.VALID 0 then
      ((s.setReg (R.ERR_CAPTURE.VALID.addr 0 0) 0x80000000).setReg (R.ERR_ADDR.ADDR.addr 0 0) 0).syncPage 0
    else s
  else s.raiseBits p (v &&& intMask ty)

/-! ### Registers whose write does more than set a value -/

/-- The Kettle page (17). -/
def State.writeKettle (s : State) (off : Nat) (v : Word) : Option RegRes :=
  if off = 0x040 then State.judged (s.ketCtrl v)
  else if off = 0x050 then
    if getBits v 31 31 = 1 then State.judged (s.stateReq (getBits v 0 0 == 1)) else s.wrote
  else if off = 0x054 then (s.ketRst (getBits v 7 0) s.power.board).wrote
  else if off = 0x05C then (s.wdogWrite v).wrote
  else none

/-- The wake unit page (12). -/
def State.writeWake (s : State) (who : Initiator) (off : Nat) (d : RegDesc) (v : Word) : Option RegRes :=
  let t := s.writePlain 2 off d v
  if off = 0x040 ∨ off = 0x050 then t.vetoCheck.wrote
  else if off = 0x054 then ((t.wr R.WK_MAXAWAKE.EXPIRED 0).vetoCheck).wrote
  else if off = 0x05C then (s.kaOr v.toNat).wrote
  else if off = 0x064 then (s.tokenWrite who v).wrote
  else none

/-- The keeper page (18): SEC_HOST_IMG. -/
def State.writeKeeper (s : State) (off : Nat) (d : RegDesc) (v : Word) : Option RegRes :=
  if off = 0x058 then ((s.writePlain 3 off d v).hostImage).wrote else none

/-- TRC_BUF_GET: the value lies on the way from GET to PUT, both included (19 R620). -/
def State.traceGet (s : State) (i : Nat) : State × Bool :=
  let n := s.rd R.TRC_BUF_SIZE.SIZE
  let g := s.rd R.TRC_BUF_GET.INDEX
  let p := s.rd R.TRC_BUF_PUT.INDEX
  if i = g ∨ (i < n ∧ (i + n - g) % n ≤ (p + n - g) % n) then (s.wr R.TRC_BUF_GET.INDEX i, true) else (s, false)

/-- The trace page (19). -/
def State.writeTrace (s : State) (who : Initiator) (off : Nat) (v : Word) : Option RegRes :=
  if off = 0x044 ∧ getBits v 2 2 = 1 ∧ s.traceDebugOpen = false then s.refuses
  else if (off = 0x048 ∨ off = 0x04C) ∧ s.on R.TRC_CTRL.BUF_EN = true then s.refuses
  else if off = 0x050 then State.judged (s.traceGet (getBits v 17 0))
  else if 0x070 ≤ off ∧ off < 0x080 then some (s.swData who ((off - 0x070) / 4) v)
  else if off = 0x080 then some (s.swCommit who (getBits v 31 30))
  else none

/-- A ring's BASE, SIZE and PTR at offset `o` from 0x200 (13, 14, 16): `r` is the number of its block's ring 0,
`en` says that the block is enabled. -/
def State.writeRing (s : State) (who : Initiator) (r o : Nat) (en : Bool) (v : Word) : Option RegRes :=
  let q := r + o % 0x80 / 16
  let x := getBits v 25 16
  match o % 16 with
  | 0 => if en then s.refuses else none
  | 4 => if en then s.refuses else none
  | 8 =>
    if o < 0x80 then (if s.tailOk q x then (s.putTail who q x).wrote else s.refuses)
    else if s.getOk q x then (s.putGet q x).wrote else s.refuses
  | _ => none

/-- The PCI Express page: the host rings. -/
def State.writePcie (s : State) (who : Initiator) (off : Nat) (v : Word) : Option RegRes :=
  if 0x200 ≤ off ∧ off < 0x300 then s.writeRing who 40 (off - 0x200) (s.on R.SW_CTRL.EN) v else none

/-- A flash transaction starts (16 R558): what goes out is recorded, with 3 or 4 address bytes by ADDR4, and BUSY rises. -/
def State.flashStart (s : State) (v : Word) : State :=
  let s1 := s.setReg (R.LB_FL_CMD.all.addr 0 0) (v &&& 0x30003FFF)
  let n := min 32 (getBits v 13 8)
  let w := getBits v 29 29 == 1
  let data := (List.range 8).flatMap fun k => leBytes 4 (s.rd R.LB_FL_DATAn.DATA 0 k)
  let m := s.flashMode
  let a := if getBits v 28 28 = 1 then none else some (s.rd R.LB_FL_ADDR.ADDR % 256 ^ m.addrBytes)
  (s1.wr R.LB_FL_CMD.BUSY 1).emit (.flash (getBits v 7 0) a n w (if w then data.take n else []) m)

/-- The local bus page: the flash registers. -/
def State.writeLocalBus (s : State) (who : Initiator) (off : Nat) (v : Word) : Option RegRes :=
  if 0x060 ≤ off then
    if flashUser who = false ∨ s.on R.LB_FL_CMD.BUSY = true then s.refuses
    else if off = 0x064 ∧ getBits v 31 31 = 1 then (s.flashStart v).wrote
    else none
  else none

/-- CAD_CARVEn_BASE: BASE is written only while the carve-out is empty; PF and RO apply at once (15 R528). -/
def State.carveBase (s : State) (n : Nat) (v : Word) : State :=
  let s1 := ((s.wr R.CAD_CARVEn_BASE.TYPE (getBits v 23 22) 0 n).wr R.CAD_CARVEn_BASE.PF (getBits v 21 21) 0 n).wr
    R.CAD_CARVEn_BASE.RO (getBits v 20 20) 0 n
  if s.rd R.CAD_CARVEn_PAGES.PAGES 0 n = 0 then s1.wr R.CAD_CARVEn_BASE.BASE (getBits v 15 0) 0 n else s1.carveAttr n

/-- CAD_CARVEn_PAGES (15 R527, R528). -/
def State.carvePages (s : State) (n pages : Nat) : State × Bool :=
  if pages = 0 then (s.carveRelease n, true) else s.carveCreate n pages

/-- The SRAM page: the background test restarts at the first region when it is enabled (15 R512). -/
def State.writeSram (s : State) (off : Nat) (d : RegDesc) (v : Word) : Option RegRes :=
  if off = 0x060 ∧ getBits v 31 31 = 1 ∧ s.on R.SRAM_BT_CTRL.EN = false then
    ((s.writePlain 7 off d v).wr R.SRAM_BT_STATUS.REGION (firstRegion (s.rd R.SRAM_BT_MASK.BANKS))).wrote
  else none

/-- The Caddy image page (02, 15). -/
def State.writeCaddy (s : State) (off : Nat) (v : Word) : Option RegRes :=
  if off = 0x040 then
    State.judged (s.imgCtrlWrite (getBits v 2 2 == 1) (getBits v 1 1 == 1) (getBits v 15 8))
  else if off = 0x090 then State.judged (s.genFree (getBits v 17 0))
  else if off = 0x094 then State.judged (s.cellFree (getBits v 17 0))
  else if 0x100 ≤ off then
    let n := (off - 0x100) / 8
    if off % 8 = 0 then (s.carveBase n v).wrote else State.judged (s.carvePages n (getBits v 16 0))
  else none

/-- POUR_POSTc (06 R214): the post is applied, and POUR_POST_RESc shows its answer. -/
def State.channelPost (s : State) (c : Nat) (v : Word) : State :=
  let (t, ok) := s.postAndWait (.channel c) (getBits v 11 0) (getBits v 13 12)
  t.wr R.POUR_POST_RESc.RESULT (if ok then 1 else 2) 0 c

/-- The Pour page (06). -/
def State.writePour (s : State) (off : Nat) (v : Word) : Option RegRes :=
  if off = 0x040 then (s.pourCtrl (getBits v 1 1 == 1) (getBits v 0 0 == 1)).wrote
  else if off = 0x088 then
    (s.nodeCtrl (getBits v 31 31 == 1) (getBits v 30 30 == 1) (getBits v 11 0)).wrote
  else if 0x100 ≤ off ∧ off < 0x800 then
    if off % 8 = 0 then (s.channelPost ((off - 0x100) / 8) v).wrote else none
  else if 0x800 ≤ off then
    match s.ctxWinWrite (off - 0x800) v.toNat with
    | some t => t.wrote
    | none => s.refuses
  else none

/-- The mailbox page (09 R332; 18 R593). -/
def State.writeMailbox (s : State) (who : Initiator) (off : Nat) (v : Word) : Option RegRes :=
  if off < 0x100 then none
  else
    let n := (off - 0x100) / 32
    match off % 32 with
    | 0 => if n = 63 then s.refuses else none
    | 8 => some (s.mbxLo who v)
    | 12 => some (s.mbxHi who n v)
    | _ => none

/-- The interrupt shared page (09). -/
def State.writeIcShared (s : State) (off : Nat) (v : Word) : Option RegRes :=
  if off = 0x100 then (s.icStrig (getBits v 9 0) (getBits v 15 15 == 1)).wrote
  else if off = 0x104 then (s.icSeoi (getBits v 9 0)).wrote
  else if 0x800 ≤ off then some (s.icRoute ((off - 0x800) / 4 + 64) v)
  else none

/-- The ring bridge page: the semaphores (16 R560). -/
def State.writeBridge (s : State) (who : Initiator) (off : Nat) (v : Word) : Option RegRes :=
  if 0x100 ≤ off ∧ off < 0x200 then
    if off % 8 = 4 then s.refuses
    else if getBits v 29 29 = 1 then
      match s.semRelease who ((off - 0x100) / 8) with
      | some t => t.wrote
      | none => s.refuses
    else s.wrote
  else none

/-- The ring gateway point page (02 R76). -/
def State.writeGateway (s : State) (off : Nat) (d : RegDesc) (v : Word) : Option RegRes :=
  if off = 0x040 then
    let t := s.writePlain 19 off d v
    (if s.rd R.RING_PT_CTRL.HOST_WD = t.rd R.RING_PT_CTRL.HOST_WD then t
     else { t with pt := { t.pt with beatCount := 0 } }).wrote
  else if off = 0x044 then (if getBits v 0 0 = 1 then s.heartbeat else s).wrote
  else if off = 0x048 then (s.forceWrite (getBits v 31 30) (getBits v 27 16) (getBits v 11 0)).wrote
  else none

/-- The time base page (05). -/
def State.writeTime (s : State) (off : Nat) (v : Word) : Option RegRes :=
  if off = 0x040 then (s.tbCtrlWrite v).wrote
  else if off = 0x04C then (s.capturedTime (getBits v 2 0)).wrote
  else if off = 0x050 then (s.setRate (signed 32 v.toNat)).wrote
  else if off = 0x058 then
    let (t, c) := s.stepWrite v
    some { s := t, cause := c }
  else none

/-- The steep page (05 R204, R205, R664). -/
def State.writeSteep (s : State) (off : Nat) (d : RegDesc) (v : Word) : Option RegRes :=
  if 0x100 ≤ off then
    let n := (off - 0x100) / 16
    let t := (s.steepKeep n).writePlain 21 off d v
    if off % 16 = 0 then (t.steepEnabled s n).wrote
    else if (off % 16 = 4 ∨ off % 16 = 8) ∧ s.on R.STP_CTRLn.EN 0 n = true then s.refuses
    else t.wrote
  else if off < 0x058 then ((s.writePlain 21 off d v).steepInt).wrote
  else none

/-- The switch core page (14). -/
def State.writeSwitch (s : State) (who : Initiator) (off : Nat) (_ : RegDesc) (v : Word) : Option RegRes :=
  if off = 0x054 then State.judged (s.fdbSel (getBits v 31 30) (getBits v 9 0))
  else if 0x200 ≤ off ∧ off < 0x300 then s.writeRing who 32 (off - 0x200) (s.on R.SW_CTRL.EN) v
  else none

/-- MAC_CTRL (13): IF, SPEED, INBAND, TXDLY and RXDLY do not change while EN = 1. The write of EN = 1 has asked for the
ETH domain, and takes effect once it is on (17 R572, `State.ethWaits`). -/
def State.macCtrl (s : State) (m : Nat) (d : RegDesc) (v : Word) : State × Bool :=
  let t := s.writePlain (24 + m) 0x040 d v
  let fixed (u : State) : List Nat :=
    [u.rd R.MAC_CTRL.IF m, u.rd R.MAC_CTRL.SPEED m, u.rd R.MAC_CTRL.INBAND m, u.rd R.MAC_CTRL.TXDLY m,
     u.rd R.MAC_CTRL.RXDLY m]
  if s.on R.MAC_CTRL.EN m && fixed s != fixed t then (s, false)
  else (t.linkByCtrl m, true)

/-- A MAC page (13). -/
def State.writeMac (s : State) (who : Initiator) (m off : Nat) (d : RegDesc) (v : Word) : Option RegRes :=
  if off = 0x040 then State.judged (s.macCtrl m d v)
  else if off = 0x04C then ((s.writePlain (24 + m) off d v).macPointers m).wrote
  else if off = 0x0C0 then (s.gclCtrl m v).wrote
  else if ((0x0C4 ≤ off ∧ off ≤ 0x0D0) ∨ 0x800 ≤ off) ∧ s.on R.MAC_GCL_CTRL.ARM m = true then s.refuses
  else if 0x200 ≤ off ∧ off < 0x300 then s.writeRing who (8 * m) (off - 0x200) (s.on R.MAC_CTRL.EN m) v
  else none

/-- Is the CAN register at this offset written only in INIT (11 R382)? -/
def canInitOnly (off : Nat) : Bool :=
  [0x048, 0x04C, 0x050, 0x058, 0x05C, 0x080, 0x084, 0x088].contains off

/-- A CAN page (11). -/
def State.writeCan (s : State) (who : Initiator) (c off : Nat) (v : Word) : Option RegRes :=
  if off = 0x040 then State.judged (s.canCtrl c v)
  else if canInitOnly off ∧ s.canMode c ≠ 0 then s.refuses
  else if off = 0x068 then State.judged (s.rxAck c false (getBits v 6 0))
  else if off = 0x06C then State.judged (s.rxAck c true (getBits v 6 0))
  else if off = 0x070 then (s.canRequest who c v.toNat).wrote
  else if off = 0x074 then (s.canAbort c v.toNat).wrote
  else if off = 0x098 then
    (if getBits v 31 31 = 1 then (s.wr R.CAN_LOOP.MIN 255 c).wr R.CAN_LOOP.MAX 0 c else s).wrote
  else none

/-- A core page (08). -/
def State.writeCore (s : State) (who : Initiator) (c off : Nat) (v : Word) : Option RegRes :=
  if off = 0x040 then State.judged (s.coreCtrl who c (getBits v 0 0 == 1) (getBits v 1 1 == 1))
  else if off = 0x05C then some (s.coreRam c (some v))
  else none

/-- An interrupt core page (09). -/
def State.writeIcCore (s : State) (c off : Nat) (d : RegDesc) (v : Word) : Option RegRes :=
  if off = 0x068 then (s.icPtrig c (getBits v 5 0) (getBits v 7 7 == 1)).wrote
  else if off = 0x080 then (s.icEoi c (getBits v 9 0)).wrote
  else if off = 0x090 ∨ off = 0x094 then (s.dbClear c (off == 0x094) v.toNat).wrote
  else if off = 0x098 ∨ off = 0x09C then (s.dbSet c (off == 0x09C) v.toNat).wrote
  else if off = 0x0A0 ∨ off = 0x0A4 then ((s.writePlain (96 + c) off d v).syncDoorbells c).wrote
  else none

/-- An engine page (10): the shadow bank is not written while a swap is armed (R372). -/
def State.writeEngine (s : State) (e off : Nat) (v : Word) : Option RegRes :=
  let shadow := off == 0x080 || off == 0x084 || off == 0x088 || decide (0x400 ≤ off)
  if off = 0x040 then (s.ectrl e (getBits v 0 0 == 1) (getBits v 1 1 == 1) (getBits v 2 2 == 1)).wrote
  else if shadow && s.armed e then s.refuses
  else if off = 0x084 ∧ getBits v 14 8 < getBits v 6 0 then s.refuses
  else if off = 0x060 then some (s.peTxPush e v)
  else if off = 0x06C then (s.peStage e v).wrote
  else if off = 0x050 then ((s.keepZero e).wr R.PE_CNT.COUNT (getBits v 15 0) e).wrote
  else none

/-- A pin group page (10). -/
def State.writeGroup (s : State) (g off : Nat) (v : Word) : Option RegRes :=
  if off = 0x040 then (s.groupStart g (getBits v 7 0)).wrote
  else if off = 0x044 then (s.groupRestart g (getBits v 7 0)).wrote
  else if off = 0x048 then
    let t := if getBits v 1 1 = 1 then s.inLatch g else s
    (if getBits v 0 0 = 1 then t.outLatch g else t).wrote
  else none

/-- Block-specific registers whose write is more than the access codes. -/
def State.writeSpecial (s : State) (who : Initiator) (ty : PageType) (inst off : Nat) (d : RegDesc) (v : Word) :
    Option RegRes :=
  match ty with
  | .kettle => s.writeKettle off v
  | .wakeUnit => s.writeWake who off d v
  | .keeper => s.writeKeeper off d v
  | .trace => s.writeTrace who off v
  | .pcie => s.writePcie who off v
  | .localBus => s.writeLocalBus who off v
  | .sram => s.writeSram off d v
  | .caddy => s.writeCaddy off v
  | .pour => s.writePour off v
  | .mailbox => s.writeMailbox who off v
  | .icShared => s.writeIcShared off v
  | .mover => if off = 0x040 then (s.movHold inst (getBits v 0 0 == 1)).wrote else none
  | .ringLink => if off = 0x040 then (s.lnkCtrl v).wrote else if off = 0x050 then (s.coldCtrl v).wrote else none
  | .ringCycle => if off = 0x048 then (s.tsWrite v).wrote else if off = 0x058 then (s.mcCtrl v).wrote else none
  | .ringBridge => s.writeBridge who off v
  | .gatewayPoint => s.writeGateway off d v
  | .timeBase => s.writeTime off v
  | .steep => s.writeSteep off d v
  | .switchCore => s.writeSwitch who off d v
  | .strainer => if off = 0x044 then (s.strLo v).wrote else if off = 0x048 then (s.strHi v).wrote else none
  | .mac => s.writeMac who inst off d v
  | .can => s.writeCan who inst off v
  | .core => s.writeCore who inst off v
  | .icCore => s.writeIcCore inst off d v
  | .engine => s.writeEngine inst off v
  | .group => s.writeGroup inst off v
  | _ => none

/-- Is the initiator another ring unit? -/
def remote : Initiator → Bool
  | .ringUnit _ => true
  | _ => false

/-- A write to a block-specific register (offset 0x040 and above). -/
def State.writeBlock (s : State) (who : Initiator) (p off : Nat) (row : PageRow) (d : RegDesc) (v : Word) : RegRes :=
  if s.on R.PAGE_CTRL.LOCK p && d.hasRw then { s := s, cause := some 9 }
  else if row.srst && !s.pageEn p then { s := s, cause := some 10 }
  else
    match s.writeSpecial who row.ty (p - row.first) off d v with
    | some r => r
    | none => { s := s.writePlain p off d v }

/-- A write of the common layout's registers. -/
def State.writeCommon (s : State) (who : Initiator) (p off : Nat) (row : PageRow) (v : Word) : RegRes :=
  if off = 0x008 then
    if remote who then { s := s, cause := some 9 }
    else s.pageCtrl p row (getBits v 31 31 == 1) (getBits v 1 1 == 1) (getBits v 0 0 == 1)
  else if off = 0x010 then { s := s.intClear p row.ty v.toNat }
  else if off = 0x014 then { s := (s.wr R.INT_ENABLE.BITS (v.toNat &&& intMask row.ty) p).syncPage p }
  else if off = 0x018 then { s := s.intForce p row.ty v.toNat }
  else if off = 0x01C then { s := if getBits v 31 31 = 1 then s.clearCapture p else s }
  else { s := s }

/-- A write of offset `off` of page p (20 R628, R632, R635). -/
def State.regWrite (s : State) (who : Initiator) (p off : Nat) (v : Word) : RegRes :=
  match pageRow p with
  | none => { s := s, cause := some 1 }
  | some row =>
    match findReg row.ty off with
    | none => { s := s, cause := some 1 }
    | some d =>
      if remote who && !row.remote then { s := s, cause := some 9 }
      else if off < 0x040 then s.writeCommon who p off row v
      else s.writeBlock who p off row d v

end Sys2Proof.Machine
end

