-- ==== Sys2Proof/Machine/Bus.lean ====
section
/-! DEFINITION. An access to the internal address map (01 R19 to R24): which range it meets, the widths and
alignments that the range accepts, what it reads or writes, and where a failure is recorded (20 R634). -/

namespace Sys2Proof.Machine

/-! ### Who writes a point (02 R54, R55; 07 R256) -/

/-- The session context that core c is running: 0 while it runs no operation. -/
def State.coreCtx (s : State) (c : Nat) : Nat :=
  let k := s.cores.get {} c
  if k.inop then k.opCtx else 0

/-- The writer that an initiator is for a point: the host bridge for every host port, and no writer that an
attribute entry names for a ring unit or another block. -/
def State.writerOf (s : State) : Initiator → Writer
  | .core c => .context (s.coreCtx c)
  | .mover m => .mover (s.movers.get {} m).node
  | .pcie => .host
  | .spi => .host
  | .localBus => .host
  | _ => .other

/-! ### Points in images and in the local point store -/

/-- `n` bytes of points from `f`, the 16-bit point of each index from `i` on. -/
def pointsRead (f : Nat → Half) (i : Nat) : Nat → Nat
  | 0 => 0
  | n + 1 => (f i).toNat + 65536 * pointsRead f (i + 1) n

/-- Write `n` points of the local store, already judged to be accepted. -/
def State.localWriteAll (s : State) (w : Writer) (i v : Nat) : Nat → State
  | 0 => s
  | n + 1 => (s.acceptPt w i (BitVec.ofNat 16 v) 0).localWriteAll w (i + 1) (v / 65536) n

/-- Write `n` points of the live image, already judged to be accepted. -/
def State.liveWriteAll (s : State) (w : Writer) (a v : Nat) : Nat → State
  | 0 => s
  | n + 1 => ((s.writeLive w a (BitVec.ofNat 16 v)).1).liveWriteAll w (a + 1) (v / 65536) n

/-- The CAUSE for which the first of `n` live-image points from `a` refuses the write. -/
def State.liveRefusesAny (s : State) (w : Writer) (a : Nat) : Nat → Option Nat
  | 0 => none
  | n + 1 =>
    match s.liveRefuses w a with
    | some c => some c
    | none => s.liveRefusesAny w (a + 1) n

/-- Do `n` local points from `i` all accept the writer? -/
def State.localAccepts (s : State) (w : Writer) (i : Nat) : Nat → Bool
  | 0 => true
  | n + 1 => s.ptAccepts w i && s.localAccepts w (i + 1) n

/-! ### Widths (01 R19, R20) -/

/-- Does the range accept an access of `n` bytes at `a`, leaving aside the register pages and the
remote-unit windows? -/
def widthOk (r : Range) (a n : Nat) : Bool :=
  match r with
  | .raw => (n == 1 || n == 2 || n == 4 || n == 8) && a % n == 0
  | .sram => n == 1 || n == 2 || n == 4 || n == 8
  | .rom => (n == 4 || n == 8) && a % n == 0
  | .live => (n == 2 || n == 4 || n == 8) && a % n == 0
  | .snap => (n == 2 || n == 4 || n == 8) && a % n == 0
  | .points => (n == 2 || n == 4 || n == 8) && a % n == 0
  | .iram => (n == 2 || n == 4) && a % n == 0
  | .dram => (n == 1 || n == 2 || n == 4) && a % n == 0
  | .regs => n == 4 && a % 4 == 0
  | .remote => true

/-- Little-endian bytes of the boot ROM. -/
def romRead (a : Nat) : Nat → Nat
  | 0 => 0
  | n + 1 => (Config.bootRom (a % 0x10000)).toNat + 256 * romRead (a + 1) n

/-- A failed access: recorded by 20 R634, `dflt` being the page for an initiator without a page of its own
(DEDUCED, log 15). -/
def State.busErr (s : State) (who : Initiator) (dflt : Nat) (write : Bool) (size cause a : Nat) : State × AccRes :=
  (s.accessError who dflt write size cause a, .err)

/-! ### Register pages -/

/-- Page number of a register address. -/
def pageOf (a : Nat) : Nat := a / 0x1000 % 0x400

/-- Page that records a failed register access: the target page, or page 0 for a slot that holds none
(DEDUCED, log 15). -/
def errPageOf (p : Nat) : Nat := if (pageRow p).isSome then p else 0

/-- A register access answers: data, or an error response recorded in the target page. -/
def State.regAnswer (r : RegRes) (who : Initiator) (write : Bool) (a : Nat) : State × AccRes :=
  match r.cause with
  | none => (r.s, .data r.data)
  | some c => r.s.busErr who (errPageOf (pageOf a)) write 4 c a

/-- Does an access to this register wait because its page is in soft reset (20 R630)? -/
def State.regWaits (s : State) (a : Nat) : Bool :=
  isReg a && s.resetting (pageOf a) && decide (0x40 ≤ a % 0x1000)

/-- Does the write of MAC_CTRL with EN = 1 wait until the ETH domain is on (17 R572, 01 R17)? A refused one does not. -/
def State.ethWaits (s : State) (who : Initiator) (a n v : Nat) : Bool :=
  isReg a && n == 4 && decide (pageOf a / 4 = 6) && a % 0x1000 == 0x040 && bit v 31 && s.dom 4 != 3 &&
    (s.regWrite who (pageOf a) 0x040 (BitVec.ofNat 32 v)).cause.isNone

/-! ### Reads -/

/-- A read of a range that is neither a register page nor a remote-unit window. -/
def State.readRange (s : State) (who : Initiator) (r : Range) (a n : Nat) : State × AccRes :=
  let fail (t : State) (c : Nat) : State × AccRes := t.busErr who 0 false n c a
  match r with
  | .raw =>
    match s.rawRefused a false with
    | some c => fail s c
    | none => match s.rawRead a n with
      | (t, some v) => (t, .data v)
      | (t, none) => fail t 5
  | .sram =>
    if 0x10400000 < a + n then fail s 1
    else match s.sramRead a n with
      | (t, some v) => (t, .data v)
      | (t, none) => fail t 5
  | .rom => (s, .data (romRead (a % 0x10000) n))
  | .live =>
    match s.liveCheck (a % 0x1000000 / 2) (n / 2) with
    | (t, true) => (t, .data (pointsRead t.liveRead (a % 0x1000000 / 2) (n / 2)))
    | (t, false) => fail t 5
  | .snap =>
    let t := s.snapCheck (a % 0x1000000 / 2)
    (t, .data (pointsRead t.snapReadPt (a % 0x1000000 / 2) (n / 2)))
  | .points =>
    match s.localCheck (a % 0x2000 / 2) (n / 2) with
    | (t, true) => (t, .data (pointsRead t.localPt (a % 0x2000 / 2) (n / 2)))
    | (t, false) => fail t 5
  | _ =>
    match who with
    | .core c => match s.coreRead c (a % 0x10000) n with
      | (t, some v) => (t, .data v)
      | (t, none) => (t, .err)
    | _ => fail s 1

/-- May the initiator see the range (01 R21)? -/
def seesRange (who : Initiator) (r : Range) : Bool :=
  match r, who with
  | .iram, .core _ => true
  | .dram, .core _ => true
  | .iram, _ => false
  | .dram, _ => false
  | _, _ => true

/-- A read of `n` bytes at internal address `a`; `stall` marks an initiator that waits for a far unit. -/
def State.busRead (s : State) (who : Initiator) (a n : Nat) (stall : Bool := false) : State × AccRes :=
  match rangeOf a with
  | none => s.busErr who 0 false n 1 a
  | some .remote => if stall then s.remoteWait who a n 0 false else s.bridgeIssue who a n 0 false false
  | some r =>
    if seesRange who r = false then s.busErr who 0 false n 1 a
    else if widthOk r a n = false then
      s.busErr who (if r = .regs then errPageOf (pageOf a) else 0) false n 2 a
    else if r = .regs then
      if s.regWaits a then (s, .wait 0) else State.regAnswer (s.regRead who (pageOf a) (a % 0x1000)) who false a
    else s.readRange who r a n

/-! ### Writes -/

/-- A write of a range that is neither a register page nor a remote-unit window. -/
def State.writeRange (s : State) (who : Initiator) (r : Range) (a n v : Nat) : State × AccRes :=
  let fail (t : State) (c : Nat) : State × AccRes := t.busErr who 0 true n c a
  match r with
  | .raw =>
    match s.rawRefused a true with
    | some c => fail s c
    | none => (s.rawWrite a n v, .data 0)
  | .sram => if 0x10400000 < a + n then fail s 1 else (s.sramWrite who a n v, .data 0)
  | .live =>
    let w := s.writerOf who
    let p := a % 0x1000000 / 2
    match s.liveRefusesAny w p (n / 2) with
    | some c => fail (if c = 4 then s.rejectPt else s) c
    | none => (s.liveWriteAll w p v (n / 2), .data 0)
  | .points =>
    let w := s.writerOf who
    let i := a % 0x2000 / 2
    if s.localAccepts w i (n / 2) then (s.localWriteAll w i v (n / 2), .data 0) else fail s.rejectPt 4
  | .iram => match who with
    | .core c => (s.coreWrite c (a % 0x10000) n v, .data 0)
    | _ => fail s 1
  | .dram => match who with
    | .core c => (s.coreWrite c (a % 0x10000) n v, .data 0)
    | _ => fail s 1
  | _ => fail s 3

/-- A write of the `n` low bytes of `v` at internal address `a`. -/
def State.busWrite (s : State) (who : Initiator) (a n v : Nat) (stall : Bool := false) : State × AccRes :=
  match rangeOf a with
  | none => s.busErr who 0 true n 1 a
  | some .remote => if stall then s.remoteWait who a n v true else s.bridgeIssue who a n v true false
  | some r =>
    if seesRange who r = false then s.busErr who 0 true n 1 a
    else if widthOk r a n = false then
      s.busErr who (if r = .regs then errPageOf (pageOf a) else 0) true n 2 a
    else if r = .regs then
      if s.regWaits a then (s, .wait 0)
      else if s.ethWaits who a n v then (s.requestDom 4, .wait 0)
      else State.regAnswer (s.regWrite who (pageOf a) (a % 0x1000) (BitVec.ofNat 32 v)) who true a
    else s.writeRange who r a n v

/-! ### Reading ahead (01 R19; 06 R224; 16 R542) -/

/-- Does the read-ahead column of Internal Address Map allow it at address `a`: always in the boot ROM, the images and
the local points, in the raw window by the page's PF, in the SRAM by the region's bit? -/
def State.aheadOk (s : State) (a : Nat) : Bool :=
  match rangeOf a with
  | some .raw => (s.page (a / 0x400)).pf && (s.rawRefused a false).isNone
  | some .sram =>
    let i := a % 0x400000 / 0x10000
    if i < 32 then bit (s.rd R.SRAM_PFA_LO.PF) i else bit (s.rd R.SRAM_PFA_HI.PF) (i - 32)
  | some .rom => true
  | some .live => true
  | some .snap => true
  | some .points => true
  | _ => false

/-- Byte `a` of a point container. -/
def pointByte (p : Half) (a : Nat) : Byte := BitVec.ofNat 8 (p.toNat / 256 ^ (a % 2))

/-- The stored word behind point `i` of an image page holds no error. -/
def State.cleanAt (s : State) (e : Pte) (i : Nat) : Bool :=
  !e.backed || e.poison || decide (s.eccAt (imgAddr e.ppn i / 8 * 8) = .clean)

/-- The local point, or the stored word, behind point `i` of the live image holds no error. -/
def State.liveClean (s : State) (i : Nat) : Bool :=
  if s.imgEn && i / 4096 == s.ring.addr && s.ring.addr != 0 then decide (s.ptEcc (i % 4096) = .clean)
  else s.cleanAt (s.live (i / 512)) i

/-- What a read ahead of byte `a` gives: nothing where it is not allowed or meets an error, so that it has no side
effect (06 R224; DESIGN CHOICE, log 20). -/
def State.aheadByte (s : State) (a : Nat) : Option Byte :=
  let i := a % 0x1000000 / 2
  if !s.aheadOk a then none
  else match rangeOf a with
  | some .raw => if s.eccAt (a / 8 * 8) = .clean then (s.rawBytes a 1).head? else none
  | some .sram => if s.eccAt (a / 2 * 2) = .clean then some (s.mem.bytes.get 0 a) else none
  | some .rom => some (Config.bootRom (a % 0x10000))
  | some .live => if s.liveClean i then some (pointByte (s.liveRead i) a) else none
  | some .snap => if s.cleanAt (s.snap (i / 512)) i then some (pointByte (s.snapReadPt i) a) else none
  | some .points =>
    let k := a % 0x2000 / 2
    if s.ptEcc k = .clean then some (pointByte (s.localPt k) a) else none
  | _ => none

/-- Read ahead at most `n` bytes from `a` on, up to the first that cannot be. -/
def State.readAhead (s : State) (a : Nat) : Nat → List (Nat × Byte)
  | 0 => []
  | n + 1 =>
    match s.aheadByte a with
    | some b => (a, b) :: s.readAhead (a + 1) n
    | none => []

/-- A byte read ahead still stands: no write has changed it since. A write of the byte it holds changes nothing that a
read could tell (DEDUCED, log 20). -/
def State.stands (s : State) (x : Nat × Byte) : Bool := s.aheadByte x.1 == some x.2

/-- The number that bytes read ahead give for the `n` bytes at `a`, where they hold and still stand. -/
def State.fromAhead (s : State) (held : List (Nat × Byte)) (a : Nat) : Nat → Option Nat
  | 0 => some 0
  | n + 1 =>
    match held.find? fun x => x.1 == a with
    | some x => if s.stands x then (s.fromAhead held (a + 1) n).map fun v => x.2.toNat + 256 * v else none
    | none => none

/-! ### Accesses as commands -/

/-- The answer of an access stands in the state. -/
def answered (r : State × AccRes) : State :=
  match r.2 with
  | .data v => r.1.ok v
  | .err => r.1.err
  | .wait _ => r.1

/-- A 32-bit read of the register at address `a`, or an access by `who` to any other range. -/
def State.readReg (s : State) (who : Initiator) (a : Nat) : State := answered (s.busRead who a 4)

/-- A 32-bit write of `v` at address `a`. -/
def State.writeReg (s : State) (who : Initiator) (a : Nat) (v : Word) : State := answered (s.busWrite who a 4 v.toNat)

end Sys2Proof.Machine
end

