-- ==== Sys2Proof/Machine/Flags.lean ====
section
/-! DEFINITION. Flag and result computations of the Clalo cores (08 R263, R276, R280, R281, R289, R290). -/

namespace Sys2Proof.Machine

/-- Is the condition of this code true (R276)? -/
def Flags.meets (f : Flags) (code : Nat) : Bool :=
  match code % 16 with
  | 0 => true
  | 1 => f.z
  | 2 => !f.z
  | 3 => f.p
  | 4 => f.c
  | 5 => !f.c
  | 6 => f.n
  | 7 => !f.n
  | 8 => f.v
  | 9 => !f.v
  | 10 => f.c && !f.z
  | 11 => !f.c || f.z
  | 12 => f.n == f.v
  | 13 => f.n != f.v
  | 14 => !f.z && f.n == f.v
  | _ => f.z || f.n != f.v

/-- N and Z follow the result, the rest is kept (R280). -/
def Flags.nz (f : Flags) (r : Word) : Flags := { f with n := r.msb, z := r == 0 }

/-- N and Z follow the result, C is given (R281). -/
def Flags.nzc (f : Flags) (r : Word) (c : Bool) : Flags := { f.nz r with c := c }

/-- The result of a + b + carry in, with the carry out of bit 31 and the signed overflow (R280). -/
def addCarry (a b : Word) (cin : Bool) : Word × Bool × Bool :=
  let n := a.toNat + b.toNat + ofBool cin
  let r := BitVec.ofNat 32 n
  (r, decide (2 ^ 32 ≤ n), a.msb == b.msb && r.msb != a.msb)

/-- The result of a − b − (1 − carry), with C = 1 when no borrow occurs and the signed overflow (R280). -/
def subCarry (a b : Word) (cin : Bool) : Word × Bool × Bool :=
  let low := b.toNat + (1 - ofBool cin)
  let r := BitVec.ofNat 32 (a.toNat + 2 ^ 32 - low)
  (r, decide (low ≤ a.toNat), a.msb != b.msb && r.msb != a.msb)

/-- NZCV of a result with its carry and overflow. -/
def Flags.nzcv (f : Flags) (x : Word × Bool × Bool) : Flags := { f.nz x.1 with c := x.2.1, v := x.2.2 }

/-- A shift or rotation (KIND 0 LSL, 1 LSR, 2 ASR, 3 ROR) by `n`, and C after it, `c` before (R281). -/
def shiftOp (kind : Nat) (x : Word) (n : Nat) (c : Bool) : Word × Bool :=
  if n = 0 then (x, c)
  else match kind with
    | 0 => (if n < 32 then x <<< n else 0, decide (n ≤ 32) && x.getLsbD (32 - n))
    | 1 => (if n < 32 then x >>> n else 0, decide (n ≤ 32) && x.getLsbD (n - 1))
    | 2 => if n < 32 then (x.sshiftRight n, x.getLsbD (n - 1))
           else (if x.msb then 0xFFFFFFFF else 0, x.msb)
    | _ => let r := x.rotateRight n
           (r, r.msb)

/-- High half of the signed product. -/
def mulHigh (a b : Word) : Word := BitVec.ofNat 32 (unsigned 64 (a.toInt * b.toInt) / 2 ^ 32)

/-- High half of the unsigned product. -/
def mulHighU (a b : Word) : Word := BitVec.ofNat 32 (a.toNat * b.toNat / 2 ^ 32)

/-- The source limited to `lo`–`hi` as a signed integer, and whether that changed it (R289). -/
def satOp (lo hi : Int) (x : Word) : Word × Bool :=
  let r := BitVec.ofInt 32 (max lo (min hi x.toInt))
  (r, r != x)

end Sys2Proof.Machine
end

