-- ==== Sys2Proof/Machine/Operands.lean ====
section
/-! DEFINITION. Operands of the Clalo instructions (08 R262 to R266, R273 to R278): general registers,
immediates, effective addresses, special registers and the context window. -/

namespace Sys2Proof.Machine

/-! ### General registers (R262) -/

/-- Register `r` of a core. -/
def CoreState.reg (k : CoreState) (r : Nat) : Word := k.g.get 0 (r % 16)

/-- Put register `r` of a core. -/
def CoreState.setReg (k : CoreState) (r : Nat) (v : Word) : CoreState := { k with g := k.g.set 0 (r % 16) v }

/-- Put several registers, in order. -/
def CoreState.setRegs (k : CoreState) (l : List (Nat × Word)) : CoreState :=
  l.foldl (fun (k : CoreState) e => k.setReg e.1 e.2) k

/-- Put the flags. -/
def CoreState.setFlags (k : CoreState) (f : Flags) : CoreState := { k with flags := f }

/-! ### Immediates (R278) -/

/-- A field of `w` bits, sign-extended to 32 bits. -/
def sext (w v : Nat) : Word := BitVec.ofInt 32 (signed w (v % 2 ^ w))

/-- A field of `w` bits, zero-extended. -/
def zext (w v : Nat) : Word := BitVec.ofNat 32 (v % 2 ^ w)

end Sys2Proof.Machine

namespace Sys2Proof
open Machine

/-! ### Operand forms -/

/-- Destination, the two sources, and whether flags are set (R277, R278). -/
def AluForm.parts : AluForm → Nat × Nat × Nat × Bool
  | .short rd rs => (rd, rd, rs, true)
  | .long rd ra rb s => (rd, ra, rb, s)

/-- Length of the encoding in bytes (R275). -/
def AluForm.len : AluForm → Nat
  | .short _ _ => 2
  | .long _ _ _ _ => 4

/-- Length of the encoding in bytes. -/
def ImmForm.len : ImmForm → Nat
  | .short _ _ => 2
  | .long _ _ _ => 4
/-- Source and destination of a saturation. -/
def SatForm.parts : SatForm → Nat × Nat × Nat
  | .short rd => (rd, rd, 2)
  | .long rd ra => (rd, ra, 4)

/-- Data register of a load or store. -/
def MemForm.rd : MemForm → Nat
  | .sp rd _ => rd
  | .reg rd _ => rd
  | .long rd _ _ => rd

/-- Length of the encoding in bytes. -/
def MemForm.len : MemForm → Nat
  | .long _ _ _ => 4
  | _ => 2

/-- Is the form the [g14 + 4 × u6] form, which encodes words only (R277)? -/
def MemForm.isSp : MemForm → Bool
  | .sp _ _ => true
  | _ => false

/-- Address of a load or store (R277, R278). -/
def MemForm.addr (o : MemForm) (k : CoreState) : Nat :=
  match o with
  | .sp _ u6 => (k.reg 14 + BitVec.ofNat 32 (4 * (u6 % 64))).toNat
  | .reg _ rb => (k.reg rb).toNat
  | .long _ ra s12 => (k.reg ra + sext 12 s12).toNat

/-- Value register, quality register and SG of a point load or store; the short form uses rd and rd + 1. -/
def PointForm.parts : PointForm → Nat × Nat × Bool
  | .short rd _ => (rd, rd + 1, false)
  | .long rd rq _ sg _ => (rd, rq, sg)

/-- Length of the encoding in bytes. -/
def PointForm.len : PointForm → Nat
  | .short _ _ => 2
  | .long _ _ _ _ _ => 4

/-- A short form with an odd rd is UNDEF (R277). -/
def PointForm.defined : PointForm → Bool
  | .short rd _ => rd % 2 == 0
  | .long _ _ _ _ _ => true

/-- Address of a point load or store. -/
def PointForm.addr (o : PointForm) (k : CoreState) : Nat :=
  match o with
  | .short _ rb => (k.reg rb).toNat
  | .long _ _ ra _ s7 => (k.reg ra + 2 * sext 7 s7).toNat

/-- The registers a CALL saves: the short form's GMASK selects g0–g3, g4–g7, g8–g11, and g12, g13 and g15
(R292). Bit 14 counts as 0. -/
def CallForm.mask : CallForm → Nat
  | .short gm _ => ofBool (bit gm 0) * 0xF + ofBool (bit gm 1) * 0xF0 + ofBool (bit gm 2) * 0xF00 +
      ofBool (bit gm 3) * 0xB000
  | .long m _ => m % 0x10000 &&& 0xBFFF

/-- Target register of a CALL. -/
def CallForm.ra : CallForm → Nat
  | .short _ ra => ra
  | .long _ ra => ra

/-- Length of the encoding in bytes. -/
def CallForm.len : CallForm → Nat
  | .short _ _ => 2
  | .long _ _ => 4

end Sys2Proof

namespace Sys2Proof.Machine

/-- Length of a short or a long form. -/
def lenOf (long : Bool) : Nat := if long then 4 else 2

/-- Registers that a mask selects, in ascending order. -/
def maskRegs (m : Nat) : List Nat := (List.range 16).filter fun r => bit m r && r != 14

/-! ### Special registers (R265, R266) -/

/-- OPINFO. -/
def CoreState.opinfo (k : CoreState) : Word :=
  BitVec.ofNat 32 (ofBool k.inop * 2 ^ 31 + k.opNode % 4096 * 65536 + k.opCtx % 256)

/-- CORE_ID of core c: its number and its cluster, 7 for none (R258). -/
def coreId (c : Nat) : Word := BitVec.ofNat 32 (c % 32 + (if c < 16 then c / 4 else 7) * 256)

/-- MFS: the contents of a special register, none for a number outside the table. -/
def CoreState.special (k : CoreState) (c sr : Nat) : Option Word :=
  match sr with
  | 0x00 => some (BitVec.ofNat 32 k.flags.code)
  | 0x01 => some (coreId c)
  | 0x02 => some k.opinfo
  | 0x03 => some k.vbase
  | 0x04 => some k.epc
  | 0x05 => some k.eflags
  | 0x06 => some k.fcause
  | 0x07 => some k.faddr
  | 0x08 => some k.npc
  | 0x09 => some k.nflags
  | 0x0A => some k.upc
  | 0x0B => some k.uflags
  | 0x0C => some k.cycles
  | 0x0D => some k.splim
  | 0x0E => some k.opsp
  | _ => none

/-- Bits of EFLAGS, NFLAGS and UFLAGS that exist (R266). -/
def flagsMask : Word := 0x71F

/-- MTS: a special register written, none for a read-only one or a number outside the table. -/
def CoreState.setSpecial (k : CoreState) (sr : Nat) (v : Word) : Option CoreState :=
  match sr with
  | 0x00 => some { k with flags := .ofWord v.toNat }
  | 0x03 => some { k with vbase := v &&& 0xFFFFFF80 }
  | 0x04 => some { k with epc := v }
  | 0x05 => some { k with eflags := v &&& flagsMask }
  | 0x08 => some { k with npc := v }
  | 0x09 => some { k with nflags := v &&& flagsMask }
  | 0x0A => some { k with upc := v }
  | 0x0B => some { k with uflags := v &&& flagsMask }
  | 0x0D => some { k with splim := v }
  | 0x0E => some { k with opsp := v }
  | _ => none

/-- The saved-flags word of a level that is left (R266). -/
def savedFlags (f : Flags) (l : Level) (idle : Bool) : Word :=
  BitVec.ofNat 32 (f.code + l.code * 256 + ofBool idle * 1024)

/-! ### The context window (R273, R274) -/

/-- Does an operation with CTX ≠ 0 run on the core, and is `u` a word of the window? -/
def CoreState.windowAt (k : CoreState) (u : Nat) : Bool := k.inop && k.opCtx != 0 && u % 4 == 0 && decide (u < 256)

/-- May STX write offset `u`: the timers and the firmware state (R274)? -/
def stxOpen (u : Nat) : Bool := decide (4 ≤ u) && (decide (u < 0x14) || decide (0x40 ≤ u))

/-- Word at offset `u` of the window. -/
def CoreState.windowWord (k : CoreState) (u : Nat) : Word :=
  BitVec.ofNat 32 (leNat ((List.range 4).map fun i => k.window.get 0 (u + i)))

/-- Write the word at offset `u` of the window, noting its bytes as written. -/
def CoreState.setWindowWord (k : CoreState) (u : Nat) (v : Word) : CoreState :=
  (List.range 4).foldl (fun (k : CoreState) i =>
    { k with window := k.window.set 0 (u + i) (BitVec.ofNat 8 (v.toNat / 256 ^ i))
             written := k.written.set false (u + i) true }) k

end Sys2Proof.Machine
end

