-- ==== Sys2Proof/Machine/CoreOps.lean ====
section
/-! DEFINITION. What every Clalo instruction shares (08): when a core executes, fetching, retiring, taking a
fault, LOCKUP, loads, stores and the store buffer. -/

namespace Sys2Proof.Machine

/-- Change core c. -/
def State.updCore (s : State) (c : Nat) (f : CoreState → CoreState) : State := s.setCore c (f (s.core c))

/-! ### Readiness and outstanding accesses (R284, R286, R295) -/

/-- Stores of core c, of the present run or of an `old` one, that wait for the answer of a far unit. -/
def State.farStores (s : State) (c : Nat) (old : Bool) : Nat :=
  (s.ring.bridge.filter fun r => r.who == .core c && r.write && !r.stall && r.old == old).length

/-- Stores of core c that wait behind others in its store buffer. -/
def State.heldStores (s : State) (c : Nat) : List CoreStore := s.stores.filter fun e => e.core == c && !e.old

/-- Stores in the store buffer of core c (R284): those that no far unit has acknowledged, and those behind. -/
def State.postedOf (s : State) (c : Nat) : Nat := s.farStores c false + (s.heldStores c).length

/-- Does core c wait for the completion of a load from a far unit? -/
def State.coreStalled (s : State) (c : Nat) : Bool := s.ring.bridge.any fun r => r.who == .core c && r.stall

/-- Does core c execute instructions: it is out of reset, running, clocked, and waits for no load? -/
def State.coreReady (s : State) (c : Nat) : Bool :=
  decide (c < 18) && (s.core c).run == .run && s.runs c && !s.coreStalled c

/-! ### Retiring -/

/-- The present instruction of core c completes: CC_PC shows its address, and the next one is at `target`. -/
def State.retireTo (s : State) (c : Nat) (target : Word) : State :=
  (s.wr R.CC_PC.PC (s.core c).pc.toNat c).updCore c fun (k : CoreState) => { k with pc := target, begun := false }

/-- The present instruction of core c waits: it has begun, and completes before anything enters (R296). -/
def State.begin (s : State) (c : Nat) : State := s.updCore c fun (k : CoreState) => { k with begun := true }

/-- The present instruction, `len` bytes long, completes and the next one follows it. -/
def State.retire (s : State) (c len : Nat) : State := s.retireTo c ((s.core c).pc + BitVec.ofNat 32 len)

/-! ### Faults (R297 to R301) -/

/-- FCAUSE of a fault (R265). -/
def faultCause (v : Nat) (impr ecc : Bool) : Word := BitVec.ofNat 32 (v + 16 * ofBool impr + 32 * ofBool ecc)

/-- LOCKUP of core c (R301): the cause is recorded, the LOCKUP source is raised, and SYS resets the device
(17 R582). -/
def State.lockup (s : State) (c : Nat) (epc addr cause : Word) : State :=
  let s1 := s.updCore c fun (k : CoreState) => { k with run := .lockup }
  let s2 := (((s1.wr R.CC_FAULT_PC.EPC epc.toNat c).wr R.CC_FAULT_INFO.FCAUSE cause.toNat c).wr
    R.CC_FAULT_INFO.VALID 1 c).wr R.CC_FAULT_ADDR.FADDR addr.toNat c
  let s3 := (s2.pulse (shared (192 + c))).alarm (64 + c) 1 c (epc.toNat * 2 ^ 32 + cause.toNat)
  if c = 16 then s3.resetNow 4 s3.power.board else s3

/-- The registers that a fault entry writes (R299). -/
def CoreState.faultEntry (k : CoreState) (v : Nat) (epc addr cause : Word) : CoreState :=
  { k with epc := epc, eflags := savedFlags k.flags k.level false, fcause := cause, faddr := addr
           level := .fault, pc := k.vbase + BitVec.ofNat 32 (8 * v), begun := false }

/-- Take the fault of vector `v` on core c, or lock up at FAULT level (R299, R301). `addr` is FADDR where the
cause has an address. -/
def State.fault (s : State) (c v : Nat) (epc : Word) (addr : Option Word) (impr ecc : Bool := false) : State :=
  let k := s.core c
  let cause := faultCause v impr ecc
  let fa := addr.getD k.faddr
  if k.level = .fault then s.lockup c epc fa cause
  else ((s.updCore c fun (k : CoreState) => k.faultEntry v epc fa cause).bump R.CC_STATUS.FAULTS c).statusCount 0x032

/-- A fault of the present instruction: EPC is its address. -/
def State.faultHere (s : State) (c v : Nat) (addr : Option Word) (ecc : Bool := false) : State :=
  s.fault c v (s.core c).pc addr false ecc

/-! ### Fetch (R260, R297) -/

/-- Addresses of the halfwords of an instruction of `len` bytes. -/
def halvesOf (pc : Word) (len : Nat) : List Word := if len = 4 then [pc, pc + 2] else [pc]

/-- May core instruction fetch use the address: even, in the core's instruction RAM? -/
def fetchable (a : Word) : Bool :=
  a.toNat % 2 == 0 && decide (0xE0000000 ≤ a.toNat) && decide (a.toNat < 0xE0008000)

/-- Fetch the halfwords in order: the state after the check of each, and the address at fault with whether
the error check found it. -/
def State.fetch (s : State) (c : Nat) : List Word → State × Option (Word × Bool)
  | [] => (s, none)
  | a :: t =>
    if fetchable a then
      match s.coreCheck c [coreKey c (a.toNat % 0x10000)] with
      | (s1, true) => s1.fetch c t
      | (s1, false) => (s1, some (a, true))
    else (s, some (a, false))

/-! ### Interrupt entry (09 R320 to R328) -/

/-- Does the line qualify on the core (09 R320)? -/
def State.lineOpen (s : State) (c : Nat) (urgent : Bool) : Bool :=
  let l := (s.core c).level
  if urgent then s.on R.IC_CCTRL.UEN c && (l == .thread || l == .normal)
  else s.on R.IC_CCTRL.NEN c && l == .thread

/-- The line whose interrupt core c takes at a take point: URGENT before NORMAL (09 R320, R321). -/
def State.takenLine (s : State) (c : Nat) : Option Bool :=
  if s.lineOpen c true && (s.nextSource c true).isSome then some true
  else if s.lineOpen c false && (s.nextSource c false).isSome then some false
  else none

/-- May the core take an interrupt now: at a boundary of a running core, which no begun instruction holds back, or
idle (R296, 09 R321)? -/
def State.atTakePoint (s : State) (c : Nat) : Bool :=
  let k := s.core c
  decide (c < 18) && ((k.run == .run && !k.begun) || k.run == .idle) && !s.coreStalled c &&
    !(s.ring.done.any fun d => d.who == .core c)

/-- The registers that an interrupt entry writes (09 R322); E6 follows five ticks after `tick`. -/
def CoreState.interruptEntry (k : CoreState) (urgent : Bool) (tick : Nat) : CoreState :=
  let idle := k.run == .idle
  let pc := if idle then 0 else k.pc
  let fl := savedFlags k.flags k.level idle
  let k1 := if urgent then { k with upc := pc, uflags := fl } else { k with npc := pc, nflags := fl }
  { k1 with flags := {}, level := if urgent then .urgent else .normal, run := .run, begun := false
            pc := k.vbase + (if urgent then 0x50 else 0x48), entering := some (urgent, tick + 5) }

/-- E4 and E5: both halfwords of the vector are fetched; a fault of either has EPC at the vector and ends the
entry (09 R322, R328). -/
def State.vectorFetch (s : State) (c : Nat) : State :=
  let pc := (s.core c).pc
  match s.fetch c (halvesOf pc 4) with
  | (t, none) => t
  | (t, some (_, ecc)) => (t.updCore c fun (k : CoreState) => { k with entering := none }).fault c 4 pc none false ecc

/-- Core c commits to the interrupt of a line (09 R321, R322). -/
def State.enter (s : State) (c : Nat) (urgent : Bool) : State :=
  (s.updCore c fun (k : CoreState) => k.interruptEntry urgent s.tick).vectorFetch c

/-- E6: the pass is spurious where no source is presented on the entered line (09 R323). -/
def State.entryEnd (s : State) (c : Nat) : State :=
  match (s.core c).entering with
  | none => s
  | some (urgent, _) =>
    let t := s.updCore c fun (k : CoreState) => { k with entering := none }
    if (s.nextSource c urgent).isSome then t
    else if urgent then t.bump R.IC_SPURIOUS.URGENT c else t.bump R.IC_SPURIOUS.NORMAL c

/-- The imprecise BUSERR that core c holds, taken at the boundary before the instruction at its PC; held
while the core is at FAULT level (R285). -/
def State.takeStoreError (s : State) (c : Nat) : State :=
  let k := s.core c
  match k.impr with
  | some a =>
    if k.level = .fault then s
    else (s.updCore c fun (k : CoreState) => { k with impr := none }).fault c 3 k.pc
      (some (BitVec.ofNat 32 a)) true
  | none => s

/-- Is the imprecise fault of a store due on core c (R285)? An idle core has no next instruction, and holds it until
it runs (DEDUCED, log 14). -/
def State.storeErrorDue (s : State) (c : Nat) : Bool :=
  (s.core c).impr.isSome && (s.core c).level != .fault && (s.core c).run == .run

/-- What core c takes at this boundary in place of an instruction: the imprecise fault first, then an
interrupt (R298, 09 R321, R324, R325). -/
def State.taken (s : State) (c : Nat) : Option State :=
  if s.atTakePoint c then
    if s.storeErrorDue c then some (s.takeStoreError c) else (s.takenLine c).map fun u => s.enter c u
  else none

/-! ### Execution -/

/-- The instruction at PC is fetched and executed: a fetch fault comes first, then an undefined encoding
whatever its condition; a false condition only completes (R276, R298); otherwise `f` gives the effect. -/
def State.execute (s : State) (h : Head) (len : Nat) (defined : Bool) (f : State → State) : State :=
  match s.fetch h.core (halvesOf (s.core h.core).pc len) with
  | (t, some (a, ecc)) => t.fault h.core 4 a none false ecc
  | (t, none) =>
    if !defined then t.faultHere h.core 1 none
    else if (t.core h.core).flags.meets h.cond then f t
    else t.retire h.core len

/-- Core `h.core` executes an instruction of `len` bytes: nothing happens unless the core executes; an entry
on its way ends, and a fault or an interrupt of this boundary is taken in place of the instruction
(DESIGN CHOICE, log 11). -/
def State.instr (s : State) (h : Head) (len : Nat) (defined : Bool) (f : State → State) :
    Host.Outcome State Fault Refusal :=
  s.powered <|
    if s.coreReady h.core then
      let t := s.entryEnd h.core
      (t.taken h.core).getD (t.execute h len defined f)
    else s

/-- An instruction that changes only its core's registers. -/
def State.regInstr (s : State) (h : Head) (len : Nat) (f : CoreState → CoreState) :
    Host.Outcome State Fault Refusal :=
  s.instr h len true fun t => (t.updCore h.core f).retire h.core len

/-! ### Loads and stores (R282 to R285) -/

/-- Is `a` in the core's local RAMs? -/
def isLocal (a : Nat) : Bool := decide (0xE0000000 ≤ a) && decide (a < 0xE0010000)

/-- Does an access of `n` bytes at `a` raise ALIGN (R282)? -/
def misaligned (a n : Nat) : Bool := a % n != 0 && rangeOf a != some .sram

/-- Is an error of a local read an uncorrectable ECC error, rather than a width that the RAM refuses? -/
def localEcc (a n : Nat) : Bool :=
  match rangeOf a with
  | some .iram => widthOk .iram a n
  | some .dram => widthOk .dram a n
  | _ => false

/-- Targets of the crossbar (01, Internal interconnect): the two Caddy dies, the port of an SRAM bank that serves the
cores, the local point store, the boot ROM, and the register pages, which are one. -/
inductive XbarTarget where
  | die (n : Nat)
  | bank (n : Nat)
  | points
  | rom
  | regs
  deriving DecidableEq, Repr

/-- Target of the image page `e`: the die that holds its physical page (02 R58). -/
def Pte.target (e : Pte) : XbarTarget := .die (e.ppn / 0x8000)

/-- Target of an address outside the core's own RAM and the remote-unit windows; this unit's own live points stand in
the local point store (02 R56). -/
def State.targetOf (s : State) (a : Nat) : Option XbarTarget :=
  let i := a % 0x1000000 / 2
  match rangeOf a with
  | some .raw => some (.die (a / 0x2000000))
  | some .sram => some (.bank (a % 0x400000 / 0x20000))
  | some .rom => some .rom
  | some .live =>
    some (if s.imgEn && i / 4096 == s.ring.addr && s.ring.addr != 0 then .points else (s.live (i / 512)).target)
  | some .snap => some (s.snap (i / 512)).target
  | some .points => some .points
  | some .regs => some .regs
  | _ => none

/-- Targets that the `n` bytes at `a` reach: an access of the SRAM may cross into the next bank (15 R504). -/
def State.targetsOf (s : State) (a n : Nat) : List XbarTarget := (s.targetOf a).toList ++ (s.targetOf (a + n - 1)).toList

/-- Does the buffered store go to a target of the `n` bytes at `a` (R284)? -/
def State.sameTarget (s : State) (e : CoreStore) (a n : Nat) : Bool :=
  (s.targetsOf e.addr e.size).any fun x => (s.targetsOf a n).contains x

/-- Does a load of `n` bytes of core c from `a` wait for an earlier buffered store to its target (R284)? A load
through a remote-unit window waits for every store in the buffer (DEDUCED, log 12). -/
def State.loadWaits (s : State) (c a n : Nat) : Bool :=
  if rangeOf a = some .remote then s.postedOf c != 0 else (s.heldStores c).any fun e => s.sameTarget e a n

/-- Does a store of core c wait in the buffer behind others, so that stores leave it in order (R284)? A far one
leaves it when its unit has acknowledged it, however often it is tried again (DEDUCED, log 12). -/
def State.storeWaits (s : State) (c : Nat) : Bool := s.postedOf c != 0

/-- Core c is still in the run that it was in in state `s`: its registers are as before. -/
def State.sameRun (s t : State) (c : Nat) : Bool := (t.core c).pc == (s.core c).pc && (t.core c).g == (s.core c).g

/-- Core c loads `n` bytes from `a` and goes on with them by `f`. The core stalls while an earlier store to
the target is not accepted, or until a far unit answers (R284, R295) (DEDUCED, log 12). -/
def State.load (s : State) (c a n : Nat) (align : Bool) (f : State → Nat → State) : State :=
  if (if align then a % n != 0 else misaligned a n) then s.faultHere c 2 (some (BitVec.ofNat 32 a))
  else if s.loadWaits c a n then s.begin c
  else match s.busRead (.core c) a n true with
    | (t, .data v) => f t v
    | (t, .err) => t.faultHere c 3 (some (BitVec.ofNat 32 a)) (localEcc a n)
    | (t, .wait _) => t.begin c

/-- Core c, whose present instruction is `len` bytes long, stores the `n` low bytes of `v` at `a`. A store to
local RAM is precise. Any other enters the store buffer and leaves it in order: the core stalls while four are
in it, a store behind one that has not left waits, and every other reaches its target at once; its failure is
imprecise (DEDUCED, log 12). A write that its register makes wait stays in the buffer. A store that resets its own core is followed by the new run. -/
def State.store (s : State) (c len a n v : Nat) : State :=
  if misaligned a n then s.faultHere c 2 (some (BitVec.ofNat 32 a))
  else if !isLocal a && decide (4 ≤ s.postedOf c) then s.begin c
  else if !isLocal a && s.storeWaits c then
    ({ s with stores := s.stores ++ [⟨c, false, a, n, v⟩] } : State).retire c len
  else match s.busWrite (.core c) a n v with
    | (t, .data _) => if s.sameRun t c then t.retire c len else t
    | (t, .err) =>
      if isLocal a then t.faultHere c 3 (some (BitVec.ofNat 32 a)) else (t.storeFailed c a).retire c len
    | (t, .wait _) =>
      if rangeOf a = some .remote then t.retire c len
      else ({ t with stores := t.stores ++ [⟨c, false, a, n, v⟩] } : State).retire c len

/-- May the waiting store leave its buffer: it is the oldest there, and every earlier far one has left it? -/
def State.storeLeaves (s : State) (e : CoreStore) : Bool :=
  (s.stores.find? fun x => x.core == e.core && x.old == e.old) == some e && s.farStores e.core e.old == 0

/-- A tick of the store buffers: the first waiting store that may leave reaches its target (R284). -/
def State.storesTick (s : State) : State :=
  match s.stores.find? s.storeLeaves with
  | none => s
  | some e =>
    let s0 := { s with stores := s.stores.erase e }
    match s0.busWrite (.core e.core) e.addr e.size e.data with
    | (t, .data _) => t
    | (t, .err) => if e.old then t else t.storeFailed e.core e.addr
    | (t, .wait tag) => if rangeOf e.addr = some .remote then t.updReq tag fun r => { r with old := e.old }
      else { t with stores := s.stores }

end Sys2Proof.Machine
end

