-- ==== Sys2Proof/Machine/Alu.lean ====
section
/-! DEFINITION. Clalo data instructions: moves, arithmetic, logic, shifts, products, saturation, quality
precedence and the predicate flag (08 R277 to R281, R289, R290). -/

namespace Sys2Proof.Machine

/-! ### Shared shapes -/

/-- rd = ra op rb with an update of the flags where the form sets them. -/
def CoreState.alu (k : CoreState) (rd ra rb : Nat) (s : Bool) (op : Flags → Word → Word → Word × Flags) :
    CoreState :=
  let x := op k.flags (k.reg ra) (k.reg rb)
  (if s then k.setFlags x.2 else k).setReg rd x.1

/-- rd = ra op an immediate, no flag changed. -/
def CoreState.imm (k : CoreState) (rd ra : Nat) (v : Word) (op : Word → Word → Word) : CoreState :=
  k.setReg rd (op (k.reg ra) v)

/-- ra + rb or, with carry, ra + rb + C. -/
def opAdd (withC : Bool) (f : Flags) (a b : Word) : Word × Flags :=
  let x := addCarry a b (withC && f.c)
  (x.1, f.nzcv x)

/-- ra − rb or, with carry, ra − rb − (1 − C). -/
def opSub (withC : Bool) (f : Flags) (a b : Word) : Word × Flags :=
  let x := subCarry a b (!withC || f.c)
  (x.1, f.nzcv x)

/-- A result that sets N and Z. -/
def opNz (op : Word → Word → Word) (f : Flags) (a b : Word) : Word × Flags :=
  let r := op a b
  (r, f.nz r)

/-- A shift by rb[7:0], a rotation by rb[4:0] (08, ALU Functions). -/
def opShift (kind : Nat) (f : Flags) (a b : Word) : Word × Flags :=
  let x := shiftOp kind a (b.toNat % if kind = 3 then 32 else 256) f.c
  (x.1, f.nzc x.1 x.2)

/-- The code of higher precedence of two quality codes; Z says GOOD (R290). -/
def opQprec (f : Flags) (a b : Word) : Word × Flags :=
  let q := qMax (a.toNat % 16) (b.toNat % 16)
  (BitVec.ofNat 32 q, { f with z := q == 0 })

/-- rd shifted by an immediate, NZC set. -/
def CoreState.shiftImm (k : CoreState) (rd kind n : Nat) : CoreState :=
  let x := shiftOp kind (k.reg rd) n k.flags.c
  (k.setFlags (k.flags.nzc x.1 x.2)).setReg rd x.1

/-- rd replaced by a function of itself, no flag changed. -/
def CoreState.unary (k : CoreState) (rd : Nat) (op : Word → Word) : CoreState := k.setReg rd (op (k.reg rd))

/-- Saturation to `lo`–`hi`; P says that the value changed (R289). -/
def CoreState.sat (k : CoreState) (rd ra : Nat) (lo hi : Int) : CoreState :=
  let x := satOp lo hi (k.reg ra)
  (k.setFlags { k.flags with p := x.2 }).setReg rd x.1

/-- P replaced. -/
def CoreState.setP (k : CoreState) (p : Bool) : CoreState := k.setFlags { k.flags with p := p }

/-- A three-register operation in either form. -/
def State.aluInstr (s : State) (h : Head) (o : AluForm) (op : Flags → Word → Word → Word × Flags) :
    Host.Outcome State Fault Refusal :=
  s.regInstr h o.len fun k => k.alu o.parts.1 o.parts.2.1 o.parts.2.2.1 o.parts.2.2.2 op

/-! ### Meanings, in the table's order -/

/-- MOV rd, rs: rd = rs, no flag changed (R277). -/
def execMov (h : Head) (rd rs : Nat) (s : State) : Host.Outcome State Fault Refusal :=
  s.regInstr h 2 fun k => k.setReg rd (k.reg rs)

/-- ADD: NZCV in the short form or with S (R277, R280). -/
def execAdd (h : Head) (o : AluForm) (s : State) : Host.Outcome State Fault Refusal :=
  s.aluInstr h o (opAdd false)

/-- ADC: ra + rb + C (R278, R280). -/
def execAdc (h : Head) (rd ra rb : Nat) (sf : Bool) (s : State) : Host.Outcome State Fault Refusal :=
  s.regInstr h 4 fun k => k.alu rd ra rb sf (opAdd true)

/-- SUB: NZCV in the short form or with S (R277, R280). -/
def execSub (h : Head) (o : AluForm) (s : State) : Host.Outcome State Fault Refusal :=
  s.aluInstr h o (opSub false)

/-- SBC: ra − rb − (1 − C) (R278, R280). -/
def execSbc (h : Head) (rd ra rb : Nat) (sf : Bool) (s : State) : Host.Outcome State Fault Refusal :=
  s.regInstr h 4 fun k => k.alu rd ra rb sf (opSub true)

/-- AND (R277, R278). -/
def execAnd (h : Head) (o : AluForm) (s : State) : Host.Outcome State Fault Refusal :=
  s.aluInstr h o (opNz fun a b => a &&& b)

/-- OR (R277, R278). -/
def execOr (h : Head) (o : AluForm) (s : State) : Host.Outcome State Fault Refusal :=
  s.aluInstr h o (opNz fun a b => a ||| b)

/-- XOR (R277, R278). -/
def execXor (h : Head) (o : AluForm) (s : State) : Host.Outcome State Fault Refusal :=
  s.aluInstr h o (opNz fun a b => a ^^^ b)

/-- BIC: ra AND NOT rb (R278). -/
def execBic (h : Head) (rd ra rb : Nat) (sf : Bool) (s : State) : Host.Outcome State Fault Refusal :=
  s.regInstr h 4 fun k => k.alu rd ra rb sf (opNz fun a b => a &&& ~~~b)

/-- CMP: rd − rb, not written, NZCV (R277, R278, R280). -/
def execCmp (h : Head) (long : Bool) (rd rb : Nat) (s : State) : Host.Outcome State Fault Refusal :=
  s.regInstr h (lenOf long) fun k => k.setFlags (opSub false k.flags (k.reg rd) (k.reg rb)).2

/-- TST: rd AND rs, not written, NZ (R277). -/
def execTst (h : Head) (rd rs : Nat) (s : State) : Host.Outcome State Fault Refusal :=
  s.regInstr h 2 fun k => k.setFlags (k.flags.nz (k.reg rd &&& k.reg rs))

/-- MOVI: rd = u4 (R277). -/
def execMovi (h : Head) (rd u4 : Nat) (s : State) : Host.Outcome State Fault Refusal :=
  s.regInstr h 2 fun k => k.setReg rd (zext 4 u4)

/-- The short ADDI sets NZCV; the long one changes no flag (R277, R278). -/
def CoreState.addImm (k : CoreState) : ImmForm → CoreState
  | .short rd u4 =>
    let x := opAdd false k.flags (k.reg rd) (zext 4 u4)
    (k.setFlags x.2).setReg rd x.1
  | .long rd ra s12 => k.imm rd ra (sext 12 s12) fun a b => a + b

/-- ADDI (R277, R278). -/
def execAddi (h : Head) (o : ImmForm) (s : State) : Host.Outcome State Fault Refusal :=
  s.regInstr h o.len fun k => k.addImm o

/-- rd − u4 with NZCV. -/
def CoreState.subImm (k : CoreState) (rd u4 : Nat) : CoreState :=
  let x := opSub false k.flags (k.reg rd) (zext 4 u4)
  (k.setFlags x.2).setReg rd x.1

/-- SUBI: rd − u4, NZCV (R277). -/
def execSubi (h : Head) (rd u4 : Nat) (s : State) : Host.Outcome State Fault Refusal :=
  s.regInstr h 2 fun k => k.subImm rd u4

/-- CMPI: rd − u4, or rd − s12 in the long form, not written, NZCV (R277, R278). -/
def execCmpi (h : Head) (long : Bool) (rd imm : Nat) (s : State) : Host.Outcome State Fault Refusal :=
  s.regInstr h (lenOf long) fun k =>
    k.setFlags (opSub false k.flags (k.reg rd) (if long then sext 12 imm else zext 4 imm)).2

/-- ANDI: rd = ra op u12, no flag changed (R278). -/
def execAndi (h : Head) (rd ra u12 : Nat) (s : State) : Host.Outcome State Fault Refusal :=
  s.regInstr h 4 fun k => k.imm rd ra (zext 12 u12) fun a b => a &&& b

/-- ORI: rd = ra op u12, no flag changed (R278). -/
def execOri (h : Head) (rd ra u12 : Nat) (s : State) : Host.Outcome State Fault Refusal :=
  s.regInstr h 4 fun k => k.imm rd ra (zext 12 u12) fun a b => a ||| b

/-- XORI: rd = ra op u12, no flag changed (R278). -/
def execXori (h : Head) (rd ra u12 : Nat) (s : State) : Host.Outcome State Fault Refusal :=
  s.regInstr h 4 fun k => k.imm rd ra (zext 12 u12) fun a b => a ^^^ b

/-- SETL: rd = u16, zero-extended (R278). -/
def execSetl (h : Head) (rd u16 : Nat) (s : State) : Host.Outcome State Fault Refusal :=
  s.regInstr h 4 fun k => k.setReg rd (zext 16 u16)

/-- SETH: rd[31:16] = u16, rd[15:0] kept (R278). -/
def execSeth (h : Head) (rd u16 : Nat) (s : State) : Host.Outcome State Fault Refusal :=
  s.regInstr h 4 fun k => k.setReg rd (putBits (k.reg rd) 31 16 (u16 % 65536))

/-- LSLI: rd shifted by u4, NZC (R277, R281). -/
def execLsli (h : Head) (rd u4 : Nat) (s : State) : Host.Outcome State Fault Refusal :=
  s.regInstr h 2 fun k => k.shiftImm rd 0 (u4 % 16)

/-- LSRI: rd shifted by u4, NZC (R277, R281). -/
def execLsri (h : Head) (rd u4 : Nat) (s : State) : Host.Outcome State Fault Refusal :=
  s.regInstr h 2 fun k => k.shiftImm rd 1 (u4 % 16)

/-- ASRI: rd shifted by u4, NZC (R277, R281). -/
def execAsri (h : Head) (rd u4 : Nat) (s : State) : Host.Outcome State Fault Refusal :=
  s.regInstr h 2 fun k => k.shiftImm rd 2 (u4 % 16)

/-- LSL by rb[7:0], NZC in the short form or with S (R277, R281). -/
def execLsl (h : Head) (o : AluForm) (s : State) : Host.Outcome State Fault Refusal :=
  s.aluInstr h o (opShift 0)

/-- LSR by rb[7:0], NZC in the short form or with S (R277, R281). -/
def execLsr (h : Head) (o : AluForm) (s : State) : Host.Outcome State Fault Refusal :=
  s.aluInstr h o (opShift 1)

/-- ASR by rb[7:0], NZC in the short form or with S (R277, R281). -/
def execAsr (h : Head) (o : AluForm) (s : State) : Host.Outcome State Fault Refusal :=
  s.aluInstr h o (opShift 2)

/-- ROR by rb[4:0] (R278, R281). -/
def execRor (h : Head) (rd ra rb : Nat) (sf : Bool) (s : State) : Host.Outcome State Fault Refusal :=
  s.regInstr h 4 fun k => k.alu rd ra rb sf (opShift 3)

/-- rd = ra shifted by n, NZC with S. -/
def CoreState.shi (k : CoreState) (rd ra kind n : Nat) (s : Bool) : CoreState :=
  let x := shiftOp (kind % 4) (k.reg ra) (n % 32) k.flags.c
  (if s then k.setFlags (k.flags.nzc x.1 x.2) else k).setReg rd x.1

/-- SHI: ra LSL, LSR, ASR or ROR n for KIND 0 to 3 (R278, R281). -/
def execShi (h : Head) (rd ra kind n : Nat) (sf : Bool) (s : State) : Host.Outcome State Fault Refusal :=
  s.regInstr h 4 fun k => k.shi rd ra kind n sf

/-- BTST: Z = 1 when bit u4 of rd is 0 (R277). -/
def execBtst (h : Head) (rd u4 : Nat) (s : State) : Host.Outcome State Fault Refusal :=
  s.regInstr h 2 fun k => k.setFlags { k.flags with z := !(k.reg rd).getLsbD (u4 % 16) }

/-- 0 − rd with the flags of SUB from 0 (R280). -/
def CoreState.neg (k : CoreState) (rd : Nat) : CoreState :=
  let x := opSub false k.flags 0 (k.reg rd)
  (k.setFlags x.2).setReg rd x.1

/-- NOT rd with N and Z. -/
def CoreState.inv (k : CoreState) (rd : Nat) : CoreState :=
  (k.setFlags (k.flags.nz (~~~k.reg rd))).setReg rd (~~~k.reg rd)

/-- NEG: NZCV as SUB from 0 (R277, R280). -/
def execNeg (h : Head) (rd : Nat) (s : State) : Host.Outcome State Fault Refusal :=
  s.regInstr h 2 fun k => k.neg rd

/-- NOT: NZ (R277). -/
def execNot (h : Head) (rd : Nat) (s : State) : Host.Outcome State Fault Refusal :=
  s.regInstr h 2 fun k => k.inv rd

/-- SXTB: bits [7:0] sign-extended, no flag changed (R277). -/
def execSxtb (h : Head) (rd : Nat) (s : State) : Host.Outcome State Fault Refusal :=
  s.regInstr h 2 fun k => k.unary rd fun x => sext 8 x.toNat

/-- SXTH: bits [15:0] sign-extended, no flag changed (R277). -/
def execSxth (h : Head) (rd : Nat) (s : State) : Host.Outcome State Fault Refusal :=
  s.regInstr h 2 fun k => k.unary rd fun x => sext 16 x.toNat

/-- ZXTB: bits [7:0] zero-extended, no flag changed (R277). -/
def execZxtb (h : Head) (rd : Nat) (s : State) : Host.Outcome State Fault Refusal :=
  s.regInstr h 2 fun k => k.unary rd fun x => zext 8 x.toNat

/-- ZXTH: bits [15:0] zero-extended, no flag changed (R277). -/
def execZxth (h : Head) (rd : Nat) (s : State) : Host.Outcome State Fault Refusal :=
  s.regInstr h 2 fun k => k.unary rd fun x => zext 16 x.toNat

/-- MUL: low 32 bits of the product, NZ in the short form or with S (R277, R278). -/
def execMul (h : Head) (o : AluForm) (s : State) : Host.Outcome State Fault Refusal :=
  s.aluInstr h o (opNz fun a b => a * b)

/-- MULHS: high 32 bits of the signed product (R278). -/
def execMulhs (h : Head) (rd ra rb : Nat) (sf : Bool) (s : State) : Host.Outcome State Fault Refusal :=
  s.regInstr h 4 fun k => k.alu rd ra rb sf (opNz mulHigh)

/-- MULHU: high 32 bits of the unsigned product (R278). -/
def execMulhu (h : Head) (rd ra rb : Nat) (sf : Bool) (s : State) : Host.Outcome State Fault Refusal :=
  s.regInstr h 4 fun k => k.alu rd ra rb sf (opNz mulHighU)

/-- SATP: limited to 0–4,095 (R289). -/
def execSatp (h : Head) (o : SatForm) (s : State) : Host.Outcome State Fault Refusal :=
  s.regInstr h o.parts.2.2 fun k => k.sat o.parts.1 o.parts.2.1 0 4095

/-- SATPS: limited to −2,048–2,047 (R289). -/
def execSatps (h : Head) (o : SatForm) (s : State) : Host.Outcome State Fault Refusal :=
  s.regInstr h o.parts.2.2 fun k => k.sat o.parts.1 o.parts.2.1 (-2048) 2047

/-- QPREC (R290). -/
def execQprec (h : Head) (rd ra rb : Nat) (sf : Bool) (s : State) : Host.Outcome State Fault Refusal :=
  s.regInstr h 4 fun k => k.alu rd ra rb sf (opQprec)

/-- P = c, P AND c, P OR c or NOT c, for MODE 0 to 3 (R278). -/
def pcondValue (p c : Bool) : Nat → Bool
  | 0 => c
  | 1 => p && c
  | 2 => p || c
  | _ => !c

/-- PCOND MODE, c (R278). -/
def execPcond (h : Head) (mode c : Nat) (s : State) : Host.Outcome State Fault Refusal :=
  s.regInstr h 4 fun k => k.setP (pcondValue k.flags.p (k.flags.meets c) (mode % 4))

/-- PCLR (R277, System Group). -/
def execPclr (h : Head) (long : Bool) (s : State) : Host.Outcome State Fault Refusal :=
  s.regInstr h (lenOf long) fun k => k.setP false

/-- PSET (R277, System Group). -/
def execPset (h : Head) (long : Bool) (s : State) : Host.Outcome State Fault Refusal :=
  s.regInstr h (lenOf long) fun k => k.setP true

/-- PINV (R277, System Group). -/
def execPinv (h : Head) (long : Bool) (s : State) : Host.Outcome State Fault Refusal :=
  s.regInstr h (lenOf long) fun k => k.setP (!k.flags.p)

end Sys2Proof.Machine
end

