-- ==== Sys2Proof/Machine/Branch.lean ====
section
/-! DEFINITION. Clalo branches, calls and returns (08 R277, R278, R292 to R294). -/

namespace Sys2Proof.Machine

/-! ### Shared shapes -/

/-- A branch: `f` gives the registers after it and `target` the next PC, both from the core before it. -/
def State.jump (s : State) (h : Head) (len : Nat) (target : CoreState → Word) (f : CoreState → CoreState) :
    Host.Outcome State Fault Refusal :=
  s.instr h len true fun t =>
    let next := target (t.core h.core)
    (t.updCore h.core f).retireTo h.core next

/-- PC + 2 × a signed field of `w` bits. -/
def CoreState.relative (k : CoreState) (w off : Nat) : Word := k.pc + 2 * sext w off

/-- Lowest address that a frame may occupy: SPLIM, and never below data RAM (R294). -/
def CoreState.frameFloor (k : CoreState) : Nat := max k.splim.toNat 0xE0008000

/-- Does `[a, a + n)` lie wholly within SPLIM to 0xE000_FFFF? -/
def CoreState.frameOk (k : CoreState) (a n : Nat) : Bool := decide (k.frameFloor ≤ a) && decide (a + n ≤ 0xE0010000)

/-- Write words at rising addresses of core c's local RAM. -/
def State.putWords (s : State) (c a : Nat) : List Word → State
  | [] => s
  | w :: t => (s.coreWrite c (a % 0x10000) 4 w.toNat).putWords c (a + 4) t

/-- Read words at rising addresses of core c's local RAM: the address at fault where the error check fails. -/
def State.getWords (s : State) (c a : Nat) : Nat → State × (List Word) × Option Nat
  | 0 => (s, [], none)
  | n + 1 =>
    match s.coreRead c (a % 0x10000) 4 with
    | (t, none) => (t, [], some a)
    | (t, some v) =>
      let x := t.getWords c (a + 4) n
      (x.1, BitVec.ofNat 32 v :: x.2.1, x.2.2)

/-- The words of a CALL frame (08, CALL Frame). -/
def CoreState.frame (k : CoreState) (mask : Nat) (ret : Word) : List Word :=
  BitVec.ofNat 32 (mask * 65536 + 0xCA11) :: ret :: (maskRegs mask).map k.reg

/-- CALL on core c (R292, R294). -/
def State.call (s : State) (c : Nat) (o : CallForm) : State :=
  let k := s.core c
  let sp := (k.reg 14).toNat
  let size := 4 * (2 + (maskRegs o.mask).length)
  if sp % 4 ≠ 0 then s.faultHere c 2 (some (k.reg 14))
  else if size ≤ sp ∧ k.frameOk (sp - size) size = true then
    let ret := k.pc + BitVec.ofNat 32 o.len
    let t := s.putWords c (sp - size) (k.frame o.mask ret)
    (t.updCore c fun (k : CoreState) => k.setReg 14 (BitVec.ofNat 32 (sp - size))).retireTo c (k.reg o.ra)
  else s.faultHere c 6 none

/-- RET of a frame whose header `mask` is known: registers, PC and g14 (R293). -/
def State.unframe (s : State) (c sp mask : Nat) : State :=
  let regs := maskRegs mask
  match s.getWords c (sp + 4) (1 + regs.length) with
  | (t, ret :: ws, none) =>
    (t.updCore c fun (k : CoreState) =>
      (k.setRegs (regs.zip ws)).setReg 14 (BitVec.ofNat 32 (sp + 4 * (2 + regs.length)))).retireTo c ret
  | (t, _, bad) => t.faultHere c 3 (bad.map (BitVec.ofNat 32)) true

/-- RET on core c (R293, R294) (DEDUCED, log 13). -/
def State.ret (s : State) (c : Nat) : State :=
  let k := s.core c
  let sp := (k.reg 14).toNat
  if sp % 4 ≠ 0 then s.faultHere c 2 (some (k.reg 14))
  else if k.frameOk sp 8 = false then s.faultHere c 6 none
  else match s.coreRead c (sp % 0x10000) 4 with
    | (t, none) => t.faultHere c 3 (some (k.reg 14)) true
    | (t, some v) =>
      let mask := v / 65536
      if v % 65536 = 0xCA11 ∧ k.frameOk sp (4 * (2 + (maskRegs mask).length)) = true then t.unframe c sp mask
      else t.faultHere c 6 none

/-! ### Meanings, in the table's order -/

/-- B: PC + 2 × s11, or s20 in the long form (R277, R278). -/
def execB (h : Head) (long : Bool) (off : Nat) (s : State) : Host.Outcome State Fault Refusal :=
  s.jump h (lenOf long) (fun k => k.relative (if long then 20 else 11) off) id

/-- BL: g15 = PC + 4, then as B (R278). -/
def execBl (h : Head) (off : Nat) (s : State) : Host.Outcome State Fault Refusal :=
  s.jump h 4 (fun k => k.relative 20 off) fun k => k.setReg 15 (k.pc + 4)

/-- JMP: PC = rd (R277). -/
def execJmp (h : Head) (rd : Nat) (s : State) : Host.Outcome State Fault Refusal :=
  s.jump h 2 (fun k => k.reg rd) id

/-- JL: g15 = PC + 2, PC = rd as it was before (R277). -/
def execJl (h : Head) (rd : Nat) (s : State) : Host.Outcome State Fault Refusal :=
  s.jump h 2 (fun k => k.reg rd) fun k => k.setReg 15 (k.pc + 2)

/-- CALL (R292, R294). -/
def execCall (h : Head) (o : CallForm) (s : State) : Host.Outcome State Fault Refusal :=
  s.instr h o.len true fun t => t.call h.core o

/-- RET (R293, R294). -/
def execRet (h : Head) (long : Bool) (s : State) : Host.Outcome State Fault Refusal :=
  s.instr h (lenOf long) true fun t => t.ret h.core

end Sys2Proof.Machine
end

