-- ==== Sys2Proof/Machine/RegRows.lean ====
section
/-! DEFINITION. The rows of the opcode table that are one write or one read of a named register: each gives
the register and the value, and the register's own chapter says what happens (`State.regRead`,
`State.regWrite`). An operand that names no register (a controller beyond the last one) makes no access. -/

namespace Sys2Proof.Machine

/-- Is there a register of field `f` in instance `inst` at repetition `idx` (20 R626)? -/
def regNamed (f : Fld) (inst idx : Nat) : Bool :=
  match pageRow f.page with
  | none => false
  | some row => decide (inst < row.count) && ((findReg row.ty f.off).map fun d => decide (idx < d.count)).getD false

/-- `who` writes `v` to the register of field `f`. -/
def State.rowWrite (s : State) (who : Initiator) (f : Fld) (v : Nat) (inst : Nat := 0) (idx : Nat := 0) : State :=
  if regNamed f inst idx then s.writeReg who (f.addr inst idx) (BitVec.ofNat 32 v) else s

/-- `who` reads the register of field `f`. -/
def State.rowRead (s : State) (who : Initiator) (f : Fld) (inst : Nat := 0) (idx : Nat := 0) : State :=
  if regNamed f inst idx then s.readReg who (f.addr inst idx) else s

/-- `who` writes `v` at offset `off` of the common layout of page `p`. -/
def State.pageWrite (s : State) (who : Initiator) (p off v : Nat) : State :=
  if p < 1024 then s.writeReg who (regAt p off) (BitVec.ofNat 32 v) else s

/-- The RW fields of a register of page `p` as they stand. -/
def State.rwOf (s : State) (d : RegDesc) (p : Nat) : Nat :=
  let v := s.reg (regAt p d.off)
  (d.fields.filter fun f => f.acc == .rw).foldl (fun n f => n + getBits v f.hi f.lo * 2 ^ f.lo) 0

/-- CAN_CTRL of controller c as it stands, with MODE = `mode`. -/
def State.canCtrlWith (s : State) (c mode : Nat) : Nat := s.rwOf R.CAN_CTRL.desc (28 + c) / 8 * 8 + mode

/-! ### Any register (00 R9) -/

/-- REGISTER_WRITE (00 R9, 20 R628). -/
def execRegisterWrite (who : Initiator) (addr : Nat) (value : Word) (s : State) : Host.Outcome State Fault Refusal :=
  s.powered (s.writeReg who addr value)

/-- RCL_READ (00 R9): the RCL fields of the register clear. -/
def execRclRead (who : Initiator) (addr : Nat) (s : State) : Host.Outcome State Fault Refusal :=
  s.powered (s.readReg who addr)

/-- RESULT_REGISTER_READ (16 R563 to R565). -/
def execResultRegisterRead (who : Initiator) (addr : Nat) (s : State) : Host.Outcome State Fault Refusal :=
  s.powered (s.readReg who addr)

/-! ### Points and images (02) -/

/-- HOSTBEAT (02 R76). -/
def execHostbeat (who : Initiator) (value : Word) (s : State) : Host.Outcome State Fault Refusal :=
  s.powered (s.rowWrite who R.RING_PT_HOSTBEAT.BEAT value.toNat)

/-- FORCE_SET (02 R45): OP = 0b01. -/
def execForceSet (who : Initiator) (index value : Nat) (s : State) : Host.Outcome State Fault Refusal :=
  s.powered (s.rowWrite who R.RING_PT_FORCE.OP (2 ^ 30 + value % 4096 * 2 ^ 16 + index % 4096))

/-- FORCE_RELEASE (02 R45): OP = 0b10. -/
def execForceRelease (who : Initiator) (index : Nat) (s : State) : Host.Outcome State Fault Refusal :=
  s.powered (s.rowWrite who R.RING_PT_FORCE.OP (2 ^ 31 + index % 4096))

/-- SNAP_REQ (02 R65). -/
def execSnapReq (who : Initiator) (s : State) : Host.Outcome State Fault Refusal :=
  s.powered (s.rowWrite who R.CAD_IMG_CTRL.SNAP_REQ 2)

/-- SNAP_REL (02 R70). -/
def execSnapRel (who : Initiator) (ackSeq : Nat) (req : Bool) (s : State) : Host.Outcome State Fault Refusal :=
  s.powered (s.rowWrite who R.CAD_IMG_CTRL.SNAP_REL (ackSeq % 256 * 2 ^ 8 + 4 + ofBool req * 2))

/-! ### Ring and time (03, 04, 05) -/

/-- RETRAIN_E (03 R84). -/
def execRetrainE (who : Initiator) (s : State) : Host.Outcome State Fault Refusal :=
  s.powered (s.rowWrite who R.RING_LNK_CTRL.RETRAIN_E (s.rwOf R.RING_LNK_CTRL.desc 16 + 2))

/-- RETRAIN_W (03 R84). -/
def execRetrainW (who : Initiator) (s : State) : Host.Outcome State Fault Refusal :=
  s.powered (s.rowWrite who R.RING_LNK_CTRL.RETRAIN_W (s.rwOf R.RING_LNK_CTRL.desc 16 + 4))

/-- LINK_DETACH (03 R115). -/
def execLinkDetach (who : Initiator) (s : State) : Host.Outcome State Fault Refusal :=
  s.powered (s.rowWrite who R.RING_LNK_CTRL.DETACH (s.rwOf R.RING_LNK_CTRL.desc 16 + 32))

/-- RESTART (03 R120). -/
def execRestart (who : Initiator) (s : State) : Host.Outcome State Fault Refusal :=
  s.powered (s.rowWrite who R.RING_COLD_CTRL.RESTART (s.rwOf R.RING_COLD_CTRL.desc 16 + 2 ^ 31))

/-- TS_LOAD (04 R160). -/
def execTsLoad (who : Initiator) (set : Nat) (s : State) : Host.Outcome State Fault Refusal :=
  s.powered (s.rowWrite who R.RING_TS_LOAD.START (2 ^ 31 + set % 8))

/-- TS_DROP (04 R160). -/
def execTsDrop (who : Initiator) (set : Nat) (s : State) : Host.Outcome State Fault Refusal :=
  s.powered (s.rowWrite who R.RING_TS_LOAD.DROP (2 ^ 30 + set % 8))

/-- MC_START (04 R162). -/
def execMcStart (who : Initiator) (next : Nat) (s : State) : Host.Outcome State Fault Refusal :=
  s.powered (s.rowWrite who R.RING_MC_CTRL.START (2 ^ 31 + next % 8))

/-- TB_CAPTURE (05 R176). -/
def execTbCapture (who : Initiator) (set : Nat) (s : State) : Host.Outcome State Fault Refusal :=
  s.powered (s.rowWrite who R.TB_CAPTURE.SET (set % 8))

/-- TB_STEP (05 R177): TB_STEP_NS takes `ns`. -/
def execTbStep (who : Initiator) (ns : Word) (s : State) : Host.Outcome State Fault Refusal :=
  s.powered (s.rowWrite who R.TB_STEP_NS.NS ns.toNat)

/-- TB_REF_WRITE (05 R183). -/
def execTbRefWrite (who : Initiator) (value : Word) (s : State) : Host.Outcome State Fault Refusal :=
  s.powered (s.rowWrite who R.TB_CTRL.REF value.toNat)

/-! ### Pour unit and movers (06, 07) -/

/-- POUR_POST (06 R214). -/
def execPourPost (who : Initiator) (chan : Nat) (value : Word) (s : State) : Host.Outcome State Fault Refusal :=
  s.powered (s.rowWrite who R.POUR_POSTc.NODE value.toNat 0 chan)

/-- POUR_HOLD (06 R223): HOLD = 1. -/
def execPourHold (who : Initiator) (en : Bool) (s : State) : Host.Outcome State Fault Refusal :=
  s.powered (s.rowWrite who R.POUR_CTRL.HOLD (2 + ofBool en))

/-- SET_EN (06 R213). -/
def execSetEn (who : Initiator) (node : Nat) (s : State) : Host.Outcome State Fault Refusal :=
  s.powered (s.rowWrite who R.POUR_NODE_CTRL.SET_EN (2 ^ 31 + node % 4096))

/-- CLR_EN (06 R223). -/
def execClrEn (who : Initiator) (node : Nat) (s : State) : Host.Outcome State Fault Refusal :=
  s.powered (s.rowWrite who R.POUR_NODE_CTRL.CLR_EN (2 ^ 30 + node % 4096))

/-- MOV_HOLD (07 R257). -/
def execMovHold (who : Initiator) (m : Nat) (hold : Bool) (s : State) : Host.Outcome State Fault Refusal :=
  s.powered (s.rowWrite who R.MOV_CTRL.HOLD (ofBool hold) m)

/-! ### Cores (08) -/

/-- CORE_RESET (08 R304): RUN = 0. -/
def execCoreReset (who : Initiator) (core : Nat) (dbg : Bool) (s : State) : Host.Outcome State Fault Refusal :=
  s.powered (s.rowWrite who R.CC_CTRL.RUN (ofBool dbg * 2) core)

/-- CORE_RELEASE (08 R305): RUN = 1. -/
def execCoreRelease (who : Initiator) (core : Nat) (dbg : Bool) (s : State) : Host.Outcome State Fault Refusal :=
  s.powered (s.rowWrite who R.CC_CTRL.RUN (ofBool dbg * 2 + 1) core)

/-! ### Interrupts, mailboxes and doorbells (09) -/

/-- IC_NNEXT_POP (09 R318). -/
def execIcNnextPop (who : Initiator) (core : Nat) (s : State) : Host.Outcome State Fault Refusal :=
  s.powered (s.rowRead who R.IC_NNEXT_POP.SRC core)

/-- IC_UNEXT_POP (09 R318). -/
def execIcUnextPop (who : Initiator) (core : Nat) (s : State) : Host.Outcome State Fault Refusal :=
  s.powered (s.rowRead who R.IC_UNEXT_POP.SRC core)

/-- IC_EOI (09 R319). -/
def execIcEoi (who : Initiator) (core src : Nat) (s : State) : Host.Outcome State Fault Refusal :=
  s.powered (s.rowWrite who R.IC_EOI.SRC (src % 1024) core)

/-- IC_SEOI (09 R319). -/
def execIcSeoi (who : Initiator) (src : Nat) (s : State) : Host.Outcome State Fault Refusal :=
  s.powered (s.rowWrite who R.IC_SEOI.SRC (src % 1024))

/-- PTRIG_TRIGGER (09 R314): CLR = 0. -/
def execPtrigTrigger (who : Initiator) (core src : Nat) (s : State) : Host.Outcome State Fault Refusal :=
  s.powered (s.rowWrite who R.IC_PTRIG.SRC (src % 64) core)

/-- PTRIG_CLEAR (09 R314): CLR = 1. -/
def execPtrigClear (who : Initiator) (core src : Nat) (s : State) : Host.Outcome State Fault Refusal :=
  s.powered (s.rowWrite who R.IC_PTRIG.CLR (2 ^ 7 + src % 64) core)

/-- STRIG_TRIGGER (09 R314): CLR = 0. -/
def execStrigTrigger (who : Initiator) (src : Nat) (s : State) : Host.Outcome State Fault Refusal :=
  s.powered (s.rowWrite who R.IC_STRIG.SRC (src % 1024))

/-- STRIG_CLEAR (09 R314): CLR = 1. -/
def execStrigClear (who : Initiator) (src : Nat) (s : State) : Host.Outcome State Fault Refusal :=
  s.powered (s.rowWrite who R.IC_STRIG.CLR (2 ^ 15 + src % 1024))

/-- IC_ROUTE_WRITE (09 R312). -/
def execIcRouteWrite (who : Initiator) (src : Nat) (value : Word) (s : State) : Host.Outcome State Fault Refusal :=
  s.powered (if 64 ≤ src then s.rowWrite who R.IC_ROUTEn.TARGET value.toNat 0 (src - 64) else s)

/-- DOORBELL_SET (09 R338). -/
def execDoorbellSet (who : Initiator) (core : Nat) (hi : Bool) (bits : Word) (s : State) :
    Host.Outcome State Fault Refusal :=
  s.powered (s.rowWrite who (if hi then R.IC_DB_SET_HI.SET else R.IC_DB_SET_LO.SET) bits.toNat core)

/-- MBX_TX_LO (09 R332). -/
def execMbxTxLo (who : Initiator) (chan : Nat) (value : Word) (s : State) : Host.Outcome State Fault Refusal :=
  s.powered (s.rowWrite who R.MBX_TX_LOn.PAYLOAD_LO value.toNat 0 chan)

/-- MBX_TX_HI (09 R332, R333). -/
def execMbxTxHi (who : Initiator) (chan : Nat) (value : Word) (s : State) : Host.Outcome State Fault Refusal :=
  s.powered (s.rowWrite who R.MBX_TX_HIn.PAYLOAD_HI value.toNat 0 chan)

/-- MBX_POP_HI (09 R334). -/
def execMbxPopHi (who : Initiator) (chan : Nat) (s : State) : Host.Outcome State Fault Refusal :=
  s.powered (s.rowRead who R.MBX_POP_HIn.STAMP 0 chan)

/-! ### Pin engines (10) -/

/-- PE_GSTART (10 R367): the levels of bank `g` are `pins`. -/
def execPeGstart (who : Initiator) (g mask pins : Nat) (s : State) : Host.Outcome State Fault Refusal :=
  s.powered ((s.seePins g pins).rowWrite who R.PE_GSTART.MASK (mask % 256) g)

/-- PE_GRESTART (10 R366). -/
def execPeGrestart (who : Initiator) (g mask : Nat) (s : State) : Host.Outcome State Fault Refusal :=
  s.powered (s.rowWrite who R.PE_GRESTART.MASK (mask % 256) g)

/-- STOP (10 R368). -/
def execStop (who : Initiator) (e : Nat) (s : State) : Host.Outcome State Fault Refusal :=
  s.powered (s.rowWrite who R.PE_ECTRL.STOP 1 e)

/-- ARM (10 R371). -/
def execArm (who : Initiator) (e : Nat) (s : State) : Host.Outcome State Fault Refusal :=
  s.powered (s.rowWrite who R.PE_ECTRL.ARM 4 e)

/-- DISARM (10 R372). -/
def execDisarm (who : Initiator) (e : Nat) (s : State) : Host.Outcome State Fault Refusal :=
  s.powered (s.rowWrite who R.PE_ECTRL.DISARM 2 e)

/-- INLATCH (10 R347): the levels of bank `g` are `pins`. -/
def execInlatch (who : Initiator) (g pins : Nat) (s : State) : Host.Outcome State Fault Refusal :=
  s.powered ((s.seePins g pins).rowWrite who R.PE_GCTRL.INLATCH 2 g)

/-- OUTLATCH (10 R341). -/
def execOutlatch (who : Initiator) (g : Nat) (s : State) : Host.Outcome State Fault Refusal :=
  s.powered (s.rowWrite who R.PE_GCTRL.OUTLATCH 1 g)

/-- PE_TX_PUSH (10 R361). -/
def execPeTxPush (who : Initiator) (e : Nat) (value : Word) (s : State) : Host.Outcome State Fault Refusal :=
  s.powered (s.rowWrite who R.PE_TX_PUSH.DATA value.toNat e)

/-- PE_RX_POP (10 R361). -/
def execPeRxPop (who : Initiator) (e : Nat) (s : State) : Host.Outcome State Fault Refusal :=
  s.powered (s.rowRead who R.PE_RX_POP.DATA e)

/-- PE_STAGE_WRITE (10 R345). -/
def execPeStageWrite (who : Initiator) (e : Nat) (value : Word) (s : State) : Host.Outcome State Fault Refusal :=
  s.powered (s.rowWrite who R.PE_STAGE.VALUE value.toNat e)

/-! ### CAN controllers and the Strainer (11) -/

/-- CAN_MODE_INIT (11 R383), the other fields as they stand. -/
def execCanModeInit (who : Initiator) (c : Nat) (s : State) : Host.Outcome State Fault Refusal :=
  s.powered (s.rowWrite who R.CAN_CTRL.MODE (s.canCtrlWith c 0) c)

/-- CAN_MODE_NORMAL (11 R384), the other fields as they stand. -/
def execCanModeNormal (who : Initiator) (c : Nat) (s : State) : Host.Outcome State Fault Refusal :=
  s.powered (s.rowWrite who R.CAN_CTRL.MODE (s.canCtrlWith c 1) c)

/-- CAN_MODE_LISTEN (11 R382), the other fields as they stand. -/
def execCanModeListen (who : Initiator) (c : Nat) (s : State) : Host.Outcome State Fault Refusal :=
  s.powered (s.rowWrite who R.CAN_CTRL.MODE (s.canCtrlWith c 2) c)

/-- CAN_MODE_LOOPBACK (11 R382), the other fields as they stand. -/
def execCanModeLoopback (who : Initiator) (c : Nat) (s : State) : Host.Outcome State Fault Refusal :=
  s.powered (s.rowWrite who R.CAN_CTRL.MODE (s.canCtrlWith c 3) c)

/-- CAN_MODE_SLEEP (11 R415), the other fields as they stand. -/
def execCanModeSleep (who : Initiator) (c : Nat) (s : State) : Host.Outcome State Fault Refusal :=
  s.powered (s.rowWrite who R.CAN_CTRL.MODE (s.canCtrlWith c 4) c)

/-- CAN_RXF_ACK (11 R397). -/
def execCanRxfAck (who : Initiator) (c : Nat) (fifo1 : Bool) (get : Nat) (s : State) :
    Host.Outcome State Fault Refusal :=
  s.powered (s.rowWrite who (if fifo1 then R.CAN_RXF1_ACK.GET else R.CAN_RXF0_ACK.GET) (get % 128) c)

/-- CAN_TXREQ (11 R406). -/
def execCanTxreq (who : Initiator) (c : Nat) (bufs : Word) (s : State) : Host.Outcome State Fault Refusal :=
  s.powered (s.rowWrite who R.CAN_TXREQ.BUF bufs.toNat c)

/-- CAN_TXABORT (11 R409). -/
def execCanTxabort (who : Initiator) (c : Nat) (bufs : Word) (s : State) : Host.Outcome State Fault Refusal :=
  s.powered (s.rowWrite who R.CAN_TXABORT.BUF bufs.toNat c)

/-- RECOVER (11 R414), the other fields as they stand. -/
def execRecover (who : Initiator) (c : Nat) (s : State) : Host.Outcome State Fault Refusal :=
  s.powered (s.rowWrite who R.CAN_CTRL.RECOVER (s.rwOf R.CAN_CTRL.desc (28 + c) + 2 ^ 31) c)

/-- CAN_LOOP_RESTART (11 R387). -/
def execCanLoopRestart (who : Initiator) (c : Nat) (s : State) : Host.Outcome State Fault Refusal :=
  s.powered (s.rowWrite who R.CAN_LOOP.RESTART (2 ^ 31) c)

/-- STR_DATA_LO_WRITE (11 R403). -/
def execStrDataLoWrite (who : Initiator) (value : Word) (s : State) : Host.Outcome State Fault Refusal :=
  s.powered (s.rowWrite who R.STR_DATA_LO.DATA value.toNat)

/-- STR_DATA_HI_WRITE (11 R403). -/
def execStrDataHiWrite (who : Initiator) (value : Word) (s : State) : Host.Outcome State Fault Refusal :=
  s.powered (s.rowWrite who R.STR_DATA_HI.DATA value.toNat)

/-- STR_DATA_HI_READ (11 R403). -/
def execStrDataHiRead (who : Initiator) (s : State) : Host.Outcome State Fault Refusal :=
  s.powered (s.rowRead who R.STR_DATA_HI.DATA)

/-! ### Wake unit (12) -/

/-- KA_SET (12 R432). -/
def execKaSet (who : Initiator) (bits : Word) (s : State) : Host.Outcome State Fault Refusal :=
  s.powered (s.rowWrite who R.WK_KA_SET.BITS bits.toNat)

/-- WK_TOKEN_WRITE (12 R434). -/
def execWkTokenWrite (who : Initiator) (value : Word) (s : State) : Host.Outcome State Fault Refusal :=
  s.powered (s.rowWrite who R.WK_TOKEN.COMMIT value.toNat)

/-! ### Ethernet MACs and the switch core (13, 14) -/

/-- MAC_RXR_GET (13 R456). -/
def execMacRxrGet (who : Initiator) (m q get : Nat) (s : State) : Host.Outcome State Fault Refusal :=
  s.powered (s.rowWrite who R.MAC_RXRq_PTR.GET (get % 1024 * 2 ^ 16) m q)

/-- MAC_TXR_TAIL (13 R459). -/
def execMacTxrTail (who : Initiator) (m q tail : Nat) (s : State) : Host.Outcome State Fault Refusal :=
  s.powered (s.rowWrite who R.MAC_TXRq_PTR.TAIL (tail % 1024 * 2 ^ 16) m q)

/-- MAC_TXTS_POP (13 R462). -/
def execMacTxtsPop (who : Initiator) (m : Nat) (s : State) : Host.Outcome State Fault Refusal :=
  s.powered (s.rowRead who R.MAC_TXTS_POP.INDEX m)

/-- GCL_ARM (13 R472), the other fields as they stand. -/
def execGclArm (who : Initiator) (m : Nat) (s : State) : Host.Outcome State Fault Refusal :=
  s.powered (s.rowWrite who R.MAC_GCL_CTRL.ARM (s.rwOf R.MAC_GCL_CTRL.desc (24 + m) + 2 ^ 30) m)

/-- GCL_DISARM (13 R472), the other fields as they stand. -/
def execGclDisarm (who : Initiator) (m : Nat) (s : State) : Host.Outcome State Fault Refusal :=
  s.powered (s.rowWrite who R.MAC_GCL_CTRL.DISARM (s.rwOf R.MAC_GCL_CTRL.desc (24 + m) + 2 ^ 29) m)

/-- MAC_ENABLE (17 R572): EN = 1, the other fields as they stand. -/
def execMacEnable (who : Initiator) (m : Nat) (s : State) : Host.Outcome State Fault Refusal :=
  s.powered (s.rowWrite who R.MAC_CTRL.EN (s.rwOf R.MAC_CTRL.desc (24 + m) % 2 ^ 31 + 2 ^ 31) m)

/-- FDB_READ (14 R481): OP = 1. -/
def execFdbRead (who : Initiator) (index : Nat) (s : State) : Host.Outcome State Fault Refusal :=
  s.powered (s.rowWrite who R.SW_FDB_SEL.OP (1 * 2 ^ 30 + index % 1024))

/-- FDB_WRITE (14 R481): OP = 2. -/
def execFdbWrite (who : Initiator) (index : Nat) (s : State) : Host.Outcome State Fault Refusal :=
  s.powered (s.rowWrite who R.SW_FDB_SEL.OP (2 * 2 ^ 30 + index % 1024))

/-- FDB_FLUSH (14 R481): OP = 3. -/
def execFdbFlush (who : Initiator) (index : Nat) (s : State) : Host.Outcome State Fault Refusal :=
  s.powered (s.rowWrite who R.SW_FDB_SEL.OP (3 * 2 ^ 30 + index % 1024))

/-- SW_TXR_TAIL (14 R497): SW_TXRq_PTR or PCIE_HTXRq_PTR. -/
def execSwTxrTail (who : Initiator) (host : Bool) (q tail : Nat) (s : State) : Host.Outcome State Fault Refusal :=
  s.powered (s.rowWrite who (if host then R.PCIE_HTXRq_PTR.TAIL_or_GET else R.SW_TXRq_PTR.TAIL)
    (tail % 1024 * 2 ^ 16) 0 q)

/-! ### Caddy (15) -/

/-- CAD_PAGE_POP (15 R524). -/
def execCadPagePop (who : Initiator) (s : State) : Host.Outcome State Fault Refusal :=
  s.powered (s.rowRead who R.CAD_PAGE_POP.PAGE)

/-- CAD_CELL_POP (15 R525). -/
def execCadCellPop (who : Initiator) (s : State) : Host.Outcome State Fault Refusal :=
  s.powered (s.rowRead who R.CAD_CELL_POP.CELL)

/-- CAD_PAGE_FREE (15 R526). -/
def execCadPageFree (who : Initiator) (num : Nat) (s : State) : Host.Outcome State Fault Refusal :=
  s.powered (s.rowWrite who R.CAD_PAGE_FREE.NUM (num % 2 ^ 18))

/-- CAD_CELL_FREE (15 R525). -/
def execCadCellFree (who : Initiator) (num : Nat) (s : State) : Host.Outcome State Fault Refusal :=
  s.powered (s.rowWrite who R.CAD_CELL_FREE.NUM (num % 2 ^ 18))

/-- CARVE_CREATE (15 R527). -/
def execCarveCreate (who : Initiator) (n pages : Nat) (s : State) : Host.Outcome State Fault Refusal :=
  s.powered (s.rowWrite who R.CAD_CARVEn_PAGES.PAGES (pages % 2 ^ 17) 0 n)

/-- CARVE_RELEASE (15 R528): PAGES = 0. -/
def execCarveRelease (who : Initiator) (n : Nat) (s : State) : Host.Outcome State Fault Refusal :=
  s.powered (s.rowWrite who R.CAD_CARVEn_PAGES.PAGES 0 0 n)

/-! ### Host bridge and semaphores (16) -/

/-- LB_HNEXT_POP (16 R541). -/
def execLbHnextPop (who : Initiator) (s : State) : Host.Outcome State Fault Refusal :=
  s.powered (s.rowRead who R.LB_HNEXT_POP.SRC)

/-- FLASH_TRANSACTION (16 R558): START = 1. -/
def execFlashTransaction (who : Initiator) (value : Word) (s : State) : Host.Outcome State Fault Refusal :=
  s.powered (s.rowWrite who R.LB_FL_CMD.START (value.toNat % 2 ^ 31 + 2 ^ 31))

/-- SEM_POP (16 R560). -/
def execSemPop (who : Initiator) (n : Nat) (s : State) : Host.Outcome State Fault Refusal :=
  s.powered (s.rowRead who R.BR_SEM_POPn.OWNER 0 n)

/-- SEM_RELEASE (16 R560): REL = 1. -/
def execSemRelease (who : Initiator) (n : Nat) (s : State) : Host.Outcome State Fault Refusal :=
  s.powered (s.rowWrite who R.BR_SEM_PEEKn.REL (2 ^ 29) 0 n)

/-! ### Power and reset (17) -/

/-- KET_RST (17 R584): the start that follows the reset meets the board `b`. -/
def execKetRst (who : Initiator) (key : Nat) (b : Board) (s : State) : Host.Outcome State Fault Refusal :=
  s.powered ((if key % 256 = 0xC5 then { s with power := { s.power with board := b } } else s).rowWrite who
    R.KET_RST.KEY key)

/-- WDOG_KICK (17 R586): KICK = 1, the other fields as in `value`. -/
def execWdogKick (who : Initiator) (value : Word) (s : State) : Host.Outcome State Fault Refusal :=
  s.powered (s.rowWrite who R.KET_WDOG.KICK (value.toNat % 2 ^ 30 + bitsOf value.toNat 31 31 * 2 ^ 31 + 2 ^ 30))

/-- KET_STATE_REQ (17 R581): ENTER = 1. -/
def execKetStateReq (who : Initiator) (deep : Bool) (s : State) : Host.Outcome State Fault Refusal :=
  s.powered (s.rowWrite who R.KET_STATE_REQ.ENTER (2 ^ 31 + ofBool deep))

/-! ### Keeper and trace unit (18, 19) -/

/-- SEC_HOST_IMG (18 R603). -/
def execSecHostImg (who : Initiator) (value : Word) (s : State) : Host.Outcome State Fault Refusal :=
  s.powered (s.rowWrite who R.SEC_HOST_IMG.ADDR value.toNat)

/-- TRC_SW_COMMIT (19 R622). -/
def execTrcSwCommit (who : Initiator) (cls : Nat) (s : State) : Host.Outcome State Fault Refusal :=
  s.powered (s.rowWrite who R.TRC_SW_COMMIT.CLASS (cls % 4 * 2 ^ 30))

/-! ### Common layout (20) -/

/-- SRST (20 R630): SRST = 1, EN as it stands. -/
def execSrst (who : Initiator) (page : Nat) (s : State) : Host.Outcome State Fault Refusal :=
  s.powered (s.pageWrite who page 0x008 (2 + ofBool (s.pageEn page)))

/-- SOFT_RESET_END (20 R630): the 16 ticks of a soft reset have passed. -/
def execSoftResetEnd (page : Nat) (s : State) : Host.Outcome State Fault Refusal :=
  s.powered (if s.on R.PAGE_STATUS.HELD page then s.wr R.PAGE_STATUS.HELD 0 page else s)

/-- PAGE_EN_WRITE (20 R631): SRST = 0. -/
def execPageEnWrite (who : Initiator) (page : Nat) (en : Bool) (s : State) : Host.Outcome State Fault Refusal :=
  s.powered (s.pageWrite who page 0x008 (ofBool en))

/-- LOCK (20 R632): LOCK = 1, EN as it stands. -/
def execLock (who : Initiator) (page : Nat) (s : State) : Host.Outcome State Fault Refusal :=
  s.powered (s.pageWrite who page 0x008 (2 ^ 31 + ofBool (s.pageEn page)))

/-- INT_FORCE (20 R633). -/
def execIntForce (who : Initiator) (page : Nat) (bits : Word) (s : State) : Host.Outcome State Fault Refusal :=
  s.powered (s.pageWrite who page 0x018 bits.toNat)

/-- ERR_CAPTURE_CLEAR (20 R634): VALID = 1. -/
def execErrCaptureClear (who : Initiator) (page : Nat) (s : State) : Host.Outcome State Fault Refusal :=
  s.powered (s.pageWrite who page 0x01C (2 ^ 31))

end Sys2Proof.Machine
end

