-- ==== Sys2Proof/Machine/MemRows.lean ====
section
/-! DEFINITION. Rows of the memories' own work (15), of a core's RAM access (08 R307) and of the ring bridge
as a requester (03 R122 to R128). -/

namespace Sys2Proof.Machine

/-- ECC_WRITEBACK (15 R509). -/
def execEccWriteback (w : PortB) (s : State) : Host.Outcome State Fault Refusal :=
  s.powered (s.eccWriteback w.target w.collide)

/-- BT_REGION_START (15 R512). -/
def execBtRegionStart (s : State) : Host.Outcome State Fault Refusal := s.powered s.btStart

/-- BT_RESTORE (15 R512, R514). -/
def execBtRestore (fail : Bool) (s : State) : Host.Outcome State Fault Refusal := s.powered (s.btRestore fail)

/-- ZERO_FILL_PAGE (15 R521, R527). -/
def execZeroFillPage (page : Nat) (s : State) : Host.Outcome State Fault Refusal := s.powered (s.zeroFill page)

/-- SCRUB_READ (15 R518). -/
def execScrubRead (addr : Nat) (ecc : Upset) (s : State) : Host.Outcome State Fault Refusal := s.powered (s.scrub addr ecc)

/-- CC_RAM_ACCESS (08 R307): a read or a write of CC_RAM_DATA. -/
def execCcRamAccess (who : Initiator) (core : Nat) (value : Option Word) (s : State) :
    Host.Outcome State Fault Refusal :=
  s.powered (match value with
    | none => s.rowRead who R.CC_RAM_DATA.DATA core
    | some v => s.rowWrite who R.CC_RAM_DATA.DATA v.toNat core)

/-- Does the initiator wait for a far unit's answer (03 R124)? Cores and movers do. -/
def waits : Initiator → Bool
  | .core _ => true
  | .mover _ => true
  | _ => false

/-- BRIDGE_ACCESS (03 R122 to R125): an access in a remote-unit window; any other address is no such access. -/
def execBridgeAccess (who : Initiator) (addr size : Nat) (value : Option Nat) (s : State) :
    Host.Outcome State Fault Refusal :=
  s.powered (if rangeOf addr = some .remote then
    answered (match value with
      | none => s.busRead who addr size (waits who)
      | some v => s.busWrite who addr size v (waits who))
    else s)

end Sys2Proof.Machine
end

