-- ==== Sys2Proof/Machine/Movers.lean ====
section
/-! DEFINITION. The point movers (07): what an operation reads and writes for one point, its arithmetic, and
the steps of an operation. -/

namespace Sys2Proof.Machine

/-! ### The accesses of one point (R236, R240) -/

/-- A read of one point: the entry of a gather or scatter list, the source (a packed one in two bytes), the
state entry, the destination. -/
inductive MovRead where
  | srcEntry
  | src (k : Nat)
  | dstEntry
  | state
  | dst
  deriving DecidableEq, Repr

/-- The reads of one point of an operation, in order (Mover Operations; R245). -/
def Desc.reads (d : Desc) (op : Nat) : List MovRead :=
  (if d.swalk = 2 then [.srcEntry] else []) ++ (if d.sfmt = 2 then [.src 0, .src 1] else [.src 0]) ++
  (if d.dwalk = 2 then [.dstEntry] else []) ++ (if op = 6 ∨ op = 7 then [.state] else []) ++
  (if op = 5 ∨ (op = 2 ∧ d.db ≠ 0) then [.dst] else [])

/-- What a read gave. -/
def valOf : List MovRead → List Nat → MovRead → Nat
  | r :: rs, v :: vs, x => if r = x then v else valOf rs vs x
  | _, _, _ => 0

/-- Address of element i of a walk (R240); `entry` is what a list gives. -/
def elemAddr (base walk fmt i entry : Nat) : Nat :=
  if fmt = 2 then base + 12 * i / 8
  else if walk = 1 then base
  else if walk = 2 then entry
  else base + i * elemStep base

/-- Bytes of a point or raw element (R240). -/
def elemSize (a : Nat) : Nat := if isReg a then 4 else 2

/-- Source address of point i, from what was read. -/
def Desc.srcAddr (d : Desc) (op i : Nat) (vs : List Nat) : Nat :=
  elemAddr d.src d.swalk d.sfmt i (valOf (d.reads op) vs .srcEntry)

/-- Destination address of point i. -/
def Desc.dstAddr (d : Desc) (op i : Nat) (vs : List Nat) : Nat :=
  elemAddr d.dst d.dwalk d.dfmt i (valOf (d.reads op) vs .dstEntry)

/-- Address and bytes of a read. -/
def Desc.readAt (d : Desc) (op i : Nat) (vs : List Nat) : MovRead → Nat × Nat
  | .srcEntry => (d.src + 4 * i, 4)
  | .src k =>
    let a := d.srcAddr op i vs
    if d.sfmt = 2 then (a + k, 1) else (a, elemSize a)
  | .dstEntry => (d.dst + 4 * i, 4)
  | .state => (d.aux + stateSize op * i, stateSize op)
  | .dst =>
    let a := d.dstAddr op i vs
    (a, elemSize a)

/-! ### Arithmetic (R241 to R250) -/

/-- The source of point i: its 12-bit pattern and its quality, GOOD for a raw or packed element (R241). -/
def Desc.source (d : Desc) (op i : Nat) (vs : List Nat) : Nat × Nat :=
  let rs := d.reads op
  if d.sfmt = 2 then ((valOf rs vs (.src 0) + 256 * valOf rs vs (.src 1)) / 2 ^ (12 * i % 8) % 4096, 0)
  else
    let v := valOf rs vs (.src 0)
    (v % 4096, if d.sfmt = 0 then bitsOf v 15 12 else 0)

/-- A write of one point: address, bytes, value, and the bits of the first and last byte that a packed element
leaves as they are. -/
structure MovWrite where
  at_ : Nat
  size : Nat
  val : Nat
  keep : Nat := 0
  deriving DecidableEq, Repr

/-- What an operation does with one point: its writes in order, and what it counts (R237, MOV_EXC). -/
structure PointResult where
  writes : List MovWrite
  skip : Bool := false
  range : Bool := false
  changed : Bool := false
  deriving DecidableEq, Repr

/-- The write of a point, of a raw word with its sign extension, or of a packed element (R240). -/
def Desc.put (d : Desc) (op i : Nat) (vs : List Nat) (v q : Nat) : List MovWrite :=
  let a := d.dstAddr op i vs
  let n := elemSize a
  match d.dfmt with
  | 0 => [⟨a, n, q * 4096 + v % 4096, 0⟩]
  | 1 => [⟨a, n, unsigned (8 * n) (d.read v), 0⟩]
  | _ =>
    if i % 2 = 0 then [⟨a, 1, v % 256, 0⟩, ⟨a + 1, 1, v % 4096 / 256, 0xF0⟩]
    else [⟨a, 1, v % 16 * 16, 0x0F⟩, ⟨a + 1, 1, v % 4096 / 16, 0⟩]

/-- The destination point that was read: value and quality. -/
def Desc.dest (d : Desc) (op : Nat) (vs : List Nat) : Nat × Nat :=
  let v := valOf (d.reads op) vs .dst
  (v % 4096, bitsOf v 15 12)

/-- SCALE (R244, R245): the result pattern, whether it saturated. -/
def Desc.scale (d : Desc) (x : Nat) : Nat × Bool :=
  let p := d.read x * signed 16 d.p0
  let q := if d.trunc then p / (2 ^ d.shift : Nat) else roundDiv p (2 ^ d.shift)
  let r := q + signed 16 d.p1
  let lo := d.read d.limLo
  let hi := d.read d.limHi
  (unsigned 12 (min (max r lo) hi), decide (r < lo) || decide (hi < r))

/-- SCALE of one point: inside the deadband the destination keeps its value (R245). -/
def Desc.scalePoint (d : Desc) (i : Nat) (vs : List Nat) (x qx : Nat) : PointResult :=
  let (y, sat) := d.scale x
  let (dv, dq) := d.dest 2 vs
  let inBand := d.db != 0 && !qDead dq && !sat && decide ((d.read y - d.read dv).natAbs ≤ d.db)
  { writes := d.put 2 i vs (if inBand then dv else y) (if sat then qMax qx 6 else qx), range := sat }

/-- CHANGE of one point (R250): state entry and destination are written on a change. -/
def Desc.changePoint (d : Desc) (i : Nat) (vs : List Nat) (x qx : Nat) : PointResult :=
  let q := if qx = 8 then 0xF else qx
  let st := valOf (d.reads 6) vs .state
  let diff := q != bitsOf st 15 12 || decide (d.p0 % 4096 < (d.read x - d.read (st % 4096)).natAbs)
  if diff then
    { writes := ⟨d.aux + 2 * i, 2, q * 4096 + x, 0⟩ :: d.put 6 i vs x q, changed := true }
  else { writes := [] }

/-- The accumulator of FILTER after the input x (R249). -/
def Desc.filterAcc (d : Desc) (st x : Nat) : Int :=
  let v := d.read x * 256
  if bit st 31 then
    let acc : Int := if d.sgn then signed 20 (st % 2 ^ 20) else (st % 2 ^ 20 : Nat)
    acc + roundDiv ((v - acc) * (d.p0 % 256 : Nat)) 256
  else v

/-- FILTER of one point (R249): state entry first, then the destination. -/
def Desc.filterPoint (d : Desc) (i : Nat) (vs : List Nat) (x qx : Nat) : PointResult :=
  let acc := d.filterAcc (valOf (d.reads 7) vs .state) x
  { writes := ⟨d.aux + 4 * i, 4, 2 ^ 31 + unsigned 20 acc, 0⟩ :: d.put 7 i vs (unsigned 12 (roundDiv acc 256)) qx }

/-- MERGE of one point (R248). -/
def Desc.mergePoint (d : Desc) (i : Nat) (vs : List Nat) (x qx : Nat) : PointResult :=
  let (dv, dq) := d.dest 5 vs
  let (v, q) := if dq = 8 then (0, 0) else (dv, dq)
  let mask := d.p0 % 4096
  { writes := d.put 5 i vs ((v &&& (4095 - mask)) ||| (x &&& mask)) (qMax qx q) }

/-- What operation `op` makes of point i, from what its reads gave (R242 to R250) (DEDUCED, log 20). -/
def Desc.compute (d : Desc) (op i : Nat) (vs : List Nat) : PointResult :=
  let (x, q) := d.source op i vs
  match op with
  | 3 => if qDead q then { writes := d.put 3 i vs (d.p0 % 4096) 0, skip := true } else { writes := d.put 3 i vs x 0 }
  | 4 => { writes := d.put 4 i vs x 0 }
  | 6 => d.changePoint i vs x q
  | _ =>
    if qDead q then { writes := [], skip := true }
    else match op with
      | 1 => { writes := d.put 1 i vs x q }
      | 2 => d.scalePoint i vs x q
      | 5 => d.mergePoint i vs x q
      | _ => d.filterPoint i vs x q

/-! ### Issue (R251, R252, R257) -/

/-- What the operation makes of an issued point: nothing after a failed read (R256). -/
def PipePoint.result (p : PipePoint) : PointResult :=
  if p.err then { writes := [] } else (parseMoverDesc p.desc).compute p.op p.index p.vals

/-- The one address of a point that has two: a live-image point of the unit's own address is its local point (02 R56). -/
def State.onePlace (s : State) (a : Nat) : Nat :=
  if rangeOf a = some .live ∧ a % 0x1000000 / 0x2000 = s.ring.addr ∧ s.ring.addr ≠ 0 ∧ s.imgEn = true then
    0x50000000 + a % 0x2000
  else a

/-- Can a write of any other address change what a read at `a` gives: of a register, of a status point, of an address in
another unit, which several windows can reach? -/
def farReaching (a : Nat) : Bool :=
  match rangeOf a with
  | some .regs => true
  | some .remote => true
  | some .points => decide (a % 0x2000 / 2 < 0x100)
  | _ => false

/-- Does a read of `n` bytes at `a` meet a write that an issued point has still to make (R252)? -/
def State.pendingHit (s : State) (pipe : List PipePoint) (a n : Nat) : Bool :=
  let x := s.onePlace a
  pipe.any fun p => (p.result.writes.drop p.wrote).any fun w =>
    let y := s.onePlace w.at_
    farReaching x || (decide (y < x + n) && decide (x < y + w.size))

/-- A read of the source that the slot read ahead, and that no write has changed since, makes no access (06 R224). -/
def State.sourceAhead (s : State) (m : Nat) (r : MovRead) (a n : Nat) : Option Nat :=
  match r with
  | .src _ => s.fromAhead (s.mov m).ahead a n
  | .srcEntry => s.fromAhead (s.mov m).ahead a n
  | _ => none

/-- The point leaves the issue stage. -/
def State.issued (s : State) (m : Nat) (err : Bool) : State :=
  let k := s.mov m
  s.setMov m { k with next := k.next + 1, got := [], asked := false
                      pipe := k.pipe ++ [{ node := k.node, op := k.op, desc := k.desc, index := k.next
                                           vals := k.got, err := err }] }

/-- Make the reads of the next point one after the other; a read that has to wait leaves the rest to a later
step (R252; 03 R124). -/
def State.issueReads (s : State) (m : Nat) : List MovRead → State
  | [] => s.issued m false
  | r :: rs =>
    let k := s.mov m
    let (a, n) := (parseMoverDesc k.desc).readAt k.op k.next k.got r
    if s.pendingHit k.pipe a n then s
    else match s.sourceAhead m r a n with
      | some v => (s.setMov m { k with got := k.got ++ [v] }).issueReads m rs
      | none => match s.busRead (.mover m) a n true with
        | (t, .data v) => (t.setMov m { t.mov m with got := (t.mov m).got ++ [v], asked := false }).issueReads m rs
        | (t, .err) => t.issued m true
        | (t, .wait _) => t.setMov m { t.mov m with asked := true }

/-- The reads that an issued point has still to make. -/
def PipePoint.missing (p : PipePoint) : List MovRead :=
  if p.err then [] else ((parseMoverDesc p.desc).reads p.op).drop p.vals.length

/-- MOVER_POINT_ISSUE: the next point of a running operation; the reads that an aborted one has still to make come first
(R257). -/
def State.pointIssue (s : State) (m : Nat) : State :=
  let k := s.mov m
  let d := parseMoverDesc k.desc
  if m < 4 ∧ k.busy = true ∧ k.refused = false ∧ k.next < d.count ∧ (k.pipe.all fun p => p.missing.isEmpty) = true then
    s.issueReads m ((d.reads k.op).drop k.got.length)
  else s

/-! ### Write (R243, R251, R253, R256) -/

/-- Make the writes of a point one after the other: false when one failed, none when one has to wait after
`done` of them. The bits that a packed element leaves are merged from memory. -/
def State.pointWrites (s : State) (m done : Nat) : List MovWrite → State × Option Bool × Nat
  | [] => (s, some true, done)
  | w :: ws =>
    let old := if w.keep = 0 then 0 else s.memRead w.at_ 1
    match s.busWrite (.mover m) w.at_ w.size (w.val ||| (old &&& w.keep)) true with
    | (t, .data _) => t.pointWrites m (done + 1) ws
    | (t, .err) => (t, some false, done)
    | (t, .wait _) => (t, none, done)

/-- Count an ended point (MOV_POINTS, MOV_EXC, MOV_ERRCNT; 19 R623) and note its part of the selector (R237). -/
def State.pointCount (s : State) (m : Nat) (p : PipePoint) (good : Bool) : State :=
  let r := p.result
  let s1 := s.bump R.MOV_POINTS.POINTS m
  let s2 := if r.skip then (s1.bump R.MOV_EXC.SKIP m).statusCount 0x02B else s1
  let s3 := if r.range then s2.bump R.MOV_EXC.RANGE m else s2
  let s4 := if good then s3 else (s3.bump R.MOV_ERRCNT.ERR m).statusCount 0x02C
  let k := s4.mov m
  if p.live then
    s4.setMov m { k with sel0 := k.sel0 || r.changed, sel1 := k.sel1 || r.skip || r.range || !good }
  else s4

/-- The reads that an abort cut off from an issued point are made (R257); the point with what they gave, and whether
all have ended. -/
def State.lateReads (s : State) (m : Nat) (p : PipePoint) : List MovRead → State × PipePoint × Bool
  | [] => (s, p, true)
  | r :: rs =>
    let (a, n) := (parseMoverDesc p.desc).readAt p.op p.index p.vals r
    match s.busRead (.mover m) a n true with
    | (t, .data v) => t.lateReads m { p with vals := p.vals ++ [v] } rs
    | (t, .err) => (t, { p with err := true }, true)
    | (t, .wait _) => (t, p, false)

/-- MOVER_POINT_WRITE: the oldest issued point is computed and written. A point is written as by the node that
issued it (R256, R257). -/
def State.pointWrite (s : State) (m : Nat) (collide : Bool) : State :=
  match (s.mov m).pipe with
  | [] => s
  | p0 :: rest =>
    let (s, p, ended) := s.lateReads m p0 p0.missing
    let k := s.mov m
    if !ended then s.setMov m { k with pipe := p :: rest }
    else if p.err then (s.setMov m { k with pipe := rest }).pointCount m p false
    else
      let as_ := s.setMov m { k with node := p.node }
      let (t, r, n) := as_.pointWrites m p.wrote (p.result.writes.drop p.wrote)
      let meets := collide && ((p.result.writes.drop p.wrote).take (n - p.wrote)).any fun w => inSram w.at_ w.size
      let t1 := if meets then t.bump R.SRAM_COLL_CNT.WW else t
      let u := t1.setMov m { t1.mov m with node := k.node }
      match r with
      | none => u.setMov m { u.mov m with pipe := { p with wrote := n } :: rest }
      | some good => (u.setMov m { u.mov m with pipe := rest }).pointCount m p good

/-! ### The prefetch slot (06 R221, R224) -/

/-- The 32 bytes of descriptor `i` in descriptor RAM. -/
def State.descBytes (s : State) (i : Nat) : List Byte := (List.range 32).map fun j => s.desc.get 0 (32 * i + j)

/-- At most the first 64 bytes of the source range that a descriptor names are read ahead: of its elements, or of its
gather list. -/
def State.prefetch (s : State) (bytes : List Byte) (op : Nat) : List (Nat × Byte) :=
  let d := parseMoverDesc bytes
  if s.descOk d op then s.readAhead d.src (min 64 (spanOf d.src d.swalk d.sfmt d.count)) else []

/-- What a slot holds when it is LOADED: the preloaded context, and in a mover's slot the descriptor and the operand
prefetch (R221). -/
def State.loadSlot (s : State) (k : Nat) : State :=
  let v := s.slot k
  let w := { v with phase := .loaded, window := s.preload v.ctx }
  if 17 ≤ k then
    let b := s.descBytes (nDesc (s.node v.node))
    s.setSlot k { w with desc := b, ahead := s.prefetch b (s.nodeArg v.node % 256) }
  else s.setSlot k w

/-- SLOT_LOADED (R221, R222). -/
def execSlotLoaded (k : Nat) (s : State) : Host.Outcome State Fault Refusal :=
  if (s.slot k).phase = .filling then s.powered (s.loadSlot k) else .next s

/-! ### Taking and completing an operation (R237, R663; 06 R217, R222) -/

/-- Mover m takes the operation of its slot, with the descriptor as the slot holds it; one that breaks R239 is refused
(R663). -/
def State.moverTake (s : State) (m : Nat) : State :=
  let v := s.slot (17 + m)
  let n := v.node
  let op := s.nodeArg n % 256
  let i := nDesc (s.node n)
  let ok := decide (i < s.descs) && s.descOk (parseMoverDesc v.desc) op
  let k := s.mov m
  let s1 := (s.takeSlot (17 + m)).setMov m
    { busy := true, node := n, op := op, desc := v.desc, pipe := k.pipe, refused := !ok, sel1 := !ok, ahead := v.ahead }
  if ok then s1 else (s1.bump R.MOV_ERRCNT.ERR m).capture (12 + m) (.mover m) false 1 10 i

/-- The operation of mover m has ended: every point written, or refused at the start. -/
def State.moverDone (s : State) (m : Nat) : Bool :=
  let k := s.mov m
  k.busy && (k.refused || (k.pipe.isEmpty && decide ((parseMoverDesc k.desc).count ≤ k.next)))

/-- OPERATION_COMPLETE of a mover (R237; 06 R217). -/
def State.moverComplete (s : State) (m : Nat) : State :=
  let k := s.mov m
  if m < 4 ∧ s.moverDone m = true then
    (s.setMov m { k with busy := false, refused := false }).completeNode k.node (ofBool k.sel0 + 2 * ofBool k.sel1)
  else s

/-- MOVER_POINT_ISSUE (R251). -/
def execMoverPointIssue (m : Nat) (s : State) : Host.Outcome State Fault Refusal := s.powered (s.pointIssue m)

/-- MOVER_POINT_WRITE (R251; a word that port A writes in the same tick is counted, 15 R506). -/
def execMoverPointWrite (w : PortB) (s : State) : Host.Outcome State Fault Refusal :=
  s.powered (if w.target < 4 then s.pointWrite w.target w.collide else s)

/-- OPERATION_COMPLETE (06 R217). -/
def execOperationComplete (m : Nat) (s : State) : Host.Outcome State Fault Refusal := s.powered (s.moverComplete m)

end Sys2Proof.Machine
end

