-- ==== Sys2Proof/Machine/SysInstr.lean ====
section
/-! DEFINITION. Clalo special-register and system instructions: the end of an operation, returns from a
level, traps, fences and posts (08 R265 to R270, R286, R291, R300 to R303). -/

namespace Sys2Proof.Machine

/-! ### The end of an operation (R269, R270; 06 R217, R218, R222) -/

/-- Are DONE and DETACH legal on the core (R270)? -/
def CoreState.mayEnd (k : CoreState) : Bool :=
  k.inop && (k.level == .thread || (k.level == .fault && k.eflags.toNat / 256 % 4 == 0))

/-- The core's part of its operation is over: the context is written back, the core is idle at THREAD level,
and CC_OPS counts. -/
def State.endOp (s : State) (c : Nat) : State :=
  let k := s.core c
  let s1 := if k.opCtx = 0 then s else s.writeBack k.opCtx k
  (s1.updCore c fun (k : CoreState) => { k with inop := false, run := .idle, level := .thread }).bump R.CC_OPS.OPS c

/-- Node n enters DETACHED with its context. -/
def State.detachNode (s : State) (n ctx : Nat) : State :=
  let t := s.setNodeState n .detached
  { t with pour := { t.pour with detached := t.pour.detached ++ [(n, ctx)] } }

/-- A bound MAC or CAN controller completes node n, at once where nothing is outstanding; any other binding
completes it at once with SEL = 0b00 (06 R218). -/
def State.handOver (s : State) (n ctx : Nat) : State :=
  let target := (s.bindOf ctx).2
  match if ctx = 0 then 0 else (s.bindOf ctx).1 with
  | 1 =>
    let t := s.detachNode n ctx
    (t.setMac target { t.macOf target with waiting := (t.macOf target).waiting ++ [(n, ctx)] }).macDetachEnd target
  | 2 =>
    let t := s.detachNode n ctx
    (t.setCan target { t.canCtl target with waiting := (t.canCtl target).waiting ++ [(n, ctx)] }).canDetachEnd target
  | _ => s.completeNode n 0

/-- DONE and DETACH on core c, `fin` completing the node: UNDEF where they are not legal; a wait for the
acknowledgement of every earlier store; the imprecise fault of one first (R269, R270, R285). -/
def State.finish (s : State) (c len : Nat) (fin : State → State) : State :=
  let k := s.core c
  if !k.mayEnd then s.faultHere c 1 none
  else if s.postedOf c ≠ 0 then s.begin c
  else if k.impr.isSome && k.level != .fault then s.takeStoreError c
  else fin ((s.retire c len).endOp c)

/-! ### Levels (R300, R303) -/

/-- Saved PC and saved flags of a level. -/
def CoreState.saved (k : CoreState) : Word × Word :=
  match k.level with
  | .fault => (k.epc, k.eflags)
  | .urgent => (k.upc, k.uflags)
  | _ => (k.npc, k.nflags)

/-- RETE on core c (R300). -/
def State.rete (s : State) (c : Nat) : State :=
  let k := s.core c
  if k.level = .thread then s.faultHere c 1 none
  else
    let x := k.saved
    let idle := bit x.2.toNat 10
    (s.retireTo c (if idle then k.pc else x.1)).updCore c fun (k : CoreState) =>
      { k with flags := .ofWord x.2.toNat, level := .ofCode (x.2.toNat / 256 % 4)
               run := if idle then .idle else .run }

/-- WAIT on core c (R267). -/
def State.coreWait (s : State) (c len : Nat) : State :=
  let k := s.core c
  if k.level = .thread ∧ k.inop = false then
    (s.retire c len).updCore c fun (k : CoreState) => { k with run := .idle }
  else s.faultHere c 1 none

/-- A completed instruction that raises vector v, with EPC at the next one (TRAP and BREAK, R297). -/
def State.trapAfter (s : State) (c len v : Nat) (addr : Option Word) : State :=
  (s.retire c len).faultHere c v addr

/-- BREAK on core c (R303). -/
def State.coreBreak (s : State) (c len : Nat) : State :=
  if s.coreDebugOpen c && s.on R.CC_CTRL.DBG_EN c then
    (s.retire c len).updCore c fun (k : CoreState) => { k with run := .halt }
  else s.trapAfter c len 8 none

/-! ### Posts (R291) -/

/-- Length of a POST in bytes. -/
def postLen : PostForm → Nat
  | .reg long _ => lenOf long
  | .imm _ _ _ => 4

/-- Node and input of a POST. -/
def CoreState.postTarget (k : CoreState) : PostForm → Nat × Nat
  | .reg _ ra => ((k.reg ra).toNat % 4096, (k.reg ra).toNat / 4096 % 4)
  | .imm _ input node => (node % 4096, input % 4)

/-- The core after the answer: Z and P, and 1 or 2 in rd of the long form. -/
def CoreState.postAnswer (k : CoreState) (o : PostForm) (ok : Bool) : CoreState :=
  let k1 := k.setFlags { k.flags with z := ok, p := ok }
  match o with
  | .reg _ _ => k1
  | .imm rd _ _ => k1.setReg rd (if ok then 1 else 2)

/-! ### Meanings, in the table's order -/

/-- MFS, or UNDEF for a number outside the table (R265). -/
def execMfs (h : Head) (rd sr : Nat) (s : State) : Host.Outcome State Fault Refusal :=
  s.instr h 4 true fun t =>
    match (t.core h.core).special h.core sr with
    | some v => (t.updCore h.core fun (k : CoreState) => k.setReg rd v).retire h.core 4
    | none => t.faultHere h.core 1 none

/-- MTS, or UNDEF for a read-only register or a number outside the table (R265). -/
def execMts (h : Head) (rd sr : Nat) (s : State) : Host.Outcome State Fault Refusal :=
  s.instr h 4 true fun t =>
    match (t.core h.core).setSpecial sr ((t.core h.core).reg rd) with
    | some k => (t.setCore h.core k).retire h.core 4
    | none => t.faultHere h.core 1 none

/-- NOP. -/
def execNop (h : Head) (long : Bool) (s : State) : Host.Outcome State Fault Refusal :=
  s.regInstr h (lenOf long) id

/-- WAIT: the core becomes idle, or UNDEF (R267). -/
def execWait (h : Head) (long : Bool) (s : State) : Host.Outcome State Fault Refusal :=
  s.instr h (lenOf long) true fun t => t.coreWait h.core (lenOf long)

/-- DONE SEL: the operation completes with SEL (R269, 06 R217). -/
def execDone (h : Head) (long : Bool) (sel : Nat) (s : State) : Host.Outcome State Fault Refusal :=
  s.instr h (lenOf long) true fun t =>
    t.finish h.core (lenOf long) fun u => u.completeNode (t.core h.core).opNode (sel % 4)

/-- DETACH: the bound block completes the operation (R269, 06 R218). -/
def execDetach (h : Head) (long : Bool) (s : State) : Host.Outcome State Fault Refusal :=
  s.instr h (lenOf long) true fun t =>
    t.finish h.core (lenOf long) fun u => u.handOver (t.core h.core).opNode (t.core h.core).opCtx

/-- RETE: flags, level and PC of the level that was left, or UNDEF at THREAD level (R300). -/
def execRete (h : Head) (long : Bool) (s : State) : Host.Outcome State Fault Refusal :=
  s.instr h (lenOf long) true fun t => t.rete h.core

/-- BREAK: the core halts for a debugger, or takes vector 8 (R303). -/
def execBrk (h : Head) (long : Bool) (s : State) : Host.Outcome State Fault Refusal :=
  s.instr h (lenOf long) true fun t => t.coreBreak h.core (lenOf long)

/-- FENCE: completes when every store has been acknowledged; an imprecise fault comes before the next
instruction (R286). -/
def execFence (h : Head) (long : Bool) (s : State) : Host.Outcome State Fault Refusal :=
  s.instr h (lenOf long) true fun t =>
    if t.postedOf h.core ≠ 0 then t.begin h.core else (t.retire h.core (lenOf long)).takeStoreError h.core

/-- TRAP n: vector 7 with n in FADDR and EPC at the next instruction (R277, R297). -/
def execTrap (h : Head) (long : Bool) (n : Nat) (s : State) : Host.Outcome State Fault Refusal :=
  s.instr h (lenOf long) true fun t => t.trapAfter h.core (lenOf long) 7 (some (zext 4 n))

/-- POST: one token in producer order 7, the core waiting for the answer (R291, 06 R212, R214). -/
def execPost (h : Head) (o : PostForm) (s : State) : Host.Outcome State Fault Refusal :=
  s.instr h (postLen o) true fun t =>
    let x := (t.core h.core).postTarget o
    let r := t.postAndWait (.core h.core) x.1 x.2
    (r.1.updCore h.core fun (k : CoreState) => k.postAnswer o r.2).retire h.core (postLen o)

end Sys2Proof.Machine
end

