-- ==== Sys2Proof/Machine/CoreEvents.lean ====
section
/-! DEFINITION. What happens to a core between instructions: undefined encodings, failed buffered stores,
interrupts and the taking of operations (08 R267, R268, R279, R285; 09 R320 to R327; 06 R222). -/

namespace Sys2Proof.Machine

/-- Length of the form that a first halfword begins (08 R275). -/
def formLen (h0 : Half) : Nat := if h0.toNat / 8192 = 7 then 4 else 2

/-- UNDEFINED_ENCODING (08 R279): UNDEF whatever the condition; halfwords that some table describes are no
such event. -/
def execUndefinedEncoding (core : Nat) (h0 h1 : Half) (s : State) : Host.Outcome State Fault Refusal :=
  match decodeClalo core h0 h1 with
  | none => s.instr ⟨core, 0⟩ (formLen h0) false id
  | some _ => .next s

/-- STORE_BUFFER_ERROR: an instruction boundary at which core `core` takes the failure of a buffered store
(08 R285). -/
def execStoreBufferError (core : Nat) (s : State) : Host.Outcome State Fault Refusal :=
  s.powered (if s.coreReady core && s.atTakePoint core then (s.entryEnd core).takeStoreError core else s)

/-! ### Interrupts (09 R320 to R327) -/

/-- Is any source presented to core c? -/
def State.anyPresented (s : State) (c : Nat) : Bool :=
  (s.nextSource c true).isSome || (s.nextSource c false).isSome

/-- INTERRUPT_TAKE (09 R320 to R325, R337): a take point of core `core`. A presented source restarts a
stopped clock, and asks for the power of a gated cluster. An entry on its way ends first (R324). The line is the one
that qualifies; a row that names the other stands for no event (log 9). -/
def execInterruptTake (core : Nat) (urgent : Bool) (s : State) : Host.Outcome State Fault Refusal :=
  s.powered <|
    if s.atTakePoint core = false then s
    else if s.clocked core = false then (if s.anyPresented core then s.wakeCore core else s)
    else
      let t := s.entryEnd core
      if t.storeErrorDue core then t
      else match t.takenLine core with
        | none => t
        | some u => if u = urgent then t.enter core u else s

/-! ### Taking an operation (08 R267, R268; 06 R222) -/

/-- A new operation of a context has requested no CAN buffer yet (11 R410), and nothing of it has failed; transmit
descriptors that the context still holds remain its own (13 R463). -/
def State.freshBinding (s : State) (ctx : Nat) : State :=
  let macs := (List.range 4).foldl (fun (t : State) m =>
    t.setMac m { t.macOf m with failed := (t.macOf m).failed.filter (· != ctx) }) s
  (List.range 12).foldl (fun (t : State) c =>
    t.setCan c { t.canCtl c with owned := (t.canCtl c).owned.filter (·.1 != ctx)
                                 failed := (t.canCtl c).failed.filter (· != ctx) }) macs

/-- The registers of a core that takes an operation (08 R268). -/
def CoreState.takeOp (k : CoreState) (entry desc node ctx : Nat) (window : SMap Byte) : CoreState :=
  let k1 := k.setRegs [(1, BitVec.ofNat 32 desc), (2, BitVec.ofNat 32 node), (3, BitVec.ofNat 32 ctx), (14, k.opsp)]
  { k1 with pc := BitVec.ofNat 32 (0xE0000000 + entry), flags := {}, level := .thread, run := .run
            inop := true, opNode := node, opCtx := ctx, window := window, written := [], begun := false }

/-- Core c takes the operation of its slot (DEDUCED, log 14). -/
def State.coreTake (s : State) (c : Nat) : State :=
  let v := s.slot c
  let e := s.node v.node
  ((s.takeSlot c).freshBinding v.ctx).updCore c fun (k : CoreState) =>
    k.takeOp (s.nodeArg v.node) (nDesc e) v.node v.ctx v.window

/-- OPERATION_TAKE: an idle agent takes the LOADED operation of its slot; an interrupt that a core may take
comes first (09 R327). -/
def execOperationTake (slot : Nat) (s : State) : Host.Outcome State Fault Refusal :=
  s.powered <|
    if (s.slot slot).phase = .loaded ∧ s.agentIdle slot = true then
      if 17 ≤ slot then s.moverTake (slot - 17)
      else if s.clocked slot = true ∧ s.takenLine slot = none then s.coreTake slot
      else s
    else s

end Sys2Proof.Machine
end

