-- ==== Sys2Proof/Machine/Host.lean ====
section
/-! DEFINITION. The host ports (16): PCI Express, the SPI host port, the local bus and its gateway, MSI-X, and
the end of a flash transaction. -/

namespace Sys2Proof.Machine

/-! ### Pieces of a host access (R531) -/

/-- An internal piece: offset from the start of the access's first group, bytes, and whether it is the
erroneous piece of a register group. -/
structure Piece where
  at_ : Nat
  size : Nat
  bad : Bool

/-- Is the byte at offset `i` of an access whose first byte stands at `lead` in its group enabled? -/
def enabledAt (lead : Nat) (en : List Bool) (i : Nat) : Bool := decide (lead ≤ i) && en.getD (i - lead) false

/-- The fewest naturally aligned pieces of at most `2 ^ k` bytes at offset `o` that cover the enabled bytes. -/
def cover (on : Nat → Bool) (o : Nat) : Nat → List Piece
  | 0 => if on o then [⟨o, 1, false⟩] else []
  | k + 1 =>
    if (List.range (2 ^ (k + 1))).all fun i => on (o + i) then [⟨o, 2 ^ (k + 1), false⟩]
    else cover on o k ++ cover on (o + 2 ^ k) k

/-- The pieces of one 8-byte group of the register pages: full 4-byte groups, and one erroneous piece for any
other enabled bytes. -/
def regPieces (on : Nat → Bool) (o : Nat) : List Piece :=
  let full (b : Nat) : Bool := (List.range 4).all fun i => on (b + i)
  let some_ (b : Nat) : Bool := (List.range 4).any fun i => on (b + i)
  let lo := full o
  let hi := full (o + 4)
  (if lo then [⟨o, 4, false⟩] else []) ++
  (match some_ o && !lo, some_ (o + 4) && !hi with
    | true, true => [⟨o, 8, true⟩]
    | true, false => [⟨o, 4, true⟩]
    | false, true => [⟨o + 4, 4, true⟩]
    | false, false => []) ++
  (if hi then [⟨o + 4, 4, false⟩] else [])

/-- The pieces of an access: `lead` bytes of its first group stand before it, `en` are its byte enables. -/
def piecesOf (isRegs : Bool) (lead : Nat) (en : List Bool) : List Piece :=
  let on := enabledAt lead en
  (List.range ((lead + en.length + 7) / 8)).flatMap fun g =>
    if isRegs then regPieces on (8 * g) else cover on (8 * g) 3

/-- The bytes of a piece that the access enables: all of them, but for an erroneous piece. -/
def Piece.bytes (p : Piece) (lead : Nat) (en : List Bool) : Nat :=
  if p.bad then ((List.range p.size).filter fun i => enabledAt lead en (p.at_ + i)).length else p.size

/-- The internal address of a byte of an access: none where nothing lies (R536). -/
abbrev Mapping := Nat → Option Nat

/-- Does a piece wait for the end of a soft reset (20 R630)? -/
def State.pieceWaits (s : State) (f : Mapping) (p : Piece) : Bool :=
  match f p.at_ with
  | some a => !p.bad && s.regWaits a
  | none => false

/-- Does writing a piece wait for the ETH domain (17 R572)? `byte i` is the byte at offset `i`. -/
def State.pieceHeld (s : State) (who : Initiator) (f : Mapping) (byte : Nat → Byte) (p : Piece) : Bool :=
  match f p.at_ with
  | some a => !p.bad && s.ethWaits who a p.size (leNat ((List.range p.size).map fun i => byte (p.at_ + i)))
  | none => false

/-- A piece that meets no target (R536): an error response; its internal address is not stated (log 2). -/
def State.noTarget (s : State) (who : Initiator) (write : Bool) (size : Nat) : State :=
  let (v, s1) := s.free
  s1.accessError who 5 write size 1 (v.toNat % 2 ^ 32)

/-- Read one piece (R532): its part of the host read, and whether it failed. -/
def State.readPiece (s : State) (who : Initiator) (f : Mapping) (lead : Nat) (en : List Bool) (p : Piece) :
    State × HostPart × Bool :=
  let n := p.bytes lead en
  let zero : HostPart := .have (List.replicate n 0)
  match f p.at_ with
  | none => (s.noTarget who false p.size, zero, true)
  | some a =>
    if p.bad then (s.accessError who 5 false p.size 2 a, zero, true)
    else match s.busRead who a p.size with
      | (t, .data v) => (t, .have (leBytes p.size v), false)
      | (t, .err) => (t, zero, true)
      | (t, .wait tag) => (t, .wait tag p.size, false)

/-- Read pieces in order. -/
def State.readPieces (s : State) (who : Initiator) (f : Mapping) (lead : Nat) (en : List Bool) :
    List Piece → State × List HostPart × Bool
  | [] => (s, [], false)
  | p :: t =>
    let (s1, x, bad) := s.readPiece who f lead en p
    let (s2, xs, bads) := s1.readPieces who f lead en t
    (s2, x :: xs, bad || bads)

/-- Write pieces in order; `byte i` is the byte at offset `i`. -/
def State.writePieces (s : State) (who : Initiator) (f : Mapping) (byte : Nat → Byte) : List Piece → State
  | [] => s
  | p :: t =>
    let s1 := match f p.at_ with
      | none => s.noTarget who true p.size
      | some a =>
        if p.bad then s.accessError who 5 true p.size 2 a
        else (s.busWrite who a p.size (leNat ((List.range p.size).map fun i => byte (p.at_ + i)))).1
    s1.writePieces who f byte t

/-- A host read waits for its parts, or is answered. -/
def State.startRead (s : State) (r : HostRead) : State :=
  ({ s with host := { s.host with reads := s.host.reads ++ [r] } } : State).hostFlush

/-- A host chip select falls, or PCIE_PERST_N rises: a HOST wake (12 R424). A record made in NAP or DEEP needs the LFXTAL
periods since the power-down, which only HOST_WAKE carries: here they are a free value (log 2). -/
def State.hostAssert (s : State) (which : Nat) : State :=
  match s.wakeRun with
  | .asleep => let (v, t) := s.free
               t.wakeSeen 7 which (v.toNat % 2 ^ 32)
  | .exiting => s
  | _ => s.wakeSeen 7 which 0

/-! ### PCI Express (R533 to R545) -/

/-- BAR2 (R536). -/
def bar2 (o : Nat) : Option Nat :=
  if o < 0x4000000 then some o
  else if o < 0x5000000 then some (0x40000000 + (o - 0x4000000))
  else if o < 0x6000000 then some (0x41000000 + (o - 0x5000000))
  else if o < 0x6400000 then some (0x10000000 + (o - 0x6000000))
  else if o < 0x6402000 then some (0x50000000 + (o - 0x6400000))
  else none

/-- Size of a memory BAR: 0 for one that takes no memory request (R536). -/
def barSize : Nat → Nat
  | 0 => 0x400000
  | 2 => 0x8000000
  | 4 => 0x800000
  | _ => 0

/-- Internal address of offset `o` of a BAR (R536). -/
def barMap (bar o : Nat) : Option Nat :=
  match bar with
  | 0 => some (0xF0000000 + o)
  | 4 => some (0xC0000000 + o)
  | _ => bar2 o

/-- Does a posted write to BAR4 wait for its completion (R543)? -/
def State.bar4Held (s : State) : Bool := s.ring.bridge.any fun r => r.who == .pcie && r.write

/-- The endpoint takes requests: out of reset, with its link in L0, L0s or L1. -/
def State.pcieOpen (s : State) : Bool := !s.host.perst && s.on R.PCIE_STATUS.LINK_UP

/-- A completion without data that reports a status. -/
def State.pcieEnd (s : State) (status : Nat) : State := s.emit (.pcie status [])

/-- A memory request lies in a BAR, in device state D0 (PRESUMED, log 18). A read of more than 4,096 bytes is none that
the endpoint accepts (R535). -/
def State.barHit (s : State) (bar off n : Nat) : Bool :=
  decide (0 < n) && decide (n ≤ 4096) && decide (off + n ≤ barSize bar) && s.rd R.PCIE_STATUS.DSTATE == 0

/-- Put the runs that the bridge holds. -/
def State.putRuns (s : State) (l : List (List (Nat × Byte))) : State := { s with host := { s.host with runs := l } }

/-- The runs of which no byte has been written since (R542). -/
def State.standingRuns (s : State) : List (List (Nat × Byte)) := s.host.runs.filter fun r => r.all s.stands

/-- The enabled bytes of a read of `n` bytes at internal address `a` that lies wholly inside a run. -/
def State.runServes (s : State) (a : Nat) (en : List Bool) : Option (List Byte) :=
  if s.on R.PCIE_CTRL.RA_EN then
    match s.standingRuns.find? fun r => (List.range en.length).all fun i => (r.map (·.1)).contains (a + i) with
    | some r =>
      some (((List.range en.length).filter fun i => en.getD i false).filterMap fun i =>
        (r.find? fun x => x.1 == a + i).map (·.2))
    | none => none
  else none

/-- A BAR2 read whose last byte is at `a` also reads up to 256 further bytes, stopping at the end of the 1 KiB page; the
fifth run replaces the oldest (R542). -/
def State.startRun (s : State) (a : Nat) : State :=
  let r := s.readAhead (a + 1) (min 256 (0x3FF - a % 0x400))
  if s.on R.PCIE_CTRL.RA_EN && !r.isEmpty then
    let l := s.standingRuns ++ [r]
    s.putRuns (l.drop (l.length - 4))
  else s

/-- Bytes of a read that starts at BAR offset `off`, as its completions need them. -/
def barRead (off : Nat) (en : List Bool) (parts : List HostPart) (fail : Bool) : HostRead :=
  { port := .pcie, parts := parts, fail := fail, lead := off % 64, en := en }

/-- A memory read in a BAR. One that a run serves makes no access and reads no further bytes (DEDUCED, log 18). -/
def State.pcieRead (s : State) (bar off : Nat) (en : List Bool) : State :=
  let lead := off % 8
  let f : Mapping := fun i => barMap bar (off - lead + i)
  match if bar = 2 then (bar2 off).bind fun a => s.runServes a en else none with
  | some l => s.startRead (barRead off en [.have l] false)
  | none =>
    let (t, parts, fail) := s.readPieces .pcie f lead en (piecesOf (bar == 0) lead en)
    let u := t.startRead (barRead off en parts fail)
    if bar = 2 ∧ fail = false then
      match bar2 (off + en.length - 1) with
      | some a => u.startRun a
      | none => u
    else u

/-- A memory write in a BAR. -/
def State.pcieWrite (s : State) (bar off : Nat) (data : List (Option Byte)) : State :=
  let lead := off % 8
  s.writePieces .pcie (fun i => barMap bar (off - lead + i)) (fun i => (data.getD (i - lead) none).getD 0)
    (piecesOf (bar == 0) lead (data.map Option.isSome))

/-- Does a memory write in a BAR wait for the ETH domain (17 R572)? -/
def State.barHeld (s : State) (bar off : Nat) (data : List (Option Byte)) : Bool :=
  let lead := off % 8
  (piecesOf (bar == 0) lead (data.map Option.isSome)).any
    (s.pieceHeld .pcie (fun i => barMap bar (off - lead + i)) fun i => (data.getD (i - lead) none).getD 0)

/-- Does a piece of a BAR access wait for the end of a soft reset (20 R630)? -/
def State.barWaits (s : State) (bar off : Nat) (en : List Bool) : Bool :=
  let lead := off % 8
  (piecesOf (bar == 0) lead en).any (s.pieceWaits fun i => barMap bar (off - lead + i))

/-- Reads of the link that are under way: at most 32, for which credits are advertised (R535). -/
def State.creditsLeft (s : State) : Bool :=
  decide ((s.host.reads.filter fun (r : HostRead) => r.port == .pcie).length < 32)

/-- May the endpoint take a request: a BAR4 read, and any posted write, waits behind a posted write to BAR4 (R543), a
read needs a credit (R535), and a register under a soft reset is waited for. -/
def State.pcieReady (s : State) (r : PcieReq) : Bool :=
  match r with
  | .read bar off en =>
    !s.barHit bar off en.length || ((bar != 4 || !s.bar4Held) && s.creditsLeft && !s.barWaits bar off en)
  | .write bar off data =>
    !s.barHit bar off data.length || (!s.bar4Held && !s.barWaits bar off (data.map Option.isSome))
  | _ => true

/-- A dword whose bits hi..lo are x and whose other bits are as in `v`. -/
def field (v hi lo x : Nat) : Nat := v - bitsOf v hi lo * 2 ^ lo + x % 2 ^ (hi + 1 - lo) * 2 ^ lo

/-- What dword n of the configuration space shows (R533 to R536), the bits that the spec does not give as in `v`: the
header, and the four capabilities in the layouts of PCI Express Base 3.0 (PRESUMED) at 0x40 Power Management, 0x50 PCI
Express, 0xA0 MSI-X and 0x100 Advanced Error Reporting (DESIGN CHOICE, log 18). -/
def State.configDword (s : State) (n v : Nat) : Nat :=
  match n with
  | 0 => 0x48001F3D
  | 1 => field (field v 2 2 (s.rd R.PCIE_STATUS.BME)) 20 20 1
  | 2 => 0x0B4000B1
  | 3 => field v 23 16 0
  | 4 => field v 21 0 0
  | 5 => 0
  | 6 => field v 26 0 12
  | 8 => field v 22 0 0
  | 9 => 0
  | 11 => s.otp 0x004 % 65536 * 65536 + s.otp 0x004 / 65536
  | 12 => 0
  | 13 => field v 7 0 0x40
  | 16 => field (field v 18 0 0x35001) 26 25 0
  | 17 => field v 1 0 (s.rd R.PCIE_STATUS.DSTATE)
  | 20 => field v 23 0 0x02A010
  | 21 => field v 2 0 1
  | 22 => field v 7 5 s.host.maxPayload
  | 23 => field v 11 0 0xC23
  | 24 => field (field v 19 16 (s.rd R.PCIE_STATUS.RATE)) 25 20 (s.rd R.PCIE_STATUS.LANES)
  | 29 => field v 9 7 0
  | 40 => field (field (field v 26 0 0x3F0011) 30 30 (s.rd R.PCIE_STATUS.FMASK)) 31 31 (s.rd R.PCIE_STATUS.MSIX_EN)
  | 41 => 0x5800
  | 42 => 0x5C00
  | 64 => 0x00020001
  | _ => v

/-- Dword n of the configuration space, with a free value for the bits that the spec does not give (log 2). -/
def State.header (s : State) (n : Nat) : State × Nat :=
  let (v, t) := s.free
  (t, s.configDword n (v.toNat % 2 ^ 32))

/-- One PCI Express request. -/
def State.pcieServe (s : State) (r : PcieReq) : State :=
  match r with
  | .read bar off en => if s.barHit bar off en.length then s.pcieRead bar off en else s.pcieEnd 1
  | .write bar off data => if s.barHit bar off data.length then s.pcieWrite bar off data else s.pcieEnd 1
  | .miss => s.pcieEnd 1
  | .io => s.pcieEnd 1
  | .atomicOp => s.pcieEnd 1
  | .headerRead n => let (t, v) := s.header n
                     t.emit (.pcie 0 (leBytes 4 v))
  | .busMaster en => (s.wr R.PCIE_STATUS.BME (ofBool en)).pcieEnd 0
  | .msix en mask => ((s.wr R.PCIE_STATUS.MSIX_EN (ofBool en)).wr R.PCIE_STATUS.FMASK (ofBool mask)).pcieEnd 0
  | .deviceState d3 => (s.wr R.PCIE_STATUS.DSTATE (if d3 then 3 else 0)).pcieEnd 0
  | .maxPayload code => ({ s with host := { s.host with maxPayload := code % 8 } } : State).pcieEnd 0

/-- The endpoint's own registers and the MSI-X table take their reset values (R538). -/
def State.endpointReset (s : State) : State :=
  let a := regAt 5 0x800
  { s with regs := SMap.erase (R.PCIE_STATUS.all.addr 0 0)
             (s.regs.filter fun e => !(decide (a ≤ e.1) && decide (e.1 < a + 0x400))) }

/-- Low holds the endpoint in reset. -/
def State.perstLow (s : State) : State :=
  let t := s.linkLost.endpointReset
  { t with host := { t.host with perst := true, maxPayload := 0 } }

/-- PCIE_PERST (R538): low resets the endpoint, in NAP and DEEP too; the rise is a HOST wake (12 R424). -/
def execPciePerst (low : Bool) (s : State) : Host.Outcome State Fault Refusal :=
  .next (if low then s.perstLow
    else
      let t := { s with host := { s.host with perst := false } }
      if s.host.perst then t.hostAssert 0 else t)

/-- The link is in L0, or in L0s or L1. -/
def State.linkIn (s : State) (low : Bool) (lanes rate : Nat) : State :=
  if s.host.perst then s
  else
    let t := ((s.wr R.PCIE_STATUS.LANES lanes).wr R.PCIE_STATUS.RATE rate).linkUp true
    { t with host := { t.host with lowPower := low } }

/-- PCIE_LINK_CHANGE (PCIE_STATUS): the link enters a state; leaving L0, L0s and L1 for Detect is host loss on a root
(02 R76). -/
def execPcieLinkChange (link : PcieLink) (lanes rate : Nat) (s : State) : Host.Outcome State Fault Refusal :=
  s.powered (match link with
    | .detect => s.linkLost
    | .l0 => s.linkIn false lanes rate
    | .l0s => s.linkIn true lanes rate
    | .l1 => s.linkIn true lanes rate)

/-- HOST_LINK_LOSS (02 R76). -/
def execHostLinkLoss (s : State) : Host.Outcome State Fault Refusal := s.powered s.linkLost

/-- MSIX_SEND (R539): the lowest presented host source whose vector can be sent. -/
def State.msixSend (s : State) : State :=
  match s.hostSources.find? fun e => s.vectorOpen e.2 with
  | none => s
  | some (k, v) =>
    let a := (s.reg (R.MSIX_UPPERv.all.addr 0 v)).toNat * 2 ^ 32 + (s.reg (R.MSIX_ADDRv.all.addr 0 v)).toNat
    (s.emit (.msix a (s.rd R.MSIX_DATAv.DATA 0 v))).setSrc k (s.src k).claim

/-- MSIX_SEND. -/
def execMsixSend (s : State) : Host.Outcome State Fault Refusal :=
  s.powered (if s.pcieOpen then s.msixSend else s)

/-! ### SPI host port (R547 to R550) -/

/-- HOST_IRQ_N is low (R541). -/
def State.hostIrq (s : State) : Bool :=
  !s.on R.PCIE_STATUS.MSIX_EN && s.on R.LB_CTRL.IRQ_EN && !s.hostSources.isEmpty

/-- A transaction begins: the chip select falls, which is a HOST wake (12 R424), and SPIH_MISO carries 0xFF (R547). -/
def State.spiBegin (s : State) : State :=
  (({ s with host := { s.host with spiOpen := true, spiPartial := [] } } : State).hostAssert 1).emit .spiFill

/-- May a transaction begin: the port is enabled and none is open? -/
def State.spiReady (s : State) : Bool := s.on R.LB_CTRL.SPI_EN && !s.host.spiOpen

/-- An address that is not aligned to SIZE fails the whole transaction (R548). -/
def State.spiMisaligned (s : State) (write : Bool) (size a : Nat) : State := s.accessError .spi 6 write size 2 a

/-- Pieces of one element of `n` bytes at `a`. -/
def elementPieces (a n : Nat) : List Piece := piecesOf (isReg a) (a % 8) (List.replicate n true)

/-- Read the elements from `a` on; the parts of one element stand highest first, as they leave MSB first. -/
def State.spiElements (s : State) (a n : Nat) : Nat → State × List HostPart × Bool
  | 0 => (s, [], false)
  | k + 1 =>
    let f : Mapping := fun i => some (a - a % 8 + i)
    let (s1, xs, bad) := s.readPieces .spi f (a % 8) (List.replicate n true) (elementPieces a n)
    let (s2, ys, bads) := s1.spiElements (a + n) n k
    (s2, xs.reverse ++ ys, bad || bads)

/-- Does an element of the transaction wait for a soft reset? -/
def State.spiWaits (s : State) (a n count : Nat) : Bool :=
  (List.range count).any fun i => s.regWaits (a + i * n)

/-- The elements of a READ are read. -/
def State.spiFetch (s : State) (a n count : Nat) : State :=
  let (t, parts, fail) := s.spiElements a n count
  t.startRead { port := .spi, parts := parts, fail := fail }

/-- Write whole elements, MSB first on the wire. -/
def State.spiPut (s : State) (a n : Nat) : List (List Byte) → State
  | [] => s
  | e :: t =>
    let f : Mapping := fun i => some (a - a % 8 + i)
    let s1 := s.writePieces .spi f (fun i => e.reverse.getD (i - a % 8) 0) (elementPieces a n)
    s1.spiPut (a + n) n t

/-! ### The gateway's cycles (R554) -/

/-- A local-bus or gateway error is counted (LB_ERRCNT.LB, INT_STATUS.HERR). -/
def State.lbError (s : State) : State := (s.bump R.LB_ERRCNT.LB).raise R.localBus_INT.HERR

/-- Bytes on LB_D: those that the byte enables select. -/
def lanes (be v : Nat) : List (Option Byte) :=
  [if bit be 0 then some (BitVec.ofNat 8 v) else none, if bit be 1 then some (BitVec.ofNat 8 (v / 256)) else none]

/-- Is an internal access of the gateway incomplete? -/
def State.gwBusy (s : State) : Bool :=
  (s.host.reads.any fun (r : HostRead) => r.port == .localBus) || (s.ring.bridge.any fun r => r.who == .localBus)

/-- Does a gateway cycle make an internal access? -/
def GwOp.access : GwOp → Bool
  | .dataLo none => true
  | .dataHi (some _) => true
  | _ => false

/-- Change the gateway. -/
def State.gw (s : State) (f : HostState → HostState) : State := { s with host := f s.host }

/-- The gateway answers a read with 16 bits. -/
def State.gwOut (s : State) (v : Nat) : State := s.emit (.localBus (lanes 3 v) false)

/-- LB_BUSY_N is low: data is not valid yet, or the cycle waits. -/
def State.gwHold (s : State) : State := s.emit (.localBus [none, none] true)

/-- After a DATA_HI access the address advances when INC = 1. -/
def State.gwNext (s : State) : State :=
  if s.host.gwInc then s.gw fun h => { h with gwAddr := (h.gwAddr + 4) % 2 ^ 32 } else s

/-- A DATA_LO read: 32 bits are read at the address. -/
def State.gwFetch (s : State) : State :=
  let (t, part, fail) := match s.busRead .localBus s.host.gwAddr 4 with
    | (u, .data v) => (u, HostPart.have (leBytes 4 v), false)
    | (u, .err) => (u, HostPart.have (leBytes 4 0), true)
    | (u, .wait tag) => (u, HostPart.wait tag 4, false)
  let u := t.startRead { port := .localBus, parts := [part], fail := fail }
  if part.ended then u else u.gwHold

/-- What a gateway cycle does (Local Bus Gateway). -/
def State.gwDo (s : State) (op : GwOp) : State :=
  match op with
  | .addrLo none => s.gwOut (s.host.gwAddr % 65536)
  | .addrLo (some v) => s.gw fun h => { h with gwAddr := h.gwAddr / 65536 * 65536 + v.toNat / 4 * 4 }
  | .addrHi none => s.gwOut (s.host.gwAddr / 65536)
  | .addrHi (some v) => s.gw fun h => { h with gwAddr := h.gwAddr % 65536 + v.toNat * 65536 }
  | .dataLo none => s.gwFetch
  | .dataLo (some v) => s.gw fun h => { h with gwStaged := v.toNat }
  | .dataHi none => (s.gwOut s.host.gwLatch).gwNext
  | .dataHi (some v) =>
    (s.busWrite .localBus s.host.gwAddr 4 (s.host.gwStaged + v.toNat * 65536)).1.gwNext
  | .stat none => (s.gwOut (ofBool s.host.gwInc * 2 + ofBool s.host.gwErr)).gw fun h => { h with gwErr := false }
  | .stat (some v) => s.gw fun h => { h with gwInc := bit v.toNat 1 }
  | .none_ none => s.gwOut 0
  | .none_ (some _) => s

/-! ### Requests in the order of their port (R530, R543, R554) -/

/-- Does the request write MAC_CTRL.EN = 1 and wait for the ETH domain (17 R572)? -/
def State.hostHeld (s : State) (r : HostReq) : Bool :=
  match r with
  | .pcie (.write bar off data) => s.barHit bar off data.length && s.barHeld bar off data
  | .spiWrite a n els => (els.zip (List.range els.length)).any fun x => s.ethWaits .spi (a + x.2 * n) n (leNat x.1.reverse)
  | .gw (.dataHi (some v)) => s.ethWaits .localBus s.host.gwAddr 4 (s.host.gwStaged + v.toNat * 65536)
  | _ => false

/-- May the bridge take a request now? -/
def State.hostReady (s : State) (r : HostReq) : Bool :=
  !s.hostHeld r && match r with
  | .pcie q => s.pcieReady q
  | .spiRead a n count => !s.spiWaits a n count
  | .spiWrite a n els => !s.spiWaits a n els.length
  | .gw op => !s.gwBusy && !(op.access && s.regWaits s.host.gwAddr)

/-- The bridge takes a request. -/
def State.hostTake (s : State) (r : HostReq) : State :=
  match r with
  | .pcie q => s.pcieServe q
  | .spiRead a n count => s.spiFetch a n count
  | .spiWrite a n els => s.spiPut a n els
  | .gw op => s.gwDo op

/-- Requests are taken oldest first; one that must wait holds back every later one of its port, and asks for the power that
it waits for. What is left is the second result. -/
def State.hostServe (s : State) (stuck : List Initiator) : List HostReq → State × List HostReq
  | [] => (s, [])
  | r :: t =>
    if stuck.contains r.port || !s.hostReady r then
      let s1 := if !stuck.contains r.port && s.hostHeld r then s.requestDom 4 else s
      let (u, l) := s1.hostServe (r.port :: stuck) t
      (u, r :: l)
    else (s.hostTake r).hostServe stuck t

/-- The requests that may go are taken; none is left that a reset has ended meanwhile. -/
def State.hostDrain (s : State) : State :=
  let (t, l) := s.hostServe [] s.host.waits
  { t with host := { t.host with waits := l.filter fun r => t.host.waits.contains r } }

/-- A port brings a request: it is taken behind the earlier ones of its port, at once or when it may go. -/
def State.hostOffer (s : State) (r : HostReq) : State :=
  ({ s with host := { s.host with waits := s.host.waits ++ [r] } } : State).hostDrain

/-- PCIE_REQUEST. -/
def execPcieRequest (r : PcieReq) (s : State) : Host.Outcome State Fault Refusal :=
  s.powered (if s.pcieOpen then s.hostOffer (.pcie r) else s)

/-! ### SPI transactions (R547 to R550) -/

/-- SPI_READ (R547, R548). -/
def State.spiRead (s : State) (size count a : Nat) : State :=
  let n := 2 ^ (size % 4)
  if s.spiReady = false then s
  else
    let s1 := s.spiBegin
    if a % n ≠ 0 then
      (s1.spiMisaligned false n a).emit (.spi ([0xA5] ++ List.replicate (n * count) 0 ++ [1]))
    else s1.hostOffer (.spiRead a n count)

/-- SPI_WRITE (R547 to R549): each element is issued when its last byte has arrived. -/
def State.spiWrite (s : State) (size count a : Nat) (data : List Byte) : State :=
  let n := 2 ^ (size % 4)
  let l := data.take (n * count)
  let whole := l.length / n * n
  if s.spiReady = false then s
  else
    let s1 := s.spiBegin
    if a % n ≠ 0 then s1.spiMisaligned true n a
    else
      let s2 := s1.hostOffer (.spiWrite a n (entriesOf n (l.take whole)))
      { s2 with host := { s2.host with spiPartial := l.drop whole } }

/-- Is a write of the SPI host port unacknowledged (WPEND)? -/
def State.spiPending (s : State) : Bool :=
  (s.ring.bridge.any fun r => r.who == .spi && r.write) ||
  s.host.waits.any fun r => match r with | .spiWrite _ _ _ => true | _ => false

/-- SPI_STATUS (R547, R549): IRQ, WPEND and WERR, which clears. -/
def State.spiStatus (s : State) : State :=
  if s.spiReady = false then s
  else
    let s1 := s.spiBegin
    let v := ofBool s1.hostIrq * 4 + ofBool s1.spiPending * 2 + ofBool s1.host.werr
    ({ s1 with host := { s1.host with werr := false } } : State).emit (.spi [BitVec.ofNat 8 v])

/-- SPI_READ. -/
def execSpiRead (size count addr : Nat) (s : State) : Host.Outcome State Fault Refusal :=
  s.powered (s.spiRead size count addr)
/-- SPI_WRITE. -/
def execSpiWrite (size count addr : Nat) (data : List Byte) (s : State) : Host.Outcome State Fault Refusal :=
  s.powered (s.spiWrite size count addr data)
/-- SPI_STATUS. -/
def execSpiStatus (s : State) : Host.Outcome State Fault Refusal := s.powered s.spiStatus

/-- SPI_UNKNOWN_COMMAND (R549): ignored until the chip select rises, and counted. -/
def execSpiUnknownCommand (byte : Nat) (s : State) : Host.Outcome State Fault Refusal :=
  s.powered (if s.spiReady = false ∨ byte = 2 ∨ byte = 3 ∨ byte = 5 then s
    else ((s.spiBegin).bump R.LB_ERRCNT.SPI).raise R.localBus_INT.HERR)

/-- SPI_CS_RISE (R547, R549, R550): a partial element is discarded, and the data of reads already issued; reads that
have not been issued are not. -/
def State.spiRise (s : State) : State :=
  let t := ({ s with host := { s.host with spiOpen := false, spiPartial := [] } } : State).dropReads .spi
  (t.dropWaits fun r => match r with | .spiRead _ _ _ => true | _ => false).emit .spiFloat

/-- SPI_CS_RISE. -/
def execSpiCsRise (s : State) : Host.Outcome State Fault Refusal := s.powered s.spiRise

/-! ### Local bus (R551 to R556) -/

/-- A read of the mailbox RAM (R551, R553; 15 R505). -/
def State.lbRead (s : State) (a be : Nat) (collide : Bool) : State :=
  let h := 0x103F0000 + a % 0x10000 / 2 * 2
  if collide && !bit (s.rd R.SRAM_BANK_COLLIDE.MODE) 31 then
    let (v, s1) := s.free
    (s1.bump R.SRAM_COLL_CNT.BUSY).emit (.localBus (lanes be v.toNat) true)
  else match s.sramRead h 2 with
    | (t, some v) => t.emit (.localBus (lanes be v) false)
    | (t, none) => ((t.capture 6 .localBus false 2 5 h).lbError).emit (.localBus (lanes be 0) true)

/-- A write of the mailbox RAM (R551, R553; 15 R506). -/
def State.lbWrite (s : State) (a be : Nat) (v : Half) (collide : Bool) : State :=
  let h := 0x103F0000 + a % 0x10000 / 2 * 2
  let s1 := if collide then s.bump R.SRAM_COLL_CNT.WW else s
  match bit be 0, bit be 1 with
  | true, true => s1.sramWrite .localBus h 2 v.toNat
  | true, false => s1.sramWrite .localBus h 1 (v.toNat % 256)
  | false, true => s1.sramWrite .localBus (h + 1) 1 (v.toNat / 256)
  | false, false => s1

/-- A cycle with LB_CS_N low: a HOST wake whatever LB_EN is (R555); both strobes low at once are ignored (21 R648). -/
def State.lbAccess (s : State) (a be : Nat) (oe : Bool) (data : Option Half) (collide : Bool) : State :=
  if s.on R.LB_CTRL.LB_EN = false then s
  else match oe, data with
    | true, none => s.lbRead a be collide
    | false, some v => s.lbWrite a be v collide
    | _, _ => s

/-- LB_CYCLE. -/
def execLbCycle (a be : Nat) (oe : Bool) (data : Option Half) (collide : Bool) (s : State) :
    Host.Outcome State Fault Refusal :=
  let t := s.hostAssert 2
  .next (if s.awake then t.lbAccess a be oe data collide else t)

/-- A gateway cycle with LB_EN = 1: one byte enable sets ERR; otherwise it is taken in order, and LB_BUSY_N is low while
it waits. -/
def State.gwCycle (s : State) (full : Bool) (op : GwOp) : State :=
  if s.on R.LB_CTRL.LB_EN = false then s
  else if full then
    let t := s.hostOffer (.gw op)
    if t.host.waits.contains (.gw op) then t.gwHold else t
  else (s.gw fun h => { h with gwErr := true }).lbError

/-- A cycle with LB_RCS_N low: a HOST wake whatever LB_EN is (R555), and the gateway's cycle. -/
def State.gwRow (s : State) (full : Bool) (op : GwOp) : Host.Outcome State Fault Refusal :=
  let t := s.hostAssert 2
  .next (if s.awake then t.gwCycle full op else t)

/-- ADDR_LO. -/
def execAddrLo (full : Bool) (value : Option Half) (s : State) : Host.Outcome State Fault Refusal :=
  s.gwRow full (.addrLo value)
/-- ADDR_HI. -/
def execAddrHi (full : Bool) (value : Option Half) (s : State) : Host.Outcome State Fault Refusal :=
  s.gwRow full (.addrHi value)
/-- DATA_LO_READ: 32 bits are read at the address. -/
def execDataLoRead (full : Bool) (s : State) : Host.Outcome State Fault Refusal := s.gwRow full (.dataLo none)
/-- DATA_LO_WRITE: the low half is staged. -/
def execDataLoWrite (full : Bool) (value : Half) (s : State) : Host.Outcome State Fault Refusal :=
  s.gwRow full (.dataLo (some value))
/-- DATA_HI_READ: the latched high half. -/
def execDataHiRead (full : Bool) (s : State) : Host.Outcome State Fault Refusal := s.gwRow full (.dataHi none)
/-- DATA_HI_WRITE: the staged word with this high half is written. -/
def execDataHiWrite (full : Bool) (value : Half) (s : State) : Host.Outcome State Fault Refusal :=
  s.gwRow full (.dataHi (some value))
/-- STAT_READ: INC and ERR, which clears; 0 above STAT. -/
def execStatRead (cyc : GwCycle) (s : State) : Host.Outcome State Fault Refusal :=
  s.gwRow cyc.full (if cyc.sel = 4 then .stat none else .none_ none)
/-- STAT_WRITE: INC; ignored above STAT. -/
def execStatWrite (cyc : GwCycle) (value : Half) (s : State) : Host.Outcome State Fault Refusal :=
  s.gwRow cyc.full (if cyc.sel = 4 then .stat (some value) else .none_ (some value))

/-- LB_DUAL_SELECT (R556): a cycle that the gateway holds is ignored with it, and a read under way gives no data; it is
counted, and a HOST wake. -/
def State.dualSelect (s : State) : State :=
  if s.on R.LB_CTRL.LB_EN = false then s
  else ((s.dropReads .localBus).dropWaits fun r => r.port == .localBus).lbError

/-- LB_DUAL_SELECT. -/
def execLbDualSelect (s : State) : Host.Outcome State Fault Refusal :=
  let t := s.hostAssert 2
  .next (if s.awake then t.dualSelect else t)

/-! ### Boot flash (R558) -/

/-- The bytes that a read took from the flash go to LB_FL_DATAn, LEN of them. -/
def State.flashFill (s : State) (data : List Byte) : State :=
  let n := min 32 (s.rd R.LB_FL_CMD.LEN)
  (List.range n).foldl (fun (t : State) i =>
    let v := t.reg (R.LB_FL_DATAn.DATA.addr 0 (i / 4))
    t.setReg (R.LB_FL_DATAn.DATA.addr 0 (i / 4)) (putBits v (8 * (i % 4) + 7) (8 * (i % 4)) (data.getD i 0).toNat)) s

/-- FLASH_DONE: the running transaction ends. -/
def execFlashDone (data : List Byte) (s : State) : Host.Outcome State Fault Refusal :=
  s.powered (if s.on R.LB_FL_CMD.BUSY then
      ((if s.on R.LB_FL_CMD.WRITE then s else s.flashFill data).wr R.LB_FL_CMD.BUSY 0).raise R.localBus_INT.FL_DONE
    else s)

end Sys2Proof.Machine
end

