-- ==== Sys2Proof/Machine/LoadStore.lean ====
section
/-! DEFINITION. Clalo loads and stores: words, halfwords, bytes, points and the context window (08 R273,
R274, R282 to R288). -/

namespace Sys2Proof.Machine

/-! ### Shared shapes -/

/-- A load of `n` bytes into rd, `ext` making the register's value of them; the [g14 + 4 × u6] form encodes
words only. -/
def State.loadInstr (s : State) (h : Head) (o : MemForm) (n : Nat) (ext : Nat → Word) :
    Host.Outcome State Fault Refusal :=
  s.instr h o.len (n == 4 || !o.isSp) fun t =>
    t.load h.core (o.addr (t.core h.core)) n false fun u v =>
      (u.updCore h.core fun (k : CoreState) => k.setReg o.rd (ext v)).retire h.core o.len

/-- A store of the `n` low bytes of rd. -/
def State.storeInstr (s : State) (h : Head) (o : MemForm) (n : Nat) : Host.Outcome State Fault Refusal :=
  s.instr h o.len (n == 4 || !o.isSp) fun t =>
    let k := t.core h.core
    t.store h.core o.len (o.addr k) n ((k.reg o.rd).toNat % 256 ^ n)

/-- The registers and flags after a point load: value, then quality, Z for GOOD, P for INVALID or NEVER
(R287). -/
def CoreState.loadPoint (k : CoreState) (o : PointForm) (p : Half) : CoreState :=
  let x := o.parts
  let v := if x.2.2 then sext 12 (ptVal p) else zext 12 (ptVal p)
  let q := ptQual p
  ((k.setReg x.1 v).setReg x.2.1 (BitVec.ofNat 32 q)).setFlags
    { k.flags with z := q == 0, p := q == 0xF || q == 8 }

/-- The point that STP stores: quality from rq[3:0], value from rd[11:0] (R288). -/
def CoreState.pointOf (k : CoreState) (o : PointForm) : Nat :=
  (mkPt (k.reg o.parts.2.1).toNat (k.reg o.parts.1).toNat).toNat

/-! ### Meanings, in the table's order -/

/-- LDW (R277, R278, R282). -/
def execLdw (h : Head) (o : MemForm) (s : State) : Host.Outcome State Fault Refusal :=
  s.loadInstr h o 4 (zext 32)

/-- LDH: zero-extended (R277, R278). -/
def execLdh (h : Head) (o : MemForm) (s : State) : Host.Outcome State Fault Refusal :=
  s.loadInstr h o 2 (zext 16)

/-- LDHS: sign-extended (R278). -/
def execLdhs (h : Head) (rd ra s12 : Nat) (s : State) : Host.Outcome State Fault Refusal :=
  s.loadInstr h (.long rd ra s12) 2 (sext 16)

/-- LDB: zero-extended (R277, R278). -/
def execLdb (h : Head) (o : MemForm) (s : State) : Host.Outcome State Fault Refusal :=
  s.loadInstr h o 1 (zext 8)

/-- LDBS: sign-extended (R278). -/
def execLdbs (h : Head) (rd ra s12 : Nat) (s : State) : Host.Outcome State Fault Refusal :=
  s.loadInstr h (.long rd ra s12) 1 (sext 8)

/-- STW (R277, R278, R282, R284). -/
def execStw (h : Head) (o : MemForm) (s : State) : Host.Outcome State Fault Refusal := s.storeInstr h o 4

/-- STH. -/
def execSth (h : Head) (o : MemForm) (s : State) : Host.Outcome State Fault Refusal := s.storeInstr h o 2

/-- STB. -/
def execStb (h : Head) (o : MemForm) (s : State) : Host.Outcome State Fault Refusal := s.storeInstr h o 1

/-- LDP: a point at an even address (R287). -/
def execLdp (h : Head) (o : PointForm) (s : State) : Host.Outcome State Fault Refusal :=
  s.instr h o.len o.defined fun t =>
    t.load h.core (o.addr (t.core h.core)) 2 true fun u v =>
      (u.updCore h.core fun (k : CoreState) => k.loadPoint o (BitVec.ofNat 16 v)).retire h.core o.len

/-- STP: one 16-bit access (R288). -/
def execStp (h : Head) (o : PointForm) (s : State) : Host.Outcome State Fault Refusal :=
  s.instr h o.len o.defined fun t =>
    let k := t.core h.core
    t.store h.core o.len (o.addr k) 2 (k.pointOf o)

/-- LDX: a word of the context window, or CTXERR (R273, R274). -/
def execLdx (h : Head) (long : Bool) (rd u : Nat) (s : State) : Host.Outcome State Fault Refusal :=
  s.instr h (lenOf long) true fun t =>
    if (t.core h.core).windowAt u then
      (t.updCore h.core fun (k : CoreState) => k.setReg rd (k.windowWord u)).retire h.core (lenOf long)
    else t.faultHere h.core 5 (some (BitVec.ofNat 32 u))

/-- STX: a word of the context window where it is open to STX, or CTXERR (R273, R274). -/
def execStx (h : Head) (long : Bool) (rd u : Nat) (s : State) : Host.Outcome State Fault Refusal :=
  s.instr h (lenOf long) true fun t =>
    if (t.core h.core).windowAt u && stxOpen u then
      (t.updCore h.core fun (k : CoreState) => k.setWindowWord u (k.reg rd)).retire h.core (lenOf long)
    else t.faultHere h.core 5 (some (BitVec.ofNat 32 u))

end Sys2Proof.Machine
end

