-- ==== Sys2Proof/Machine/RingDyn.lean ====
section
/-! DEFINITION. The dynamic segment (04 R150 to R156): this unit's dynamic frame, the messages of others, and
the ring bridge as the answering unit (03 R124 to R126). -/

namespace Sys2Proof.Machine

/-! ### The bridge answers (03 R124 to R126) -/

/-- Is a message a completion of data class? -/
def DynMsg.dataCpl (m : DynMsg) : Bool := m.type == 3 && !m.reg

/-- Send a BR_CPL to unit u: 0 OK, 1 ERROR, 2 RETRY (04, Dynamic Message Types). -/
def State.bridgeAnswer (s : State) (u tag status data : Nat) (reg : Bool) : State :=
  s.queueMsg { type := 3, dest := u, reg := reg
               body := beBytes 2 tag ++ beBytes 1 status ++ [0] ++ beBytes 8 data }

/-- Bytes of the size code of a BR_REQ. -/
def reqSize (m : DynMsg) : Nat := 2 ^ (be m.body 2 1 % 4)
/-- WRITE of a BR_REQ. -/
def reqWrite (m : DynMsg) : Bool := bit (be m.body 2 1) 7
/-- REG of a BR_REQ. -/
def reqReg (m : DynMsg) : Bool := bit (be m.body 2 1) 6
/-- The far address of a BR_REQ. -/
def reqAddr (m : DynMsg) : Nat := be m.body 4 4

/-- Perform a request of unit u and complete it (03 R124). A window of this unit leads to no further unit. -/
def State.perform (s : State) (u : Nat) (m : DynMsg) : State :=
  let who : Initiator := .ringUnit u
  let a := reqAddr m
  let n := reqSize m
  let (t, r) :=
    if rangeOf a = some .remote then s.busErr who 18 (reqWrite m) n 10 a
    else if reqWrite m then s.busWrite who a n (be m.body 8 8) else s.busRead who a n
  match r with
  | .data v => t.bridgeAnswer u (be m.body 0 2) 0 (if reqWrite m then 0 else v) (reqReg m)
  | .err => t.bridgeAnswer u (be m.body 0 2) 1 0 (reqReg m)
  | .wait _ => t

/-- Is there room for a completion of register class: its buffer holds one (R125). -/
def State.regRoom (s : State) : Bool := !(s.ring.msgs.any fun m => m.type == 3 && m.reg)

/-- Does the request write MAC_CTRL.EN = 1 and wait for the ETH domain (17 R572)? -/
def State.ethHeld (s : State) (m : DynMsg) : Bool :=
  reqWrite m && s.ethWaits (.ringUnit 0) (reqAddr m) 4 (be m.body 8 8)

/-- The power of the ETH domain is requested for a request that waits for it. -/
def State.ethAsk (s : State) (m : DynMsg) : State := if s.ethHeld m then s.requestDom 4 else s

/-- Is the register-class engine free for an incoming request: no own register request is out and the buffer of its
completion is empty (R125), and the register waits neither for a soft reset nor for the ETH domain? -/
def State.engineFree (s : State) (m : DynMsg) : Bool :=
  !(s.ring.bridge.any fun r => r.reg && r.sent) && s.regRoom && !s.regWaits (reqAddr m) && !s.ethHeld m

/-- Is there room for one more completion of data class (R125)? -/
def State.dataRoom (s : State) : Bool := decide ((s.ring.msgs.filter DynMsg.dataCpl).length < 4)

/-- Is there room for a completion of a class (R125)? -/
def State.cplRoom (s : State) (reg : Bool) : Bool := if reg then s.regRoom else s.dataRoom

/-- Answer RETRY to the request with this TAG of unit u (R125, R126): where the buffers of outgoing completions are full
the answer waits for one. The spec does not say where it waits (DESIGN CHOICE, log 35). -/
def State.answerRetry (s : State) (u tag : Nat) (reg : Bool) : State :=
  if s.cplRoom reg then s.bridgeAnswer u tag 2 0 reg
  else { s with ring := { s.ring with retries := s.ring.retries ++ [(u, tag, reg)] } }

/-- RETRY answers that wait take the buffers that are free. -/
def State.flushRetries (s : State) : State :=
  s.ring.retries.foldl (fun (t : State) x => t.answerRetry x.1 x.2.1 x.2.2) { s with ring := { s.ring with retries := [] } }

/-- A register-class request of unit u that meets no crossing (R125): it is performed, waits in the one buffer, or is
answered RETRY. The spec gives RETRY for a full data-class buffer only; a full register-class buffer answers it too
(DESIGN CHOICE, log 35). -/
def State.regTake (s : State) (u : Nat) (m : DynMsg) : State :=
  if s.ring.regIn.isEmpty && s.engineFree m then s.perform u m
  else if s.ring.regIn.isEmpty then { s with ring := { s.ring with regIn := [(u, m)] } }
  else s.answerRetry u (be m.body 0 2) true

/-- The request of unit u for which this unit has withdrawn its own (R126) comes first: it is performed once a completion
buffer is free, and a request that waits for the engine is answered RETRY. -/
def State.regFirst (s : State) (u : Nat) (m : DynMsg) : State :=
  if s.engineFree m then s.perform u m
  else
    let s1 := s.ring.regIn.foldl (fun (t : State) x => t.answerRetry x.1 (be x.2.body 0 2) true) s
    { s1 with ring := { s1.ring with regIn := [(u, m)] } }

/-- A register-class request of unit u (R125, R126): at a crossing the higher-address unit withdraws its own request
and performs the incoming one, and the lower-address unit answers RETRY. -/
def State.regRequest (s : State) (u : Nat) (m : DynMsg) : State :=
  match s.crossing u with
  | some r => if u < s.ring.addr then (s.withdraw r).regFirst u m else s.answerRetry u (be m.body 0 2) true
  | none => s.regTake u m

/-- The register-class request that waits is performed once the engine is free, unless it crosses a request that this
unit has sent since (R126). -/
def State.serveReg (s : State) : State :=
  match s.ring.regIn with
  | (u, m) :: t =>
    let s1 : State := { s with ring := { s.ring with regIn := t } }
    if (s.crossing u).isSome then s1.regRequest u m
    else if s.engineFree m then s1.perform u m
    else s.ethAsk m
  | [] => s

/-- The first data-class request that waits is performed once a completion buffer is free. -/
def State.serveData (s : State) : State :=
  match s.ring.dataIn with
  | (u, m) :: t => if s.dataRoom then (({ s with ring := { s.ring with dataIn := t } } : State).perform u m) else s
  | [] => s

/-- Waiting answers and incoming requests are served as far as buffers allow (R125). -/
def State.serveIn (s : State) : State := s.flushRetries.serveReg.serveData.serveData.serveData.serveData

/-- A data-class request of unit u (R125): a full incoming buffer answers RETRY. -/
def State.dataRequest (s : State) (u : Nat) (m : DynMsg) : State :=
  if s.ring.dataIn.isEmpty && s.dataRoom then s.perform u m
  else if s.ring.dataIn.length < 4 then { s with ring := { s.ring with dataIn := s.ring.dataIn ++ [(u, m)] } }
  else s.answerRetry u (be m.body 0 2) false

/-! ### This unit's dynamic frame (04 R153, R156) -/

/-- A message on the wire. -/
def DynMsg.wire (m : DynMsg) : List Byte :=
  beBytes 1 m.type ++ beBytes 1 m.pad ++ beBytes 2 m.dest ++ beBytes 2 m.len ++ [0, 0] ++ m.body

/-- DYNAMIC_FRAME_SEND (R153, R156): the waiting messages that fit, the TRACE message last (19 R620). The FSEQ of a dynamic
frame the spec does not give: it is 0 (DESIGN CHOICE, log 57). -/
def State.dynSend (s : State) : State :=
  match s.ring.minislot with
  | none => s
  | some (_, r) =>
    if s.rd R.RING_CYC_STATUS.SEG ≠ 2 ∨ s.maySend = false then s
    else
      let x := s.frameLoad (s.dynBytes r)
      let s1 := { s with ring := { s.ring with msgs := s.ring.msgs.drop x.1.length, minislot := none } }
      let (s2, tr) := s1.traceMsg (s.dynBytes r - s.loadBytes x)
      let ms := x.1 ++ (x.2.map fun e => s.copyMsg e.2) ++ tr
      if ms.isEmpty then s1
      else
        let rest := beBytes 2 ms.length ++ beBytes 6 0 ++ ms.flatMap DynMsg.wire
        let n := s2.withTag (16 + rest.length)
        let c := s2.rd R.RING_CYC_NUM.CYCLE
        let units := s2.rd R.RING_ENUM_STATUS.UNITS
        let s3 := s2.sendBoth fun dir =>
          s2.sealed (fHeader 3 s2.ring.active.auth dir units s2.ring.addr n 0 c ++ rest)
        (s3.sentCopies x.2).serveIn

/-! ### Dynamic frames of other units (04 R155, R156) -/

/-- The messages of a dynamic frame: at most `n` in the bytes `l`. -/
def parseMsgs : Nat → List Byte → List DynMsg
  | 0, _ => []
  | n + 1, l =>
    let k := be l 4 2
    if l.length < 8 ∨ k < 8 ∨ l.length < k then []
    else { type := be l 0 1, pad := be l 1 1, dest := be l 2 2 % 2048, body := (l.drop 8).take (k - 8) } ::
      parseMsgs n (l.drop k)

/-- The frame of a SWITCH message enters the switch core's RING port (14 R475, R486, R487). -/
def State.switchMsg (s : State) (src : Nat) (m : DynMsg) : State :=
  let f := m.body.take (m.body.length - m.pad % 4)
  let data := f.take (f.length - 4)
  let fcs := f.drop (f.length - 4)
  s.ingress { data := data, port := 5, cls := s.classOf 5 data, srcUnit := src
              fcsBad := fcs != leBytes 4 (crc32 data).toNat }

/-- This unit consumes a message addressed to it, or to every unit (R156): the latter without an address too. -/
def State.consume (s : State) (src : Nat) (m : DynMsg) : State :=
  if (m.dest ≠ s.ring.addr ∨ s.ring.addr = 0) ∧ m.dest ≠ 0x7FF then s
  else match m.type with
    | 1 => s.hearReport src (be m.body 0 1)
    | 2 => if reqReg m then s.regRequest src { m with reg := true } else s.dataRequest src m
    | 3 => s.bridgeCpl src m.body
    | 4 => s.switchMsg src m
    | 5 => s.collect src m.body
    | _ => s

/-- The tick at which minislot m begins, counted from the cycle's start (04, Dynamic segment). -/
def TableSet.minislotTick (t : TableSet) (m : Nat) : Nat := t.thTicks + t.stTicks + 512 * m / 5

/-- Is a dynamic frame of unit `src` beyond 2G of its minislot (R155)? A unit that knows no allocation of
`src` in this cycle cannot tell. -/
def State.dynLate (s : State) (src t acc : Nat) : Bool :=
  match s.ring.alloc.find? fun e => e.1 == src with
  | none => false
  | some (_, m, _) => s.beyondEdge (deviation t (s.ring.active.minislotTick m) acc)

/-- DYNAMIC_FRAME_RECEIVE (R155, R156; 03 R93, R95): each copy beyond 2G is counted, accepted before or not (R146). -/
def State.dynArrive (s : State) (p : RingPort) (l : List Byte) (t : Nat) : State :=
  if !s.up p then s
  else if fSrc l = s.ring.addr ∧ s.ring.addr ≠ 0 then (s.checkCopy p 3 l).1
  else
    let m := s.arrived p l
    let (s1, valid) := (s.forward p m).checkCopy p 3 l
    let id : FrameId := ⟨fSrc l, 3, fSeq l, fCycle l⟩
    if !valid || fCycle l != s1.rd R.RING_CYC_NUM.CYCLE then s1
    else if s1.dynLate (fSrc l) t (fAcc m) then (s1.bump R.RING_EDGE_CNT.DISCARD).statusCount 0x023
    else if s1.ring.accepted.contains id then { s1 with ring := { s1.ring with twice := s1.ring.twice ++ [id] } }
    else
      let s2 := { s1 with ring := { s1.ring with accepted := s1.ring.accepted ++ [id] } }
      let ms := parseMsgs (be l 16 2) ((bodyOf l).drop 24)
      ((ms.foldl (fun (x : State) y => x.consume (fSrc l) y) s2).serveIn).syncRing

/-! ### Arms -/

/-- DYNAMIC_FRAME_SEND (04 R153). -/
def execDynamicFrameSend (s : State) : Host.Outcome State Fault Refusal := s.powered s.dynSend

/-- DYNAMIC_FRAME_RECEIVE (04 R155, R156). -/
def execDynamicFrameReceive (p : RingPort) (l : List Byte) (t : Nat) (s : State) : Host.Outcome State Fault Refusal :=
  s.powered (s.dynArrive p l t)

/-- BRIDGE_TIMEOUT (03 R124, R128): the register-class engine may be free then. -/
def execBridgeTimeout (tag : Nat) (s : State) : Host.Outcome State Fault Refusal :=
  s.powered (s.bridgeTimeout tag).serveIn

/-- BRIDGE_REISSUE (03 R126, R127). -/
def execBridgeReissue (tag : Nat) (s : State) : Host.Outcome State Fault Refusal :=
  s.powered (s.bridgeReissue tag).serveIn

end Sys2Proof.Machine
end

