-- ==== Sys2Proof/Machine/Dispatch.lean ====
section
/-! DEFINITION. The meaning of every command: one arm per constructor of Instr. -/

namespace Sys2Proof.Machine

/-- The effect of a command on everything but the queue. -/
def exec (i : Instr) (s : State) : Host.Outcome State Fault Refusal :=
  match i with
  | .registerWrite who addr value => Sys2Proof.Machine.execRegisterWrite who addr value s
  | .rclRead who addr => Sys2Proof.Machine.execRclRead who addr s
  | .holdTimeEnd index => Sys2Proof.Machine.execHoldTimeEnd index s
  | .livePointStale fabric => Sys2Proof.Machine.execLivePointStale fabric s
  | .hostPointHeld index => Sys2Proof.Machine.execHostPointHeld index s
  | .hostLossTimeout index => Sys2Proof.Machine.execHostLossTimeout index s
  | .hostLinkLoss => Sys2Proof.Machine.execHostLinkLoss s
  | .hostWdExpire => Sys2Proof.Machine.execHostWdExpire s
  | .hostbeat who value => Sys2Proof.Machine.execHostbeat who value s
  | .forceSet who index value => Sys2Proof.Machine.execForceSet who index value s
  | .forceRelease who index => Sys2Proof.Machine.execForceRelease who index s
  | .snapReq who => Sys2Proof.Machine.execSnapReq who s
  | .snapRel who ackSeq req => Sys2Proof.Machine.execSnapRel who ackSeq req s
  | .resultRegisterRead who addr => Sys2Proof.Machine.execResultRegisterRead who addr s
  | .linkSignalDetect p => Sys2Proof.Machine.execLinkSignalDetect p s
  | .linkLock p => Sys2Proof.Machine.execLinkLock p s
  | .rateAttemptTimeout p => Sys2Proof.Machine.execRateAttemptTimeout p s
  | .hello p h => Sys2Proof.Machine.execHello p h s
  | .aliveSend p => Sys2Proof.Machine.execAliveSend p s
  | .aliveTimeout p => Sys2Proof.Machine.execAliveTimeout p s
  | .syncHeaderErrors p => Sys2Proof.Machine.execSyncHeaderErrors p s
  | .retrainE who => Sys2Proof.Machine.execRetrainE who s
  | .retrainW who => Sys2Proof.Machine.execRetrainW who s
  | .probeSend p t1 => Sys2Proof.Machine.execProbeSend p t1 s
  | .probeReq p bytes t2 t3 => Sys2Proof.Machine.execProbeReq p bytes t2 t3 s
  | .probeRsp p bytes t4 => Sys2Proof.Machine.execProbeRsp p bytes t4 s
  | .estimateUnknownLimit p => Sys2Proof.Machine.execEstimateUnknownLimit p s
  | .listenEnd => Sys2Proof.Machine.execListenEnd s
  | .coldstart p bytes => Sys2Proof.Machine.execColdstart p bytes s
  | .coldstartTimeout => Sys2Proof.Machine.execColdstartTimeout s
  | .rateOrder => Sys2Proof.Machine.execRateOrder s
  | .restart who => Sys2Proof.Machine.execRestart who s
  | .enumPassStart => Sys2Proof.Machine.execEnumPassStart s
  | .enum p bytes => Sys2Proof.Machine.execEnum p bytes s
  | .enumPassTimeout => Sys2Proof.Machine.execEnumPassTimeout s
  | .joinEnumSend => Sys2Proof.Machine.execJoinEnumSend s
  | .linkDetach who => Sys2Proof.Machine.execLinkDetach who s
  | .bridgeAccess who addr size value => Sys2Proof.Machine.execBridgeAccess who addr size value s
  | .bridgeTimeout tag => Sys2Proof.Machine.execBridgeTimeout tag s
  | .bridgeReissue tag => Sys2Proof.Machine.execBridgeReissue tag s
  | .cycleBoundary => Sys2Proof.Machine.execCycleBoundary s
  | .throughFrameReceive p bytes t => Sys2Proof.Machine.execThroughFrameReceive p bytes t s
  | .staticFrameRead k => Sys2Proof.Machine.execStaticFrameRead k s
  | .staticFrameSend k => Sys2Proof.Machine.execStaticFrameSend k s
  | .staticFrameReceive p bytes t => Sys2Proof.Machine.execStaticFrameReceive p bytes t s
  | .staticSegmentEnd => Sys2Proof.Machine.execStaticSegmentEnd s
  | .dynamicFrameSend => Sys2Proof.Machine.execDynamicFrameSend s
  | .dynamicFrameReceive p bytes t => Sys2Proof.Machine.execDynamicFrameReceive p bytes t s
  | .tsLoad who set => Sys2Proof.Machine.execTsLoad who set s
  | .tsLoadComplete set => Sys2Proof.Machine.execTsLoadComplete set s
  | .tsDrop who set => Sys2Proof.Machine.execTsDrop who set s
  | .mcStart who next => Sys2Proof.Machine.execMcStart who next s
  | .referenceCheck => Sys2Proof.Machine.execReferenceCheck s
  | .holdoverLimit => Sys2Proof.Machine.execHoldoverLimit s
  | .tbCapture who set => Sys2Proof.Machine.execTbCapture who set s
  | .tbStep who ns => Sys2Proof.Machine.execTbStep who ns s
  | .tbRefWrite who value => Sys2Proof.Machine.execTbRefWrite who value s
  | .steepFire comp late => Sys2Proof.Machine.execSteepFire comp late s
  | .tokenPostApply => Sys2Proof.Machine.execTokenPostApply s
  | .postRetry n => Sys2Proof.Machine.execPostRetry n s
  | .pourPost who chan value => Sys2Proof.Machine.execPourPost who chan value s
  | .dispatch => Sys2Proof.Machine.execDispatch s
  | .slotLoaded slot => Sys2Proof.Machine.execSlotLoaded slot s
  | .operationTake slot => Sys2Proof.Machine.execOperationTake slot s
  | .operationComplete m => Sys2Proof.Machine.execOperationComplete m s
  | .detachedComplete node error => Sys2Proof.Machine.execDetachedComplete node error s
  | .pourHold who en => Sys2Proof.Machine.execPourHold who en s
  | .setEn who node => Sys2Proof.Machine.execSetEn who node s
  | .clrEn who node => Sys2Proof.Machine.execClrEn who node s
  | .contextTimerExpire ctx t => Sys2Proof.Machine.execContextTimerExpire ctx t s
  | .moverPointIssue m => Sys2Proof.Machine.execMoverPointIssue m s
  | .moverPointWrite w => Sys2Proof.Machine.execMoverPointWrite w s
  | .movHold who m hold => Sys2Proof.Machine.execMovHold who m hold s
  | .mov h rd rs => Sys2Proof.Machine.execMov h rd rs s
  | .add h o => Sys2Proof.Machine.execAdd h o s
  | .adc h rd ra rb sf => Sys2Proof.Machine.execAdc h rd ra rb sf s
  | .sub h o => Sys2Proof.Machine.execSub h o s
  | .sbc h rd ra rb sf => Sys2Proof.Machine.execSbc h rd ra rb sf s
  | .and h o => Sys2Proof.Machine.execAnd h o s
  | .or h o => Sys2Proof.Machine.execOr h o s
  | .xor h o => Sys2Proof.Machine.execXor h o s
  | .bic h rd ra rb sf => Sys2Proof.Machine.execBic h rd ra rb sf s
  | .cmp h long rd rb => Sys2Proof.Machine.execCmp h long rd rb s
  | .tst h rd rs => Sys2Proof.Machine.execTst h rd rs s
  | .movi h rd u4 => Sys2Proof.Machine.execMovi h rd u4 s
  | .addi h o => Sys2Proof.Machine.execAddi h o s
  | .subi h rd u4 => Sys2Proof.Machine.execSubi h rd u4 s
  | .cmpi h long rd imm => Sys2Proof.Machine.execCmpi h long rd imm s
  | .andi h rd ra u12 => Sys2Proof.Machine.execAndi h rd ra u12 s
  | .ori h rd ra u12 => Sys2Proof.Machine.execOri h rd ra u12 s
  | .xori h rd ra u12 => Sys2Proof.Machine.execXori h rd ra u12 s
  | .setl h rd u16 => Sys2Proof.Machine.execSetl h rd u16 s
  | .seth h rd u16 => Sys2Proof.Machine.execSeth h rd u16 s
  | .lsli h rd u4 => Sys2Proof.Machine.execLsli h rd u4 s
  | .lsri h rd u4 => Sys2Proof.Machine.execLsri h rd u4 s
  | .asri h rd u4 => Sys2Proof.Machine.execAsri h rd u4 s
  | .lsl h o => Sys2Proof.Machine.execLsl h o s
  | .lsr h o => Sys2Proof.Machine.execLsr h o s
  | .asr h o => Sys2Proof.Machine.execAsr h o s
  | .ror h rd ra rb sf => Sys2Proof.Machine.execRor h rd ra rb sf s
  | .shi h rd ra kind n sf => Sys2Proof.Machine.execShi h rd ra kind n sf s
  | .btst h rd u4 => Sys2Proof.Machine.execBtst h rd u4 s
  | .neg h rd => Sys2Proof.Machine.execNeg h rd s
  | .not h rd => Sys2Proof.Machine.execNot h rd s
  | .sxtb h rd => Sys2Proof.Machine.execSxtb h rd s
  | .sxth h rd => Sys2Proof.Machine.execSxth h rd s
  | .zxtb h rd => Sys2Proof.Machine.execZxtb h rd s
  | .zxth h rd => Sys2Proof.Machine.execZxth h rd s
  | .mul h o => Sys2Proof.Machine.execMul h o s
  | .mulhs h rd ra rb sf => Sys2Proof.Machine.execMulhs h rd ra rb sf s
  | .mulhu h rd ra rb sf => Sys2Proof.Machine.execMulhu h rd ra rb sf s
  | .satp h o => Sys2Proof.Machine.execSatp h o s
  | .satps h o => Sys2Proof.Machine.execSatps h o s
  | .qprec h rd ra rb sf => Sys2Proof.Machine.execQprec h rd ra rb sf s
  | .pcond h mode c => Sys2Proof.Machine.execPcond h mode c s
  | .pclr h long => Sys2Proof.Machine.execPclr h long s
  | .pset h long => Sys2Proof.Machine.execPset h long s
  | .pinv h long => Sys2Proof.Machine.execPinv h long s
  | .ldw h o => Sys2Proof.Machine.execLdw h o s
  | .ldh h o => Sys2Proof.Machine.execLdh h o s
  | .ldhs h rd ra s12 => Sys2Proof.Machine.execLdhs h rd ra s12 s
  | .ldb h o => Sys2Proof.Machine.execLdb h o s
  | .ldbs h rd ra s12 => Sys2Proof.Machine.execLdbs h rd ra s12 s
  | .stw h o => Sys2Proof.Machine.execStw h o s
  | .sth h o => Sys2Proof.Machine.execSth h o s
  | .stb h o => Sys2Proof.Machine.execStb h o s
  | .ldp h o => Sys2Proof.Machine.execLdp h o s
  | .stp h o => Sys2Proof.Machine.execStp h o s
  | .ldx h long rd u => Sys2Proof.Machine.execLdx h long rd u s
  | .stx h long rd u => Sys2Proof.Machine.execStx h long rd u s
  | .b h long off => Sys2Proof.Machine.execB h long off s
  | .bl h off => Sys2Proof.Machine.execBl h off s
  | .jmp h rd => Sys2Proof.Machine.execJmp h rd s
  | .jl h rd => Sys2Proof.Machine.execJl h rd s
  | .call h o => Sys2Proof.Machine.execCall h o s
  | .ret h long => Sys2Proof.Machine.execRet h long s
  | .mfs h rd sr => Sys2Proof.Machine.execMfs h rd sr s
  | .mts h rd sr => Sys2Proof.Machine.execMts h rd sr s
  | .nop h long => Sys2Proof.Machine.execNop h long s
  | .wait h long => Sys2Proof.Machine.execWait h long s
  | .done h long sel => Sys2Proof.Machine.execDone h long sel s
  | .detach h long => Sys2Proof.Machine.execDetach h long s
  | .rete h long => Sys2Proof.Machine.execRete h long s
  | .brk h long => Sys2Proof.Machine.execBrk h long s
  | .fence h long => Sys2Proof.Machine.execFence h long s
  | .trap h long n => Sys2Proof.Machine.execTrap h long n s
  | .post h o => Sys2Proof.Machine.execPost h o s
  | .undefinedEncoding core h0 h1 => Sys2Proof.Machine.execUndefinedEncoding core h0 h1 s
  | .storeBufferError core => Sys2Proof.Machine.execStoreBufferError core s
  | .coreReset who core dbg => Sys2Proof.Machine.execCoreReset who core dbg s
  | .coreRelease who core dbg => Sys2Proof.Machine.execCoreRelease who core dbg s
  | .ccRamAccess who core value => Sys2Proof.Machine.execCcRamAccess who core value s
  | .sourceAssert key => Sys2Proof.Machine.execSourceAssert key s
  | .sourceDeassert key => Sys2Proof.Machine.execSourceDeassert key s
  | .interruptTake core urgent => Sys2Proof.Machine.execInterruptTake core urgent s
  | .icNnextPop who core => Sys2Proof.Machine.execIcNnextPop who core s
  | .icUnextPop who core => Sys2Proof.Machine.execIcUnextPop who core s
  | .icEoi who core src => Sys2Proof.Machine.execIcEoi who core src s
  | .icSeoi who src => Sys2Proof.Machine.execIcSeoi who src s
  | .ptrigTrigger who core src => Sys2Proof.Machine.execPtrigTrigger who core src s
  | .ptrigClear who core src => Sys2Proof.Machine.execPtrigClear who core src s
  | .strigTrigger who src => Sys2Proof.Machine.execStrigTrigger who src s
  | .strigClear who src => Sys2Proof.Machine.execStrigClear who src s
  | .icRouteWrite who src value => Sys2Proof.Machine.execIcRouteWrite who src value s
  | .doorbellSet who core hi bits => Sys2Proof.Machine.execDoorbellSet who core hi bits s
  | .mbxTxLo who chan value => Sys2Proof.Machine.execMbxTxLo who chan value s
  | .mbxTxHi who chan value => Sys2Proof.Machine.execMbxTxHi who chan value s
  | .mbxPopHi who chan => Sys2Proof.Machine.execMbxPopHi who chan s
  | .mbxStageExpire unit => Sys2Proof.Machine.execMbxStageExpire unit s
  | .engineTick e pins => Sys2Proof.Machine.execEngineTick e pins s
  | .peGstart who g mask pins => Sys2Proof.Machine.execPeGstart who g mask pins s
  | .peGrestart who g mask => Sys2Proof.Machine.execPeGrestart who g mask s
  | .stop who e => Sys2Proof.Machine.execStop who e s
  | .arm who e => Sys2Proof.Machine.execArm who e s
  | .disarm who e => Sys2Proof.Machine.execDisarm who e s
  | .inlatch who g pins => Sys2Proof.Machine.execInlatch who g pins s
  | .outlatch who g => Sys2Proof.Machine.execOutlatch who g s
  | .peTxPush who e value => Sys2Proof.Machine.execPeTxPush who e value s
  | .peRxPop who e => Sys2Proof.Machine.execPeRxPop who e s
  | .peStageWrite who e value => Sys2Proof.Machine.execPeStageWrite who e value s
  | .canModeInit who c => Sys2Proof.Machine.execCanModeInit who c s
  | .canInitEffect c => Sys2Proof.Machine.execCanInitEffect c s
  | .canModeNormal who c => Sys2Proof.Machine.execCanModeNormal who c s
  | .canModeListen who c => Sys2Proof.Machine.execCanModeListen who c s
  | .canModeLoopback who c => Sys2Proof.Machine.execCanModeLoopback who c s
  | .canModeSleep who c => Sys2Proof.Machine.execCanModeSleep who c s
  | .canSleepEffect c => Sys2Proof.Machine.execCanSleepEffect c s
  | .canBusIntegrated c => Sys2Proof.Machine.execCanBusIntegrated c s
  | .canFrameValid c f sec ns => Sys2Proof.Machine.execCanFrameValid c f sec ns s
  | .strainerSearch c wait => Sys2Proof.Machine.execStrainerSearch c wait s
  | .canRxfAck who c fifo1 get => Sys2Proof.Machine.execCanRxfAck who c fifo1 get s
  | .canTxreq who c bufs => Sys2Proof.Machine.execCanTxreq who c bufs s
  | .canTxabort who c bufs => Sys2Proof.Machine.execCanTxabort who c bufs s
  | .canArbitration c => Sys2Proof.Machine.execCanArbitration c s
  | .canTxEnd c e => Sys2Proof.Machine.execCanTxEnd c e s
  | .canBusError c kind dataPhase tec rec => Sys2Proof.Machine.execCanBusError c kind dataPhase tec rec s
  | .recover who c => Sys2Proof.Machine.execRecover who c s
  | .canRecoveryEnd c => Sys2Proof.Machine.execCanRecoveryEnd c s
  | .canWake c w periods => Sys2Proof.Machine.execCanWake c w periods s
  | .canLoopRestart who c => Sys2Proof.Machine.execCanLoopRestart who c s
  | .strDataLoWrite who value => Sys2Proof.Machine.execStrDataLoWrite who value s
  | .strDataHiWrite who value => Sys2Proof.Machine.execStrDataHiWrite who value s
  | .strDataHiRead who => Sys2Proof.Machine.execStrDataHiRead who s
  | .wakeNSeen periods => Sys2Proof.Machine.execWakeNSeen periods s
  | .wkupSeen k periods => Sys2Proof.Machine.execWkupSeen k periods s
  | .ringDetect port periods => Sys2Proof.Machine.execRingDetect port periods s
  | .hostWake which periods => Sys2Proof.Machine.execHostWake which periods s
  | .wakeTimerExpire periods => Sys2Proof.Machine.execWakeTimerExpire periods s
  | .wakePulseEnd => Sys2Proof.Machine.execWakePulseEnd s
  | .maxawakeExpire => Sys2Proof.Machine.execMaxawakeExpire s
  | .kaSend => Sys2Proof.Machine.execKaSend s
  | .kaSet who bits => Sys2Proof.Machine.execKaSet who bits s
  | .kaIntervalEnd => Sys2Proof.Machine.execKaIntervalEnd s
  | .wkTokenWrite who value => Sys2Proof.Machine.execWkTokenWrite who value s
  | .tokenForward => Sys2Proof.Machine.execTokenForward s
  | .commitPoint => Sys2Proof.Machine.execCommitPoint s
  | .powerDownAbort => Sys2Proof.Machine.execPowerDownAbort s
  | .powerDownComplete => Sys2Proof.Machine.execPowerDownComplete s
  | .dwellEnd periods => Sys2Proof.Machine.execDwellEnd periods s
  | .napExitComplete periods => Sys2Proof.Machine.execNapExitComplete periods s
  | .macRxFilter m data t => Sys2Proof.Machine.execMacRxFilter m data t s
  | .macRxEnd f symbol fcsBad => Sys2Proof.Machine.execMacRxEnd f symbol fcsBad s
  | .macLinkChange m up speed half sync => Sys2Proof.Machine.execMacLinkChange m up speed half sync s
  | .macRxrGet who m q get => Sys2Proof.Machine.execMacRxrGet who m q get s
  | .macTxrTail who m q tail => Sys2Proof.Machine.execMacTxrTail who m q tail s
  | .lsoSegmentEnqueue ring => Sys2Proof.Machine.execLsoSegmentEnqueue ring s
  | .macTxStart m q t => Sys2Proof.Machine.execMacTxStart m q t s
  | .macTxEnd m => Sys2Proof.Machine.execMacTxEnd m s
  | .macTxtsPop who m => Sys2Proof.Machine.execMacTxtsPop who m s
  | .gclEntryStart m k => Sys2Proof.Machine.execGclEntryStart m k s
  | .gclCycleStart m => Sys2Proof.Machine.execGclCycleStart m s
  | .gclArm who m => Sys2Proof.Machine.execGclArm who m s
  | .gclDisarm who m => Sys2Proof.Machine.execGclDisarm who m s
  | .macEnable who m => Sys2Proof.Machine.execMacEnable who m s
  | .switchLookup f => Sys2Proof.Machine.execSwitchLookup f s
  | .switchEnqueue f => Sys2Proof.Machine.execSwitchEnqueue f s
  | .cellAllocate f => Sys2Proof.Machine.execCellAllocate f s
  | .pushOut cls => Sys2Proof.Machine.execPushOut cls s
  | .switchFrameEnd f => Sys2Proof.Machine.execSwitchFrameEnd f s
  | .switchEgress p => Sys2Proof.Machine.execSwitchEgress p s
  | .switchDeliver p => Sys2Proof.Machine.execSwitchDeliver p s
  | .cellFree f => Sys2Proof.Machine.execCellFree f s
  | .ageTick => Sys2Proof.Machine.execAgeTick s
  | .fdbRead who index => Sys2Proof.Machine.execFdbRead who index s
  | .fdbWrite who index => Sys2Proof.Machine.execFdbWrite who index s
  | .fdbFlush who index => Sys2Proof.Machine.execFdbFlush who index s
  | .swTxrTail who host q tail => Sys2Proof.Machine.execSwTxrTail who host q tail s
  | .eccWriteback w => Sys2Proof.Machine.execEccWriteback w s
  | .btRegionStart => Sys2Proof.Machine.execBtRegionStart s
  | .btRestore fail => Sys2Proof.Machine.execBtRestore fail s
  | .zeroFillPage page => Sys2Proof.Machine.execZeroFillPage page s
  | .scrubRead addr ecc => Sys2Proof.Machine.execScrubRead addr ecc s
  | .cadPagePop who => Sys2Proof.Machine.execCadPagePop who s
  | .cadCellPop who => Sys2Proof.Machine.execCadCellPop who s
  | .cadPageFree who num => Sys2Proof.Machine.execCadPageFree who num s
  | .cadCellFree who num => Sys2Proof.Machine.execCadCellFree who num s
  | .carveCreate who n pages => Sys2Proof.Machine.execCarveCreate who n pages s
  | .carveRelease who n => Sys2Proof.Machine.execCarveRelease who n s
  | .msixSend => Sys2Proof.Machine.execMsixSend s
  | .lbHnextPop who => Sys2Proof.Machine.execLbHnextPop who s
  | .pcieRequest r => Sys2Proof.Machine.execPcieRequest r s
  | .pciePerst low => Sys2Proof.Machine.execPciePerst low s
  | .pcieLinkChange up lanes rate => Sys2Proof.Machine.execPcieLinkChange up lanes rate s
  | .spiRead size count addr => Sys2Proof.Machine.execSpiRead size count addr s
  | .spiWrite size count addr data => Sys2Proof.Machine.execSpiWrite size count addr data s
  | .spiStatus => Sys2Proof.Machine.execSpiStatus s
  | .spiUnknownCommand byte => Sys2Proof.Machine.execSpiUnknownCommand byte s
  | .spiCsRise => Sys2Proof.Machine.execSpiCsRise s
  | .lbCycle a be oe data collide => Sys2Proof.Machine.execLbCycle a be oe data collide s
  | .addrLo full value => Sys2Proof.Machine.execAddrLo full value s
  | .addrHi full value => Sys2Proof.Machine.execAddrHi full value s
  | .dataLoRead full => Sys2Proof.Machine.execDataLoRead full s
  | .dataLoWrite full value => Sys2Proof.Machine.execDataLoWrite full value s
  | .dataHiRead full => Sys2Proof.Machine.execDataHiRead full s
  | .dataHiWrite full value => Sys2Proof.Machine.execDataHiWrite full value s
  | .statRead full => Sys2Proof.Machine.execStatRead full s
  | .statWrite full value => Sys2Proof.Machine.execStatWrite full value s
  | .lbDualSelect => Sys2Proof.Machine.execLbDualSelect s
  | .flashTransaction who value => Sys2Proof.Machine.execFlashTransaction who value s
  | .flashDone data => Sys2Proof.Machine.execFlashDone data s
  | .semPop who n => Sys2Proof.Machine.execSemPop who n s
  | .semRelease who n => Sys2Proof.Machine.execSemRelease who n s
  | .suppliesValid b => Sys2Proof.Machine.execSuppliesValid b s
  | .powerOnReset => Sys2Proof.Machine.execPowerOnReset s
  | .brownout => Sys2Proof.Machine.execBrownout s
  | .pinReset => Sys2Proof.Machine.execPinReset s
  | .ketRst who key b => Sys2Proof.Machine.execKetRst who key b s
  | .clkloss => Sys2Proof.Machine.execClkloss s
  | .thermalReset => Sys2Proof.Machine.execThermalReset s
  | .ringRefclkLoss => Sys2Proof.Machine.execRingRefclkLoss s
  | .wdogKick who value => Sys2Proof.Machine.execWdogKick who value s
  | .wdogExpire b => Sys2Proof.Machine.execWdogExpire b s
  | .kettleGrant d => Sys2Proof.Machine.execKettleGrant d s
  | .kettleEvaluate temp => Sys2Proof.Machine.execKettleEvaluate temp s
  | .domainRampDone d => Sys2Proof.Machine.execDomainRampDone d s
  | .dozeStop d => Sys2Proof.Machine.execDozeStop d s
  | .clusterGate c => Sys2Proof.Machine.execClusterGate c s
  | .ketStateReq who deep => Sys2Proof.Machine.execKetStateReq who deep s
  | .deepExit b => Sys2Proof.Machine.execDeepExit b s
  | .refclkReturn b => Sys2Proof.Machine.execRefclkReturn b s
  | .ringRefclkReturn => Sys2Proof.Machine.execRingRefclkReturn s
  | .thermalResetRelease b => Sys2Proof.Machine.execThermalResetRelease b s
  | .resetNRelease b => Sys2Proof.Machine.execResetNRelease b s
  | .thermalWarn temp => Sys2Proof.Machine.execThermalWarn temp s
  | .lfxtalTakeover => Sys2Proof.Machine.execLfxtalTakeover s
  | .random => Sys2Proof.Machine.execRandom s
  | .derive => Sys2Proof.Machine.execDerive s
  | .ringKeys => Sys2Proof.Machine.execRingKeys s
  | .lcRequest b => Sys2Proof.Machine.execLcRequest b s
  | .debugOpen => Sys2Proof.Machine.execDebugOpen s
  | .otpProgram => Sys2Proof.Machine.execOtpProgram s
  | .svnCommit => Sys2Proof.Machine.execSvnCommit s
  | .selftest bitmap => Sys2Proof.Machine.execSelftest bitmap s
  | .keeperBadService => Sys2Proof.Machine.execKeeperBadService s
  | .secHostImg who value => Sys2Proof.Machine.execSecHostImg who value s
  | .rbgHealthFail => Sys2Proof.Machine.execRbgHealthFail s
  | .alarmWindowClose unit page code aux => Sys2Proof.Machine.execAlarmWindowClose unit page code aux s
  | .gap => Sys2Proof.Machine.execGap s
  | .traceBufferWrite => Sys2Proof.Machine.execTraceBufferWrite s
  | .trcSwCommit who cls => Sys2Proof.Machine.execTrcSwCommit who cls s
  | .srst who page => Sys2Proof.Machine.execSrst who page s
  | .softResetEnd page => Sys2Proof.Machine.execSoftResetEnd page s
  | .pageEnWrite who page en => Sys2Proof.Machine.execPageEnWrite who page en s
  | .lock who page => Sys2Proof.Machine.execLock who page s
  | .intForce who page bits => Sys2Proof.Machine.execIntForce who page bits s
  | .errCaptureClear who page => Sys2Proof.Machine.execErrCaptureClear who page s
  | .bankRailClassDetect bank mv => Sys2Proof.Machine.execBankRailClassDetect bank mv s

end Sys2Proof.Machine
end

