-- ==== Sys2Proof/Machine/Tick.lean ====
section
/-! DEFINITION. One tick of the core clock with no command waiting (00 R2): what advances by itself. -/

namespace Sys2Proof.Machine

/-- CYCLES of every core out of reset (08 R265). -/
def State.cyclesTick (s : State) : State :=
  s.cores.foldl (fun (t : State) e =>
    if e.2.run = .reset then t else t.setCore e.1 { e.2 with cycles := e.2.cycles + 1 }) s

/-- A source presented to a core of a gated or stopped cluster, or of the stopped SYS domain (17 R579), asks for its power and clock (09 R337). -/
def State.presentedTick (s : State) : State :=
  (List.range 18).foldl (fun (t : State) c =>
    if t.clocked c = false ∧ t.anyPresented c = true then t.wakeCore c else t) s

/-- Interrupt entries whose tick E6 has come (09 R322, R323). -/
def State.entriesTick (s : State) : State :=
  (List.range 18).foldl (fun (t : State) c =>
    match (t.core c).entering with
    | some (_, due) => if due ≤ t.tick then t.entryEnd c else t
    | none => t) s

/-- One tick: trigger lines set their sticky copies and fall, the time base, the context timers and
CYCLES advance, nodes whose last post has left are IDLE, the idle segment begins when its time has come, presented sources wake their
clusters, interrupt entries pass E6, a waiting store leaves its buffer, waiting host requests go on, a frame of the duty may begin, and FLAG and
GFLAG show the outputs of the new tick's start. While the device is asleep or held in reset nothing advances (DESIGN CHOICE, log 3). -/
def State.clockTick (s : State) : State :=
  if s.awake then
    let l := s.steepLines
    let t := (({ l with time := { l.time with trig := 0, steepOld := [], firedNow := 0 }, tick := l.tick + 1 } : State).timeTick).timersTick
    ((t.endingsTick.idleTick.cyclesTick).presentedTick.entriesTick).storesTick.hostDrain.flagsTick.frameTick
  else s

end Sys2Proof.Machine
end

