-- ==== Sys2Proof/Safety.lean ====
section
/-! DEFINITION. What the statements call a safe state, and the conditions and frames that they share. -/

namespace Sys2Proof.Machine

/-! ### Canonical form -/

/-- The memory of the unit is in canonical form: in-package memory, on-die SRAM and core-local RAM list
rising addresses and no byte that reads as an unlisted one. -/
def MemState.wf (m : MemState) : Bool := m.bytes.wf (fun _ => 0) && m.coreRam.wf (fun _ => 0)

/-- The register store is in canonical form: no listed register holds its reset value. -/
def regsWf (m : SMap Word) : Bool := m.wf regReset

/-- What no operation of the model spoils: the canonical form of the memories and of the register store, and every OTP
bit that reads 1 (18 R596). -/
def State.keeps (s t : State) : Prop :=
  (s.mem.wf = true → t.mem.wf = true) ∧ (regsWf s.regs = true → regsWf t.regs = true) ∧
  ∀ w i, (s.sec.otp.get 0 w).getLsbD i = true → (t.sec.otp.get 0 w).getLsbD i = true

/-! ### Register accesses -/

/-- May ring units write page p (20 R626, R635)? -/
def pageRemote (p : Nat) : Bool := match pageRow p with | some r => r.remote | none => false

/-- Does the register at offset `off` of page p hold an RW field (20 R632)? -/
def pageHasRw (p off : Nat) : Bool :=
  match pageRow p with
  | some r => (match findReg r.ty off with | some d => d.hasRw | none => false)
  | none => false

/-- A write of `who` to the block-specific register at offset `off` of page p meets no refusal of chapter 20: the
device is awake, a ring unit writes only pages with REMOTE = 1 (R635), the page is not in the ticks of a soft reset
(R630), its lock does not cover the register (R632), and its block is not held by EN = 0 (R631). -/
def State.accepts (s : State) (who : Initiator) (p off : Nat) : Bool :=
  s.awake && (!remote who || pageRemote p) && !s.resetting p && !(s.on R.PAGE_CTRL.LOCK p && pageHasRw p off) &&
    (!srstPage p || s.pageEn p)

/-- The same for the register of field `f`. -/
def State.takes (s : State) (who : Initiator) (f : Fld) (inst : Nat := 0) (idx : Nat := 0) : Bool :=
  s.accepts who (f.page + inst) (f.off + f.stride * idx)

/-- Page p answers a read of its own registers: the device is awake and the page is not in soft reset (R630). -/
def State.answers (s : State) (p : Nat) : Bool := s.awake && !s.resetting p

/-- Does a write of `who` to PAGE_CTRL of page p that would change EN take effect (R630 to R632, R635)? -/
def State.controls (s : State) (who : Initiator) (p : Nat) : Bool :=
  s.awake && !remote who && (pageRow p).isSome && !s.on R.PAGE_CTRL.LOCK p

/-! ### Instructions of the cores (08) -/

/-- Core c can fetch an instruction of `len` bytes at its PC: every halfword lies in its instruction RAM and none has an
uncorrectable error (R260, R297). -/
def State.fetches (s : State) (c len : Nat) : Bool :=
  (halvesOf (s.core c).pc len).all fun a => fetchable a && s.coreEcc (coreKey c (a.toNat % 0x10000)) != .double

/-- The unit after that fetch: an error that was found and corrected is written back and announced. -/
def State.fetched (s : State) (c len : Nat) : State := (s.fetch c (halvesOf (s.core c).pc len)).1

/-- At this boundary core c takes neither a fault nor an interrupt, and no entry of one is on its way (R298, 09 R321). -/
def State.undisturbed (s : State) (c : Nat) : Bool := (s.core c).entering.isNone && (s.taken c).isNone

/-- Core `h.core` executes the instruction of `len` bytes at its PC: the device is awake, the core is out of reset,
running and clocked and waits for no load, it takes no fault or interrupt instead, the fetch succeeds, and the condition
is true (R276). -/
def State.executes (s : State) (h : Head) (len : Nat) : Bool :=
  s.awake && s.coreReady h.core && s.undisturbed h.core && s.fetches h.core len && (s.core h.core).flags.meets h.cond

/-- From u on, t differs only in that core c has the registers of k and its PC at `target`, where it begins the next
instruction, and that CC_PC shows the address of the instruction that completed. -/
def State.movedTo (u t : State) (c : Nat) (k : CoreState) (target : Word) : Prop :=
  t.core c = { k with pc := target, begun := false } ∧ (∀ d, d ≠ c → t.core d = u.core d) ∧
  t.rd R.CC_PC.PC c = (u.core c).pc.toNat ∧ (∀ a, a ≠ R.CC_PC.PC.addr c 0 → t.reg a = u.reg a) ∧
  { t with cores := u.cores, regs := u.regs } = u

/-- The instruction `i` of `len` bytes completes with no effect but that its core's registers become `f` of what they
were; the next instruction follows it. -/
def completes (i : Instr) (h : Head) (len : Nat) (f : CoreState → CoreState) : Prop :=
  ∀ s : State, s.executes h len = true →
    ∃ t, exec i s = .next t ∧
      (s.fetched h.core len).movedTo t h.core (f (s.core h.core)) ((s.core h.core).pc + BitVec.ofNat 32 len)

/-- Register rd takes v, and the flags take f where the form sets them. -/
def CoreState.result (k : CoreState) (rd : Nat) (v : Word) (sets : Bool) (f : Flags) : CoreState :=
  { k with g := k.g.set 0 (rd % 16) v, flags := if sets then f else k.flags }

/-- Both forms of a two-register operation: the short one works on rd and sets the flags, the long one has its own
registers and its S bit (R277, R278). -/
def completesAlu (i : Head → AluForm → Instr) (v : Flags → Word → Word → Word) (f : Flags → Word → Word → Flags) : Prop :=
  ∀ (h : Head) (rd ra rb : Nat) (sf : Bool),
    completes (i h (.short rd rb)) h 2 (fun k => k.result rd (v k.flags (k.reg rd) (k.reg rb)) true
      (f k.flags (k.reg rd) (k.reg rb))) ∧
    completes (i h (.long rd ra rb sf)) h 4 (fun k => k.result rd (v k.flags (k.reg ra) (k.reg rb)) sf
      (f k.flags (k.reg ra) (k.reg rb)))

/-- A three-register operation that has the long form only. -/
def completesLong (i : Head → Nat → Nat → Nat → Bool → Instr) (v : Flags → Word → Word → Word)
    (f : Flags → Word → Word → Flags) : Prop :=
  ∀ (h : Head) (rd ra rb : Nat) (sf : Bool),
    completes (i h rd ra rb sf) h 4 (fun k => k.result rd (v k.flags (k.reg ra) (k.reg rb)) sf
      (f k.flags (k.reg ra) (k.reg rb)))

/-- N, Z, C and V of the sum a + b + n (R280): the carry out of bit 31, and signed overflow. -/
def Flags.ofSum (f : Flags) (a b : Word) (n : Nat) : Flags :=
  let r := a + b + BitVec.ofNat 32 n
  { f with n := r.msb, z := r == 0, c := decide (2 ^ 32 ≤ a.toNat + b.toNat + n)
           v := decide (r.toInt ≠ a.toInt + b.toInt + n) }

/-- N, Z, C and V of the difference a − b − n (R280): C says that no borrow occurs. -/
def Flags.ofDiff (f : Flags) (a b : Word) (n : Nat) : Flags :=
  let r := a - b - BitVec.ofNat 32 n
  { f with n := r.msb, z := r == 0, c := decide (b.toNat + n ≤ a.toNat)
           v := decide (r.toInt ≠ a.toInt - b.toInt - n) }

/-- N and Z of a result. -/
def Flags.ofWord32 (f : Flags) (r : Word) : Flags := { f with n := r.msb, z := r == 0 }

/-- The fault of vector v stands in core k: what R299 says of its registers; `addr` is FADDR where the cause has an
address. -/
def CoreState.faulted (k : CoreState) (v : Nat) (epc : Word) (addr : Option Word) (impr ecc : Bool) : CoreState :=
  { k with epc := epc, eflags := BitVec.ofNat 32 (k.flags.code + k.level.code * 256)
           fcause := BitVec.ofNat 32 (v + (if impr then 16 else 0) + (if ecc then 32 else 0))
           faddr := addr.getD k.faddr, level := .fault, pc := k.vbase + BitVec.ofNat 32 (8 * v)
           begun := false }

/-- From u on, t differs only in the fault that core c has taken: its registers are k, CC_STATUS counts it and so does
status point 0x032. -/
def State.tookFault (u t : State) (c : Nat) (k : CoreState) : Prop :=
  t.core c = k ∧ (∀ d, d ≠ c → t.core d = u.core d) ∧
  t.rd R.CC_STATUS.FAULTS c = min (u.rd R.CC_STATUS.FAULTS c + 1) R.CC_STATUS.FAULTS.max ∧
  (∀ a, a ≠ R.CC_STATUS.FAULTS.addr c 0 → t.reg a = u.reg a) ∧
  t.stored 0x032 = BitVec.ofNat 16 (((u.stored 0x032).toNat % 4096 + 1) % 4096) ∧
  (∀ i, i ≠ 0x032 → t.stored i = u.stored i ∧ t.ptEcc i = u.ptEcc i) ∧
  { t with cores := u.cores, regs := u.regs, pt := { t.pt with store := u.pt.store, ecc := u.pt.ecc } } = u

/-- A load of `n` bytes by the instruction `i`, from the address that `addr` makes of its core's registers, completes
with `f` of the bytes read, whatever initiates in the unit: for every state in which the core executes it, its address
is aligned where it must be, no buffered store to its target stands before it (R284), and the bus answers with data. -/
def completesLoad (i : Instr) (h : Head) (len n : Nat) (unaligned : Bool) (addr : CoreState → Nat)
    (f : CoreState → Nat → CoreState) : Prop :=
  ∀ (s u : State) (v : Nat), s.executes h len = true →
    (addr (s.core h.core) % n = 0 ∨ (unaligned = true ∧ rangeOf (addr (s.core h.core)) = some .sram)) →
    (s.fetched h.core len).loadWaits h.core (addr (s.core h.core)) n = false →
    (s.fetched h.core len).busRead (.core h.core) (addr (s.core h.core)) n true = (u, .data v) →
    ∃ t, exec i s = .next t ∧
      u.movedTo t h.core (f (u.core h.core) v) ((u.core h.core).pc + BitVec.ofNat 32 len)

/-- A store of `n` bytes into core-local data RAM by the instruction `i` completes: the bytes of `v` stand at the
address that `addr` gives, every other byte of every memory is as before, and the next instruction follows. -/
def completesLocalStore (i : Instr) (h : Head) (len n : Nat) (addr v : CoreState → Nat) : Prop :=
  ∀ s : State, s.executes h len = true → 0xE0008000 ≤ addr (s.core h.core) → addr (s.core h.core) < 0xE0010000 →
    addr (s.core h.core) % n = 0 →
    ∃ t, exec i s = .next t ∧
      (∀ j, j < n → t.coreBytes (coreKey h.core (addr (s.core h.core) - 0xE0000000) + j) 1 =
        v (s.core h.core) / 256 ^ j % 256) ∧
      (∀ x, (x < coreKey h.core (addr (s.core h.core) - 0xE0000000) ∨
          coreKey h.core (addr (s.core h.core) - 0xE0000000) + n ≤ x) →
        t.coreBytes x 1 = s.coreBytes x 1) ∧
      t.mem.bytes = s.mem.bytes ∧
      t.core h.core = { s.core h.core with pc := (s.core h.core).pc + BitVec.ofNat 32 len, begun := false } ∧
      (∀ d, d ≠ h.core → t.core d = s.core d) ∧ (∀ a, a ≠ R.CC_PC.PC.addr h.core 0 → t.reg a = s.reg a)

/-- A store elsewhere completes where the bus accepts it and does not reset the core itself; one that the bus refuses
outside core-local RAM leaves the imprecise fault of R285 behind, and the next instruction follows all the same. With
fewer than four stores in the core's buffer (R284) it completes in every case: one behind stores that have not left
waits there, and so does one that its register makes wait. -/
def completesBusStore (i : Instr) (h : Head) (len n : Nat) (addr v : CoreState → Nat) : Prop :=
  ∀ (s u : State) (r : AccRes), s.executes h len = true →
    (addr (s.core h.core) % n = 0 ∨ rangeOf (addr (s.core h.core)) = some .sram) →
    (isLocal (addr (s.core h.core)) = false → s.postedOf h.core < 4) →
    (s.fetched h.core len).busWrite (.core h.core) (addr (s.core h.core)) n (v (s.core h.core)) = (u, r) →
    (isLocal (addr (s.core h.core)) = false → s.storeWaits h.core = true →
      ∃ t, exec i s = .next t ∧
        State.movedTo { s.fetched h.core len with
          stores := (s.fetched h.core len).stores ++ [⟨h.core, false, addr (s.core h.core), n, v (s.core h.core)⟩] } t
          h.core (s.core h.core) ((s.core h.core).pc + BitVec.ofNat 32 len)) ∧
    (isLocal (addr (s.core h.core)) = true ∨ s.storeWaits h.core = false →
      (∃ d, r = .data d) → (s.fetched h.core len).sameRun u h.core = true → ∃ t, exec i s = .next t ∧
      u.movedTo t h.core (u.core h.core) ((u.core h.core).pc + BitVec.ofNat 32 len)) ∧
    (s.storeWaits h.core = false → r = .err → isLocal (addr (s.core h.core)) = false →
      (u.core h.core).run = .run → (u.core h.core).impr = none →
      ∃ t, exec i s = .next t ∧
        u.movedTo t h.core { u.core h.core with impr := some (addr (s.core h.core)) }
          ((u.core h.core).pc + BitVec.ofNat 32 len)) ∧
    (s.storeWaits h.core = false → (∃ d, r = .wait d) → isLocal (addr (s.core h.core)) = false →
      ∃ t, exec i s = .next t ∧
        State.movedTo { u with stores := if rangeOf (addr (s.core h.core)) = some .remote then u.stores
          else u.stores ++ [⟨h.core, false, addr (s.core h.core), n, v (s.core h.core)⟩] } t
          h.core (u.core h.core) ((u.core h.core).pc + BitVec.ofNat 32 len))

/-- The flags that a word holds (R263). -/
def Flags.inWord (v : Word) : Flags :=
  { p := v.getLsbD 4, n := v.getLsbD 3, z := v.getLsbD 2, c := v.getLsbD 1, v := v.getLsbD 0 }

/-! ### Pin engines (10) -/

/-- The shift register of engine e after the SHIFT action of step word w (R355): one bit enters at the vacated end. -/
def State.shiftedBy (u : State) (e w : Nat) (sin : Bool) : Nat :=
  let b := if bitsOf w 49 48 = 2 then u.on R.PE_A_SHIFT.SFILL e else sin
  if bitsOf w 49 48 = 0 then u.shreg e else shifted (u.slen e) (u.shreg e) (u.msbFirst e) b

/-- v is u after engine e has entered step n and performed its actions in the order of R349, but for its EVENT and
DELAY. -/
def State.enteredStep (u v : State) (e n : Nat) (sin : Bool) : Prop :=
  let w := u.peStep e n
  let sh := u.shiftedBy e w sin
  let room := decide ((u.peRx e).length < 8)
  let rx := if room then u.peRx e ++ [sh % 2 ^ u.slen e] else u.peRx e
  v.rd R.PE_STATUS.STEP e = n ∧
  v.rd R.PE_CNT.COUNT e = (match bitsOf w 51 50 with
    | 1 => u.rd R.PE_CNT_RELOAD.COUNT e | 2 => (u.rd R.PE_CNT.COUNT e + 65535) % 65536
    | 3 => (u.rd R.PE_CNT.COUNT e + 1) % 65536 | _ => u.rd R.PE_CNT.COUNT e) ∧
  v.pe.out.get 0 e = (if bit w 47 || u.on R.PE_CFG.OSRC e then u.pe.out.get 0 e else bitsOf w 46 39) ∧
  v.peRx e = (if bitsOf w 53 52 < 2 then u.peRx e else rx) ∧
  v.rd R.PE_ERRCNT.RX_OVF e = (if bitsOf w 53 52 < 2 ∨ room = true then u.rd R.PE_ERRCNT.RX_OVF e
    else min (u.rd R.PE_ERRCNT.RX_OVF e + 1) R.PE_ERRCNT.RX_OVF.max) ∧
  (bitsOf w 53 52 % 2 = 0 → v.shreg e = sh ∧ v.peTx e = u.peTx e) ∧
  (bitsOf w 53 52 % 2 = 1 → ∀ d l, u.peTx e = d :: l → v.shreg e = d % 2 ^ u.slen e ∧ v.peTx e = l) ∧
  (bitsOf w 53 52 % 2 = 1 → u.peTx e = [] → v.shreg e = u.fillWord e ∧ v.peTx e = [] ∧
    v.rd R.PE_ERRCNT.TX_UNF e = min (u.rd R.PE_ERRCNT.TX_UNF e + 1) R.PE_ERRCNT.TX_UNF.max) ∧
  v.scnt e = (if bitsOf w 53 52 = 0 then
    (if bitsOf w 49 48 = 0 then u.scnt e else if u.scnt e < u.slen e then u.scnt e + 1 else 1) else 0) ∧
  (∀ d, d ≠ e → v.pe.out.get 0 d = u.pe.out.get 0 d ∧ v.peRx d = u.peRx d ∧ v.peTx d = u.peTx d) ∧
  (∀ a, (a < regAt (128 + e) 0 ∨ regAt (129 + e) 0 ≤ a) → v.reg a = u.reg a) ∧
  { v with regs := u.regs, ic := u.ic, pe := u.pe } = u ∧
  { v.pe with out := u.pe.out, tx := u.pe.tx, rx := u.pe.rx, zeroOld := u.pe.zeroOld } = u.pe

/-- The entry to the step with word w ends: its EVENT is raised, and its DELAY holds the engine (R349, R350). -/
def State.entryEnds (v : State) (e w : Nat) : State :=
  (v.peEvent e (bitsOf w 55 54)).wr R.PE_STATUS.HOLD (bitsOf w 63 56) e

end Sys2Proof.Machine
end

