-- ==== Sys2Proof/WellFormed.lean ====
section
/-! DEFINITION. Well-formed commands: register numbers, instance numbers and encoded fields within the ranges
the spec gives them, and no operand form that has no encoding. A row that is an access is well-formed for
any operand value it can carry; one outside the hardware's instances is answered by an error response. -/

namespace Sys2Proof

/-- An initiator that exists: a core, a mover or a ring unit of a legal number. -/
def Initiator.wf : Initiator → Bool
  | .core n => decide (n < 18)
  | .mover m => decide (m < 4)
  | .ringUnit u => decide (1 ≤ u) && decide (u ≤ 0x7FE)
  | _ => true

/-- Every number of the list is below `n`. -/
def below (n : Nat) (l : List Nat) : Bool := l.all fun x => decide (x < n)

/-- Core and condition of an instruction; a short form has the conditions 0 to 3 (08 R276). -/
def Head.wf (h : Head) (long : Bool) : Bool := decide (h.core < 18) && decide (h.cond < if long then 16 else 4)

/-- Registers of a two-register operation. -/
def AluForm.wf (h : Head) : AluForm → Bool
  | .short rd rs => h.wf false && below 16 [rd, rs]
  | .long rd ra rb _ => h.wf true && below 16 [rd, ra, rb]

/-- Registers and the immediate. -/
def ImmForm.wf (h : Head) : ImmForm → Bool
  | .short rd u4 => h.wf false && below 16 [rd, u4]
  | .long rd ra s12 => h.wf true && below 16 [rd, ra] && decide (s12 < 4096)

/-- Registers and the displacement; the [g14 + 4 × u6] form encodes words only (08 R277). -/
def MemForm.wf (h : Head) (word : Bool) : MemForm → Bool
  | .sp rd u6 => h.wf false && word && decide (rd < 16) && decide (u6 < 64)
  | .reg rd rb => h.wf false && below 16 [rd, rb]
  | .long rd ra s12 => h.wf true && below 16 [rd, ra] && decide (s12 < 4096)

/-- An odd rd of the short form is UNDEF, and STP has no SG (08 R277, R278). -/
def PointForm.wf (h : Head) (load : Bool) : PointForm → Bool
  | .short rd rb => h.wf false && below 16 [rd, rb] && rd % 2 == 0
  | .long rd rq ra sg s7 => h.wf true && below 16 [rd, rq, ra] && decide (s7 < 128) && (load || !sg)

/-- Registers of a saturation. -/
def SatForm.wf (h : Head) : SatForm → Bool
  | .short rd => h.wf false && decide (rd < 16)
  | .long rd ra => h.wf true && below 16 [rd, ra]

/-- The mask and the register of a CALL. -/
def CallForm.wf (h : Head) : CallForm → Bool
  | .short gm ra => h.wf false && below 16 [gm, ra]
  | .long mask ra => h.wf true && decide (mask < 65536) && decide (ra < 16)

/-- Registers and the target of a POST. -/
def PostForm.wf (h : Head) : PostForm → Bool
  | .reg long ra => h.wf long && decide (ra < 16)
  | .imm rd input node => h.wf true && decide (rd < 16) && decide (input < 4) && decide (node < 4096)

/-- Is the command a Clalo instruction? -/
def Instr.isClalo : Instr → Bool
  | .mov _ _ _ => true
  | .add _ _ => true
  | .adc _ _ _ _ _ => true
  | .sub _ _ => true
  | .sbc _ _ _ _ _ => true
  | .and _ _ => true
  | .or _ _ => true
  | .xor _ _ => true
  | .bic _ _ _ _ _ => true
  | .cmp _ _ _ _ => true
  | .tst _ _ _ => true
  | .movi _ _ _ => true
  | .addi _ _ => true
  | .subi _ _ _ => true
  | .cmpi _ _ _ _ => true
  | .andi _ _ _ _ => true
  | .ori _ _ _ _ => true
  | .xori _ _ _ _ => true
  | .setl _ _ _ => true
  | .seth _ _ _ => true
  | .lsli _ _ _ => true
  | .lsri _ _ _ => true
  | .asri _ _ _ => true
  | .lsl _ _ => true
  | .lsr _ _ => true
  | .asr _ _ => true
  | .ror _ _ _ _ _ => true
  | .shi _ _ _ _ _ _ => true
  | .btst _ _ _ => true
  | .neg _ _ => true
  | .not _ _ => true
  | .sxtb _ _ => true
  | .sxth _ _ => true
  | .zxtb _ _ => true
  | .zxth _ _ => true
  | .mul _ _ => true
  | .mulhs _ _ _ _ _ => true
  | .mulhu _ _ _ _ _ => true
  | .satp _ _ => true
  | .satps _ _ => true
  | .qprec _ _ _ _ _ => true
  | .pcond _ _ _ => true
  | .pclr _ _ => true
  | .pset _ _ => true
  | .pinv _ _ => true
  | .ldw _ _ => true
  | .ldh _ _ => true
  | .ldhs _ _ _ _ => true
  | .ldb _ _ => true
  | .ldbs _ _ _ _ => true
  | .stw _ _ => true
  | .sth _ _ => true
  | .stb _ _ => true
  | .ldp _ _ => true
  | .stp _ _ => true
  | .ldx _ _ _ _ => true
  | .stx _ _ _ _ => true
  | .b _ _ _ => true
  | .bl _ _ => true
  | .jmp _ _ => true
  | .jl _ _ => true
  | .call _ _ => true
  | .ret _ _ => true
  | .mfs _ _ _ => true
  | .mts _ _ _ => true
  | .nop _ _ => true
  | .wait _ _ => true
  | .done _ _ _ => true
  | .detach _ _ => true
  | .rete _ _ => true
  | .brk _ _ => true
  | .fence _ _ => true
  | .trap _ _ _ => true
  | .post _ _ => true
  | _ => false

/-- Is the command well-formed? -/
def Instr.wf : Instr → Bool
  | .registerWrite who _ _ => who.wf
  | .rclRead who _ => who.wf
  | .holdTimeEnd index => decide (index < 4096)
  | .livePointStale fabric => decide (fabric < 8388608)
  | .hostPointHeld index => decide (index < 4096)
  | .hostLossTimeout index => decide (index < 4096)
  | .hostLinkLoss => true
  | .hostWdExpire => true
  | .hostbeat who _ => who.wf
  | .forceSet who index value => who.wf && decide (index < 4096) && decide (value < 4096)
  | .forceRelease who index => who.wf && decide (index < 4096)
  | .snapReq who => who.wf
  | .snapRel who ackSeq _ => who.wf && decide (ackSeq < 65536)
  | .resultRegisterRead who _ => who.wf
  | .linkSignalDetect _ => true
  | .linkLock _ => true
  | .rateAttemptTimeout _ => true
  | .hello _ _ => true
  | .aliveSend _ => true
  | .aliveTimeout _ => true
  | .syncHeaderErrors _ => true
  | .retrainE who => who.wf
  | .retrainW who => who.wf
  | .probeSend _ _ => true
  | .probeReq _ _ _ _ => true
  | .probeRsp _ _ _ => true
  | .estimateUnknownLimit _ => true
  | .listenEnd => true
  | .coldstart _ _ => true
  | .coldstartTimeout => true
  | .rateOrder => true
  | .restart who => who.wf
  | .enumPassStart => true
  | .enum _ _ => true
  | .enumPassTimeout => true
  | .joinEnumSend => true
  | .linkDetach who => who.wf
  | .bridgeAccess who _ _ _ => who.wf
  | .bridgeTimeout tag => decide (tag < 65536)
  | .bridgeReissue tag => decide (tag < 65536)
  | .cycleBoundary => true
  | .throughFrameReceive _ _ _ => true
  | .staticFrameRead _ => true
  | .staticFrameSend _ => true
  | .staticFrameReceive _ _ _ => true
  | .staticSegmentEnd => true
  | .dynamicFrameSend => true
  | .dynamicFrameReceive _ _ _ => true
  | .tsLoad who set => who.wf && decide (set < 8)
  | .tsLoadComplete set => decide (set < 8)
  | .tsDrop who set => who.wf && decide (set < 8)
  | .mcStart who next => who.wf && decide (next < 8)
  | .referenceCheck => true
  | .holdoverLimit => true
  | .tbCapture who set => who.wf && decide (set < 8)
  | .tbStep who _ => who.wf
  | .tbRefWrite who _ => who.wf
  | .steepFire comp _ => decide (comp < 64)
  | .tokenPostApply => true
  | .postRetry _ => true
  | .pourPost who chan _ => who.wf && decide (chan < 16)
  | .dispatch => true
  | .slotLoaded slot => decide (slot < 21)
  | .operationTake slot => decide (slot < 21)
  | .operationComplete m => decide (m < 4)
  | .detachedComplete node _ => decide (node < 4096)
  | .pourHold who _ => who.wf
  | .setEn who node => who.wf && decide (node < 4096)
  | .clrEn who node => who.wf && decide (node < 4096)
  | .contextTimerExpire ctx t => decide (ctx < 256) && decide (t < 2)
  | .moverPointIssue m => decide (m < 4)
  | .moverPointWrite w => decide (w.target < 4)
  | .movHold who m _ => who.wf && decide (m < 4)
  | .mov h rd rs => h.wf false && below 16 [rd, rs]
  | .add h o => o.wf h
  | .adc h rd ra rb _ => h.wf true && below 16 [rd, ra, rb]
  | .sub h o => o.wf h
  | .sbc h rd ra rb _ => h.wf true && below 16 [rd, ra, rb]
  | .and h o => o.wf h
  | .or h o => o.wf h
  | .xor h o => o.wf h
  | .bic h rd ra rb _ => h.wf true && below 16 [rd, ra, rb]
  | .cmp h long rd rb => h.wf long && below 16 [rd, rb]
  | .tst h rd rs => h.wf false && below 16 [rd, rs]
  | .movi h rd u4 => h.wf false && decide (rd < 16) && decide (u4 < 16)
  | .addi h o => o.wf h
  | .subi h rd u4 => h.wf false && decide (rd < 16) && decide (u4 < 16)
  | .cmpi h long rd imm => h.wf long && decide (rd < 16) && decide (imm < if long then 4096 else 16)
  | .andi h rd ra u12 => h.wf true && below 16 [rd, ra] && decide (u12 < 4096)
  | .ori h rd ra u12 => h.wf true && below 16 [rd, ra] && decide (u12 < 4096)
  | .xori h rd ra u12 => h.wf true && below 16 [rd, ra] && decide (u12 < 4096)
  | .setl h rd u16 => h.wf true && decide (rd < 16) && decide (u16 < 65536)
  | .seth h rd u16 => h.wf true && decide (rd < 16) && decide (u16 < 65536)
  | .lsli h rd u4 => h.wf false && decide (rd < 16) && decide (u4 < 16)
  | .lsri h rd u4 => h.wf false && decide (rd < 16) && decide (u4 < 16)
  | .asri h rd u4 => h.wf false && decide (rd < 16) && decide (u4 < 16)
  | .lsl h o => o.wf h
  | .lsr h o => o.wf h
  | .asr h o => o.wf h
  | .ror h rd ra rb _ => h.wf true && below 16 [rd, ra, rb]
  | .shi h rd ra kind n _ => h.wf true && below 16 [rd, ra] && decide (kind < 4) && decide (n < 32)
  | .btst h rd u4 => h.wf false && decide (rd < 16) && decide (u4 < 16)
  | .neg h rd => h.wf false && decide (rd < 16)
  | .not h rd => h.wf false && decide (rd < 16)
  | .sxtb h rd => h.wf false && decide (rd < 16)
  | .sxth h rd => h.wf false && decide (rd < 16)
  | .zxtb h rd => h.wf false && decide (rd < 16)
  | .zxth h rd => h.wf false && decide (rd < 16)
  | .mul h o => o.wf h
  | .mulhs h rd ra rb _ => h.wf true && below 16 [rd, ra, rb]
  | .mulhu h rd ra rb _ => h.wf true && below 16 [rd, ra, rb]
  | .satp h o => o.wf h
  | .satps h o => o.wf h
  | .qprec h rd ra rb _ => h.wf true && below 16 [rd, ra, rb]
  | .pcond h mode c => h.wf true && decide (mode < 4) && decide (c < 16)
  | .pclr h long => h.wf long
  | .pset h long => h.wf long
  | .pinv h long => h.wf long
  | .ldw h o => o.wf h true
  | .ldh h o => o.wf h false
  | .ldhs h rd ra s12 => h.wf true && below 16 [rd, ra] && decide (s12 < 4096)
  | .ldb h o => o.wf h false
  | .ldbs h rd ra s12 => h.wf true && below 16 [rd, ra] && decide (s12 < 4096)
  | .stw h o => o.wf h true
  | .sth h o => o.wf h false
  | .stb h o => o.wf h false
  | .ldp h o => o.wf h true
  | .stp h o => o.wf h false
  | .ldx h long rd u => h.wf long && decide (rd < 16) && decide (u < 256) && (long || u % 4 == 0)
  | .stx h long rd u => h.wf long && decide (rd < 16) && decide (u < 256) && (long || u % 4 == 0)
  | .b h long off => h.wf long && decide (off < if long then 1048576 else 2048)
  | .bl h off => h.wf true && decide (off < 1048576)
  | .jmp h rd => h.wf false && decide (rd < 16)
  | .jl h rd => h.wf false && decide (rd < 16)
  | .call h o => o.wf h
  | .ret h long => h.wf long
  | .mfs h rd sr => h.wf true && decide (rd < 16) && decide (sr < 256)
  | .mts h rd sr => h.wf true && decide (rd < 16) && decide (sr < 256)
  | .nop h long => h.wf long
  | .wait h long => h.wf long
  | .done h long sel => h.wf long && decide (sel < 4)
  | .detach h long => h.wf long
  | .rete h long => h.wf long
  | .brk h long => h.wf long
  | .fence h long => h.wf long
  | .trap h long n => h.wf long && decide (n < 16)
  | .post h o => o.wf h
  | .undefinedEncoding core _ _ => decide (core < 18)
  | .storeBufferError core => decide (core < 18)
  | .coreReset who core _ => who.wf && decide (core < 18)
  | .coreRelease who core _ => who.wf && decide (core < 18)
  | .ccRamAccess who core _ => who.wf && decide (core < 18)
  | .sourceAssert _ => true
  | .sourceDeassert _ => true
  | .interruptTake core _ => decide (core < 18)
  | .icNnextPop who core => who.wf && decide (core < 18)
  | .icUnextPop who core => who.wf && decide (core < 18)
  | .icEoi who core src => who.wf && decide (core < 18) && decide (src < 1024)
  | .icSeoi who src => who.wf && decide (src < 1024)
  | .ptrigTrigger who core src => who.wf && decide (core < 18) && decide (src < 64)
  | .ptrigClear who core src => who.wf && decide (core < 18) && decide (src < 64)
  | .strigTrigger who src => who.wf && decide (src < 1024)
  | .strigClear who src => who.wf && decide (src < 1024)
  | .icRouteWrite who src _ => who.wf && decide (64 ≤ src) && decide (src < 576)
  | .doorbellSet who core _ _ => who.wf && decide (core < 18)
  | .mbxTxLo who chan _ => who.wf && decide (chan < 64)
  | .mbxTxHi who chan _ => who.wf && decide (chan < 64)
  | .mbxPopHi who chan => who.wf && decide (chan < 64)
  | .mbxStageExpire unit => decide (unit < 2048)
  | .engineTick e _ => decide (e < 64)
  | .peGstart who g mask _ => who.wf && decide (g < 8) && decide (mask < 256)
  | .peGrestart who g mask => who.wf && decide (g < 8) && decide (mask < 256)
  | .stop who e => who.wf && decide (e < 64)
  | .arm who e => who.wf && decide (e < 64)
  | .disarm who e => who.wf && decide (e < 64)
  | .inlatch who g _ => who.wf && decide (g < 8)
  | .outlatch who g => who.wf && decide (g < 8)
  | .peTxPush who e _ => who.wf && decide (e < 64)
  | .peRxPop who e => who.wf && decide (e < 64)
  | .peStageWrite who e _ => who.wf && decide (e < 64)
  | .canModeInit who c => who.wf && decide (c < 12)
  | .canInitEffect c => decide (c < 12)
  | .canModeNormal who c => who.wf && decide (c < 12)
  | .canModeListen who c => who.wf && decide (c < 12)
  | .canModeLoopback who c => who.wf && decide (c < 12)
  | .canModeSleep who c => who.wf && decide (c < 12)
  | .canSleepEffect c => decide (c < 12)
  | .canBusIntegrated c => decide (c < 12)
  | .canFrameValid c _ _ _ => decide (c < 12)
  | .strainerSearch c _ => decide (c < 12)
  | .canRxfAck who c _ _ => who.wf && decide (c < 12)
  | .canTxreq who c _ => who.wf && decide (c < 12)
  | .canTxabort who c _ => who.wf && decide (c < 12)
  | .canArbitration c => decide (c < 12)
  | .canTxEnd c _ => decide (c < 12)
  | .canBusError c _ _ _ _ => decide (c < 12)
  | .recover who c => who.wf && decide (c < 12)
  | .canRecoveryEnd c => decide (c < 12)
  | .canWake c _ _ => decide (c < 12)
  | .canLoopRestart who c => who.wf && decide (c < 12)
  | .strDataLoWrite who _ => who.wf
  | .strDataHiWrite who _ => who.wf
  | .strDataHiRead who => who.wf
  | .wakeNSeen _ => true
  | .wkupSeen k _ => decide (k < 4)
  | .ringDetect _ _ => true
  | .hostWake which _ => decide (which < 3)
  | .wakeTimerExpire _ => true
  | .wakePulseEnd => true
  | .maxawakeExpire => true
  | .kaSend => true
  | .kaSet who _ => who.wf
  | .kaIntervalEnd => true
  | .wkTokenWrite who _ => who.wf
  | .tokenForward => true
  | .commitPoint => true
  | .powerDownAbort => true
  | .powerDownComplete => true
  | .dwellEnd _ => true
  | .napExitComplete _ => true
  | .macRxFilter m _ _ => decide (m < 4)
  | .macRxEnd _ _ _ => true
  | .macLinkChange m _ _ _ _ => decide (m < 4)
  | .macRxrGet who m q _ => who.wf && decide (m < 4) && decide (q < 8)
  | .macTxrTail who m q _ => who.wf && decide (m < 4) && decide (q < 8)
  | .lsoSegmentEnqueue ring => decide (ring < 48)
  | .macTxStart m q _ => decide (m < 4) && decide (q < 8)
  | .macTxEnd m => decide (m < 4)
  | .macTxtsPop who m => who.wf && decide (m < 4)
  | .gclEntryStart m _ => decide (m < 4)
  | .gclCycleStart m => decide (m < 4)
  | .gclArm who m => who.wf && decide (m < 4)
  | .gclDisarm who m => who.wf && decide (m < 4)
  | .macEnable who m => who.wf && decide (m < 4)
  | .switchLookup _ => true
  | .switchEnqueue _ => true
  | .cellAllocate _ => true
  | .pushOut cls => decide (cls < 8)
  | .switchFrameEnd _ => true
  | .switchEgress p => decide (p < 8)
  | .switchDeliver p => decide (p < 8)
  | .cellFree _ => true
  | .ageTick => true
  | .fdbRead who index => who.wf && decide (index < 1024)
  | .fdbWrite who index => who.wf && decide (index < 1024)
  | .fdbFlush who index => who.wf && decide (index < 1024)
  | .swTxrTail who _ q _ => who.wf && decide (q < 8)
  | .eccWriteback _ => true
  | .btRegionStart => true
  | .btRestore _ => true
  | .zeroFillPage page => decide (page < 262144)
  | .scrubRead _ _ => true
  | .cadPagePop who => who.wf
  | .cadCellPop who => who.wf
  | .cadPageFree who _ => who.wf
  | .cadCellFree who _ => who.wf
  | .carveCreate who n _ => who.wf && decide (n < 8)
  | .carveRelease who n => who.wf && decide (n < 8)
  | .msixSend => true
  | .lbHnextPop who => who.wf
  | .pcieRequest _ => true
  | .pciePerst _ => true
  | .pcieLinkChange _ _ _ => true
  | .spiRead _ _ _ => true
  | .spiWrite _ _ _ _ => true
  | .spiStatus => true
  | .spiUnknownCommand _ => true
  | .spiCsRise => true
  | .lbCycle _ _ _ _ _ => true
  | .addrLo _ _ => true
  | .addrHi _ _ => true
  | .dataLoRead _ => true
  | .dataLoWrite _ _ => true
  | .dataHiRead _ => true
  | .dataHiWrite _ _ => true
  | .statRead _ => true
  | .statWrite _ _ => true
  | .lbDualSelect => true
  | .flashTransaction who _ => who.wf
  | .flashDone _ => true
  | .semPop who n => who.wf && decide (n < 32)
  | .semRelease who n => who.wf && decide (n < 32)
  | .suppliesValid _ => true
  | .powerOnReset => true
  | .brownout => true
  | .pinReset => true
  | .ketRst who _ _ => who.wf
  | .clkloss => true
  | .thermalReset => true
  | .ringRefclkLoss => true
  | .wdogKick who _ => who.wf
  | .wdogExpire _ => true
  | .kettleGrant d => decide (d < 12)
  | .kettleEvaluate _ => true
  | .domainRampDone d => decide (d < 12)
  | .dozeStop d => decide (d < 12)
  | .clusterGate c => decide (c < 4)
  | .ketStateReq who _ => who.wf
  | .deepExit _ => true
  | .refclkReturn _ => true
  | .ringRefclkReturn => true
  | .thermalResetRelease _ => true
  | .resetNRelease _ => true
  | .thermalWarn _ => true
  | .lfxtalTakeover => true
  | .random => true
  | .derive => true
  | .ringKeys => true
  | .lcRequest _ => true
  | .debugOpen => true
  | .otpProgram => true
  | .svnCommit => true
  | .selftest _ => true
  | .keeperBadService => true
  | .secHostImg who _ => who.wf
  | .rbgHealthFail => true
  | .alarmWindowClose unit page code aux => decide (unit < 2048) && decide (page < 1024) &&
    decide (code < 256) && decide (aux < 256)
  | .gap => true
  | .traceBufferWrite => true
  | .trcSwCommit who cls => who.wf && decide (cls < 4)
  | .srst who page => who.wf && decide (page < 1024)
  | .softResetEnd page => decide (page < 1024)
  | .pageEnWrite who page _ => who.wf && decide (page < 1024)
  | .lock who page => who.wf && decide (page < 1024)
  | .intForce who page _ => who.wf && decide (page < 1024)
  | .errCaptureClear who page => who.wf && decide (page < 1024)
  | .bankRailClassDetect bank _ => decide (bank < 8)

end Sys2Proof
end

