-- ==== Sys2Proof/Certificates/Slice0/Obligations.lean ====
section
/-! DEFINITION. The statements for the provers. Where a statement names a value that the spec does not give, it
says so and names the row of the assumption log. -/

open Sys2Proof Sys2Proof.Machine

/-- For every command and state, a step of the state with the command at the front of its queue is exec of the
command on the state with the queue's rest; the queue itself is the model's own (log 1). (spec/01 Agents,
spec/00 Conventions) -/
def Obligations.StepRunsTheFrontCommand : Prop :=
  (∀ (s : State) (c : Instr), step { s with pending := c :: s.pending } = exec c s) ∧
  (∀ (s : State) (c : Instr) (rest : List Instr), s.pending = c :: rest → step s = exec c { s with pending := rest })

/-- On an empty queue the step answers a next state (the model's choice, log 3). While the device is awake that
state is one tick later, with every steep trigger line low, each line that was high having set the engines'
sticky copies that name it, and the command queue is empty as before; where no store waits in a core's buffer,
no host request waits and no source is presented to a core whose clock stands, memories, points, the ring, the
switch, the CAN and the keeper are as before; while it is asleep or held in reset nothing changes. (spec/00
Conventions, spec/05 R174, spec/05 R202, spec/08 R265, spec/10 R353) -/
def Obligations.IdleStepIsOneTick : Prop :=
  (∀ s : State, s.pending = [] → s.awake = false → step s = .next s) ∧
  (∀ s : State, s.pending = [] → ∃ t, step s = .next t) ∧
  (∀ s : State, s.pending = [] → s.awake = true → s.stores = [] → s.host.waits = [] →
    (∀ c, c < 18 → s.clocked c = true ∨ s.anyPresented c = false) →
    ∃ t, step s = .next t ∧ t.tick = s.tick + 1 ∧ t.time.trig = 0 ∧ t.pending = [] ∧ t.mem = s.mem ∧ t.pt = s.pt ∧ t.ring = s.ring ∧ t.eth = s.eth ∧ t.can = s.can ∧ t.sec = s.sec ∧
    ∀ e k, e < 64 → k < 8 →
      bit (t.pe.sticky.get 0 e) k = (bit (s.pe.sticky.get 0 e) k || bit s.time.trig.toNat (s.steepName (e / 8) k)))

/-- Right after reset every register reads its reset value but KET_STATUS, KET_DOM and the CC_CTRL of cores 16
and 17, no command waits, memory lists nothing, the unit has no address and no role, cores 16 and 17 run from
vector 0 at THREAD level, and every other core is in reset; Kettle shows RUN with MAIN, SRAM, CADDY and SYS on.
(spec/17 R587, spec/17 R584, spec/02 R52, spec/08 R305, spec/20 R627) -/
def Obligations.ResetLeavesResetValues : Prop :=
  (∀ a, a ∉ [R.KET_STATUS.all.addr 0 0, R.KET_DOM.all.addr 0 0, R.CC_CTRL.RUN.addr 16 0, R.CC_CTRL.RUN.addr 17 0] →
    State.reset.reg a = regReset a) ∧
  State.reset.pending = [] ∧ State.reset.mem.bytes = [] ∧ State.reset.ring.addr = 0 ∧
  State.reset.ring.cycleMaster = false ∧ State.reset.ring.timeMaster = false ∧ State.reset.awake = true ∧
  State.reset.rd R.KET_STATUS.STATE = 0 ∧
  (∀ d, d ∈ [0, 1, 2, 7] → 2 ≤ State.reset.dom d) ∧
  (∀ c, c < 18 → (State.reset.core c).run = (if 16 ≤ c then .run else .reset) ∧
    (State.reset.core c).pc = 0xE0000000 ∧ (State.reset.core c).level = .thread ∧
    State.reset.rd R.CC_CTRL.RUN c = if 16 ≤ c then 1 else 0)

/-- The memories and the register store of the reset state are in the model's canonical form: keys rise and no
entry equals what an unlisted key reads as. (spec/01 R19, spec/20 R627) -/
def Obligations.ResetIsCanonical : Prop := State.reset.mem.wf = true ∧ regsWf State.reset.regs = true

/-- Every command has a next state in every state: a failed access is an error response, which is a next state
(R20), and no row of the table is refused; so every step answers a next state. (spec/01 R20, spec/00 R9) -/
def Obligations.EveryCommandCompletes : Prop :=
  (∀ (c : Instr) (s : State), ∃ t, exec c s = .next t) ∧ (∀ s : State, ∃ t, step s = .next t)

/-- Halfwords of the worked example of chapter 08 decode to the instructions it names; a SUB-7 halfword with a
reserved SYSOP and a STP with SG set decode to none. (spec/08 Short Forms, spec/08 Long Forms, spec/08 R275,
spec/08 R279) -/
def Obligations.SpecWordsDecode : Prop :=
  decodeClalo 3 0xE054 0x8680 = some (.setl ⟨3, 0⟩ 4 0x8680) ∧
  decodeClalo 3 0xE064 0x4001 = some (.seth ⟨3, 0⟩ 4 0x4001) ∧
  decodeClalo 3 0x6764 0 = some (.ldp ⟨3, 0⟩ (.short 6 4)) ∧
  decodeClalo 3 0xBF11 0 = some (.done ⟨3, 3⟩ false 1) ∧
  decodeClalo 3 0xC610 0 = some (.ldx ⟨3, 0⟩ false 8 0x40) ∧
  decodeClalo 3 0x0168 0 = some (.add ⟨3, 0⟩ (.short 6 8)) ∧
  decodeClalo 3 0xA266 0 = some (.satp ⟨3, 0⟩ (.short 6)) ∧
  decodeClalo 3 0x2096 0 = some (.movi ⟨3, 0⟩ 9 6) ∧
  decodeClalo 3 0xE607 0x79F0 = some (.qprec ⟨3, 3⟩ 7 7 9 false) ∧
  decodeClalo 3 0x6364 0 = some (.stp ⟨3, 0⟩ (.short 6 4)) ∧
  decodeClalo 3 0x21A1 0 = some (.addi ⟨3, 0⟩ (.short 10 1)) ∧
  decodeClalo 3 0xC291 0 = some (.stx ⟨3, 0⟩ false 10 0x44) ∧
  decodeClalo 3 0xA710 0 = some (.done ⟨3, 0⟩ false 0) ∧
  decodeClalo 3 0xA7F0 0 = none ∧ decodeClalo 3 0xE136 0x0080 = none

/-- For each of the Clalo instructions, in every form and with every operand at every value that its encoding
admits, the encoder gives one or two halfwords and the decoder reads the same instruction from them. (spec/08
Short Forms, spec/08 Long Forms, spec/08 ALU Functions, spec/08 R275, spec/08 R276) -/
def Obligations.EncodedInstructionsDecode : Prop :=
  ∀ i : Instr, i.isClalo = true → i.wf = true →
    ∃ x core, encodeClalo i = some x ∧ decodeHalves core x = some i

/-- If two halfwords decode on a core to an instruction, that instruction is a well-formed Clalo instruction of
that core, and encoding it gives back the first halfword, and the second one exactly where the form is long; so
no two encodings overlap and no bit of one is dropped. (spec/08 Short Forms, spec/08 Long Forms, spec/08 R275,
spec/08 R279) -/
def Obligations.DecodedInstructionsEncode : Prop :=
  ∀ (core : Nat) (h0 h1 : Half) (i : Instr), core < 18 → decodeClalo core h0 h1 = some i →
    i.isClalo = true ∧ i.wf = true ∧ encodeClalo i = some (h0, if h0.toNat / 8192 = 7 then some h1 else none)

/-- A REGISTER_WRITE of a block-specific register that its page accepts and whose chapter gives the write no
further effect is answered without error; every RW field takes its bits, every W1C field loses the bits written
1, every W1S field gains them, other fields keep theirs, and no other state changes. Where the chapter gives the
write an effect, the write has that effect and no other, and its answer; where the chapter refuses it, its
answer is an error response with the CAUSE of the refusal, recorded in the page. A write of the common registers
INT_STATUS and INT_ENABLE acts on the page's INT_STATUS and INT_ENABLE. A write that meets a refusal of chapter
20, or an address that holds no register, is answered with an error response with its CAUSE. A write to a page
in soft reset waits, and so does the write of MAC_CTRL.EN = 1 that asks for the ETH domain. (spec/00 R9, spec/20
R628, spec/20 R630, spec/20 R631, spec/20 R632, spec/20 R635) -/
def Obligations.RegisterWritesFollowAccessCodes : Prop :=
  (∀ (s : State) (who : Initiator) (p off : Nat) (v : Word) (row : PageRow) (d : RegDesc),
    s.accepts who p off = true → pageRow p = some row → findReg row.ty off = some d →
    0x40 ≤ off → off < 0x1000 → off % 4 = 0 → s.writeSpecial who row.ty (p - row.first) off d v = none →
    ∃ t, exec (.registerWrite who (regAt p off) v) s = .next t ∧ t.answer.error = false ∧
      t.reg (regAt p off) = d.afterWrite (s.reg (regAt p off)) v ∧
      (∀ a, a ≠ regAt p off → t.reg a = s.reg a) ∧ { t with regs := s.regs, answer := s.answer } = s ∧
      (∀ f ∈ d.fields, ∀ w : Word, f.hi < 32 → f.lo ≤ f.hi →
        (f.acc = .rw → getBits (RegDesc.afterWrite { d with fields := [f] } w v) f.hi f.lo = getBits v f.hi f.lo) ∧
        (f.acc = .w1c → getBits (RegDesc.afterWrite { d with fields := [f] } w v) f.hi f.lo =
          getBits w f.hi f.lo &&& (f.max - getBits v f.hi f.lo)) ∧
        (f.acc = .w1s → getBits (RegDesc.afterWrite { d with fields := [f] } w v) f.hi f.lo =
          getBits w f.hi f.lo ||| getBits v f.hi f.lo) ∧
        (f.acc = .ro ∨ f.acc = .rcl ∨ f.acc = .wo → RegDesc.afterWrite { d with fields := [f] } w v = w))) ∧
  (∀ (s : State) (who : Initiator) (p off : Nat) (v : Word) (row : PageRow) (d : RegDesc) (r : RegRes),
    s.accepts who p off = true → pageRow p = some row → findReg row.ty off = some d →
    0x40 ≤ off → off < 0x1000 → off % 4 = 0 → s.ethWaits who (regAt p off) 4 v.toNat = false →
    s.writeSpecial who row.ty (p - row.first) off d v = some r →
    (r.cause = none → exec (.registerWrite who (regAt p off) v) s = .next (r.s.ok r.data)) ∧
    (∀ c, r.cause = some c → ∃ t, exec (.registerWrite who (regAt p off) v) s = .next t ∧ t.answer.error = true ∧
      (r.s.on R.ERR_CAPTURE.VALID p = false → errPage who p = p → stampOf who < 0x10000 → c < 16 →
        t.rd R.ERR_CAPTURE.CAUSE p = c ∧ t.rd R.ERR_CAPTURE.WRITE p = 1))) ∧
  (∀ (s : State) (who : Initiator) (p : Nat) (v : Word) (row : PageRow), s.awake = true → pageRow p = some row →
    (remote who = false ∨ row.remote = true) → (findReg row.ty 0x010).isSome = true →
    (findReg row.ty 0x014).isSome = true →
    exec (.registerWrite who (regAt p 0x010) v) s = .next (s.intClear p row.ty v.toNat).ok ∧
    exec (.registerWrite who (regAt p 0x014) v) s =
      .next ((s.wr R.INT_ENABLE.BITS (v.toNat &&& intMask row.ty) p).syncPage p).ok) ∧
  (∀ (s : State) (who : Initiator) (p off : Nat) (v : Word) (row : PageRow) (d : RegDesc), s.awake = true →
    pageRow p = some row → findReg row.ty off = some d → 0x40 ≤ off → off < 0x1000 → off % 4 = 0 →
    s.resetting p = false → s.on R.ERR_CAPTURE.VALID p = false → errPage who p = p → stampOf who < 0x10000 →
    (remote who && !row.remote) = true ∨ (s.on R.PAGE_CTRL.LOCK p && d.hasRw) = true ∨
      (row.srst && !s.pageEn p) = true →
    ∃ t, exec (.registerWrite who (regAt p off) v) s = .next t ∧ t.answer.error = true ∧
      t.rd R.ERR_CAPTURE.CAUSE p =
        (if (remote who && !row.remote) || (s.on R.PAGE_CTRL.LOCK p && d.hasRw) then 9 else 10) ∧
      (∀ a, a ≠ regAt p 0x1C → a ≠ regAt p 0x20 → t.reg a = s.reg a)) ∧
  (∀ (s : State) (who : Initiator) (a : Nat) (v : Word), s.awake = true → rangeOf a = none →
    ∃ t, exec (.registerWrite who a v) s = .next t ∧ t.answer.error = true) ∧
  (∀ (s : State) (who : Initiator) (p off : Nat) (v : Word), s.awake = true → p < 1024 → s.resetting p = true →
    0x40 ≤ off → off < 0x1000 → off % 4 = 0 → exec (.registerWrite who (regAt p off) v) s = .next s) ∧
  (∀ (s : State) (who : Initiator) (a : Nat) (v : Word), s.awake = true → s.regWaits a = false →
    s.ethWaits who a 4 v.toNat = true → exec (.registerWrite who a v) s = .next (s.requestDom 4))

/-- RCL_READ of a register that the store holds is answered with its contents, WO fields reading 0; its RCL
fields clear and nothing else changes. Where the chapter gives the read an effect or a value of its own,
RCL_READ and RESULT_REGISTER_READ of the register have that effect and that answer, or the error response that
the chapter names; the common registers of a page are read without effect; an address that holds no register
gets an error response, and a read of a page in soft reset waits. The status registers of a mailbox channel, of
the forwarding table and of a core, whose other fields show what stands elsewhere, answer with those and their
RCL counts, which clear. RESULT_REGISTER_READ of CAD_SNAP_STATUS while a snapshot result is held is answered
with the register, REREAD set exactly when it has been read before, and leaves the result in place, marked as
read; while none is held it is answered with the register as it stands, without effect. (spec/00 R9, spec/16
R563, spec/16 R564, spec/16 R565) -/
def Obligations.RegisterReadsFollowAccessCodes : Prop :=
  (∀ (s : State) (who : Initiator) (p off : Nat) (row : PageRow) (d : RegDesc),
    s.answers p = true → pageRow p = some row → findReg row.ty off = some d →
    0x40 ≤ off → off < 0x1000 → off % 4 = 0 → s.readSpecial who row.ty (p - row.first) off d = none →
    ∃ t, exec (.rclRead who (regAt p off)) s = .next t ∧
      t.answer = ⟨BitVec.ofNat 64 (d.shown (s.reg (regAt p off))).toNat, false⟩ ∧
      t.reg (regAt p off) = d.afterRead (s.reg (regAt p off)) ∧
      (∀ a, a ≠ regAt p off → t.reg a = s.reg a) ∧ { t with regs := s.regs, answer := s.answer } = s ∧
      (∀ f ∈ d.fields, ∀ w : Word, f.hi < 32 → f.lo ≤ f.hi →
        (f.acc = .rcl → getBits (RegDesc.afterRead { d with fields := [f] } w) f.hi f.lo = 0) ∧
        (f.acc ≠ .rcl → RegDesc.afterRead { d with fields := [f] } w = w) ∧
        (f.acc = .wo → getBits (RegDesc.shown { d with fields := [f] } w) f.hi f.lo = 0) ∧
        (f.acc ≠ .wo → RegDesc.shown { d with fields := [f] } w = w))) ∧
  (∀ (s : State) (who : Initiator) (p off : Nat) (row : PageRow) (d : RegDesc) (r : RegRes),
    s.answers p = true → pageRow p = some row → findReg row.ty off = some d →
    0x40 ≤ off → off < 0x1000 → off % 4 = 0 → s.readSpecial who row.ty (p - row.first) off d = some r →
    (r.cause = none → exec (.rclRead who (regAt p off)) s = .next (r.s.ok r.data) ∧
      exec (.resultRegisterRead who (regAt p off)) s = .next (r.s.ok r.data)) ∧
    (∀ c, r.cause = some c →
      (∃ t, exec (.rclRead who (regAt p off)) s = .next t ∧ t.answer.error = true) ∧
      (∃ t, exec (.resultRegisterRead who (regAt p off)) s = .next t ∧ t.answer.error = true))) ∧
  (∀ (s : State) (who : Initiator) (p off v : Nat) (row : PageRow) (d : RegDesc), s.awake = true →
    pageRow p = some row → findReg row.ty off = some d → off < 0x40 → off % 4 = 0 →
    s.readCommon p row off = some v →
    exec (.rclRead who (regAt p off)) s = .next (s.ok v) ∧
    exec (.resultRegisterRead who (regAt p off)) s = .next (s.ok v)) ∧
  (∀ (s : State) (who : Initiator) (p off : Nat) (row : PageRow) (d : RegDesc),
    s.answers p = true → pageRow p = some row → findReg row.ty off = some d →
    0x40 ≤ off → off < 0x1000 → off % 4 = 0 → s.readSpecial who row.ty (p - row.first) off d = none →
    exec (.resultRegisterRead who (regAt p off)) s = exec (.rclRead who (regAt p off)) s) ∧
  (∀ (s : State) (who : Initiator) (a : Nat), s.awake = true → rangeOf a = none →
    (∃ t, exec (.rclRead who a) s = .next t ∧ t.answer.error = true) ∧
    (∃ t, exec (.resultRegisterRead who a) s = .next t ∧ t.answer.error = true)) ∧
  (∀ (s : State) (who : Initiator) (p off : Nat), s.awake = true → p < 1024 → s.resetting p = true →
    0x40 ≤ off → off < 0x1000 → off % 4 = 0 →
    exec (.rclRead who (regAt p off)) s = .next s ∧ exec (.resultRegisterRead who (regAt p off)) s = .next s) ∧
  (∀ (s : State) (who : Initiator) (n : Nat), s.answers 10 = true → n < 64 →
    ∃ t, exec (.rclRead who (R.MBX_STATUSn.all.addr 0 n)) s = .next t ∧ t.answer.error = false ∧
      t.answer.data.toNat = s.rd R.MBX_STATUSn.OVERFLOW 0 n * 2 ^ 24 + s.rd R.MBX_STATUSn.UNDERRUN 0 n * 2 ^ 16 +
        s.rd R.MBX_STATUSn.NOSENDER 0 n * 2 ^ 8 +
        bitsOf (s.reg (R.MBX_STATUSn.all.addr 0 n)).toNat 7 3 * 8 + (s.chan n).length % 8 ∧
      t.rd R.MBX_STATUSn.OVERFLOW 0 n = 0 ∧ t.rd R.MBX_STATUSn.UNDERRUN 0 n = 0 ∧
      t.rd R.MBX_STATUSn.NOSENDER 0 n = 0 ∧ (∀ a, a ≠ R.MBX_STATUSn.all.addr 0 n → t.reg a = s.reg a) ∧
      { t with regs := s.regs, answer := s.answer } = s) ∧
  (∀ (s : State) (who : Initiator), s.answers 22 = true →
    ∃ t, exec (.rclRead who (R.SW_FDB_STATUS.all.addr 0 0)) s = .next t ∧ t.answer.error = false ∧
      bitsOf t.answer.data.toNat 31 16 = s.rd R.SW_FDB_STATUS.LEARN_FULL ∧
      bitsOf t.answer.data.toNat 10 0 = s.fdbUsed % 2048 ∧ t.rd R.SW_FDB_STATUS.LEARN_FULL = 0 ∧
      (∀ a, a ≠ R.SW_FDB_STATUS.all.addr 0 0 → t.reg a = s.reg a) ∧
      { t with regs := s.regs, answer := s.answer } = s) ∧
  (∀ (s : State) (who : Initiator) (c : Nat), s.answers (64 + c) = true → c < 18 →
    ∃ t, exec (.rclRead who (R.CC_STATUS.all.addr c 0)) s = .next t ∧ t.answer.error = false ∧
      bitsOf t.answer.data.toNat 31 29 = s.coreStatus c ∧
      bitsOf t.answer.data.toNat 28 27 = (s.core c).level.code ∧
      bitsOf t.answer.data.toNat 7 0 = s.rd R.CC_STATUS.FAULTS c ∧ t.rd R.CC_STATUS.FAULTS c = 0 ∧
      (∀ a, a ≠ R.CC_STATUS.all.addr c 0 → t.reg a = s.reg a) ∧
      { t with regs := s.regs, answer := s.answer } = s) ∧
  (∀ (s : State) (who : Initiator), s.answers 8 = true → s.on R.CAD_SNAP_STATUS.VALID = true →
    ∃ t, exec (.resultRegisterRead who (R.CAD_SNAP_STATUS.all.addr 0 0)) s = .next t ∧
      t.answer = ⟨BitVec.ofNat 64 ((s.reg (R.CAD_SNAP_STATUS.all.addr 0 0)).toNat +
        (if s.pt.snapRead then 2 ^ 30 else 0)), false⟩ ∧
      t.pt.snapRead = true ∧ { t with pt := { t.pt with snapRead := s.pt.snapRead }, answer := s.answer } = s) ∧
  (∀ (s : State) (who : Initiator), s.answers 8 = true → s.on R.CAD_SNAP_STATUS.VALID = false →
    ∃ t, exec (.resultRegisterRead who (R.CAD_SNAP_STATUS.all.addr 0 0)) s = .next t ∧
      t.answer = ⟨BitVec.ofNat 64 (s.reg (R.CAD_SNAP_STATUS.all.addr 0 0)).toNat, false⟩ ∧
      { t with answer := s.answer } = s)

/-- On a page that its initiator controls, LOCK locks it and changes no other register; on a page with soft
reset, SRST leaves EN as it was, sets HELD and gives the page's block-specific registers their reset values, the
end of the reset clears HELD, and PAGE_EN_WRITE writes EN, EN = 0 giving the registers their reset values. A
MAC's detached operation that waits completes with SEL 1 after the reset. On a page without soft reset SRST and
PAGE_EN_WRITE change nothing. A locked page refuses SRST and a change of EN with CAUSE 9. A write of PAGE_CTRL
by another ring unit is refused with CAUSE 9 and changes no register of the page but its error capture. (spec/20
R630, spec/20 R631, spec/20 R632, spec/20 R635) -/
def Obligations.PageControlWrites : Prop :=
  (∀ (s : State) (who : Initiator) (p : Nat), s.controls who p = true →
    ∃ t, exec (.lock who p) s = .next t ∧ t.answer.error = false ∧ t.on R.PAGE_CTRL.LOCK p = true ∧
      t.pageEn p = s.pageEn p ∧ (∀ a, a ≠ regAt p 8 → t.reg a = s.reg a) ∧
      { t with regs := s.regs, answer := s.answer } = s) ∧
  (∀ (s : State) (who : Initiator) (p : Nat), s.controls who p = true → srstPage p = true →
    (24 ≤ p → p < 28 → (s.macOf (p - 24)).waiting = []) →
    ∃ t, exec (.srst who p) s = .next t ∧ t.answer.error = false ∧ t.pageEn p = s.pageEn p ∧
      t.on R.PAGE_STATUS.HELD p = true ∧
      (∀ off, 0x40 ≤ off → off < 0x1000 → t.reg (regAt p off) = regReset (regAt p off))) ∧
  (∀ (s : State) (who : Initiator) (p : Nat), s.controls who p = true → 24 ≤ p → p < 28 →
    ∃ u : State, (∀ off, 0x40 ≤ off → off < 0x1000 → u.reg (regAt p off) = regReset (regAt p off)) ∧
      u.pageEn p = s.pageEn p ∧ u.macOf (p - 24) = {} ∧
      exec (.srst who p) s =
        .next ((((s.macOf (p - 24)).waiting.foldl (fun (x : State) w => x.completeNode w.1 1) u).wr
          R.PAGE_STATUS.HELD 1 p).ok)) ∧
  (∀ (s : State) (who : Initiator) (p : Nat) (en : Bool), s.controls who p = true → srstPage p = false →
    exec (.srst who p) s = .next s.ok ∧ exec (.pageEnWrite who p en) s = .next s.ok) ∧
  (∀ (s : State) (who : Initiator) (p : Nat), s.awake = true → remote who = false → (pageRow p).isSome = true →
    s.on R.PAGE_CTRL.LOCK p = true →
    (∃ t, exec (.srst who p) s = .next t ∧ t.answer.error = true ∧ t.pageEn p = s.pageEn p ∧
      t.on R.PAGE_STATUS.HELD p = s.on R.PAGE_STATUS.HELD p ∧ t.on R.PAGE_CTRL.LOCK p = true) ∧
    (∃ t, exec (.pageEnWrite who p (!s.pageEn p)) s = .next t ∧ t.answer.error = true ∧ t.pageEn p = s.pageEn p) ∧
    (∃ t, exec (.pageEnWrite who p (s.pageEn p)) s = .next t ∧ t.answer.error = false ∧ (∀ a, t.reg a = s.reg a) ∧
      { t with regs := s.regs, answer := s.answer } = s)) ∧
  (∀ (s : State) (p : Nat), s.awake = true → s.on R.PAGE_STATUS.HELD p = true →
    ∃ t, exec (.softResetEnd p) s = .next t ∧ t.on R.PAGE_STATUS.HELD p = false ∧
      (∀ a, a ≠ regAt p 0xC → t.reg a = s.reg a) ∧ { t with regs := s.regs } = s) ∧
  (∀ (s : State) (who : Initiator) (p : Nat) (en : Bool), s.controls who p = true → srstPage p = true →
    (24 ≤ p → p < 28 → s.pageEn p = true → en = false → (s.macOf (p - 24)).waiting = []) →
    ∃ t, exec (.pageEnWrite who p en) s = .next t ∧ t.answer.error = false ∧ t.pageEn p = en ∧
      (s.pageEn p = true → en = false →
        ∀ off, 0x40 ≤ off → off < 0x1000 → t.reg (regAt p off) = regReset (regAt p off)) ∧
      ((s.pageEn p = false ∨ en = true) →
        (∀ a, a ≠ regAt p 8 → t.reg a = s.reg a) ∧ { t with regs := s.regs, answer := s.answer } = s)) ∧
  (∀ (s : State) (who : Initiator) (p : Nat), s.controls who p = true → 24 ≤ p → p < 28 → s.pageEn p = true →
    ∃ u : State, (∀ off, 0x40 ≤ off → off < 0x1000 → u.reg (regAt p off) = regReset (regAt p off)) ∧
      u.pageEn p = false ∧ u.macOf (p - 24) = {} ∧
      exec (.pageEnWrite who p false) s =
        .next ((s.macOf (p - 24)).waiting.foldl (fun (x : State) w => x.completeNode w.1 1) u).ok) ∧
  (∀ (s : State) (u p : Nat) (en : Bool), u < 2048 → s.awake = true → (pageRow p).isSome = true →
    s.on R.ERR_CAPTURE.VALID p = false →
    ∃ t, exec (.pageEnWrite (.ringUnit u) p en) s = .next t ∧ t.answer.error = true ∧
      t.rd R.ERR_CAPTURE.CAUSE p = 9 ∧ t.rd R.ERR_CAPTURE.WRITE p = 1 ∧
      (∀ a, a ≠ regAt p 0x1C → a ≠ regAt p 0x20 → t.reg a = s.reg a))

/-- INT_FORCE of a page other than page 0 sets exactly the INT_STATUS bits written 1 that the block's table has;
on page 0, bit 0 sets VALID of an empty capture, which then reads 0 elsewhere. ERR_CAPTURE_CLEAR clears VALID,
OVER and ERR_ADDR of the page. No other register changes, and beside registers, only interrupt sources and the
answer can change. (spec/20 R633, spec/20 R634) -/
def Obligations.PageInterruptWrites : Prop :=
  (∀ (s : State) (who : Initiator) (p : Nat) (row : PageRow) (bits : Word), s.awake = true →
    (remote who = false ∨ pageRemote p = true) → pageRow p = some row → p ≠ 0 →
    ∃ t, exec (.intForce who p bits) s = .next t ∧ t.answer.error = false ∧
      t.rd R.INT_STATUS.BITS p = s.rd R.INT_STATUS.BITS p ||| (bits.toNat &&& intMask row.ty) ∧
      (∀ a, a ≠ regAt p 0x10 → t.reg a = s.reg a) ∧
      { t with regs := s.regs, ic := s.ic, answer := s.answer } = s) ∧
  (∀ (s : State) (who : Initiator) (bits : Word), s.awake = true → remote who = false →
    s.on R.ERR_CAPTURE.VALID 0 = false → bits.getLsbD 0 = true →
    ∃ t, exec (.intForce who 0 bits) s = .next t ∧ t.answer.error = false ∧ t.intStatus 0 = 1 ∧
      t.reg (regAt 0 0x1C) = 0x80000000 ∧ t.reg (regAt 0 0x20) = 0 ∧
      (∀ a, a ≠ regAt 0 0x1C → a ≠ regAt 0 0x20 → t.reg a = s.reg a) ∧
      { t with regs := s.regs, ic := s.ic, answer := s.answer } = s) ∧
  (∀ (s : State) (who : Initiator) (p : Nat), s.awake = true → (remote who = false ∨ pageRemote p = true) →
    (pageRow p).isSome = true →
    ∃ t, exec (.errCaptureClear who p) s = .next t ∧ t.answer.error = false ∧
      t.on R.ERR_CAPTURE.VALID p = false ∧ t.rd R.ERR_CAPTURE.OVER p = 0 ∧ t.rd R.ERR_ADDR.ADDR p = 0 ∧
      (∀ a, a ≠ regAt p 0x1C → a ≠ regAt p 0x20 → t.reg a = s.reg a) ∧
      { t with regs := s.regs, ic := s.ic, answer := s.answer } = s)

/-- At the boundary where the count of a missed local point reaches HOLD, the point keeps its value with STALE,
or takes SUBST_VALUE with SUBSTITUTE; a host-commanded point takes HELD when c reaches 1 and SUBST_VALUE with
SUBSTITUTE when c reaches HOST_LOSS_TIMEOUT, which may be the same boundary; a live-image point of another unit,
in a word without an error, keeps its value with STALE. Each action gives the point the code of higher
precedence of its stored quality and the action's, and leaves a point that is INVALID or NEVER as it is. A
change of quality is counted in status point 0x013, a transition to SUBSTITUTE by host loss in 0x015; every
other local point, every register, every other memory byte is as before. A write to a live-image page that the
snapshot shares makes the page the live image's own again. (spec/02 R40, spec/02 R41, spec/02 R43, spec/02 R71,
spec/02 R73, spec/02 R75) -/
def Obligations.MissedPointsTakeTheirHoldAction : Prop :=
  (∀ (p : Half) (q : Nat) (v : Option Nat),
    (ptQual p = 0xF ∨ ptQual p = 8 → holdApply p q v = p) ∧
    (ptQual p ≠ 0xF → ptQual p ≠ 8 → holdApply p q v = mkPt (qMax (ptQual p) q) (v.getD (ptVal p)))) ∧
  (∀ (s : State) (i : Nat), s.awake = true → 0x100 ≤ i → aClass (s.attr i) ≠ 0 → aHostCmd (s.attr i) = false →
    aHold (s.attr i) ≠ 0 → s.miss i + 1 = aHold (s.attr i) → s.pt.upd.get false i = false →
    ∃ t, exec (.holdTimeEnd i) s = .next t ∧ t.miss i = aHold (s.attr i) ∧
      t.stored i = (if aSubst (s.attr i) then holdApply (s.stored i) 3 (some (aSubstVal (s.attr i)))
        else holdApply (s.stored i) 4 none) ∧
      t.stored 0x013 = (if ptQual (t.stored i) = ptQual (s.stored i) then s.stored 0x013
        else BitVec.ofNat 16 (((s.stored 0x013).toNat % 4096 + 1) % 4096)) ∧
      (∀ j, j ≠ i → j ≠ 0x013 → t.stored j = s.stored j) ∧ { t with pt := s.pt, pour := s.pour } = s) ∧
  (∀ (s : State) (i : Nat), s.awake = true → 0x100 ≤ i → aClass (s.attr i) ≠ 0 → aHostCmd (s.attr i) = true →
    s.miss i = 0 → s.pt.upd.get false i = false →
    ∃ t, exec (.hostPointHeld i) s = .next t ∧ t.miss i = 1 ∧
      t.stored i = (if s.rd R.RING_PT_CTRL.HOST_LOSS_TIMEOUT = 1 then
          holdApply (holdApply (s.stored i) 2 none) 3 (some (aSubstVal (s.attr i)))
        else holdApply (s.stored i) 2 none) ∧
      (∀ j, j ≠ i → j ≠ 0x013 → j ≠ 0x015 → t.stored j = s.stored j) ∧
      (s.rd R.RING_PT_CTRL.HOST_LOSS_TIMEOUT ≠ 1 → t.stored 0x015 = s.stored 0x015) ∧
      { t with pt := s.pt, pour := s.pour } = s) ∧
  (∀ (s : State) (i : Nat), s.awake = true → 0x100 ≤ i → aClass (s.attr i) ≠ 0 → aHostCmd (s.attr i) = true →
    s.pt.upd.get false i = false → s.miss i + 1 = s.rd R.RING_PT_CTRL.HOST_LOSS_TIMEOUT →
    ∃ t, exec (.hostLossTimeout i) s = .next t ∧ t.miss i = s.rd R.RING_PT_CTRL.HOST_LOSS_TIMEOUT ∧
      (let p := if s.miss i = 0 then holdApply (s.stored i) 2 none else s.stored i
       t.stored i = holdApply p 3 (some (aSubstVal (s.attr i))) ∧
       t.stored 0x015 = (if ptQual (t.stored i) = ptQual p then s.stored 0x015
         else BitVec.ofNat 16 (((s.stored 0x015).toNat % 4096 + 1) % 4096))) ∧
      (∀ j, j ≠ i → j ≠ 0x013 → j ≠ 0x015 → t.stored j = s.stored j) ∧
      { t with pt := s.pt, pour := s.pour } = s) ∧
  (∀ (s : State) (a : Nat), s.awake = true → s.imgEn = true → a / 4096 ≠ s.ring.addr →
    s.pt.liveMiss.get 0 a + 1 = s.ring.active.liveHold a → s.ring.active.liveHold a ≤ 255 →
    s.pt.liveUpd.get false a = false → (s.live (a / 512)).backed = true → s.cleanAt (s.live (a / 512)) a = true →
    ∃ t, exec (.livePointStale a) s = .next t ∧ t.pt.liveMiss.get 0 a = s.ring.active.liveHold a ∧
      ((s.live (a / 512)).shared = false →
        t.pageRead (t.live (a / 512)) a = holdApply (s.pageRead (s.live (a / 512)) a) 4 none ∧
        (∀ x, x < imgAddr (s.live (a / 512)).ppn a ∨ imgAddr (s.live (a / 512)).ppn a + 2 ≤ x →
          t.mem.bytes.get 0 x = s.mem.bytes.get 0 x) ∧
        { t with pt := s.pt, pour := s.pour, mem := { t.mem with bytes := s.mem.bytes } } = s) ∧
      ((s.live (a / 512)).shared = true → ptQual (s.pageRead (s.live (a / 512)) a) ≠ 0xF →
        ptQual (s.pageRead (s.live (a / 512)) a) ≠ 8 → (t.live (a / 512)).shared = false))

/-- On a root, when the link leaves L0, or when HOST_WD cycles pass without a heartbeat, host loss is declared:
HOST_LOST is 1, status point HOST_LOSS counts, and no semaphore stays with the PCI Express port. A heartbeat
with BEAT = 1 restarts the count and, with the link up, ends the declaration, changing no other register.
(spec/02 R76, spec/16 R561, spec/02 R52) -/
def Obligations.HostLossIsDeclaredAndEnds : Prop :=
  (∀ s : State, s.awake = true → s.imgEn = true → s.on R.PCIE_STATUS.LINK_UP = true →
    s.on R.RING_PT_CTRL.HOST_LOST = false →
    ∃ t, exec .hostLinkLoss s = .next t ∧ t.on R.RING_PT_CTRL.HOST_LOST = true ∧
      t.on R.PCIE_STATUS.LINK_UP = false ∧
      t.stored 0x015 = BitVec.ofNat 16 (((s.stored 0x015).toNat % 4096 + 1) % 4096) ∧
      (∀ n, n < 32 → t.semHeld n = true → t.semOwner n ≠ 0x1000) ∧ t.mem = s.mem ∧ t.ring = s.ring) ∧
  (∀ s : State, s.awake = true → s.imgEn = true → s.rd R.RING_PT_CTRL.HOST_WD ≠ 0 →
    s.pt.beaten = false → s.rd R.RING_PT_CTRL.HOST_WD ≤ s.pt.beatCount + 1 → s.on R.RING_PT_CTRL.HOST_LOST = false →
    ∃ t, exec .hostWdExpire s = .next t ∧ t.on R.RING_PT_CTRL.HOST_LOST = true ∧
      t.stored 0x015 = BitVec.ofNat 16 (((s.stored 0x015).toNat % 4096 + 1) % 4096) ∧
      (∀ n, n < 32 → t.semHeld n = true → t.semOwner n ≠ 0x1000) ∧ t.mem = s.mem ∧ t.ring = s.ring) ∧
  (∀ (s : State) (who : Initiator) (v : Word), s.takes who R.RING_PT_HOSTBEAT.BEAT = true → v.getLsbD 0 = true →
    ∃ t, exec (.hostbeat who v) s = .next t ∧ t.answer.error = false ∧ t.pt.beatCount = 0 ∧ t.pt.beaten = true ∧
      (s.hostLinkUp = true → t.on R.RING_PT_CTRL.HOST_LOST = false) ∧
      (∀ a, a ≠ R.RING_PT_CTRL.HOST_LOST.addr 0 0 → t.reg a = s.reg a) ∧
      { t with regs := s.regs, pt := { t.pt with beatCount := s.pt.beatCount, beaten := s.pt.beaten }, answer := s.answer } = s)

/-- FORCE_SET of a configured application point makes its reads return FORCE_VALUE with the code of higher
precedence between the stored quality and FORCED, the stored point unchanged; FORCE_RELEASE returns reads to the
stored point; of a status point or a point with WCLASS = 0 both are refused and counted in status point
FORCE_REJ, and change nothing else. SNAP_REQ with no snapshot held requests a freeze, and is ignored while one
is held; SNAP_REL with the held SEQ releases the snapshot, whose reads then return 0xF000 and whose
CAD_SNAP_STATUS reads VALID, ABORT and CYCLE 0 and SEQ as before, and requests the next one if asked to; with
any other ACK_SEQ, or with no result held, it has no effect. A request with IMG_EN = 0 receives an error
response and changes no register outside the page's error capture, where that is where its error is recorded.
Nothing else changes but, on a release, pages and their marks. (spec/02 R45, spec/02 R40, spec/02 R65, spec/02
R70) -/
def Obligations.ForceAndSnapshotCommands : Prop :=
  (∀ (s : State) (who : Initiator) (i v : Nat), s.takes who R.RING_PT_FORCE.OP = true → 0x100 ≤ i → i < 4096 →
    aClass (s.attr i) ≠ 0 →
    ∃ t, exec (.forceSet who i v) s = .next t ∧ t.answer.error = false ∧ t.stored i = s.stored i ∧
      t.localPt i = mkPt (qMax (ptQual (s.stored i)) 1) (v % 4096) ∧ (∀ j, j ≠ i → t.attr j = s.attr j) ∧
      { t with pt := { t.pt with attr := s.pt.attr }, answer := s.answer } = s) ∧
  (∀ (s : State) (who : Initiator) (i : Nat), s.takes who R.RING_PT_FORCE.OP = true → 0x100 ≤ i → i < 4096 →
    aClass (s.attr i) ≠ 0 →
    ∃ t, exec (.forceRelease who i) s = .next t ∧ t.answer.error = false ∧ t.localPt i = s.stored i ∧
      (∀ j, j ≠ i → t.attr j = s.attr j) ∧
      { t with pt := { t.pt with attr := s.pt.attr }, answer := s.answer } = s) ∧
  (∀ (s : State) (who : Initiator) (i v : Nat) (c : Instr), s.takes who R.RING_PT_FORCE.OP = true → i < 4096 →
    (i < 0x100 ∨ aClass (s.attr i) = 0) → (c = .forceSet who i v ∨ c = .forceRelease who i) →
    ∃ t, exec c s = .next t ∧ t.answer.error = false ∧
      t.stored 0x014 = BitVec.ofNat 16 (((s.stored 0x014).toNat % 4096 + 1) % 4096) ∧
      (∀ j, j ≠ 0x014 → t.stored j = s.stored j) ∧ t.pt.attr = s.pt.attr ∧ t.regs = s.regs ∧ t.mem = s.mem ∧
      t.ring = s.ring ∧ t.cores = s.cores) ∧
  (∀ (s : State) (who : Initiator), s.takes who R.CAD_IMG_CTRL.SNAP_REQ = true → s.imgEn = true →
    s.on R.CAD_SNAP_STATUS.VALID = true →
    ∃ t, exec (.snapReq who) s = .next t ∧ t.answer.error = false ∧ { t with answer := s.answer } = s) ∧
  (∀ (s : State) (who : Initiator), s.takes who R.CAD_IMG_CTRL.SNAP_REQ = true → s.imgEn = false →
    ∃ t, exec (.snapReq who) s = .next t ∧ t.answer.error = true ∧ t.pt = s.pt ∧
      (errPage who 8 = 8 →
        (s.on R.ERR_CAPTURE.VALID 8 = false → stampOf who < 0x10000 → t.rd R.ERR_CAPTURE.CAUSE 8 = 10) ∧
        (∀ a, a ≠ regAt 8 0x1C → a ≠ regAt 8 0x20 → t.reg a = s.reg a))) ∧
  (∀ (s : State) (who : Initiator) (ack : Nat) (req : Bool), s.takes who R.CAD_IMG_CTRL.SNAP_REL = true →
    s.imgEn = true → ack < 256 → (s.on R.CAD_SNAP_STATUS.VALID = false ∨ ack ≠ s.rd R.CAD_SNAP_STATUS.SEQ) →
    ∃ t, exec (.snapRel who ack req) s = .next t ∧ t.answer.error = false ∧ { t with answer := s.answer } = s) ∧
  (∀ (s : State) (who : Initiator), s.takes who R.CAD_IMG_CTRL.SNAP_REQ = true → s.imgEn = true →
    s.on R.CAD_SNAP_STATUS.VALID = false →
    ∃ t, exec (.snapReq who) s = .next t ∧ t.answer.error = false ∧ t.pt.snapReq = true ∧
      { t with pt := { t.pt with snapReq := s.pt.snapReq }, answer := s.answer } = s) ∧
  (∀ (s : State) (who : Initiator) (ack : Nat) (req : Bool), s.takes who R.CAD_IMG_CTRL.SNAP_REL = true →
    (s.imgEn = true ∨ req = false) → s.on R.CAD_SNAP_STATUS.VALID = true → ack = s.rd R.CAD_SNAP_STATUS.SEQ →
    ∃ t, exec (.snapRel who ack req) s = .next t ∧ t.answer.error = false ∧
      t.on R.CAD_SNAP_STATUS.VALID = false ∧ t.on R.CAD_SNAP_STATUS.ABORT = false ∧
      t.rd R.CAD_SNAP_STATUS.CYCLE = 0 ∧ t.rd R.CAD_SNAP_STATUS.SEQ = ack ∧ t.pt.snapHeld = false ∧ (∀ a, t.snapReadPt a = 0xF000) ∧
      (req = true → t.pt.snapReq = true) ∧ (req = false → t.pt.snapReq = s.pt.snapReq) ∧ t.pt.store = s.pt.store ∧ t.ring = s.ring ∧ t.cores = s.cores)

/-- A corrected SRAM halfword or local point that waits is written back and no longer marked, and a write-back
that meets a write of port A at its halfword counts in SRAM_COLL_CNT.WW; the background test saves a region of a
selected bank, and gives it back with every byte as before, counting a failing region and giving it a free spare
that passed its test, the first before the second, or raising REPAIR_FULL where neither is free; a free page
that is not zeroed, up to where the fill that follows a power-up has come, is filled with zeros, and no byte
outside it changes; the scrub corrects an upset it finds in an allocated page and counts it, and poisons a page
in which it finds an uncorrectable one, an image page in its slots. (spec/15 R509, spec/15 R512, spec/15 R513,
spec/15 R514, spec/15 R517, spec/15 R518, spec/15 R521, spec/15 R527) -/
def Obligations.MemoryBackgroundWork : Prop :=
  (∀ (s : State) (a : Nat) (b : Bool), s.awake = true → a ∈ s.mem.writeBack → localAddr a = true →
    s.ptEcc (pointIndex a) = .single →
    ∃ t, exec (.eccWriteback ⟨a, b⟩) s = .next t ∧ t.ptEcc (pointIndex a) = .clean ∧ a ∉ t.mem.writeBack ∧
      (∀ i, i ≠ pointIndex a → t.ptEcc i = s.ptEcc i) ∧
      { t with pt := { t.pt with ecc := s.pt.ecc }, mem := { t.mem with writeBack := s.mem.writeBack } } = s) ∧
  (∀ (s : State) (a : Nat), s.awake = true → a ∈ s.mem.writeBack → localAddr a = false → s.eccAt a = .single →
    ∃ t, exec (.eccWriteback ⟨a, false⟩) s = .next t ∧ t.eccAt a = .clean ∧ a ∉ t.mem.writeBack ∧
      (∀ b, b ≠ a → t.eccAt b = s.eccAt b) ∧
      { t with mem := { t.mem with writeBack := s.mem.writeBack, ecc := s.mem.ecc } } = s) ∧
  (∀ (s : State) (a : Nat), s.awake = true → a ∈ s.mem.writeBack → s.eccAt a = .single → 0x10000000 ≤ a →
    a + 2 ≤ 0x10400000 →
    ∃ t, exec (.eccWriteback ⟨a, true⟩) s = .next t ∧ t.eccAt a = .clean ∧ a ∉ t.mem.writeBack ∧
      (∀ b, b ≠ a → t.eccAt b = s.eccAt b) ∧
      t.rd R.SRAM_COLL_CNT.WW = min (s.rd R.SRAM_COLL_CNT.WW + 1) R.SRAM_COLL_CNT.WW.max ∧
      (∀ b, b ≠ R.SRAM_COLL_CNT.WW.addr 0 0 → t.reg b = s.reg b) ∧ t.mem.bytes = s.mem.bytes) ∧
  (∀ s : State, s.awake = true → s.on R.SRAM_BT_CTRL.EN = true → s.mem.btSaved = none →
    s.rd R.SRAM_BT_MASK.BANKS ≠ 0 →
    ∃ t r, exec .btRegionStart s = .next t ∧ t.mem.btSaved = some r ∧ r < 16384 ∧
      bit (s.rd R.SRAM_BT_MASK.BANKS) (r / 512) = true ∧ t.rd R.SRAM_BT_STATUS.REGION = r ∧
      (∀ a, a ≠ R.SRAM_BT_STATUS.REGION.addr 0 0 → t.reg a = s.reg a) ∧
      { t with regs := s.regs, mem := { t.mem with btSaved := none } } = s) ∧
  (∀ (s : State) (r : Nat), s.awake = true → s.mem.btSaved = some r → r < 16384 →
    ∃ t, exec (.btRestore false) s = .next t ∧ t.mem.btSaved = none ∧
      t.rd R.SRAM_BT_STATUS.REGION = (nextRegion (s.rd R.SRAM_BT_MASK.BANKS) r).1 ∧
      (∀ a, a ≠ R.SRAM_BT_STATUS.REGION.addr 0 0 → t.reg a = s.reg a) ∧
      { t with regs := s.regs, mem := { t.mem with btSaved := some r } } = s) ∧
  (∀ (s : State) (r : Nat), s.awake = true → s.mem.btSaved = some r → r < 16384 →
    s.on R.SRAM_REPAIRb.V0 0 (r / 512) = false → s.spareGood (r / 512) 0 = true →
    ∃ t, exec (.btRestore true) s = .next t ∧ t.mem.btSaved = none ∧ t.rd R.SRAM_BT_FAIL.LAST = r ∧
      t.rd R.SRAM_BT_FAIL.COUNT = min (s.rd R.SRAM_BT_FAIL.COUNT + 1) R.SRAM_BT_FAIL.COUNT.max ∧
      t.on R.SRAM_REPAIRb.V0 0 (r / 512) = true ∧ t.rd R.SRAM_REPAIRb.REG0 0 (r / 512) = r % 512 ∧
      t.mem.bytes = s.mem.bytes ∧ t.mem.ecc = s.mem.ecc) ∧
  (∀ (s : State) (r : Nat), s.awake = true → s.mem.btSaved = some r → r < 16384 →
    (s.on R.SRAM_REPAIRb.V0 0 (r / 512) = true ∨ s.spareGood (r / 512) 0 = false) →
    s.on R.SRAM_REPAIRb.V1 0 (r / 512) = false → s.spareGood (r / 512) 1 = true →
    ∃ t, exec (.btRestore true) s = .next t ∧ t.mem.btSaved = none ∧ t.rd R.SRAM_BT_FAIL.LAST = r ∧
      t.on R.SRAM_REPAIRb.V1 0 (r / 512) = true ∧ t.rd R.SRAM_REPAIRb.REG1 0 (r / 512) = r % 512 ∧
      t.mem.bytes = s.mem.bytes ∧ t.mem.ecc = s.mem.ecc) ∧
  (∀ (s : State) (r : Nat), s.awake = true → s.mem.btSaved = some r → r < 16384 →
    (s.on R.SRAM_REPAIRb.V0 0 (r / 512) = true ∨ s.spareGood (r / 512) 0 = false) →
    (s.on R.SRAM_REPAIRb.V1 0 (r / 512) = true ∨ s.spareGood (r / 512) 1 = false) →
    ∃ t, exec (.btRestore true) s = .next t ∧ t.mem.btSaved = none ∧ t.rd R.SRAM_BT_FAIL.LAST = r ∧
      t.on R.sram_INT.REPAIR_FULL = true ∧ t.mem.bytes = s.mem.bytes ∧ t.mem.ecc = s.mem.ecc) ∧
  (∀ (s : State) (n : Nat), s.awake = true → n < 65536 → (s.page n).zeroed = false →
    ((s.page n).owner = .free ∨ (s.page n).owner = .carve) → n ≤ s.mem.filled →
    ∃ t, exec (.zeroFillPage n) s = .next t ∧ t.mem.filled = max s.mem.filled (n + 1) ∧ (t.page n).zeroed = true ∧ (t.page n).owner = (s.page n).owner ∧
      (∀ x, n * 0x400 ≤ x → x < n * 0x400 + 0x400 → t.mem.bytes.get 0 x = 0 ∧ t.eccAt x = .clean) ∧
      (∀ x, (x < n * 0x400 ∨ n * 0x400 + 0x400 ≤ x) → t.mem.bytes.get 0 x = s.mem.bytes.get 0 x) ∧
      (∀ m, m ≠ n → t.page m = s.page m) ∧ { t with mem := s.mem } = s) ∧
  (∀ (s : State) (a : Nat), s.awake = true → s.on R.CAD_SCRUB.EN = true → a < 0x4000000 →
    (s.page (a / 8 * 8 / 0x400)).owner ≠ .free → s.eccAt (a / 8 * 8) = .clean →
    (∃ t, exec (.scrubRead a .clean) s = .next t ∧ t.mem.scrubNext = a / 8 * 8 + 8 ∧
      { t with mem := { t.mem with scrubNext := s.mem.scrubNext } } = s) ∧
    (∃ t, exec (.scrubRead a .corrected) s = .next t ∧ t.mem.scrubNext = a / 8 * 8 + 8 ∧
      t.eccAt (a / 8 * 8) = .clean ∧
      t.rd R.CAD_ECC_CNT.CORR = min (s.rd R.CAD_ECC_CNT.CORR + 1) R.CAD_ECC_CNT.CORR.max ∧
      t.mem.bytes = s.mem.bytes) ∧
    ((s.page (a / 8 * 8 / 0x400)).owner ≠ .image → (s.page (a / 8 * 8 / 0x400)).owner ≠ .snap →
      ∃ t, exec (.scrubRead a .uncorrectable) s = .next t ∧ t.mem.scrubNext = a / 8 * 8 + 8 ∧
        (t.page (a / 8 * 8 / 0x400)).poison = true ∧
        t.rd R.CAD_ECC_CNT.UNCORR = min (s.rd R.CAD_ECC_CNT.UNCORR + 1) R.CAD_ECC_CNT.UNCORR.max ∧
        t.mem.bytes = s.mem.bytes)) ∧
  (∀ (s : State) (a : Nat), s.awake = true → s.on R.CAD_SCRUB.EN = true → a < 0x4000000 →
    ((s.page (a / 8 * 8 / 0x400)).owner = .image ∨ (s.page (a / 8 * 8 / 0x400)).owner = .snap) →
    ∃ t, exec (.scrubRead a .uncorrectable) s = .next t ∧ t.mem.scrubNext = a / 8 * 8 + 8 ∧
      (∀ n, (s.live n).backed = true → (s.live n).ppn = a / 8 * 8 / 0x400 → (t.live n).poison = true) ∧
      t.mem.bytes = s.mem.bytes)

/-- CAD_PAGE_POP answers with the number of a free page, which GEN then owns and which reads zero; CAD_CELL_POP
answers with the first free cell of a CELL page, or of a new one; a pop that the grant rule turns away answers
bit 31 and is counted in CAD_ALLOC_FAIL. Where a free page exists a grant takes a free one, a zeroed one if
there is any. CAD_PAGE_FREE and CAD_CELL_FREE give back a page of GEN and a used cell, the page of the last cell
when CELL holds more than its reservation; CARVE_CREATE gives a run of free pages to an empty carve-out and
CARVE_RELEASE returns them. The free count moves with the pages, and no page outside those named changes. Which
free page a grant takes is left open by R522 (log 2). (spec/15 R521, spec/15 R522, spec/15 R524, spec/15 R525,
spec/15 R526, spec/15 R527, spec/15 R528) -/
def Obligations.CaddyPagesAndCells : Prop :=
  (∀ (s : State) (who : Initiator) (n : Nat), s.answers 8 = true → s.mayTake .gen = true → s.choosePage = some n →
    ∃ t, exec (.cadPagePop who) s = .next t ∧ t.answer = ⟨BitVec.ofNat 64 n, false⟩ ∧
      (s.page n).owner = .free ∧ (t.page n).owner = .gen ∧
      t.rd R.CAD_FREE.FREE = s.rd R.CAD_FREE.FREE - 1 ∧
      (∀ x, n * 0x400 ≤ x → x < n * 0x400 + 0x400 → t.mem.bytes.get 0 x = 0) ∧
      (∀ x, (x < n * 0x400 ∨ n * 0x400 + 0x400 ≤ x) → t.mem.bytes.get 0 x = s.mem.bytes.get 0 x) ∧
      (∀ m, m ≠ n → t.page m = s.page m) ∧
      (∀ a, a ≠ R.CAD_FREE.FREE.addr 0 0 → a ≠ R.CAD_USED23.EVEN.addr 0 0 → t.reg a = s.reg a)) ∧
  (∀ (s : State) (m : Nat), m < 65536 → (s.page m).owner = .free →
    ∃ n, s.choosePage = some n ∧ n < 65536 ∧ (s.page n).owner = .free ∧
      ((s.page m).zeroed = true → (s.page n).zeroed = true)) ∧
  (∀ (s : State) (who : Initiator), s.answers 8 = true → s.mayTake .gen = false →
    ∃ t, exec (.cadPagePop who) s = .next t ∧ t.answer = ⟨BitVec.ofNat 64 (2 ^ 31), false⟩ ∧
      t.rd R.CAD_ALLOC_FAIL.GEN_CELL = min (s.rd R.CAD_ALLOC_FAIL.GEN_CELL + 1) R.CAD_ALLOC_FAIL.GEN_CELL.max ∧
      t.on R.caddy_INT.ALLOC_FAIL = true ∧ t.mem = s.mem) ∧
  (∀ (s : State) (who : Initiator), s.answers 8 = true → s.cellPage = none → s.mayTake .cell = false →
    ∃ t, exec (.cadCellPop who) s = .next t ∧ t.answer = ⟨BitVec.ofNat 64 (2 ^ 31), false⟩ ∧
      t.rd R.CAD_ALLOC_FAIL.GEN_CELL = min (s.rd R.CAD_ALLOC_FAIL.GEN_CELL + 1) R.CAD_ALLOC_FAIL.GEN_CELL.max ∧
      t.on R.caddy_INT.ALLOC_FAIL = true ∧ t.mem = s.mem) ∧
  (∀ (s : State) (who : Initiator) (n : Nat), s.answers 8 = true → s.cellPage = some n →
    ∃ t, exec (.cadCellPop who) s = .next t ∧
      t.answer = ⟨BitVec.ofNat 64 (4 * n + firstCell (s.page n).cfree), false⟩ ∧
      t.page n = { s.page n with cfree := (s.page n).cfree - 2 ^ firstCell (s.page n).cfree } ∧
      (∀ m, m ≠ n → t.page m = s.page m) ∧
      { t with mem := { t.mem with pages := s.mem.pages }, answer := s.answer } = s) ∧
  (∀ (s : State) (who : Initiator) (n : Nat), s.answers 8 = true → s.cellPage = none → s.mayTake .cell = true →
    s.choosePage = some n →
    ∃ t, exec (.cadCellPop who) s = .next t ∧ t.answer = ⟨BitVec.ofNat 64 (4 * n), false⟩ ∧
      (t.page n).owner = .cell ∧ (t.page n).cfree = 14 ∧ t.rd R.CAD_FREE.FREE = s.rd R.CAD_FREE.FREE - 1 ∧
      (∀ m, m ≠ n → t.page m = s.page m)) ∧
  (∀ (s : State) (who : Initiator) (n : Nat), s.takes who R.CAD_PAGE_FREE.NUM = true → n < 65536 →
    (s.page n).owner = .gen → s.rd R.CAD_FREE.FREE < 65536 →
    ∃ t, exec (.cadPageFree who n) s = .next t ∧ t.answer.error = false ∧ (t.page n).owner = .free ∧
      t.rd R.CAD_FREE.FREE = s.rd R.CAD_FREE.FREE + 1 ∧ (∀ m, m ≠ n → t.page m = s.page m) ∧
      t.mem.bytes = s.mem.bytes ∧
      { t with regs := s.regs, mem := { t.mem with pages := s.mem.pages }, answer := s.answer } = s) ∧
  (∀ (s : State) (who : Initiator) (c : Nat), s.takes who R.CAD_CELL_FREE.NUM = true → c < 2 ^ 18 →
    (s.page (c / 4)).owner = .cell → bit (s.page (c / 4)).cfree (c % 4) = false →
    ((s.page (c / 4)).cfree + 2 ^ (c % 4) ≠ 15 ∨ s.rd Pool.cell.used ≤ s.rd R.CAD_POOLp.MIN 0 3) →
    ∃ t, exec (.cadCellFree who c) s = .next t ∧ t.answer.error = false ∧
      t.page (c / 4) = { s.page (c / 4) with cfree := (s.page (c / 4)).cfree + 2 ^ (c % 4) } ∧
      (∀ m, m ≠ c / 4 → t.page m = s.page m) ∧
      { t with mem := { t.mem with pages := s.mem.pages }, answer := s.answer } = s) ∧
  (∀ (s : State) (who : Initiator) (c : Nat), s.takes who R.CAD_CELL_FREE.NUM = true → c < 2 ^ 18 →
    (s.page (c / 4)).owner = .cell → bit (s.page (c / 4)).cfree (c % 4) = false →
    (s.page (c / 4)).cfree + 2 ^ (c % 4) = 15 → s.rd R.CAD_POOLp.MIN 0 3 < s.rd Pool.cell.used →
    s.rd R.CAD_FREE.FREE < 65536 →
    ∃ t, exec (.cadCellFree who c) s = .next t ∧ t.answer.error = false ∧ (t.page (c / 4)).owner = .free ∧
      t.rd R.CAD_FREE.FREE = s.rd R.CAD_FREE.FREE + 1 ∧ (∀ m, m ≠ c / 4 → t.page m = s.page m) ∧
      t.mem.bytes = s.mem.bytes) ∧
  (∀ (s : State) (who : Initiator) (n pages : Nat), s.takes who R.CAD_CARVEn_PAGES.PAGES 0 n = true → n < 8 →
    s.rd R.CAD_CARVEn_PAGES.PAGES 0 n = 0 → 0 < pages → s.rd R.CAD_CARVEn_BASE.BASE 0 n + pages ≤ 65536 →
    (∀ i, i < pages → (s.page (s.rd R.CAD_CARVEn_BASE.BASE 0 n + i)).owner = .free) →
    ∃ t, exec (.carveCreate who n pages) s = .next t ∧ t.answer.error = false ∧
      t.rd R.CAD_CARVEn_PAGES.PAGES 0 n = pages ∧
      (∀ i, i < pages → (t.page (s.rd R.CAD_CARVEn_BASE.BASE 0 n + i)).owner = .carve ∧
        (t.page (s.rd R.CAD_CARVEn_BASE.BASE 0 n + i)).carve = n) ∧
      t.rd R.CAD_FREE.FREE = s.rd R.CAD_FREE.FREE - pages ∧ t.mem.bytes = s.mem.bytes) ∧
  (∀ (s : State) (who : Initiator) (n : Nat), s.takes who R.CAD_CARVEn_PAGES.PAGES 0 n = true → n < 8 →
    s.rd R.CAD_FREE.FREE + s.rd R.CAD_CARVEn_PAGES.PAGES 0 n ≤ 65536 →
    ∃ t, exec (.carveRelease who n) s = .next t ∧ t.answer.error = false ∧
      t.rd R.CAD_CARVEn_PAGES.PAGES 0 n = 0 ∧
      (∀ i, i < s.rd R.CAD_CARVEn_PAGES.PAGES 0 n →
        t.page (s.rd R.CAD_CARVEn_BASE.BASE 0 n + i) = { zeroed := false }) ∧
      t.rd R.CAD_FREE.FREE = s.rd R.CAD_FREE.FREE + s.rd R.CAD_CARVEn_PAGES.PAGES 0 n ∧
      t.mem.bytes = s.mem.bytes)

/-- A DOWN port of an enabled unit with the SerDes running goes to TRAIN at a detected signal; lock takes it to
HELLO and sends its HELLO; an attempt that times out changes rate once or goes DOWN; HELLO of a port of the
other name takes it to PROBE, marked where the rate is not the ring's, of the same name to DOWN with MISCABLE,
and a PARKED port whose ends belong to no running ring goes UP, also where an earlier HELLO had said that the
peer runs; ALIVE goes out from HELLO on. PROBE_SEND sends a PROBE frame, remembers its departure and, on an UP
port of a running cycle, begins the idle segment; PROBE_REQ is answered, and a frame with a bad CRC is counted
and from ERR_MAX on takes the port DOWN, where the count begins again; the first response of an unknown estimate
is kept, the second makes the estimate known, a later one moves the estimate by an eighth or is an outlier, and
the fourth outlier makes it unknown. The other port's link state and everything outside the ring, its registers
and its status points is as before. (spec/03 R81, spec/03 R84, spec/03 R85, spec/03 R86, spec/03 R87, spec/03
R88, spec/03 R89, spec/03 R90, spec/03 R111) -/
def Obligations.RingLinksTrainAndProbe : Prop :=
  (∀ (s : State) (p : RingPort), s.awake = true → s.link p = 0 → s.on R.RING_LNK_CTRL.EN = true → s.dom 3 = 3 →
    s.power.ringClk = true →
    ∃ t, exec (.linkSignalDetect p) s = .next t ∧ t.link p = 1 ∧ t.rd (fldProbes p) = 0 ∧
      (t.port p).fbAttempt = (s.on R.RING_LNK_CTRL.RATE || s.ring.fbOrder) ∧ t.link (other p) = s.link (other p) ∧
      { t with regs := s.regs, ring := s.ring } = s) ∧
  (∀ (s : State) (p : RingPort), s.awake = true → (s.link p = 1 ∨ s.link p = 2) →
    ∃ t, exec (.linkLock p) s = .next t ∧ t.link p = 3 ∧ t.on (fldFb p) = (s.port p).fbAttempt ∧
      t.link (other p) = s.link (other p) ∧
      t.out = (if s.rd R.WK_STATUS.STATE < 2 then .ordered p (.hello (s.ownHello p)) :: s.out else s.out) ∧
      { t with regs := s.regs, pt := s.pt, out := s.out } = s) ∧
  (∀ (s : State) (p : RingPort), s.awake = true → s.link p = 1 →
    ∃ t, exec (.rateAttemptTimeout p) s = .next t ∧ t.link (other p) = s.link (other p) ∧
      ((s.port p).fbAttempt = false → s.on R.RING_LNK_CTRL.FB_EN = true →
        t.link p = 1 ∧ (t.port p).fbAttempt = true) ∧
      (((s.port p).fbAttempt = true ∨ s.on R.RING_LNK_CTRL.FB_EN = false) → t.link p = 0) ∧
      { t with regs := s.regs, ring := s.ring } = s) ∧
  (∀ (s : State) (p : RingPort) (h : Hello), s.awake = true → s.link p = 3 →
    ∃ t, exec (.hello p h) s = .next t ∧ t.link (other p) = s.link (other p) ∧
      (h.port = p → t.link p = 0 ∧ t.on (fldMiscable p) = true) ∧
      (h.port ≠ p → t.link p = 4 ∧ t.on (fldMiscable p) = false ∧ (t.port p).peer = h.serial ∧
        (t.port p).peerRunning = h.running ∧ t.on (fldMismatch p) = s.rateMismatch p h)) ∧
  (∀ (s : State) (p : RingPort) (h : Hello), s.awake = true → s.link p = 6 →
    ∃ t, exec (.hello p h) s = .next t ∧ t.link (other p) = s.link (other p) ∧ (t.port p).peer = h.serial ∧
      (t.port p).peerRunning = h.running ∧
      t.link p = if s.running || h.running || s.on (fldMismatch p) then 6 else 5) ∧
  (∀ (s : State) (p : RingPort), s.awake = true → 3 ≤ s.link p → s.link p ≤ 6 → s.rd R.WK_STATUS.STATE < 2 →
    ∃ t, exec (.aliveSend p) s = .next t ∧ t.out = .ordered p .alive :: s.out ∧ { t with out := s.out } = s) ∧
  (∀ (s : State) (p : RingPort) (t1 : Nat), s.awake = true → 4 ≤ s.link p → s.link p ≤ 6 →
    s.rd R.WK_STATUS.STATE < 2 →
    ∃ t l, exec (.probeSend p t1) s = .next t ∧ t.out = .frame p l :: s.out ∧ l.length = 32 ∧ fKind l = 4 ∧
      (t.port p).probe = some ((s.port p).probeId, t1) ∧
      (t.port p).probeId = ((s.port p).probeId + 1) % 65536 ∧ t.link p = s.link p ∧
      (s.up p = true → s.cycling = true → t.rd R.RING_CYC_STATUS.SEG = 3) ∧
      { t with regs := s.regs, ring := s.ring, out := s.out } = s) ∧
  (∀ (s : State) (p : RingPort) (m : List Byte) (t2 t3 : Nat), s.awake = true → 4 ≤ s.link p →
    frameGood m = true → fKind m = 4 → s.rd R.WK_STATUS.STATE < 2 →
    ∃ t l, exec (.probeReq p m t2 t3) s = .next t ∧ .frame p l ∈ t.out ∧ fKind l = 5 ∧ be l 16 2 = be m 16 2 ∧
      (t.port p).heard = min 2 ((s.port p).heard + 1) ∧
      (s.link p ≠ 6 → t.out = .frame p l :: s.out ∧ { t with ring := s.ring, out := s.out } = s)) ∧
  (∀ (s : State) (p : RingPort) (m : List Byte) (t2 t3 : Nat), s.awake = true → 4 ≤ s.link p → s.link p ≤ 6 →
    frameGood m = false →
    ∃ t, exec (.probeReq p m t2 t3) s = .next t ∧ exec (.probeRsp p m t3) s = .next t ∧
      t.link (other p) = s.link (other p) ∧
      (s.rd R.RING_LNK_CTRL.ERR_MAX ≠ 0 → s.rd R.RING_LNK_CTRL.ERR_MAX ≤ (s.port p).badCrc + 1 →
        (t.port p).badCrc = 0 ∧ t.link p = 0) ∧
      ((s.rd R.RING_LNK_CTRL.ERR_MAX = 0 ∨ (s.port p).badCrc + 1 < s.rd R.RING_LNK_CTRL.ERR_MAX) →
        (t.port p).badCrc = (s.port p).badCrc + 1 ∧ t.link p = s.link p)) ∧
  (∀ (s : State) (p : RingPort) (l : List Byte) (id t1 t4 : Nat), s.awake = true → 4 ≤ s.link p →
    (s.port p).probe = some (id, t1) → frameGood l = true → fKind l = 5 → be l 16 2 = id →
    (s.on (fldKnown p) = false ∨ s.link p = 4) →
    ∃ t m, exec (.probeRsp p l t4) s = .next t ∧ (t.port p).probe = none ∧
      m = (roundDiv ((((t4 : Int) - t1) * 4096) - ((originAt l 32 : Int) - originAt l 18)) 8192).toNat ∧
      ((s.port p).first = none → t.rd (fldProbes p) = 1 ∧ (t.port p).first = some m ∧ t.link p = s.link p) ∧
      (∀ m1, (s.port p).first = some m1 → t.on (fldKnown p) = true ∧ (t.port p).est = 4 * (m1 + m) ∧
        t.rd (fldProbes p) = 2)) ∧
  (∀ (s : State) (p : RingPort) (l : List Byte) (id t1 t4 : Nat), s.awake = true → 5 ≤ s.link p →
    (s.port p).probe = some (id, t1) → frameGood l = true → fKind l = 5 → be l 16 2 = id →
    s.on (fldKnown p) = true →
    ∃ t d, exec (.probeRsp p l t4) s = .next t ∧ (t.port p).probe = none ∧ t.link p = s.link p ∧
      d = (8 * (roundDiv ((((t4 : Int) - t1) * 4096) - ((originAt l 32 : Int) - originAt l 18)) 8192).toNat : Int) -
        (s.port p).est ∧
      (d.natAbs ≤ 256 → t.on (fldKnown p) = true ∧ (t.port p).est = ((s.port p).est + roundDiv d 8).toNat ∧
        t.rd (fldOutliers p) = 0) ∧
      (256 < d.natAbs → (t.port p).est = (s.port p).est ∧
        t.on (fldKnown p) = decide (s.rd (fldOutliers p) + 1 < 4)))

/-- A port in HELLO, PROBE, UP or PARKED that receives no ALIVE, or too many bad sync headers, or whose estimate
stays unknown for 16 cycles, goes DOWN; DOWN_CNT and its status point count it; the other port keeps its state,
and every copy that arrived on the port or leaves through it is cut where it stands. RETRAIN takes its port DOWN
without counting; LINK_DETACH sets DETACH and changes no link: the unit reports it to every unit, with a code
that the spec leaves open, and every unit keeps the announcement until the master makes it (log 32). (spec/03
R84, spec/03 R86, spec/03 R91, spec/03 R115, spec/02 R52) -/
def Obligations.RingLinksFailAndRetrain : Prop :=
  (∀ (s : State) (p : RingPort) (c : Instr), s.awake = true → 3 ≤ s.link p → s.link p ≤ 6 →
    (c = .aliveTimeout p ∨ c = .syncHeaderErrors p ∨
      (c = .estimateUnknownLimit p ∧ s.on (fldKnown p) = false ∧ 16 ≤ (s.port p).unknownCycles)) →
    ∃ t, exec c s = .next t ∧ t.link p = 0 ∧ t.link (other p) = s.link (other p) ∧
      t.rd R.RING_LNK_STATUS.DOWN_CNT = min (s.rd R.RING_LNK_STATUS.DOWN_CNT + 1) 255 ∧
      t.stored 0x024 = BitVec.ofNat 16 (((s.stored 0x024).toNat % 4096 + 1) % 4096) ∧
      (t.port p).first = none ∧ (t.port p).probe = none ∧ t.mem = s.mem ∧ t.cores = s.cores ∧
      ((s.port .e).fwd = [] → (s.port .w).fwd = [] → t.out = s.out) ∧ (t.port p).fwd = [] ∧
      (t.port (other p)).fwd = ((s.port (other p)).fwd.filter fun x => x.1 != p) ∧
      (∀ x ∈ (s.port p).fwd, s.tick < x.2.1 → .cut x.1 (s.bytesOut x.2.2 (x.2.1 - s.tick)) ∈ t.out) ∧
      (∀ x ∈ (s.port (other p)).fwd, x.1 = p → s.tick < x.2.1 →
        .cut p (s.bytesOut x.2.2 (x.2.1 - s.tick)) ∈ t.out)) ∧
  (∀ (s : State) (who : Initiator), s.takes who R.RING_LNK_CTRL.RETRAIN_E = true → s.on R.RING_LNK_CTRL.EN = true →
    (∃ t, exec (.retrainE who) s = .next t ∧ t.answer.error = false ∧ t.link .e = 0 ∧ t.link .w = s.link .w ∧
      t.rd R.RING_LNK_STATUS.DOWN_CNT = s.rd R.RING_LNK_STATUS.DOWN_CNT ∧ t.mem = s.mem) ∧
    (∃ t, exec (.retrainW who) s = .next t ∧ t.answer.error = false ∧ t.link .w = 0 ∧ t.link .e = s.link .e ∧
      t.rd R.RING_LNK_STATUS.DOWN_CNT = s.rd R.RING_LNK_STATUS.DOWN_CNT ∧ t.mem = s.mem) ∧
    (∃ t, exec (.linkDetach who) s = .next t ∧ t.answer.error = false ∧ t.on R.RING_LNK_CTRL.DETACH = true ∧
      (∀ a, a ≠ R.RING_LNK_CTRL.EN.addr 0 0 → t.reg a = s.reg a) ∧
      t.ring.msgs = (if s.on R.RING_LNK_CTRL.DETACH || s.ring.addr == 0 then s.ring.msgs else s.ring.msgs ++
        [{ type := 1, dest := 0x7FF, body := beBytes 1 Config.detachCode.toNat ++ beBytes 2 0 ++ beBytes 5 0 }]) ∧
      t.ring.toAnnounce = (if s.on R.RING_LNK_CTRL.DETACH || s.ring.addr == 0
        then s.ring.toAnnounce else s.ring.toAnnounce ++ [⟨2, s.ring.addr, 0, 0, 0⟩]) ∧
      { t with regs := s.regs, ring := s.ring, answer := s.answer } = s))

/-- At the end of LISTEN with no higher key a unit becomes a starter and sends its COLDSTART frame; the timeout
sends it again; a higher key makes a starter a follower, a lower one is not passed on; once both copies of its
own frame are back the starter becomes cycle and time master, and with an estimate that has become unknown it
takes no role. RATE_ORDER takes both links DOWN for the fallback rate, RESTART leaves the running ring and
listens. The master sends pass 1, then 2 and 3 as each returns, begins again after a timeout, and sends a join
pass when one is due; pass 1 gives a unit its sticky address where no other unit claims it, pass 2 the lowest
free address where it has none, and a unit that pass 3 or 4 passes records HOPS and UNITS and is in the ring; a
join pass takes the unit's address out of the vacant set. A pass that returns to the master is complete, and the
third one ends the enumeration. (spec/03 R97, spec/03 R99, spec/03 R100, spec/03 R102, spec/03 R105, spec/03
R106, spec/03 R108, spec/03 R109, spec/03 R113, spec/03 R120, spec/01 R25) -/
def Obligations.ColdStartAndEnumeration : Prop :=
  (∀ s : State, s.awake = true → s.rd R.RING_ENUM_STATUS.STATE = 1 → s.on R.RING_COLD_CTRL.COLD_EN = true →
    s.bothKnown = true → s.ring.higherSeen = false → s.up .e = true → s.up .w = true → s.rd R.WK_STATUS.STATE < 2 →
    ∃ t, exec .listenEnd s = .next t ∧ t.rd R.RING_ENUM_STATUS.STATE = 2 ∧ t.ring.ownBack = 0 ∧
      t.out = .frame .w (s.coldFrame 1) :: .frame .e (s.coldFrame 0) :: s.out) ∧
  (∀ s : State, s.awake = true → s.rd R.RING_ENUM_STATUS.STATE = 2 → s.up .e = true → s.up .w = true →
    s.rd R.WK_STATUS.STATE < 2 →
    ∃ t, exec .coldstartTimeout s = .next t ∧ t.ring.ownBack = 0 ∧
      t.out = .frame .w (s.coldFrame 1) :: .frame .e (s.coldFrame 0) :: s.out ∧ t.regs = s.regs) ∧
  (∀ (s : State) (p : RingPort) (l : List Byte), s.awake = true → frameGood l = true → fKind l = 6 →
    s.running = false → s.rd R.RING_ENUM_STATUS.STATE = 2 →
    ∃ t, exec (.coldstart p l) s = .next t ∧
      (s.coldKey < be l 16 1 % 16 * 2 ^ 64 + be l 17 8 →
        t.rd R.RING_ENUM_STATUS.STATE = 3 ∧ t.ring.higherSeen = true) ∧
      (be l 16 1 % 16 * 2 ^ 64 + be l 17 8 < s.coldKey → t = s) ∧
      (be l 16 1 % 16 * 2 ^ 64 + be l 17 8 = s.coldKey → (s.ring.ownBack ||| 2 ^ fDir l) = 3 → s.bothKnown = true →
        t.ring.cycleMaster = true ∧ t.ring.timeMaster = true ∧ t.rd R.RING_ENUM_STATUS.STATE = 4) ∧
      (be l 16 1 % 16 * 2 ^ 64 + be l 17 8 = s.coldKey → s.bothKnown = false →
        t.ring.cycleMaster = s.ring.cycleMaster ∧ t.ring.timeMaster = s.ring.timeMaster ∧ t.regs = s.regs)) ∧
  (∀ s : State, s.awake = true → s.ring.fbOrder = false →
    ∃ t, exec .rateOrder s = .next t ∧ t.ring.fbOrder = true ∧ t.link .e = 0 ∧ t.link .w = 0) ∧
  (∀ (s : State) (who : Initiator), s.takes who R.RING_COLD_CTRL.RESTART = true →
    ∃ t, exec (.restart who) s = .next t ∧ t.answer.error = false ∧ t.rd R.RING_ENUM_STATUS.STATE = 1 ∧
      t.ring.cycleMaster = false ∧ t.ring.timeMaster = false ∧ t.cycling = false ∧ t.ring.addr = s.ring.addr ∧
      t.mem = s.mem) ∧
  (∀ s : State, s.awake = true → s.ring.cycleMaster = true → s.rd R.RING_ENUM_STATUS.STATE = 4 →
    s.up .e = true → s.up .w = true →
    (s.ring.pass = 0 → ∃ t, exec .enumPassStart s = .next t ∧ t.ring.pass = 1 ∧ t.ring.passBack = false ∧
      t.ring.addr = (if 1 ≤ s.rd R.RING_STICKY.ADDR ∧ s.rd R.RING_STICKY.ADDR ≤ 2046 then s.rd R.RING_STICKY.ADDR
        else 0)) ∧
    ((s.ring.pass = 1 ∨ s.ring.pass = 2) → s.ring.passBack = true →
      ∃ t, exec .enumPassStart s = .next t ∧ t.ring.pass = s.ring.pass + 1 ∧ t.ring.passBack = false) ∧
    (s.ring.pass ≠ 0 → s.ring.passBack = false →
      ∃ t, exec .enumPassTimeout s = .next t ∧ t.ring.pass = 1 ∧ t.ring.passBack = false)) ∧
  (∀ s : State, s.awake = true → s.ring.cycleMaster = true → s.ring.joinDue = true → s.cycling = true →
    ∃ t, exec .joinEnumSend s = .next t ∧ t.ring.joinDue = false ∧ t.ring.pass = 4 ∧ t.ring.passBack = false) ∧
  (∀ (s : State) (p : RingPort) (l : List Byte), s.awake = true → s.ring.cycleMaster = false → l.length = 544 →
    fLen l = 544 → fKind l = 7 → fReflected l = false → be l 16 1 = 3 →
    ∃ t, exec (.enum p l) s = .next t ∧ t.rd R.RING_ENUM_STATUS.STATE = 5 ∧
      t.rd R.RING_ENUM_STATUS.HOPS = be l 18 2 % 2048 ∧ t.rd R.RING_ENUM_STATUS.UNITS = be l 20 2 % 2048 ∧
      t.ring.addr = s.ring.addr) ∧
  (∀ (s : State) (p : RingPort) (l : List Byte), s.awake = true → s.ring.cycleMaster = false → enumGood l = true →
    fReflected l = false →
    (be l 16 1 = 1 → ∃ t, exec (.enum p l) s = .next t ∧
      t.ring.addr = (if 1 ≤ s.rd R.RING_STICKY.ADDR ∧ s.rd R.RING_STICKY.ADDR ≤ 2046 ∧
        (bitmapAt l 28).contains (s.rd R.RING_STICKY.ADDR) = false then s.rd R.RING_STICKY.ADDR else 0) ∧
      t.on R.RING_ENUM_STATUS.CONFLICT = (decide (1 ≤ s.rd R.RING_STICKY.ADDR) &&
        decide (s.rd R.RING_STICKY.ADDR ≤ 2046) && (bitmapAt l 28).contains (s.rd R.RING_STICKY.ADDR))) ∧
    (be l 16 1 = 2 → ∃ t, exec (.enum p l) s = .next t ∧
      t.ring.addr = if s.ring.addr = 0 then lowestFree (be l 22 2) (bitmapAt l 28) else s.ring.addr) ∧
    (be l 16 1 = 4 → ∃ t, exec (.enum p l) s = .next t ∧ t.rd R.RING_ENUM_STATUS.STATE = 5 ∧
      t.rd R.RING_ENUM_STATUS.HOPS = be l 18 2 % 2048 ∧ t.rd R.RING_ENUM_STATUS.UNITS = be l 20 2 % 2048 ∧
      t.ring.vacant = (bitmapAt l 284).filter (· != t.ring.addr) ∧
      (s.ring.addr ≠ 0 → t.ring.addr = s.ring.addr) ∧
      (s.ring.addr = 0 → 1 ≤ s.rd R.RING_STICKY.ADDR → s.rd R.RING_STICKY.ADDR ≤ 2046 →
        ((bitmapAt l 28).contains (s.rd R.RING_STICKY.ADDR) = false ∨
          (bitmapAt l 284).contains (s.rd R.RING_STICKY.ADDR) = true) →
        t.ring.addr = s.rd R.RING_STICKY.ADDR))) ∧
  (∀ (s : State) (l : List Byte), s.awake = true → s.ring.cycleMaster = true → enumGood l = true →
    be l 16 1 = s.ring.pass →
    ∃ t, exec (.enum .w l) s = .next t ∧ t.ring.confirmed = bitmapAt l 28 ∧ t.ring.vacant = bitmapAt l 284 ∧
      (s.ring.pass = 3 → t.ring.pass = 0 ∧ t.rd R.RING_ENUM_STATUS.STATE = 5) ∧
      (s.ring.pass = 4 → t.ring.pass = 0) ∧
      (s.ring.pass ≠ 3 → s.ring.pass ≠ 4 → t.ring.passBack = true ∧ t.ring.pass = s.ring.pass))

/-- An access in a remote-unit window whose unit is in the ring, on a running ring, becomes a request for that
unit and far address with the next tag, and changes nothing else; through a window that leads to no such unit,
or while no ring runs, it receives an error response, with CAUSE 10 and 7. A request that waits after a RETRY is
issued again; a request at its age limit is removed, counted as a timeout, and answered with an error response
to the core or mover that waits for it, and one below the limit ages while no ring runs. After the last two
commands the incoming requests that wait are performed as far as the buffers allow. (spec/03 R122, spec/03 R123,
spec/03 R124, spec/03 R125, spec/03 R126, spec/03 R128) -/
def Obligations.BridgeAccessesEnd : Prop :=
  (∀ (s : State) (who : Initiator) (a size u far : Nat) (v : Option Nat), s.awake = true →
    rangeOf a = some .remote → s.bridgeTarget a = some (u, far) → s.cycling = true →
    (waits who = true → s.takeDone who a v.isSome = none ∧ s.outstanding who a v.isSome = false) →
    ∃ t r, exec (.bridgeAccess who a size v) s = .next t ∧ r ∈ t.ring.bridge ∧ r.tag = s.ring.nextTag ∧
      r.unit = u ∧ r.far = far ∧ r.near = a ∧ r.write = v.isSome ∧ r.data = v.getD 0 ∧ r.size = size ∧
      r.reg = regClass far ∧ r.stall = waits who ∧ t.ring.nextTag = (s.ring.nextTag + 1) % 65536 ∧
      { t with ring := s.ring } = s) ∧
  (∀ (s : State) (who : Initiator) (a size : Nat) (v : Option Nat), s.awake = true →
    rangeOf a = some .remote → (s.cycling = false ∨ s.bridgeTarget a = none) →
    (waits who = true → s.takeDone who a v.isSome = none ∧ s.outstanding who a v.isSome = false) →
    ∃ t, exec (.bridgeAccess who a size v) s = .next t ∧ t.answer.error = true ∧
      (errPage who 18 = 18 → s.on R.ERR_CAPTURE.VALID 18 = false → stampOf who < 0x10000 →
        t.rd R.ERR_CAPTURE.CAUSE 18 = if s.cycling then 10 else 7) ∧ t.ring = s.ring ∧ t.mem = s.mem) ∧
  (∀ (s : State) (tag : Nat) (r : BridgeReq), s.awake = true → s.bridgeReq tag = some r → r.backoff = true →
    ∃ (t : State) (q : BridgeReq), exec (.bridgeReissue tag) s = .next t.serveIn ∧ q ∈ t.ring.bridge ∧ q.tag = tag ∧ q.unit = r.unit ∧
      q.far = r.far ∧ q.backoff = false ∧ { t with ring := s.ring } = s) ∧
  (∀ (s : State) (tag : Nat) (r : BridgeReq), s.awake = true → s.bridgeReq tag = some r → (r.backoff = false ∨ r.who = .pcie) →
    max 1 (s.rd R.BR_CTRL.TIMEOUT) ≤ (if s.cycling then r.age else r.age + 1) →
    ∃ t : State, exec (.bridgeTimeout tag) s = .next t.serveIn ∧ t.bridgeReq tag = none ∧
      t.rd R.BR_STATUS.TIMEOUTS = min (s.rd R.BR_STATUS.TIMEOUTS + 1) R.BR_STATUS.TIMEOUTS.max ∧
      (r.stall = true → t.answer.error = true ∧ ⟨r.who, r.near, r.write, none⟩ ∈ t.ring.done)) ∧
  (∀ (s : State) (tag : Nat) (r : BridgeReq), s.awake = true → s.bridgeReq tag = some r → s.cycling = false →
    r.age + 1 < max 1 (s.rd R.BR_CTRL.TIMEOUT) →
    ∃ (t : State) (q : BridgeReq), exec (.bridgeTimeout tag) s = .next t.serveIn ∧ q ∈ t.ring.bridge ∧ q = { r with age := r.age + 1 } ∧
      { t with ring := s.ring } = s)

/-- A boundary of a running cycle, once local time has reached the cycle's end, counts CYCLE, begins the next
cycle at that time and forgets what the cycle knew of its frames; the first boundary of an enumerated ring at
its master begins the first cycle now, without counting; before its time, or on a stopped ring without a master,
a boundary changes nothing. At a unit that does not launch, the first valid through-frame copy sets CYCLE and is
accepted, a further copy of it changes neither, and one with a bad CRC is not accepted; at the launching master
the first copy of its own frame to return is taken and sent no further, another launcher's frame of better rank
makes it yield, and one of worse or equal rank is discarded; a port that is neither UP nor PARKED receives
nothing, and a PARKED one of a unit that joins goes UP. The points of a due slot are read, with their errors
counted; its static frame carries the points read for it, out of both ports, and a slot that is not due, or not
read, sends nothing; a static frame of another unit of this cycle within its window is accepted once, counted at
the edge beyond G, and discarded and counted beyond 2G; the unit's own frame ends here, and one of no slot is
not accepted. At the end of the static segment the dynamic one begins; the unit's dynamic frame takes its
messages and copies and uses up its minislots; a dynamic frame of another unit is accepted once and a REPORT in
it is kept by every unit, and one beyond 2G of its minislot is discarded. After a dynamic frame the incoming
bridge requests that wait are performed as far as the buffers allow. (spec/04 R129, spec/04 R130, spec/04 R137,
spec/04 R141, spec/04 R144, spec/04 R145, spec/04 R146, spec/04 R147, spec/04 R153, spec/04 R156, spec/01 R27,
spec/06 R231) -/
def Obligations.RingFramesAreSentAndAccepted : Prop :=
  (∀ s : State, s.awake = true → s.cycling = true → s.reached s.time.cycNext = true →
    ∃ t, exec .cycleBoundary s = .next t ∧ t.rd R.RING_CYC_NUM.CYCLE = (s.rd R.RING_CYC_NUM.CYCLE + 1) % 2 ^ 32 ∧
      t.time.cycStart = s.time.cycNext ∧
      t.ring.accepted = [] ∧ t.ring.twice = [] ∧ t.ring.staticRead = none ∧ t.time.firedCycle = 0) ∧
  (∀ s : State, s.awake = true → s.cycling = false → s.ring.cycleMaster = true → s.rd R.RING_ENUM_STATUS.STATE = 5 →
    ∃ t, exec .cycleBoundary s = .next t ∧ t.rd R.RING_CYC_NUM.CYCLE = s.rd R.RING_CYC_NUM.CYCLE ∧
      t.time.cycStart = s.now ∧ s.now < t.time.cycNext ∧ (s.ring.detachAt = none → t.rd R.RING_CYC_STATUS.SEG = 0) ∧
      t.ring.accepted = [] ∧ t.ring.twice = [] ∧ t.ring.staticRead = none ∧ t.time.firedCycle = 0) ∧
  (∀ s : State, s.awake = true → ((s.cycling = true ∧ s.reached s.time.cycNext = false) ∨
      (s.cycling = false ∧ (s.ring.cycleMaster = false ∨ s.rd R.RING_ENUM_STATUS.STATE ≠ 5))) →
    exec .cycleBoundary s = .next s) ∧
  (∀ (s : State) (p : RingPort) (l : List Byte) (n : Nat), s.awake = true → s.up p = true → frameGood l = true →
    fKind l = 1 → s.authentic l = true → fSrc l ≠ s.ring.addr → s.ring.cycleMaster = false →
    s.ring.accepted.contains ⟨fSrc l, 1, fSeq l, fCycle l⟩ = false →
    ∃ t, exec (.throughFrameReceive p l n) s = .next t ∧ t.rd R.RING_CYC_NUM.CYCLE = fCycle l ∧
      t.ring.thruSeen = true ∧ (⟨fSrc l, 1, fSeq l, fCycle l⟩ : FrameId) ∈ t.ring.accepted) ∧
  (∀ (s : State) (p : RingPort) (l : List Byte) (n : Nat), s.awake = true → s.up p = true → frameGood l = true →
    fKind l = 1 → s.authentic l = true → fSrc l ≠ s.ring.addr → s.ring.cycleMaster = false →
    s.ring.accepted.contains ⟨fSrc l, 1, fSeq l, fCycle l⟩ = true →
    ∃ t, exec (.throughFrameReceive p l n) s = .next t ∧ t.rd R.RING_CYC_NUM.CYCLE = s.rd R.RING_CYC_NUM.CYCLE ∧
      t.ring.accepted = s.ring.accepted ∧ (⟨fSrc l, 1, fSeq l, fCycle l⟩ : FrameId) ∈ t.ring.twice) ∧
  (∀ (s : State) (p : RingPort) (l : List Byte) (n : Nat), s.awake = true → s.up p = true → frameGood l = false →
    fSrc l ≠ s.ring.addr → s.ring.cycleMaster = false →
    ∃ t, exec (.throughFrameReceive p l n) s = .next t ∧ t.ring.accepted = s.ring.accepted ∧
      t.rd R.RING_CYC_NUM.CYCLE = s.rd R.RING_CYC_NUM.CYCLE ∧ t.ring.thruSeen = s.ring.thruSeen) ∧
  (∀ (s : State) (p : RingPort) (l : List Byte) (n : Nat), s.awake = true → s.up p = true → frameGood l = true →
    fKind l = 1 → s.authentic l = true → fSrc l = s.ring.addr → s.ring.addr ≠ 0 →
    ∃ t, exec (.throughFrameReceive p l n) s = .next t ∧ t.ring.accepted = s.ring.accepted ∧
      t.rd R.RING_CYC_NUM.CYCLE = s.rd R.RING_CYC_NUM.CYCLE ∧
      t.ring.thruSeen = (s.ring.thruSeen || s.ring.cycleMaster)) ∧
  (∀ (s : State) (p : RingPort) (l : List Byte) (n : Nat), s.awake = true → s.up p = true → frameGood l = true →
    fKind l = 1 → s.authentic l = true → fSrc l ≠ s.ring.addr → s.ring.cycleMaster = true →
    ∃ t, exec (.throughFrameReceive p l n) s = .next t ∧ t.ring.accepted = s.ring.accepted ∧
      t.rd R.RING_CYC_NUM.CYCLE = s.rd R.RING_CYC_NUM.CYCLE ∧ t.ring.cycleMaster = true ∧
      t.ring.yieldRoles = (s.ring.yieldRoles ||
        decide (s.ring.active.rank (fSrc l) < s.ring.active.rank s.ring.addr)) ∧
      (s.ring.active.rank s.ring.addr ≤ s.ring.active.rank (fSrc l) → t.out = s.out ∧
        (s.on R.TRC_CTRL.EN = true →
          t.rd R.TRC_ALARMS.COUNT = min (s.rd R.TRC_ALARMS.COUNT + 1) R.TRC_ALARMS.COUNT.max))) ∧
  (∀ (s : State) (p : RingPort) (l : List Byte) (n : Nat), s.awake = true → s.link p ≠ 5 → s.link p ≠ 6 →
    exec (.throughFrameReceive p l n) s = .next s) ∧
  (∀ (s : State) (p : RingPort) (l : List Byte) (n : Nat), s.awake = true → s.link p = 6 → s.on (fldKnown p) = true →
    s.on (fldMismatch p) = false → s.cycling = false → s.orphan = false → s.ring.cycleMaster = false →
    frameGood l = true → fKind l = 1 → s.authentic l = true → fSrc l ≠ s.ring.addr →
    ∃ t, exec (.throughFrameReceive p l n) s = .next t ∧ t.link p = 5) ∧
  (∀ (s : State) (k : Nat) (e : SlotEntry), s.awake = true → s.dueSlot k = some e →
    ∃ t pts, exec (.staticFrameRead k) s = .next t ∧ t.ring.staticRead = some (k, pts) ∧
      pts.length = (s.ring.active.txFrames.getD k []).length + s.mirrorList.length ∧
      t.ring.accepted = s.ring.accepted ∧
      ((∀ a ∈ (s.ring.active.txFrames.getD k []) ++ s.mirrorList, s.outCheck a = (s, true)) →
        pts = ((s.ring.active.txFrames.getD k []) ++ s.mirrorList).map s.pointOut ∧
        { t with ring := { t.ring with staticRead := s.ring.staticRead } } = s)) ∧
  (∀ (s : State) (k : Nat), s.awake = true → s.dueSlot k = none →
    exec (.staticFrameRead k) s = .next s ∧ exec (.staticFrameSend k) s = .next s) ∧
  (∀ (s : State) (k : Nat) (e : SlotEntry) (pts : List Half), s.awake = true → s.dueSlot k = some e →
    s.ring.staticRead = some (k, pts) → s.up .e = true → s.up .w = true → s.rd R.WK_STATUS.STATE < 2 →
    ∃ t l m, exec (.staticFrameSend k) s = .next t ∧ t.out = .frame .w m :: .frame .e l :: s.out ∧
      fKind l = 2 ∧ fKind m = 2 ∧ t.ring.staticRead = none ∧ t.ring.talking = true ∧
      { t with ring := s.ring, out := s.out } = s) ∧
  (∀ (s : State) (k : Nat), s.awake = true → s.ring.staticRead = none → exec (.staticFrameSend k) s = .next s) ∧
  (∀ (s : State) (p : RingPort) (l : List Byte) (n : Nat), s.awake = true → s.up p = true → frameGood l = true →
    fKind l = 2 → s.authentic l = true →
    (fSrc l = s.ring.addr → s.ring.addr ≠ 0 → exec (.staticFrameReceive p l n) s = .next s) ∧
    (fSrc l ≠ s.ring.addr → (s.ring.active.ownSlots (fSrc l))[fSeq l]? = none →
      ∃ t, exec (.staticFrameReceive p l n) s = .next t ∧ t.ring.accepted = s.ring.accepted ∧ t.regs = s.regs ∧
        t.mem = s.mem)) ∧
  (∀ (s : State) (p : RingPort) (l : List Byte) (n : Nat) (e : SlotEntry), s.awake = true → s.up p = true →
    frameGood l = true → fKind l = 2 → s.authentic l = true → fSrc l ≠ s.ring.addr →
    s.cycling = true → fCycle l = s.rd R.RING_CYC_NUM.CYCLE → s.ring.haveActive = true → (s.ring.active.ownSlots (fSrc l))[fSeq l]? = some e → e.active (fCycle l) = true →
    s.ring.accepted.contains ⟨fSrc l, 2, fSeq l, fCycle l⟩ = true →
    (deviation n (s.ring.active.thTicks + e.slot * s.ring.active.slotTicks) (fAcc (s.arrived p l))).natAbs ≤
      s.ring.active.guardTicks * 80 →
    ∃ t, exec (.staticFrameReceive p l n) s = .next t ∧ t.ring.accepted = s.ring.accepted ∧
      (⟨fSrc l, 2, fSeq l, fCycle l⟩ : FrameId) ∈ t.ring.twice ∧ t.mem = s.mem) ∧
  (∀ (s : State) (p : RingPort) (l : List Byte) (n : Nat) (e : SlotEntry), s.awake = true → s.up p = true →
    frameGood l = true → fKind l = 2 → s.authentic l = true → fSrc l ≠ s.ring.addr →
    s.cycling = true → fCycle l = s.rd R.RING_CYC_NUM.CYCLE → s.ring.haveActive = true → (s.ring.active.ownSlots (fSrc l))[fSeq l]? = some e → e.active (fCycle l) = true →
    s.ring.accepted.contains ⟨fSrc l, 2, fSeq l, fCycle l⟩ = false →
    (deviation n (s.ring.active.thTicks + e.slot * s.ring.active.slotTicks) (fAcc (s.arrived p l))).natAbs ≤
      s.ring.active.guardTicks * 80 →
    ∃ t, exec (.staticFrameReceive p l n) s = .next t ∧ (⟨fSrc l, 2, fSeq l, fCycle l⟩ : FrameId) ∈ t.ring.accepted ∧
      t.rd R.RING_EDGE_CNT.EDGE = (if s.ring.active.guardTicks * 40 <
          (deviation n (s.ring.active.thTicks + e.slot * s.ring.active.slotTicks) (fAcc (s.arrived p l))).natAbs
        then min (s.rd R.RING_EDGE_CNT.EDGE + 1) R.RING_EDGE_CNT.EDGE.max else s.rd R.RING_EDGE_CNT.EDGE)) ∧
  (∀ (s : State) (p : RingPort) (l : List Byte) (n : Nat) (e : SlotEntry), s.awake = true → s.up p = true →
    frameGood l = true → fKind l = 2 → s.authentic l = true → fSrc l ≠ s.ring.addr →
    s.cycling = true → fCycle l = s.rd R.RING_CYC_NUM.CYCLE → s.ring.haveActive = true →
    (s.ring.active.ownSlots (fSrc l))[fSeq l]? = some e → e.active (fCycle l) = true →
    s.ring.active.guardTicks * 80 <
      (deviation n (s.ring.active.thTicks + e.slot * s.ring.active.slotTicks) (fAcc (s.arrived p l))).natAbs →
    ∃ t, exec (.staticFrameReceive p l n) s = .next t ∧ t.ring.accepted = s.ring.accepted ∧
      t.rd R.RING_EDGE_CNT.DISCARD = min (s.rd R.RING_EDGE_CNT.DISCARD + 1) R.RING_EDGE_CNT.DISCARD.max ∧
      t.mem = s.mem) ∧
  (∀ s : State, s.awake = true → s.rd R.RING_CYC_STATUS.SEG = 1 →
    ∃ t, exec .staticSegmentEnd s = .next t ∧ t.rd R.RING_CYC_STATUS.SEG = 2 ∧
      (∀ a, a ≠ R.RING_CYC_STATUS.SEG.addr 0 0 → t.reg a = s.reg a) ∧
      { t with regs := s.regs, pour := s.pour } = s) ∧
  (∀ (s : State) (st r : Nat), s.awake = true → s.ring.minislot = some (st, r) → s.rd R.RING_CYC_STATUS.SEG = 2 →
    s.maySend = true →
    ((s.frameLoad (s.dynBytes r)).1 ≠ [] ∨ (s.frameLoad (s.dynBytes r)).2 ≠ [] ∨
      s.traceCount (s.dynBytes r - s.loadBytes (s.frameLoad (s.dynBytes r))) ≠ 0) → s.up .e = true → s.up .w = true →
    s.rd R.WK_STATUS.STATE < 2 →
    ∃ (t : State) (l m : List Byte), exec .dynamicFrameSend s = .next t.serveIn ∧ t.ring.minislot = none ∧
      t.out = .frame .w m :: .frame .e l :: s.out ∧ fKind l = 3 ∧ fKind m = 3 ∧
      t.ring.msgs = s.ring.msgs.drop (fitMsgs (s.dynBytes r) s.ring.msgs).length) ∧
  (∀ s : State, s.awake = true → s.ring.minislot = none → exec .dynamicFrameSend s = .next s) ∧
  (∀ (s : State) (p : RingPort) (l : List Byte) (n : Nat) (m : DynMsg), s.awake = true → s.up p = true →
    frameGood l = true → fKind l = 3 → s.authentic l = true → fSrc l ≠ s.ring.addr →
    fCycle l = s.rd R.RING_CYC_NUM.CYCLE →
    s.dynLate (fSrc l) n (fAcc (s.arrived p l)) = false →
    s.ring.accepted.contains ⟨fSrc l, 3, fSeq l, fCycle l⟩ = false →
    parseMsgs (be l 16 2) ((bodyOf l).drop 24) = [m] → m.type = 1 → m.dest = 0x7FF → be m.body 0 1 = 1 →
    ∃ t : State, exec (.dynamicFrameReceive p l n) s = .next t.serveIn.syncRing ∧
      (⟨fSrc l, 3, fSeq l, fCycle l⟩ : FrameId) ∈ t.ring.accepted ∧ fSrc l ∈ t.ring.parked) ∧
  (∀ (s : State) (p : RingPort) (l : List Byte) (n : Nat), s.awake = true → s.up p = true →
    frameGood l = true → fKind l = 3 → s.authentic l = true → fSrc l ≠ s.ring.addr →
    fCycle l = s.rd R.RING_CYC_NUM.CYCLE → s.dynLate (fSrc l) n (fAcc (s.arrived p l)) = false →
    s.ring.accepted.contains ⟨fSrc l, 3, fSeq l, fCycle l⟩ = true →
    ∃ t, exec (.dynamicFrameReceive p l n) s = .next t ∧ t.ring.accepted = s.ring.accepted ∧
      (⟨fSrc l, 3, fSeq l, fCycle l⟩ : FrameId) ∈ t.ring.twice ∧ t.regs = s.regs ∧ t.mem = s.mem) ∧
  (∀ (s : State) (p : RingPort) (l : List Byte) (n : Nat), s.awake = true → s.up p = true →
    frameGood l = true → fKind l = 3 → s.authentic l = true → fSrc l ≠ s.ring.addr →
    fCycle l = s.rd R.RING_CYC_NUM.CYCLE →
    s.dynLate (fSrc l) n (fAcc (s.arrived p l)) = true →
    ∃ t, exec (.dynamicFrameReceive p l n) s = .next t ∧ t.ring.accepted = s.ring.accepted ∧
      t.rd R.RING_EDGE_CNT.DISCARD = min (s.rd R.RING_EDGE_CNT.DISCARD + 1) R.RING_EDGE_CNT.DISCARD.max ∧
      t.mem = s.mem)

/-- TS_LOAD of a set that is neither active nor counted down copies its image, with whatever a read of the
memory there records, and makes it LOADING; of another set it records ERR = 8 and loads nothing; the end of the
load makes it LOADED where every check of R161 passes and ERROR otherwise; TS_DROP makes it EMPTY. MC_START on a
cycle master with a loaded set, no fault, no announced splice and no countdown requests the mode change; where
one of these fails it is refused with its REASON, and on another unit it requests nothing. Every other set keeps
its state. (spec/04 R160, spec/04 R161, spec/04 R162) -/
def Obligations.TableSetsLoadAndModesChange : Prop :=
  (∀ (s : State) (who : Initiator) (n : Nat), s.takes who R.RING_TS_LOAD.START = true → n < 8 → s.setBusy n = false →
    (∃ t, exec (.tsLoad who n) s = .next t ∧ t.answer.error = false ∧ t.setState n = 1 ∧
      t.ring.sets.get [] n = (s.wr R.RING_TS_LOAD.SET n).copySet.2 ∧
      (∀ m, m < 8 → m ≠ n → t.setState m = s.setState m) ∧
      (let u := (s.wr R.RING_TS_LOAD.SET n).copySet.1
       { t with regs := u.regs, ring := { t.ring with sets := u.ring.sets }, answer := u.answer } = u)) ∧
    (∃ t, exec (.tsDrop who n) s = .next t ∧ t.answer.error = false ∧ t.setState n = 0 ∧
      t.ring.sets.get [] n = [] ∧ (∀ m, m < 8 → m ≠ n → t.setState m = s.setState m) ∧
      { t with regs := s.regs, ring := { t.ring with sets := s.ring.sets }, answer := s.answer } = s)) ∧
  (∀ (s : State) (who : Initiator) (n : Nat), s.takes who R.RING_TS_LOAD.START = true → n < 8 → s.setBusy n = true →
    ∃ t, exec (.tsLoad who n) s = .next t ∧ t.answer.error = false ∧ t.rd R.RING_TS_ERR.ERR = 8 ∧
      t.rd R.RING_TS_ERR.SET = n ∧ (∀ m, m < 8 → t.setState m = s.setState m) ∧
      { t with regs := s.regs, answer := s.answer } = s) ∧
  (∀ (s : State) (n : Nat), s.awake = true → n < 8 → s.setState n = 1 →
    ∃ t, exec (.tsLoadComplete n) s = .next t ∧
      t.setState n = (if (s.setError (s.ring.sets.get [] n)).isNone then 2 else 3) ∧
      (∀ m, m < 8 → m ≠ n → t.setState m = s.setState m) ∧
      { t with regs := s.regs, ring := { t.ring with keys := s.ring.keys } } = s) ∧
  (∀ (s : State) (who : Initiator) (n : Nat), s.takes who R.RING_MC_CTRL.START = true → n < 8 →
    s.ring.cycleMaster = true → s.setState n = 2 → s.ring.mcRunning = false → s.ring.mcStart = false →
    s.on R.RING_FAULT.ACTIVE = false → (s.ring.toAnnounce.any fun a => decide (a.op ≤ 2)) = false →
    s.ring.parked = [] →
    ∃ t, exec (.mcStart who n) s = .next t ∧ t.answer.error = false ∧ t.ring.mcStart = true ∧ t.ring.mcNext = n ∧
      t.rd R.RING_MC_STATUS.REASON = 0 ∧
      { t with regs := s.regs, ring := { t.ring with mcStart := false, mcNext := s.ring.mcNext }
               answer := s.answer } = s) ∧
  (∀ (s : State) (who : Initiator) (n : Nat), s.takes who R.RING_MC_CTRL.START = true → n < 8 →
    s.ring.cycleMaster = true →
    (s.setState n ≠ 2 ∨ s.ring.mcRunning = true ∨ s.ring.mcStart = true ∨ s.on R.RING_FAULT.ACTIVE = true) →
    ∃ t, exec (.mcStart who n) s = .next t ∧ t.answer.error = false ∧
      t.rd R.RING_MC_STATUS.REASON = (if s.setState n ≠ 2 then 5
        else if s.ring.mcRunning = true ∨ s.ring.mcStart = true then 6 else 4) ∧
      (s.ring.mcRunning = false → s.ring.mcStart = false → t.rd R.RING_MC_STATUS.STATE = 3) ∧
      { t with regs := s.regs, answer := s.answer } = s) ∧
  (∀ (s : State) (who : Initiator) (n : Nat), s.takes who R.RING_MC_CTRL.START = true → n < 8 →
    s.ring.cycleMaster = false →
    ∃ t, exec (.mcStart who n) s = .next t ∧ t.answer.error = false ∧
      (∀ a, a ≠ R.RING_MC_CTRL.NEXT_SET.addr 0 0 → t.reg a = s.reg a) ∧
      { t with regs := s.regs, answer := s.answer } = s)

/-- The reference check is due once in a cycle, at tick TH_TICKS of the through segment. A unit that follows the
ring counts cycles without a reference and, where no measurement is left over, enters HOLDOVER at the third, and
returns the count to 0 when the reference was seen; a unit that is time master or has another reference counts
nothing; the holdover limit silences the unit, which ROLES then shows. A capture takes the time of its tick; a
step in range moves time and sets TIME_SET, but not on the cycle master of a running cycle, which counts it as
refused, and one out of range receives an error response; a reference other than RING frees the servo, and a
return to RING starts it again. A comparator that is due by its configuration at the start of the tick and not
held sets FIRED, and LATE if its target lies before the tick, a one-shot disables itself, and ACTION 5 posts its
token; one that is held counts in HELD and is spent without its action. (spec/05 R174, spec/05 R176, spec/05
R177, spec/05 R178, spec/05 R183, spec/05 R186, spec/05 R191, spec/05 R200, spec/05 R202) -/
def Obligations.TimeBaseAndComparators : Prop :=
  (∀ s : State, s.awake = true → (s.rd R.RING_CYC_STATUS.SEG ≠ 0 ∨ s.reached (s.cycleTime s.ring.active.thTicks) = false) →
    exec .referenceCheck s = .next s) ∧
  (∀ s : State, s.awake = true → s.rd R.RING_CYC_STATUS.SEG = 0 → s.reached (s.cycleTime s.ring.active.thTicks) = true →
    s.rd R.TB_CTRL.REF = 0 → s.ring.timeMaster = false →
    ∃ t, exec .referenceCheck s = .next t ∧
      t.rd R.RING_CYC_STATUS.SEG = (if s.ring.haveActive then 1 else 3) ∧ t.time.refSeen = false ∧
      (s.time.refSeen = true → t.rd R.TB_STATUS.SILENT = 0 ∧ (s.ring.thetaOther = none → t.servo = s.servo)) ∧
      (s.time.refSeen = false → t.rd R.TB_STATUS.SILENT = min (s.rd R.TB_STATUS.SILENT + 1) 255 ∧
        (s.rd R.TB_STATUS.SILENT = 2 → s.ring.thetaOther = none → (s.servo = .acquire ∨ s.servo = .locked) → t.servo = .holdover)) ∧
      t.ring.thetaOther = none ∧ (s.ring.thetaOther = none → t.ring = s.ring) ∧ t.mem = s.mem) ∧
  (∀ s : State, s.awake = true → s.rd R.RING_CYC_STATUS.SEG = 0 → s.reached (s.cycleTime s.ring.active.thTicks) = true →
    (s.rd R.TB_CTRL.REF ≠ 0 ∨ s.ring.timeMaster = true) → s.ring.thetaOther = none →
    ∃ t, exec .referenceCheck s = .next t ∧ t.rd R.RING_CYC_STATUS.SEG = (if s.ring.haveActive then 1 else 3) ∧
      t.rd R.TB_STATUS.SILENT = s.rd R.TB_STATUS.SILENT ∧ t.servo = s.servo ∧ t.ring = s.ring ∧ t.mem = s.mem) ∧
  (∀ s : State, s.awake = true → s.servo = .holdover → s.rd R.TB_CTRL.HOLD_LIMIT ≠ 0 →
    s.rd R.TB_CTRL.HOLD_LIMIT ≤ s.time.holdover → s.on R.RING_CYC_STATUS.SILENCED = false →
    ∃ t, exec .holdoverLimit s = .next t ∧ t.on R.RING_CYC_STATUS.SILENCED = true ∧ t.ring.goodCycles = 0 ∧
      bit (t.stored 0x001).toNat 8 = true ∧ t.time = s.time) ∧
  (∀ (s : State) (who : Initiator) (k : Nat), s.takes who R.TB_CAPTURE.SET = true → k < 8 →
    ∃ t, exec (.tbCapture who k) s = .next t ∧ t.answer.error = false ∧
      t.rd R.TB_CAPs_SEC_LO.SEC 0 k = s.time.sec % 2 ^ 32 ∧
      (s.time.ns < 1000000000 → t.rd R.TB_CAPs_NS.NS 0 k = s.time.ns) ∧
      { t with regs := s.regs, answer := s.answer } = s) ∧
  (∀ (s : State) (who : Initiator) (ns : Word), s.takes who R.TB_STEP_NS.NS = true →
    -999999999 ≤ signed 32 ns.toNat → signed 32 ns.toNat ≤ 999999999 →
    ∃ t, exec (.tbStep who ns) s = .next t ∧ t.answer.error = false ∧
      (s.ring.cycleMaster = true → s.cycling = true → t.time = s.time ∧
        t.rd R.TB_STATUS.REFUSED = min (s.rd R.TB_STATUS.REFUSED + 1) R.TB_STATUS.REFUSED.max) ∧
      (s.ring.cycleMaster = false ∨ s.cycling = false → t.on R.TB_STATUS.TIME_SET = true ∧
        (t.now : Int) = max 0 ((s.now : Int) +
          (signed 32 (s.rd R.TB_STEP_SEC.SEC) * 1000000000 + signed 32 ns.toNat) * 2 ^ 40)) ∧
      ((s.eth.macs.all fun e => !s.on R.MAC_GCL_CTRL.ARM e.1 || s.on R.MAC_GCL_CFG.MODE e.1) = true → t.eth = s.eth) ∧
      { t with regs := s.regs, time := s.time, eth := s.eth, answer := s.answer } = s) ∧
  (∀ (s : State) (who : Initiator) (ns : Word), s.takes who R.TB_STEP_NS.NS = true →
    (signed 32 ns.toNat < -999999999 ∨ 999999999 < signed 32 ns.toNat) →
    ∃ t, exec (.tbStep who ns) s = .next t ∧ t.answer.error = true ∧ t.time = s.time) ∧
  (∀ (s : State) (who : Initiator) (v : Word), s.takes who R.TB_CTRL.REF = true →
    ∃ t, exec (.tbRefWrite who v) s = .next t ∧ t.answer.error = false ∧ t.rd R.TB_CTRL.REF = getBits v 1 0 ∧
      t.rd R.TB_CTRL.HOLD_LIMIT = getBits v 31 16 ∧
      (getBits v 1 0 ≠ 0 → t.servo = .free) ∧
      (getBits v 1 0 = 0 → s.servo = .free → t.rd R.TB_STATUS.SILENT = 0 ∧
        t.servo = if s.ring.timeMaster then .master else if s.on R.TB_STATUS.TIME_SET then .acquire else .unset) ∧
      (getBits v 1 0 = 0 → s.servo ≠ .free → t.servo = s.servo) ∧
      { t with regs := s.regs, pt := s.pt, time := s.time, answer := s.answer } = s) ∧
  (∀ (s : State) (n : Nat), s.awake = true → n < 64 → s.steepDue n = true →
    (s.steepView.on R.STP_CTRLn.SILENT_HOLD 0 n && s.on R.RING_CYC_STATUS.SILENCED) = false →
    ∃ t, exec (.steepFire n (s.steepLate n)) s = .next t ∧ t.pairBit R.STP_FIRED_LO.FIRED R.STP_FIRED_HI.FIRED n = true ∧
      (s.steepLate n = true → t.pairBit R.STP_LATE_LO.LATE R.STP_LATE_HI.LATE n = true) ∧
      (s.steepView.on R.STP_CTRLn.MODE 0 n = false → t.on R.STP_CTRLn.EN 0 n = false) ∧
      (s.steepView.rd R.STP_CTRLn.ACTION 0 n = 5 → ∃ q ∈ t.pour.posts, q.node = s.steepView.rd R.STP_ARGn.ARG 0 n % 4096 ∧
        q.input = s.steepView.rd R.STP_ARGn.ARG 0 n / 4096)) ∧
  (∀ (s : State) (n : Nat), s.awake = true → n < 64 → s.steepDue n = true →
    s.steepView.on R.STP_CTRLn.SILENT_HOLD 0 n = true → s.on R.RING_CYC_STATUS.SILENCED = true →
    ∃ t, exec (.steepFire n (s.steepLate n)) s = .next t ∧
      t.rd R.STP_STATUS.HELD = min (s.rd R.STP_STATUS.HELD + 1) R.STP_STATUS.HELD.max ∧
      (s.steepView.on R.STP_CTRLn.MODE 0 n = false → t.on R.STP_CTRLn.EN 0 n = false) ∧
      (s.steepView.on R.STP_CTRLn.MODE 0 n = true → bit t.time.firedCycle.toNat n = true) ∧
      t.pairBit R.STP_FIRED_LO.FIRED R.STP_FIRED_HI.FIRED n = s.pairBit R.STP_FIRED_LO.FIRED R.STP_FIRED_HI.FIRED n ∧
      t.pour = s.pour ∧ t.pe = s.pe ∧ t.pt = s.pt ∧ t.mem = s.mem) ∧
  (∀ (s : State) (n : Nat) (late : Bool), s.awake = true → (64 ≤ n ∨ s.steepDue n = false ∨ late ≠ s.steepLate n) →
    exec (.steepFire n late) s = .next s)

/-- A core that executes one of these instructions writes the sum or difference of its operands, modulo 2^32, to
rd (the compares write nothing); where the form sets flags N, Z, C and V are those of the exact sum or
difference, and otherwise no flag changes. No other register of any core, no memory and no register page
changes, but CC_PC; the next instruction follows. (spec/08 R262, spec/08 R277, spec/08 R278, spec/08 R280) -/
def Obligations.ClaloAddsAndSubtracts : Prop :=
  completesAlu .add (fun _ a b => a + b) (fun f a b => f.ofSum a b 0) ∧
  completesAlu .sub (fun _ a b => a - b) (fun f a b => f.ofDiff a b 0) ∧
  completesLong .adc (fun f a b => a + b + BitVec.ofNat 32 (if f.c then 1 else 0))
    (fun f a b => f.ofSum a b (if f.c then 1 else 0)) ∧
  completesLong .sbc (fun f a b => a - b - BitVec.ofNat 32 (if f.c then 0 else 1))
    (fun f a b => f.ofDiff a b (if f.c then 0 else 1)) ∧
  (∀ (h : Head) (long : Bool) (rd rb imm : Nat),
    completes (.cmp h long rd rb) h (if long then 4 else 2)
      (fun k => { k with flags := k.flags.ofDiff (k.reg rd) (k.reg rb) 0 }) ∧
    completes (.cmpi h false rd imm) h 2
      (fun k => { k with flags := k.flags.ofDiff (k.reg rd) (BitVec.ofNat 32 (imm % 16)) 0 }) ∧
    completes (.cmpi h true rd imm) h 4
      (fun k => { k with flags := k.flags.ofDiff (k.reg rd) ((BitVec.ofNat 12 imm).signExtend 32) 0 })) ∧
  (∀ (h : Head) (rd ra imm : Nat),
    completes (.addi h (.short rd imm)) h 2 (fun k =>
      k.result rd (k.reg rd + BitVec.ofNat 32 (imm % 16)) true (k.flags.ofSum (k.reg rd) (BitVec.ofNat 32 (imm % 16)) 0)) ∧
    completes (.addi h (.long rd ra imm)) h 4 (fun k =>
      k.result rd (k.reg ra + (BitVec.ofNat 12 imm).signExtend 32) false k.flags) ∧
    completes (.subi h rd imm) h 2 (fun k =>
      k.result rd (k.reg rd - BitVec.ofNat 32 (imm % 16)) true (k.flags.ofDiff (k.reg rd) (BitVec.ofNat 32 (imm % 16)) 0)) ∧
    completes (.neg h rd) h 2 (fun k => k.result rd (-k.reg rd) true (k.flags.ofDiff 0 (k.reg rd) 0)))

/-- AND, OR, XOR, BIC, MUL, MULHS and MULHU write the operation's result to rd and, where the form sets flags, N
and Z of it; TST sets N and Z only, NOT writes and sets them; ANDI, ORI and XORI work on a zero-extended u12 and
change no flag; BTST gives Z the complement of the bit. Nothing else changes but the PC and CC_PC. (spec/08
R277, spec/08 R278, spec/08 R280, spec/08 ALU Functions) -/
def Obligations.ClaloLogicAndProducts : Prop :=
  completesAlu .and (fun _ a b => a &&& b) (fun f a b => f.ofWord32 (a &&& b)) ∧
  completesAlu .or (fun _ a b => a ||| b) (fun f a b => f.ofWord32 (a ||| b)) ∧
  completesAlu .xor (fun _ a b => a ^^^ b) (fun f a b => f.ofWord32 (a ^^^ b)) ∧
  completesLong .bic (fun _ a b => a &&& ~~~b) (fun f a b => f.ofWord32 (a &&& ~~~b)) ∧
  completesAlu .mul (fun _ a b => BitVec.ofNat 32 (a.toNat * b.toNat)) (fun f a b => f.ofWord32 (a * b)) ∧
  completesLong .mulhs (fun _ a b => ((a.signExtend 64 * b.signExtend 64) >>> 32).truncate 32)
    (fun f a b => f.ofWord32 (((a.signExtend 64 * b.signExtend 64) >>> 32).truncate 32)) ∧
  completesLong .mulhu (fun _ a b => ((a.zeroExtend 64 * b.zeroExtend 64) >>> 32).truncate 32)
    (fun f a b => f.ofWord32 (((a.zeroExtend 64 * b.zeroExtend 64) >>> 32).truncate 32)) ∧
  (∀ (h : Head) (rd ra imm : Nat),
    completes (.tst h rd ra) h 2 (fun k => { k with flags := k.flags.ofWord32 (k.reg rd &&& k.reg ra) }) ∧
    completes (.not h rd) h 2 (fun k => k.result rd (~~~k.reg rd) true (k.flags.ofWord32 (~~~k.reg rd))) ∧
    completes (.btst h rd imm) h 2 (fun k => { k with flags := { k.flags with z := !(k.reg rd).getLsbD (imm % 16) } }) ∧
    completes (.andi h rd ra imm) h 4 (fun k => k.result rd (k.reg ra &&& BitVec.ofNat 32 (imm % 4096)) false k.flags) ∧
    completes (.ori h rd ra imm) h 4 (fun k => k.result rd (k.reg ra ||| BitVec.ofNat 32 (imm % 4096)) false k.flags) ∧
    completes (.xori h rd ra imm) h 4 (fun k => k.result rd (k.reg ra ^^^ BitVec.ofNat 32 (imm % 4096)) false k.flags))

/-- MOV, MOVI, SETL, SETH and the extensions write rd and no flag; PCOND, PCLR, PSET and PINV change P only; NOP
changes nothing. An instruction of any form whose condition is false only moves the PC past it, and a fetch
without an error changes nothing at all. (spec/08 R263, spec/08 R276, spec/08 R277, spec/08 R278, spec/08 System
Group) -/
def Obligations.ClaloMovesAndPredicates : Prop :=
  (∀ (h : Head) (rd rs imm c : Nat) (long : Bool),
    completes (.mov h rd rs) h 2 (fun k => k.result rd (k.reg rs) false k.flags) ∧
    completes (.movi h rd imm) h 2 (fun k => k.result rd (BitVec.ofNat 32 (imm % 16)) false k.flags) ∧
    completes (.setl h rd imm) h 4 (fun k => k.result rd (BitVec.ofNat 32 (imm % 65536)) false k.flags) ∧
    completes (.seth h rd imm) h 4 (fun k =>
      k.result rd (BitVec.ofNat 32 (imm % 65536 * 65536 + (k.reg rd).toNat % 65536)) false k.flags) ∧
    completes (.sxtb h rd) h 2 (fun k => k.result rd (((k.reg rd).truncate 8).signExtend 32) false k.flags) ∧
    completes (.sxth h rd) h 2 (fun k => k.result rd (((k.reg rd).truncate 16).signExtend 32) false k.flags) ∧
    completes (.zxtb h rd) h 2 (fun k => k.result rd (k.reg rd &&& 0xFF) false k.flags) ∧
    completes (.zxth h rd) h 2 (fun k => k.result rd (k.reg rd &&& 0xFFFF) false k.flags) ∧
    completes (.pcond h 0 c) h 4 (fun k => { k with flags := { k.flags with p := k.flags.meets c } }) ∧
    completes (.pcond h 1 c) h 4 (fun k => { k with flags := { k.flags with p := k.flags.p && k.flags.meets c } }) ∧
    completes (.pcond h 2 c) h 4 (fun k => { k with flags := { k.flags with p := k.flags.p || k.flags.meets c } }) ∧
    completes (.pcond h 3 c) h 4 (fun k => { k with flags := { k.flags with p := !k.flags.meets c } }) ∧
    completes (.pclr h long) h (if long then 4 else 2) (fun k => { k with flags := { k.flags with p := false } }) ∧
    completes (.pset h long) h (if long then 4 else 2) (fun k => { k with flags := { k.flags with p := true } }) ∧
    completes (.pinv h long) h (if long then 4 else 2) (fun k => { k with flags := { k.flags with p := !k.flags.p } }) ∧
    completes (.nop h long) h (if long then 4 else 2) id) ∧
  (∀ (s : State) (i : Instr) (core : Nat) (h0 h1 : Half), decodeClalo core h0 h1 = some i →
    let long := decide (h0.toNat / 8192 = 7)
    let len := if long then 4 else 2
    s.executes ⟨core, 0⟩ len = true →
    (s.core core).flags.meets (if long then h0.toNat / 512 % 16 else h0.toNat / 2048 % 4) = false →
    ∃ t, exec i s = .next t ∧
      (s.fetched core len).movedTo t core (s.core core) ((s.core core).pc + BitVec.ofNat 32 len)) ∧
  (∀ (s : State) (c len : Nat), s.fetches c len = true → (∀ off, s.coreEcc (coreKey c off) = .clean) → s.fetched c len = s) ∧
  (∀ f : Flags, [f.meets 0, f.meets 1, f.meets 2, f.meets 3, f.meets 4, f.meets 5, f.meets 6, f.meets 7, f.meets 8,
      f.meets 9] = [true, f.z, !f.z, f.p, f.c, !f.c, f.n, !f.n, f.v, !f.v] ∧
    [f.meets 10, f.meets 11, f.meets 12, f.meets 13, f.meets 14, f.meets 15] =
      [f.c && !f.z, !(f.c && !f.z), f.n == f.v, !(f.n == f.v), f.n == f.v && !f.z, !(f.n == f.v && !f.z)])

/-- LSL, LSR and ASR by rb[7:0] or by an immediate, and ROR by rb[4:0], write the shifted value; where the form
sets flags, N and Z follow the result. A shift by 0 keeps the value and C. For 1 to 31, C is the last bit
shifted out. LSL and LSR by 32 or more give 0 with C the last bit shifted out at 32 and 0 beyond; ASR by 32 or
more fills the result and C with bit 31; ROR by a non-zero amount copies bit 31 of the result to C. (spec/08
R281) -/
def Obligations.ClaloShiftsAndRotations : Prop :=
  (let lsl (f : Flags) (a : Word) (n : Nat) : Flags := { f.ofWord32 (a <<< n) with
      c := if n = 0 then f.c else if n ≤ 32 then a.getLsbD (32 - n) else false }
   let lsr (f : Flags) (a : Word) (n : Nat) : Flags := { f.ofWord32 (a >>> n) with
      c := if n = 0 then f.c else if n ≤ 32 then a.getLsbD (n - 1) else false }
   let asr (f : Flags) (a : Word) (n : Nat) : Flags := { f.ofWord32 (a.sshiftRight n) with
      c := if n = 0 then f.c else if n < 32 then a.getLsbD (n - 1) else a.msb }
   let ror (f : Flags) (a : Word) (n : Nat) : Flags := { f.ofWord32 (a.rotateRight n) with
      c := if n = 0 then f.c else (a.rotateRight n).msb }
   completesAlu .lsl (fun _ a b => a <<< (b.toNat % 256)) (fun f a b => lsl f a (b.toNat % 256)) ∧
   completesAlu .lsr (fun _ a b => a >>> (b.toNat % 256)) (fun f a b => lsr f a (b.toNat % 256)) ∧
   completesAlu .asr (fun _ a b => a.sshiftRight (b.toNat % 256)) (fun f a b => asr f a (b.toNat % 256)) ∧
   completesLong .ror (fun _ a b => a.rotateRight (b.toNat % 32)) (fun f a b => ror f a (b.toNat % 32)) ∧
   (∀ (h : Head) (rd n : Nat), n < 16 →
    completes (.lsli h rd n) h 2 (fun k => k.result rd (k.reg rd <<< n) true (lsl k.flags (k.reg rd) n)) ∧
    completes (.lsri h rd n) h 2 (fun k => k.result rd (k.reg rd >>> n) true (lsr k.flags (k.reg rd) n)) ∧
    completes (.asri h rd n) h 2 (fun k => k.result rd ((k.reg rd).sshiftRight n) true (asr k.flags (k.reg rd) n))) ∧
   (∀ (h : Head) (rd ra n : Nat) (sf : Bool), n < 32 →
    completes (.shi h rd ra 0 n sf) h 4 (fun k => k.result rd (k.reg ra <<< n) sf (lsl k.flags (k.reg ra) n)) ∧
    completes (.shi h rd ra 1 n sf) h 4 (fun k => k.result rd (k.reg ra >>> n) sf (lsr k.flags (k.reg ra) n)) ∧
    completes (.shi h rd ra 2 n sf) h 4 (fun k => k.result rd ((k.reg ra).sshiftRight n) sf (asr k.flags (k.reg ra) n)) ∧
    completes (.shi h rd ra 3 n sf) h 4 (fun k => k.result rd ((k.reg ra).rotateRight n) sf (ror k.flags (k.reg ra) n)))) ∧
  (∀ (a : Word) (n : Nat), 32 ≤ n → a <<< n = 0 ∧ a >>> n = 0 ∧ ∀ i, i < 32 → (a.sshiftRight n).getLsbD i = a.msb)

/-- SATP writes its source, as a signed number, limited to 0 to 4,095, and SATPS limited to -2,048 to 2,047 and
sign-extended, in the short form and in the long one that its SG selects; both set P exactly when the result
differs from the source, and no other flag. QPREC writes the code of the higher precedence of ra[3:0] and
rb[3:0], a reserved code standing for INVALID, and with S sets Z exactly when that is GOOD. (spec/08 R289,
spec/08 R290) -/
def Obligations.ClaloSaturationAndPrecedence : Prop :=
  (let sat (k : CoreState) (rd ra : Nat) (lo hi : Int) (k' : CoreState) : Prop :=
     let x := (k.reg ra).toInt
     ∃ v : Word, k' = k.result rd v true { k.flags with p := decide (v.toInt ≠ x) } ∧
       v.toInt = (if x < lo then lo else if hi < x then hi else x)
   ∀ (s : State) (h : Head) (rd ra : Nat),
    (s.executes h 2 = true →
      (∃ t k, exec (.satp h (.short rd)) s = .next t ∧ sat (s.core h.core) rd rd 0 4095 k ∧
        (s.fetched h.core 2).movedTo t h.core k ((s.core h.core).pc + 2)) ∧
      (∃ t k, exec (.satps h (.short rd)) s = .next t ∧ sat (s.core h.core) rd rd (-2048) 2047 k ∧
        (s.fetched h.core 2).movedTo t h.core k ((s.core h.core).pc + 2))) ∧
    (s.executes h 4 = true →
      (∃ t k, exec (.satp h (.long rd ra)) s = .next t ∧ sat (s.core h.core) rd ra 0 4095 k ∧
        (s.fetched h.core 4).movedTo t h.core k ((s.core h.core).pc + 4)) ∧
      (∃ t k, exec (.satps h (.long rd ra)) s = .next t ∧ sat (s.core h.core) rd ra (-2048) 2047 k ∧
        (s.fetched h.core 4).movedTo t h.core k ((s.core h.core).pc + 4)))) ∧
  (∀ core rd ra : Nat, core < 18 → rd < 16 → ra < 16 →
    decodeClalo core (BitVec.ofNat 16 (0xE1B0 + rd)) (BitVec.ofNat 16 (ra * 4096)) = some (.satp ⟨core, 0⟩ (.long rd ra)) ∧
    decodeClalo core (BitVec.ofNat 16 (0xE1B0 + rd)) (BitVec.ofNat 16 (ra * 4096 + 1)) = some (.satps ⟨core, 0⟩ (.long rd ra))) ∧
  (let order : List Nat := [0xF, 0x8, 0x3, 0x4, 0x2, 0x5, 0x6, 0x1, 0x0]
   let code (x : Word) : Nat := if order.contains (x.toNat % 16) then x.toNat % 16 else 0xF
   let higher (a b : Word) : Nat := (order.find? fun q => q == code a || q == code b).getD 0
   completesLong .qprec (fun _ a b => BitVec.ofNat 32 (higher a b)) (fun f a b => { f with z := higher a b == 0 }))

/-- A taken branch sets the PC to its own address plus twice the signed offset, or to rd as it was; BL and JL
write the return address to g15; no other register and no flag changes. CALL with an aligned g14 and room for
its frame stores the header, the return address and the selected registers below g14, lowers g14 to the header
and goes to ra; RET of such a frame in error-free data RAM loads the selected registers, raises g14 past the
frame and returns to the stored address. (spec/08 R260, spec/08 R277, spec/08 R278, spec/08 R292, spec/08 R293)
-/
def Obligations.ClaloBranches : Prop :=
  (∀ (s : State) (h : Head) (rd off : Nat),
    (s.executes h 2 = true →
      (∃ t, exec (.b h false off) s = .next t ∧ (s.fetched h.core 2).movedTo t h.core (s.core h.core)
        ((s.core h.core).pc + 2 * (BitVec.ofNat 11 off).signExtend 32)) ∧
      (∃ t, exec (.jmp h rd) s = .next t ∧
        (s.fetched h.core 2).movedTo t h.core (s.core h.core) ((s.core h.core).reg rd)) ∧
      (∃ t, exec (.jl h rd) s = .next t ∧ (s.fetched h.core 2).movedTo t h.core
        ((s.core h.core).result 15 ((s.core h.core).pc + 2) false (s.core h.core).flags) ((s.core h.core).reg rd))) ∧
    (s.executes h 4 = true →
      (∃ t, exec (.b h true off) s = .next t ∧ (s.fetched h.core 4).movedTo t h.core (s.core h.core)
        ((s.core h.core).pc + 2 * (BitVec.ofNat 20 off).signExtend 32)) ∧
      (∃ t, exec (.bl h off) s = .next t ∧ (s.fetched h.core 4).movedTo t h.core
        ((s.core h.core).result 15 ((s.core h.core).pc + 4) false (s.core h.core).flags)
        ((s.core h.core).pc + 2 * (BitVec.ofNat 20 off).signExtend 32)))) ∧
  (∀ (s : State) (h : Head) (o : CallForm) (sp n : Nat), s.executes h o.len = true →
    sp = ((s.core h.core).reg 14).toNat → n = (maskRegs o.mask).length → sp % 4 = 0 →
    (s.core h.core).splim.toNat + 4 * (2 + n) ≤ sp → 0xE0008000 + 4 * (2 + n) ≤ sp → sp ≤ 0xE0010000 →
    ∃ t, exec (.call h o) s = .next t ∧
      t.core h.core = { (s.core h.core).result 14 (BitVec.ofNat 32 (sp - 4 * (2 + n))) false (s.core h.core).flags with
        pc := (s.core h.core).reg o.ra, begun := false } ∧
      t.coreBytes (coreKey h.core (sp - 4 * (2 + n) - 0xE0000000)) 4 = o.mask * 65536 + 0xCA11 ∧
      t.coreBytes (coreKey h.core (sp - 4 * (1 + n) - 0xE0000000)) 4 =
        ((s.core h.core).pc + BitVec.ofNat 32 o.len).toNat ∧
      (∀ j r, (maskRegs o.mask)[j]? = some r →
        t.coreBytes (coreKey h.core (sp - 4 * (n - j) - 0xE0000000)) 4 = ((s.core h.core).reg r).toNat) ∧
      (∀ x, (x < coreKey h.core (sp - 4 * (2 + n) - 0xE0000000) ∨ coreKey h.core (sp - 0xE0000000) ≤ x) →
        t.mem.coreRam.get 0 x = s.mem.coreRam.get 0 x) ∧
      (∀ d, d ≠ h.core → t.core d = s.core d) ∧ t.mem.bytes = s.mem.bytes) ∧
  (∀ (s : State) (h : Head) (long : Bool) (sp mask n : Nat), s.executes h (if long then 4 else 2) = true →
    sp = ((s.core h.core).reg 14).toNat → sp % 4 = 0 → (s.core h.core).splim.toNat ≤ sp → 0xE0008000 ≤ sp →
    s.coreBytes (coreKey h.core (sp - 0xE0000000)) 4 = mask * 65536 + 0xCA11 → mask < 65536 →
    n = (maskRegs mask).length → sp + 4 * (2 + n) ≤ 0xE0010000 → (∀ off, s.coreEcc (coreKey h.core off) = .clean) →
    ∃ t, exec (.ret h long) s = .next t ∧
      (t.core h.core).pc = BitVec.ofNat 32 (s.coreBytes (coreKey h.core (sp + 4 - 0xE0000000)) 4) ∧
      (∀ j r, (maskRegs mask)[j]? = some r → (t.core h.core).reg r =
        BitVec.ofNat 32 (s.coreBytes (coreKey h.core (sp + 8 + 4 * j - 0xE0000000)) 4)) ∧
      (t.core h.core).reg 14 = BitVec.ofNat 32 (sp + 4 * (2 + n)) ∧
      (∀ r, r < 16 → r ≠ 14 → r ∉ maskRegs mask → (t.core h.core).reg r = (s.core h.core).reg r) ∧
      { t.core h.core with g := [], pc := 0 } = { s.core h.core with g := [], pc := 0, begun := false } ∧
      (∀ d, d ≠ h.core → t.core d = s.core d) ∧ t.mem = s.mem ∧
      (∀ a, a ≠ R.CC_PC.PC.addr h.core 0 → t.reg a = s.reg a))

/-- A load whose read is answered with data writes it to rd, extended as the instruction says (LDP: value,
quality, Z and P), and the next instruction follows; a read of aligned, error-free data RAM of the core is
answered with its bytes. A misaligned load outside SRAM takes ALIGN with its address in FADDR and nothing else
changes; a load that the bus refuses takes BUSERR and rd keeps its value, and one behind a buffered store to its
target has begun and waits. (spec/08 R277, spec/08 R278, spec/08 R282, spec/08 R283, spec/08 R287, spec/08 R297,
spec/01 R19) -/
def Obligations.ClaloLoads : Prop :=
  (let zx (n : Nat) (rd : Nat) (k : CoreState) (v : Nat) : CoreState :=
     k.result rd (BitVec.ofNat 32 (v % 256 ^ n)) false k.flags
   let sx (w : Nat) (rd : Nat) (k : CoreState) (v : Nat) : CoreState :=
     k.result rd ((BitVec.ofNat w v).signExtend 32) false k.flags
   let pt (sg : Bool) (rd rq : Nat) (k : CoreState) (v : Nat) : CoreState :=
     let q := v / 4096 % 16
     let x : Word := if sg then (BitVec.ofNat 12 v).signExtend 32 else BitVec.ofNat 32 (v % 4096)
     (k.result rd x false k.flags).result rq (BitVec.ofNat 32 q) true
       { k.flags with z := q == 0, p := q == 15 || q == 8 }
   ∀ (h : Head) (rd ra x : Nat),
    let lng (k : CoreState) : Nat := (k.reg ra + (BitVec.ofNat 12 x).signExtend 32).toNat
    completesLoad (.ldw h (.sp rd x)) h 2 4 true (fun k => (k.reg 14 + BitVec.ofNat 32 (4 * (x % 64))).toNat) (zx 4 rd) ∧
    completesLoad (.ldw h (.reg rd ra)) h 2 4 true (fun k => (k.reg ra).toNat) (zx 4 rd) ∧
    completesLoad (.ldh h (.reg rd ra)) h 2 2 true (fun k => (k.reg ra).toNat) (zx 2 rd) ∧
    completesLoad (.ldb h (.reg rd ra)) h 2 1 true (fun k => (k.reg ra).toNat) (zx 1 rd) ∧
    completesLoad (.ldw h (.long rd ra x)) h 4 4 true lng (zx 4 rd) ∧
    completesLoad (.ldh h (.long rd ra x)) h 4 2 true lng (zx 2 rd) ∧
    completesLoad (.ldb h (.long rd ra x)) h 4 1 true lng (zx 1 rd) ∧
    completesLoad (.ldhs h rd ra x) h 4 2 true lng (sx 16 rd) ∧
    completesLoad (.ldbs h rd ra x) h 4 1 true lng (sx 8 rd) ∧
    (rd % 2 = 0 →
      completesLoad (.ldp h (.short rd ra)) h 2 2 false (fun k => (k.reg ra).toNat) (pt false rd (rd + 1))) ∧
    (∀ (rq : Nat) (sg : Bool), completesLoad (.ldp h (.long rd rq ra sg x)) h 4 2 false
      (fun k => (k.reg ra + 2 * (BitVec.ofNat 7 x).signExtend 32).toNat) (pt sg rd rq))) ∧
  (∀ (s : State) (c a n : Nat), 0xE0008000 ≤ a → a < 0xE0010000 → n ∈ [1, 2, 4] → a % n = 0 →
    (∀ off, s.coreEcc (coreKey c off) = .clean) →
    s.busRead (.core c) a n true = (s, .data (s.coreBytes (coreKey c (a - 0xE0000000)) n))) ∧
  (∀ (s : State) (h : Head) (rd ra x : Nat), s.executes h 4 = true → (s.core h.core).level ≠ .fault →
    let a := (s.core h.core).reg ra + (BitVec.ofNat 12 x).signExtend 32
    (a.toNat % 4 ≠ 0 → rangeOf a.toNat ≠ some .sram →
      ∃ t, exec (.ldw h (.long rd ra x)) s = .next t ∧
        (s.fetched h.core 4).tookFault t h.core ((s.core h.core).faulted 2 (s.core h.core).pc (some a) false false)) ∧
    (a.toNat % 4 = 0 → (s.fetched h.core 4).loadWaits h.core a.toNat 4 = true →
      exec (.ldw h (.long rd ra x)) s = .next ((s.fetched h.core 4).begin h.core)) ∧
    (∀ u : State, a.toNat % 4 = 0 → (s.fetched h.core 4).loadWaits h.core a.toNat 4 = false →
      (s.fetched h.core 4).busRead (.core h.core) a.toNat 4 true = (u, .err) → (u.core h.core).level ≠ .fault →
      ∃ t, exec (.ldw h (.long rd ra x)) s = .next t ∧
        u.tookFault t h.core ((u.core h.core).faulted 3 (u.core h.core).pc (some a) false (isLocal a.toNat))))

/-- A store into the core's data RAM writes the low bytes of its register (STP the point of rq[3:0] and
rd[11:0]) at its address, in little-endian order, and no other byte of any memory and no other register of the
unit but CC_PC; a store elsewhere completes where the bus accepts it, and one that the bus refuses outside local
RAM leaves an imprecise fault with its address. (spec/08 R277, spec/08 R278, spec/08 R282, spec/08 R283, spec/08
R284, spec/08 R285, spec/08 R288) -/
def Obligations.ClaloStores : Prop :=
  ∀ (h : Head) (rd ra x : Nat),
    let lng (k : CoreState) : Nat := (k.reg ra + (BitVec.ofNat 12 x).signExtend 32).toNat
    let sp (k : CoreState) : Nat := (k.reg 14 + BitVec.ofNat 32 (4 * (x % 64))).toNat
    let at_ (k : CoreState) : Nat := (k.reg ra).toNat
    let low (n : Nat) (k : CoreState) : Nat := (k.reg rd).toNat % 256 ^ n
    let pt (rq : Nat) (k : CoreState) : Nat := (k.reg rq).toNat % 16 * 4096 + (k.reg rd).toNat % 4096
    (completesLocalStore (.stw h (.sp rd x)) h 2 4 sp (low 4) ∧ completesBusStore (.stw h (.sp rd x)) h 2 4 sp (low 4)) ∧
    (completesLocalStore (.stw h (.reg rd ra)) h 2 4 at_ (low 4) ∧
      completesBusStore (.stw h (.reg rd ra)) h 2 4 at_ (low 4)) ∧
    (completesLocalStore (.sth h (.reg rd ra)) h 2 2 at_ (low 2) ∧
      completesBusStore (.sth h (.reg rd ra)) h 2 2 at_ (low 2)) ∧
    (completesLocalStore (.stb h (.reg rd ra)) h 2 1 at_ (low 1) ∧
      completesBusStore (.stb h (.reg rd ra)) h 2 1 at_ (low 1)) ∧
    (completesLocalStore (.stw h (.long rd ra x)) h 4 4 lng (low 4) ∧
      completesBusStore (.stw h (.long rd ra x)) h 4 4 lng (low 4)) ∧
    (completesLocalStore (.sth h (.long rd ra x)) h 4 2 lng (low 2) ∧
      completesBusStore (.sth h (.long rd ra x)) h 4 2 lng (low 2)) ∧
    (completesLocalStore (.stb h (.long rd ra x)) h 4 1 lng (low 1) ∧
      completesBusStore (.stb h (.long rd ra x)) h 4 1 lng (low 1)) ∧
    (rd % 2 = 0 → completesLocalStore (.stp h (.short rd ra)) h 2 2 at_ (pt (rd + 1)) ∧
      completesBusStore (.stp h (.short rd ra)) h 2 2 at_ (pt (rd + 1))) ∧
    (∀ rq : Nat,
      let a (k : CoreState) : Nat := (k.reg ra + 2 * (BitVec.ofNat 7 x).signExtend 32).toNat
      completesLocalStore (.stp h (.long rd rq ra false x)) h 4 2 a (pt rq) ∧
        completesBusStore (.stp h (.long rd rq ra false x)) h 4 2 a (pt rq))

/-- With an operation of a context running, LDX of a word offset writes the window's word to rd, and STX to a
timer or to the firmware state writes rd into the window and marks its bytes as written; nothing else changes.
Each raises CTXERR with FADDR = u where no operation with CTX not 0 runs or u is not a multiple of 4, and STX
also at 0x00 to 0x03 and 0x14 to 0x3F. (spec/08 R274) -/
def Obligations.ClaloContextWindow : Prop :=
  ∀ (s : State) (h : Head) (long : Bool) (rd u : Nat), s.executes h (if long then 4 else 2) = true → u < 256 →
    let k := s.core h.core
    let f := s.fetched h.core (if long then 4 else 2)
    let next := k.pc + BitVec.ofNat 32 (if long then 4 else 2)
    let runs : Bool := k.inop && k.opCtx != 0
    let open_ : Bool := !decide (u < 4) && !(decide (0x14 ≤ u) && decide (u < 0x40))
    (runs = true → u % 4 = 0 →
      (∃ t v, exec (.ldx h long rd u) s = .next t ∧ f.movedTo t h.core (k.result rd v false k.flags) next ∧
        ∀ i, i < 4 → BitVec.ofNat 8 (v.toNat / 256 ^ i) = k.window.get 0 (u + i)) ∧
      (open_ = true → ∃ t, exec (.stx h long rd u) s = .next t ∧
        (∀ i, i < 4 → (t.core h.core).window.get 0 (u + i) = BitVec.ofNat 8 ((k.reg rd).toNat / 256 ^ i) ∧
          (t.core h.core).written.get false (u + i) = true) ∧
        (∀ i, (i < u ∨ u + 4 ≤ i) → (t.core h.core).window.get 0 i = k.window.get 0 i ∧
          (t.core h.core).written.get false i = k.written.get false i) ∧
        f.movedTo t h.core { k with window := (t.core h.core).window, written := (t.core h.core).written } next)) ∧
    (k.level ≠ .fault →
      ((runs = false ∨ u % 4 ≠ 0) → ∃ t, exec (.ldx h long rd u) s = .next t ∧
        f.tookFault t h.core (k.faulted 5 k.pc (some (BitVec.ofNat 32 u)) false false)) ∧
      ((runs = false ∨ u % 4 ≠ 0 ∨ open_ = false) → ∃ t, exec (.stx h long rd u) s = .next t ∧
        f.tookFault t h.core (k.faulted 5 k.pc (some (BitVec.ofNat 32 u)) false false)))

/-- MFS of each of the fifteen special registers writes its contents to rd and changes nothing else; MTS of each
writable one stores rd as its layout admits. MFS of any other number, and MTS of a read-only register or of any
other number, raise UNDEF. (spec/08 R258, spec/08 R263, spec/08 R265, spec/08 R266) -/
def Obligations.ClaloSpecialRegisters : Prop :=
  ∀ (s : State) (h : Head) (rd sr : Nat), s.executes h 4 = true →
    let k := s.core h.core
    let v := k.reg rd
    let f := s.fetched h.core 4
    let id_ : Nat := h.core + 256 * (if h.core < 16 then h.core / 4 else 7)
    let fl : Nat := (if k.flags.p then 16 else 0) + (if k.flags.n then 8 else 0) + (if k.flags.z then 4 else 0) +
      (if k.flags.c then 2 else 0) + (if k.flags.v then 1 else 0)
    let info : Nat := (if k.inop then 2 ^ 31 else 0) + k.opNode % 4096 * 65536 + k.opCtx % 256
    let reads : List (Nat × Word) := [(0x00, BitVec.ofNat 32 fl), (0x01, BitVec.ofNat 32 id_), (0x02, BitVec.ofNat 32 info),
      (0x03, k.vbase), (0x04, k.epc), (0x05, k.eflags), (0x06, k.fcause), (0x07, k.faddr), (0x08, k.npc),
      (0x09, k.nflags), (0x0A, k.upc), (0x0B, k.uflags), (0x0C, k.cycles), (0x0D, k.splim), (0x0E, k.opsp)]
    let writes : List (Nat × CoreState) := [(0x00, { k with flags := .inWord v }), (0x03, { k with vbase := v &&& 0xFFFFFF80 }),
      (0x04, { k with epc := v }), (0x05, { k with eflags := v &&& 0x71F }), (0x08, { k with npc := v }),
      (0x09, { k with nflags := v &&& 0x71F }), (0x0A, { k with upc := v }), (0x0B, { k with uflags := v &&& 0x71F }),
      (0x0D, { k with splim := v }), (0x0E, { k with opsp := v })]
    (∀ w, reads.lookup sr = some w → ∃ t, exec (.mfs h rd sr) s = .next t ∧
      f.movedTo t h.core (k.result rd w false k.flags) (k.pc + 4)) ∧
    (∀ k', writes.lookup sr = some k' → ∃ t, exec (.mts h rd sr) s = .next t ∧ f.movedTo t h.core k' (k.pc + 4)) ∧
    (k.level ≠ .fault → reads.lookup sr = none → ∃ t, exec (.mfs h rd sr) s = .next t ∧
      f.tookFault t h.core (k.faulted 1 k.pc none false false)) ∧
    (k.level ≠ .fault → writes.lookup sr = none → ∃ t, exec (.mts h rd sr) s = .next t ∧
      f.tookFault t h.core (k.faulted 1 k.pc none false false))

/-- TRAP n and BREAK complete and take vectors 7 and 8 with EPC at the next instruction, BREAK halting the core
instead where debug is open and enabled. RETE restores flags, level and PC of the level that is left, or the
idle state. WAIT at THREAD level without an operation makes the core idle. An undefined encoding takes UNDEF, a
failed buffered store an imprecise BUSERR. A fault at FAULT level locks the core up with its cause recorded and
its source raised. (spec/08 R263, spec/08 R267, spec/08 R279, spec/08 R285, spec/08 R297, spec/08 R299, spec/08
R300, spec/08 R301, spec/08 R303) -/
def Obligations.ClaloTrapsAndReturns : Prop :=
  (∀ (s : State) (h : Head) (long : Bool) (n : Nat), s.executes h (if long then 4 else 2) = true →
    let k := s.core h.core
    let f := s.fetched h.core (if long then 4 else 2)
    let next := k.pc + BitVec.ofNat 32 (if long then 4 else 2)
    (k.level ≠ .fault → ∃ u t, exec (.trap h long n) s = .next t ∧ f.movedTo u h.core k next ∧
      u.tookFault t h.core (k.faulted 7 next (some (BitVec.ofNat 32 (n % 16))) false false)) ∧
    ((s.coreDebugOpen h.core && s.on R.CC_CTRL.DBG_EN h.core) = false → k.level ≠ .fault →
      ∃ u t, exec (.brk h long) s = .next t ∧ f.movedTo u h.core k next ∧
        u.tookFault t h.core (k.faulted 8 next none false false)) ∧
    ((s.coreDebugOpen h.core && s.on R.CC_CTRL.DBG_EN h.core) = true →
      ∃ t, exec (.brk h long) s = .next t ∧ f.movedTo t h.core { k with run := .halt } next) ∧
    (k.level = .thread → k.inop = false →
      ∃ t, exec (.wait h long) s = .next t ∧ f.movedTo t h.core { k with run := .idle } next) ∧
    (∀ pc w : Word, k.level ≠ .thread →
      (pc, w) = (match k.level with | .fault => (k.epc, k.eflags) | .urgent => (k.upc, k.uflags) | _ => (k.npc, k.nflags)) →
      ∃ t, exec (.rete h long) s = .next t ∧
        f.movedTo t h.core { k with flags := .inWord w, level := .ofCode (w.toNat / 256 % 4)
                                    run := if w.getLsbD 10 then .idle else .run }
          (if w.getLsbD 10 then k.pc else pc))) ∧
  (∀ (s : State) (c : Nat) (h0 h1 : Half), decodeClalo c h0 h1 = none →
    let len := if h0.toNat / 8192 = 7 then 4 else 2
    s.executes ⟨c, 0⟩ len = true →
    ((s.core c).level ≠ .fault → ∃ t, exec (.undefinedEncoding c h0 h1) s = .next t ∧
      (s.fetched c len).tookFault t c ((s.core c).faulted 1 (s.core c).pc none false false)) ∧
    ((s.core c).level = .fault → c ≠ 16 → ∃ t, exec (.undefinedEncoding c h0 h1) s = .next t ∧
      t.core c = { s.core c with run := .lockup } ∧ t.rd R.CC_FAULT_PC.EPC c = (s.core c).pc.toNat ∧
      t.rd R.CC_FAULT_INFO.FCAUSE c = 1 ∧ t.rd R.CC_FAULT_INFO.VALID c = 1 ∧
      t.src (shared (192 + c)) = (s.src (shared (192 + c))).event ∧ t.mem.coreRam = s.mem.coreRam)) ∧
  (∀ (s : State) (c a : Nat), s.awake = true → s.coreReady c = true → s.atTakePoint c = true →
    (s.core c).impr = some a → (s.core c).level ≠ .fault →
    ∃ t, exec (.storeBufferError c) s = .next t ∧ (s.entryEnd c).tookFault t c
      { (s.core c).faulted 3 (s.core c).pc (some (BitVec.ofNat 32 a)) true false with impr := none, entering := none })

/-- An idle core takes the loaded operation of its slot with the registers of R268. DONE and DETACH at THREAD
level, with every store acknowledged, end it: the core is idle, CC_OPS counts, the firmware state is written
back, and DONE leaves the node out of flight with its qualifying successors posted, one per tick, the node idle
with the last; DETACH leaves it to the MAC or CAN controller that the context is bound to and that still holds
descriptors or buffers of it, behind those that wait there, and ends it like DONE with SEL 0 where the context
is bound to neither, and where the MAC holds none of it with SEL 1 if one failed. FENCE completes once every
store is acknowledged, and waits until then, as DONE does. POST answers in Z, P and rd, after the posts that
wait before it. A core enters the level of the line whose interrupt it takes and fetches its vector, a fault of
which has EPC at the vector; an entry ends spurious where no source is presented at its end. (spec/08 R268,
spec/08 R269, spec/08 R270, spec/08 R286, spec/08 R291, spec/06 R212, spec/06 R217, spec/06 R218, spec/06 R222,
spec/09 R322, spec/09 R320) -/
def Obligations.ClaloOperations : Prop :=
  (∀ (s : State) (c : Nat), c < 17 → s.awake = true → (s.slot c).phase = .loaded → s.agentIdle c = true →
    s.clocked c = true → s.takenLine c = none →
    ∃ t, exec (.operationTake c) s = .next t ∧ (t.slot c).phase = .empty ∧
      (t.dyn (s.slot c).node).state = .running ∧ t.core c = { s.core c with
        g := ((((s.core c).g.set 0 1 (BitVec.ofNat 32 (nDesc (s.node (s.slot c).node)))).set 0 2
          (BitVec.ofNat 32 (s.slot c).node)).set 0 3 (BitVec.ofNat 32 (s.slot c).ctx)).set 0 14 (s.core c).opsp
        pc := BitVec.ofNat 32 (0xE0000000 + s.nodeArg (s.slot c).node), flags := {}, level := .thread, run := .run
        inop := true, opNode := (s.slot c).node, opCtx := (s.slot c).ctx, window := (s.slot c).window, written := []
        begun := false } ∧
      (∀ d, d ≠ c → t.core d = s.core d) ∧ t.regs = s.regs ∧ t.mem = s.mem) ∧
  (∀ (s : State) (h : Head) (long : Bool) (sel : Nat), s.executes h (if long then 4 else 2) = true →
    (s.core h.core).inop = true → (s.core h.core).level = .thread → (s.core h.core).impr = none →
    s.postedOf h.core = 0 →
    let k := s.core h.core
    let idle : CoreState := { k with pc := k.pc + BitVec.ofNat 32 (if long then 4 else 2), run := .idle, inop := false, begun := false }
    (∃ t, exec (.done h long sel) s = .next t ∧ t.core h.core = idle ∧ (∀ d, d ≠ h.core → t.core d = s.core d) ∧
      t.rd R.CC_OPS.OPS h.core = min (s.rd R.CC_OPS.OPS h.core + 1) R.CC_OPS.OPS.max ∧
      t.inflight = s.inflight - 1 ∧
      (let qs := (s.succs k.opNode).filter fun e => condHolds e (sel % 4)
       (qs.length ≤ 1 → (t.dyn k.opNode).state ≠ .running) ∧
       (2 ≤ qs.length → (t.dyn k.opNode).state = .running ∧ (s.tick + (qs.length - 1), k.opNode) ∈ t.pour.ending) ∧
       ∀ i e, qs[i]? = some e → ∃ q ∈ t.pour.posts, q.arr = s.tick + i ∧ q.node = bitsOf e 11 0 ∧
         q.input = bitsOf e 13 12 ∧ q.prod = .completion) ∧
      (k.opCtx ≠ 0 → ∀ b, 0x40 ≤ b → b < 256 → t.ctxByte k.opCtx b = k.window.get 0 b) ∧ t.mem.bytes = s.mem.bytes) ∧
    (∃ t, exec (.detach h long) s = .next t ∧ t.core h.core = idle ∧ (∀ d, d ≠ h.core → t.core d = s.core d) ∧
      t.rd R.CC_OPS.OPS h.core = min (s.rd R.CC_OPS.OPS h.core + 1) R.CC_OPS.OPS.max ∧ t.mem.bytes = s.mem.bytes ∧
      (k.opCtx ≠ 0 → ∀ b, 0x40 ≤ b → b < 256 → t.ctxByte k.opCtx b = k.window.get 0 b) ∧
      (let b := s.bindOf k.opCtx
       (k.opCtx ≠ 0 → b.1 = 1 →
         (∀ w ∈ (s.macOf b.2).waiting ++ [(k.opNode, k.opCtx)], ∃ o ∈ (s.macOf b.2).owned, o.1 = w.2) →
         (t.dyn k.opNode).state = .detached ∧ (k.opNode, k.opCtx) ∈ t.pour.detached ∧
         (t.macOf b.2).waiting = (s.macOf b.2).waiting ++ [(k.opNode, k.opCtx)] ∧ t.inflight = s.inflight) ∧
       (k.opCtx ≠ 0 → b.1 = 2 →
         (∀ w ∈ (s.canCtl b.2).waiting ++ [(k.opNode, k.opCtx)], ∃ o ∈ (s.canCtl b.2).owned, o.1 = w.2) →
         (t.dyn k.opNode).state = .detached ∧ (k.opNode, k.opCtx) ∈ t.pour.detached ∧
         (t.canCtl b.2).waiting = (s.canCtl b.2).waiting ++ [(k.opNode, k.opCtx)] ∧ t.inflight = s.inflight) ∧
       (k.opCtx ≠ 0 → b.1 = 1 → (s.macOf b.2).waiting = [] → (∀ o ∈ (s.macOf b.2).owned, o.1 ≠ k.opCtx) →
         (t.macOf b.2).waiting = [] ∧ ∀ e ∈ s.succs k.opNode,
           condHolds e (if (s.macOf b.2).failed.contains k.opCtx then 1 else 0) = true →
           ∃ q ∈ t.pour.posts, q.node = bitsOf e 11 0 ∧ q.input = bitsOf e 13 12 ∧ q.prod = .completion) ∧
       ((k.opCtx = 0 ∨ (b.1 ≠ 1 ∧ b.1 ≠ 2)) → t.inflight = s.inflight - 1 ∧
         ∀ e ∈ s.succs k.opNode, condHolds e 0 = true →
           ∃ q ∈ t.pour.posts, q.node = bitsOf e 11 0 ∧ q.input = bitsOf e 13 12 ∧ q.prod = .completion)))) ∧
  (∀ (s : State) (h : Head) (long : Bool), s.executes h (if long then 4 else 2) = true → s.postedOf h.core = 0 →
    (s.core h.core).impr = none →
    ∃ t, exec (.fence h long) s = .next t ∧ (s.fetched h.core (if long then 4 else 2)).movedTo t h.core (s.core h.core)
      ((s.core h.core).pc + BitVec.ofNat 32 (if long then 4 else 2))) ∧
  (∀ (s : State) (h : Head) (long : Bool) (sel : Nat), s.executes h (if long then 4 else 2) = true →
    s.postedOf h.core ≠ 0 →
    exec (.fence h long) s = .next ((s.fetched h.core (if long then 4 else 2)).begin h.core) ∧
    ((s.core h.core).inop = true → (s.core h.core).level = .thread →
      exec (.done h long sel) s = .next ((s.fetched h.core (if long then 4 else 2)).begin h.core))) ∧
  (∀ (s : State) (h : Head) (rd input node : Nat) (ok : Bool), s.executes h 4 = true → s.pour.posts = [] →
    ok = (s.postRefusal ⟨s.tick, .core h.core, node % 4096, input % 4, 0⟩).isNone →
    ∃ t, exec (.post h (.imm rd input node)) s = .next t ∧
      t.core h.core = { (s.core h.core).result rd (if ok then 1 else 2) true
        { (s.core h.core).flags with z := ok, p := ok } with pc := (s.core h.core).pc + 4, begun := false } ∧
      t.pour.posts = [] ∧ t.mem.coreRam = s.mem.coreRam) ∧
  (∀ (s : State) (h : Head) (long : Bool) (ra : Nat) (ok : Bool), s.executes h (if long then 4 else 2) = true →
    s.pour.posts = [] →
    ok = (s.postRefusal ⟨s.tick, .core h.core, ((s.core h.core).reg ra).toNat % 4096,
      ((s.core h.core).reg ra).toNat / 4096 % 4, 0⟩).isNone →
    ∃ t, exec (.post h (.reg long ra)) s = .next t ∧ t.core h.core = { s.core h.core with
      flags := { (s.core h.core).flags with z := ok, p := ok }
      pc := (s.core h.core).pc + BitVec.ofNat 32 (if long then 4 else 2), begun := false }) ∧
  (∀ (s : State) (h : Head) (o : PostForm), s.executes h (postLen o) = true →
    let k := s.core h.core
    let x : Nat × Nat := match o with
      | .reg _ ra => ((k.reg ra).toNat % 4096, (k.reg ra).toNat / 4096 % 4)
      | .imm _ input node => (node % 4096, input % 4)
    let r := (s.fetched h.core (postLen o)).postAndWait (.core h.core) x.1 x.2
    let k1 : CoreState := match o with
      | .reg _ _ => k
      | .imm rd _ _ => { k with g := k.g.set 0 (rd % 16) (if r.2 then 1 else 2) }
    ∃ t, exec (.post h o) s = .next t ∧ t.pour = r.1.pour ∧ t.core h.core = { k1 with
      flags := { k.flags with z := r.2, p := r.2 }, pc := k.pc + BitVec.ofNat 32 (postLen o), begun := false } ∧
      (∀ d, d ≠ h.core → t.core d = s.core d)) ∧
  (∀ (s : State) (c : Nat) (u : Bool), s.awake = true → s.atTakePoint c = true → s.clocked c = true →
    (s.entryEnd c).storeErrorDue c = false → (s.entryEnd c).takenLine c = some u →
    let k := s.core c
    let vector : Word := k.vbase + (if u then 0x50 else 0x48)
    let idle : Bool := k.run == .idle
    let pc : Word := if idle then 0 else k.pc
    let saved : Word := BitVec.ofNat 32 (k.flags.code + k.level.code * 256 + (if idle then 1024 else 0))
    ∃ w : State, exec (.interruptTake c u) s = .next (w.vectorFetch c) ∧ w.core c = { k with
        upc := if u then pc else k.upc, uflags := if u then saved else k.uflags
        npc := if u then k.npc else pc, nflags := if u then k.nflags else saved
        flags := {}, level := if u then .urgent else .normal, run := .run
        pc := vector, entering := some (u, s.tick + 5), begun := false } ∧
      (∀ d, d ≠ c → w.core d = s.core d) ∧ { w with cores := s.cores } = { s.entryEnd c with cores := s.cores } ∧
      ((halvesOf vector 4).all (fun a => fetchable a && s.coreEcc (coreKey c (a.toNat % 0x10000)) == .clean) = true →
        w.vectorFetch c = w) ∧
      (fetchable vector = false → ((w.vectorFetch c).core c).level = .fault ∧
        ((w.vectorFetch c).core c).epc = vector ∧ ((w.vectorFetch c).core c).entering = none ∧
        ((w.vectorFetch c).core c).pc = k.vbase + 32)) ∧
  (∀ (s : State) (c d : Nat) (u l : Bool), s.awake = true → s.atTakePoint c = true → s.clocked c = true →
    (s.core c).entering = some (u, d) → (s.nextSource c u).isSome = false → s.takenLine c = none →
    ∃ t, exec (.interruptTake c l) s = .next t ∧ t.core c = { s.core c with entering := none } ∧
      (u = true → t.rd R.IC_SPURIOUS.URGENT c =
        min (s.rd R.IC_SPURIOUS.URGENT c + 1) R.IC_SPURIOUS.URGENT.max) ∧
      (u = false → t.rd R.IC_SPURIOUS.NORMAL c =
        min (s.rd R.IC_SPURIOUS.NORMAL c + 1) R.IC_SPURIOUS.NORMAL.max) ∧
      { t with cores := s.cores, regs := s.regs } = s)

/-- A write of RUN = 0 that the page accepts puts the core into reset, aborting its operation; RUN = 1 starts a
core in reset at vector 0 with every register at its reset value: cores 16 and 17 from any initiator, CC0 to
CC15 from SYS alone (that another's RUN = 1 leaves RUN as it is, is the model's choice, log 56). Both write
DBG_EN, and setting it receives an error response where debug is not open. No local RAM changes. While RUN = 0
(and for KEEP only in TEST) CC_RAM_DATA writes and reads the word of local RAM that CC_RAM_ADDR selects, and
OFFSET advances with INC; otherwise the access gets an error response. (spec/08 R304, spec/08 R305, spec/08
R306, spec/08 R307, spec/06 R219, spec/18 R600) -/
def Obligations.CoreResetAndRamAccess : Prop :=
  (∀ (s : State) (who : Initiator) (c : Nat) (dbg : Bool), c < 18 → s.takes who R.CC_CTRL.RUN c = true →
    (dbg = true → s.coreDebugOpen c = true) →
    (∃ t, exec (.coreReset who c dbg) s = .next t ∧ t.answer.error = false ∧ (t.core c).run = .reset ∧
      t.rd R.CC_CTRL.RUN c = 0 ∧ t.on R.CC_CTRL.DBG_EN c = dbg ∧ (∀ d, d ≠ c → t.core d = s.core d) ∧ t.mem = s.mem ∧
      ((s.core c).run ≠ .reset → (t.core c).inop = false ∧ (t.core c).impr = none ∧
        ((s.core c).inop = true → t.rd R.POUR_RETURN.ABORTED =
          min (s.rd R.POUR_RETURN.ABORTED + 1) R.POUR_RETURN.ABORTED.max))) ∧
    ((who = .core 16 ∨ 16 ≤ c) →
      ∃ t, exec (.coreRelease who c dbg) s = .next t ∧ t.answer.error = false ∧ t.rd R.CC_CTRL.RUN c = 1 ∧
      t.on R.CC_CTRL.DBG_EN c = dbg ∧ t.core c = (if (s.core c).run = .reset then { run := .run } else s.core c) ∧
      (∀ d, d ≠ c → t.core d = s.core d) ∧ t.mem = s.mem) ∧
    (who ≠ .core 16 → c < 16 →
      ∃ t, exec (.coreRelease who c dbg) s = .next t ∧ t.answer.error = false ∧ t.on R.CC_CTRL.DBG_EN c = dbg ∧
      t.rd R.CC_CTRL.RUN c = s.rd R.CC_CTRL.RUN c ∧ { t with regs := s.regs, answer := s.answer } = s)) ∧
  (∀ (s : State) (who : Initiator) (c : Nat) (i : Instr), c < 18 → s.takes who R.CC_CTRL.RUN c = true →
    s.coreDebugOpen c = false → (i = .coreReset who c true ∨ i = .coreRelease who c true) →
    ∃ t, exec i s = .next t ∧ t.answer.error = true ∧ t.cores = s.cores ∧ t.mem = s.mem ∧
      t.rd R.CC_CTRL.RUN c = s.rd R.CC_CTRL.RUN c) ∧
  (∀ (s : State) (who : Initiator) (c : Nat) (w : Word), c < 18 → s.takes who R.CC_RAM_DATA.DATA c = true →
    s.rd R.CC_CTRL.RUN c = 0 → (c = 17 → s.lifeCycle = .test) →
    let k := coreKey c (s.rd R.CC_RAM_ADDR.SPACE c * 0x8000 + 4 * s.rd R.CC_RAM_ADDR.OFFSET c)
    let next := if s.on R.CC_RAM_ADDR.INC c then (s.rd R.CC_RAM_ADDR.OFFSET c + 1) % 0x2000 else s.rd R.CC_RAM_ADDR.OFFSET c
    (∃ t, exec (.ccRamAccess who c (some w)) s = .next t ∧ t.answer.error = false ∧ t.coreBytes k 4 = w.toNat ∧
      (∀ x, (x < k ∨ k + 4 ≤ x) → t.mem.coreRam.get 0 x = s.mem.coreRam.get 0 x) ∧
      t.rd R.CC_RAM_ADDR.OFFSET c = next ∧ t.mem.bytes = s.mem.bytes ∧ t.cores = s.cores) ∧
    ((∀ off, s.coreEcc (coreKey c off) = .clean) →
      ∃ t, exec (.ccRamAccess who c none) s = .next t ∧ t.answer = ⟨BitVec.ofNat 64 (s.coreBytes k 4), false⟩ ∧
        t.rd R.CC_RAM_ADDR.OFFSET c = next ∧ { t with regs := s.regs, answer := s.answer } = s)) ∧
  (∀ (s : State) (who : Initiator) (c : Nat) (w : Word), c < 18 → s.takes who R.CC_RAM_DATA.DATA c = true →
    (s.rd R.CC_CTRL.RUN c = 1 ∨ (c = 17 ∧ s.lifeCycle ≠ .test)) →
    (∃ t, exec (.ccRamAccess who c (some w)) s = .next t ∧ t.answer.error = true ∧ t.mem = s.mem ∧ t.cores = s.cores) ∧
    (∃ t, exec (.ccRamAccess who c none) s = .next t ∧ t.answer.error = true ∧ t.mem = s.mem ∧ t.cores = s.cores))

/-- The first waiting post, once it is issued, is accepted where the unit is enabled, the counter is below 15,
the input is used, the list has room for a firing, and a loop input is posted by a completion: the counter
rises, and an enabled idle node whose thresholds are met pays them and joins the tail of its ready list. A
refused post changes no node and is counted by its reason; a hardware producer's is dropped and counted, or
enters retry where the op code says so; a retry returns it to the waiting posts. POUR_POSTc shows 1 for an
accepted token and 2 for a refused one, after the posts that wait before it. (spec/06 R210, spec/06 R211,
spec/06 R212, spec/06 R213, spec/06 R214, spec/06 R215) -/
def Obligations.TokenPostsAreAppliedOrRefused : Prop :=
  (∀ (s : State) (p : Post) (rest : List Post), s.awake = true → s.pour.posts = p :: rest → p.arr ≤ s.tick → p.input < 4 →
    s.on R.POUR_CTRL.EN = true →
    let e := s.node p.node
    let d := (s.dyn p.node).setCount p.input ((s.dyn p.node).count p.input + 1)
    (((s.dyn p.node).count p.input < 15 → nThresh e p.input ≠ 0 →
      (s.fill (nPrio e) < 512 ∨ nEn e = false ∨ (s.dyn p.node).state ≠ .idle ∨ ∃ i, i < 4 ∧ d.count i < nThresh e i) →
      (nLoop e && p.input == nLoopIn e && p.prod != .completion) = false →
      ∃ t, exec .tokenPostApply s = .next t ∧ t.pour.posts = rest ∧ (∀ n, n ≠ p.node → t.dyn n = s.dyn n) ∧
        (nEn e = true → (s.dyn p.node).state = .idle → (∀ i, i < 4 → nThresh e i ≤ d.count i) →
          t.dyn p.node = { d with c0 := d.c0 - nThresh e 0, c1 := d.c1 - nThresh e 1, c2 := d.c2 - nThresh e 2
                                  c3 := d.c3 - nThresh e 3, state := .ready } ∧
          t.level (nPrio e) = s.level (nPrio e) ++ [⟨p.node, false⟩]) ∧
        ((nEn e = false ∨ (s.dyn p.node).state ≠ .idle ∨ ∃ i, i < 4 ∧ d.count i < nThresh e i) →
          t.dyn p.node = d ∧ t.pour.ready = s.pour.ready) ∧
        { t with pour := s.pour, regs := s.regs } = s) ∧
     ((s.dyn p.node).count p.input = 15 → (∃ c, p.prod = .mac c) →
      ∃ t, exec .tokenPostApply s = .next t ∧ t.pour.posts = rest ∧ t.pour.dyn = s.pour.dyn ∧
        t.rd R.POUR_REFUSE.COUNT_MAX = min (s.rd R.POUR_REFUSE.COUNT_MAX + 1) R.POUR_REFUSE.COUNT_MAX.max ∧
        (bit (s.opcode (nOpcode e)) 29 = false → t.pour.retry = s.pour.retry ∧
          t.rd R.POUR_DROP.DROPPED = min (s.rd R.POUR_DROP.DROPPED + 1) R.POUR_DROP.DROPPED.max) ∧
        (bit (s.opcode (nOpcode e)) 29 = true → p.tries = 0 → s.pour.retry = [] → (∀ q ∈ rest, q.prod ≠ p.prod) →
          t.pour.retry = [p] ∧ t.rd R.POUR_DROP.DROPPED = s.rd R.POUR_DROP.DROPPED)))) ∧
  (∀ (s : State) (p : Post) (rest : List Post), s.awake = true → s.pour.posts = p :: rest → s.tick < p.arr →
    exec .tokenPostApply s = .next s) ∧
  (∀ (s : State) (p : Post) (rest : List Post) (r : PostRefusal), s.awake = true → s.pour.posts = p :: rest →
    p.arr ≤ s.tick → s.postRefusal p = some r →
    let o := s.opcode (nOpcode (s.node p.node))
    let max := if bitsOf o 28 25 = 0 then 1 else bitsOf o 28 25
    ∃ t, exec .tokenPostApply s = .next t ∧ t.pour.posts = rest ∧ t.pour.dyn = s.pour.dyn ∧ t.pour.ready = s.pour.ready ∧
      (r = .countMax → t.rd R.POUR_REFUSE.COUNT_MAX =
        min (s.rd R.POUR_REFUSE.COUNT_MAX + 1) R.POUR_REFUSE.COUNT_MAX.max) ∧
      (r = .full → t.rd R.POUR_REFUSE.FULL = min (s.rd R.POUR_REFUSE.FULL + 1) R.POUR_REFUSE.FULL.max) ∧
      (r = .misroute → t.rd R.POUR_MISC.MISROUTE = min (s.rd R.POUR_MISC.MISROUTE + 1) R.POUR_MISC.MISROUTE.max) ∧
      (∀ c, p.prod = .channel c → c < 16 → t.rd R.POUR_POST_RESc.RESULT 0 c = 2) ∧
      ((∀ c, p.prod ≠ .channel c ∧ p.prod ≠ .core c ∧ p.prod ≠ .steep c) →
        (bit o 29 = false ∨ max ≤ p.tries → t.pour.retry = s.pour.retry ∧
          t.rd R.POUR_DROP.DROPPED = min (s.rd R.POUR_DROP.DROPPED + 1) R.POUR_DROP.DROPPED.max) ∧
        (bit o 29 = true → 0 < p.tries → p.tries < max → t.pour.retry = s.pour.retry ++ [p] ∧
          t.rd R.POUR_DROP.DROPPED = s.rd R.POUR_DROP.DROPPED))) ∧
  (∀ (s : State) (n : Nat) (p : Post), s.awake = true → s.pour.retry[n]? = some p →
    ∃ t, exec (.postRetry n) s = .next t ∧ t.pour.retry = s.pour.retry.eraseIdx n ∧
      ({ p with arr := s.tick, tries := p.tries + 1 } : Post) ∈ t.pour.posts ∧ (∀ q ∈ s.pour.posts, q ∈ t.pour.posts) ∧
      t.rd R.POUR_DROP.RETRIED = min (s.rd R.POUR_DROP.RETRIED + 1) R.POUR_DROP.RETRIED.max ∧
      { t with pour := { t.pour with posts := s.pour.posts, retry := s.pour.retry }, regs := s.regs } = s) ∧
  (∀ (s : State) (who : Initiator) (c : Nat) (v : Word), c < 16 → s.takes who R.POUR_POSTc.NODE 0 c = true →
    s.pour.posts = [] →
    let q : Post := ⟨s.tick, .channel c, v.toNat % 4096, v.toNat / 4096 % 4, 0⟩
    ∃ t, exec (.pourPost who c v) s = .next t ∧ t.answer.error = false ∧ t.pour.posts = [] ∧
      t.rd R.POUR_POST_RESc.RESULT 0 c = (if (s.postRefusal q).isNone then 1 else 2) ∧
      ((s.postRefusal q).isSome = true → t.pour = s.pour) ∧
      { t with pour := s.pour, regs := s.regs, pt := s.pt, answer := s.answer } = s) ∧
  (∀ (s : State) (who : Initiator) (c : Nat) (v : Word), c < 16 → s.takes who R.POUR_POSTc.NODE 0 c = true →
    let r := s.postAndWait (.channel c) (v.toNat % 4096) (v.toNat / 4096 % 4)
    ∃ t, exec (.pourPost who c v) s = .next t ∧ t.answer.error = false ∧ t.pour = r.1.pour ∧
      t.rd R.POUR_POST_RESc.RESULT 0 c = if r.2 then 1 else 2)

/-- DISPATCH places the entry that a port chooses in its slot, movers before cores, and counts a stall where 256
operations are in flight; the preload completes it with the context's bytes, and a mover's with the descriptor;
a mover takes its loaded operation. The end of a mover's operation, and of a detached one whose block holds
nothing of it any more, takes the node out of flight and posts the successors that SEL qualifies, one per tick,
the node idle with the last. A session timer that reaches 0, from its last tick, posts its token and reloads or
stops, and nothing happens at any other value; a detached operation whose block still holds something of it goes
on. HOLD empties every filling and loaded slot; SET_EN and CLR_EN set EN of their node and of no other. (spec/06
R208, spec/06 R213, spec/06 R217, spec/06 R218, spec/06 R220, spec/06 R221, spec/06 R222, spec/06 R223, spec/06
R225, spec/06 R227, spec/07 R237) -/
def Obligations.OperationsAreDispatchedAndEnded : Prop :=
  (let levels : List Nat := [7, 6, 5, 4, 3, 2, 1, 0]
   ∀ (s : State) (mover : Bool) (n k : Nat), s.awake = true → s.on R.POUR_CTRL.HOLD = false →
    s.rd R.WK_STATUS.STATE < 2 → s.inflight < 256 → levels.findSome? (s.choose mover) = some (n, k) →
    (mover = false → levels.findSome? (s.choose true) = none) →
    ∃ t, exec .dispatch s = .next t ∧ (t.slot k).phase = .filling ∧ (t.slot k).node = n ∧
      (t.slot k).ctx = nCtx (s.node n) ∧ (t.dyn n).state = .slotted ∧ s.inflight < t.inflight ∧
      t.pour.nodes = s.pour.nodes ∧ t.mem = s.mem ∧ t.cores = s.cores ∧ t.movers = s.movers) ∧
  (let levels : List Nat := [7, 6, 5, 4, 3, 2, 1, 0]
   ∀ (s : State) (n k m j : Nat), s.awake = true → s.on R.POUR_CTRL.HOLD = false → s.rd R.WK_STATUS.STATE < 2 →
    s.inflight < 256 → levels.findSome? (s.choose true) = some (n, k) →
    levels.findSome? ((s.place n k).choose false) = some (m, j) → (s.place n k).inflight < 256 →
    ∃ t, exec .dispatch s = .next t ∧ (t.slot j).phase = .filling ∧ (t.slot j).node = m ∧
      (t.dyn m).state = .slotted ∧ t.mem = s.mem ∧ t.cores = s.cores) ∧
  (let levels : List Nat := [7, 6, 5, 4, 3, 2, 1, 0]
   ∀ s : State, s.awake = true → s.on R.POUR_CTRL.HOLD = false → s.rd R.WK_STATUS.STATE < 2 → 256 ≤ s.inflight →
    ((levels.findSome? (s.choose true)).isSome = true ∨ (levels.findSome? (s.choose false)).isSome = true) →
    ∃ t, exec .dispatch s = .next t ∧
      t.rd R.POUR_STALL.TICKS = min (s.rd R.POUR_STALL.TICKS + 1) R.POUR_STALL.TICKS.max ∧
      (∀ a, a ≠ R.POUR_STALL.TICKS.addr 0 0 → t.reg a = s.reg a) ∧ { t with regs := s.regs } = s) ∧
  (∀ s : State, s.awake = true → (s.on R.POUR_CTRL.HOLD = true ∨ 2 ≤ s.rd R.WK_STATUS.STATE) →
    exec .dispatch s = .next s) ∧
  (∀ (s : State) (k : Nat), s.awake = true → (s.slot k).phase = .filling →
    ∃ t, exec (.slotLoaded k) s = .next t ∧ (t.slot k).phase = .loaded ∧ (t.slot k).node = (s.slot k).node ∧
      (∀ b, b < 256 → (t.slot k).window.get 0 b = (if (s.slot k).ctx = 0 then 0 else s.ctxByte (s.slot k).ctx b)) ∧
      (17 ≤ k → (t.slot k).desc = s.descBytes (nDesc (s.node (s.slot k).node))) ∧
      (∀ j, j ≠ k → t.slot j = s.slot j) ∧ { t with pour := { t.pour with slots := s.pour.slots } } = s) ∧
  (∀ (s : State) (m : Nat), m < 4 → s.awake = true → (s.slot (17 + m)).phase = .loaded → s.agentIdle (17 + m) = true →
    ∃ t, exec (.operationTake (17 + m)) s = .next t ∧ (t.mov m).busy = true ∧ (t.mov m).node = (s.slot (17 + m)).node ∧
      (t.mov m).next = 0 ∧ (t.mov m).pipe = (s.mov m).pipe ∧ (t.slot (17 + m)).phase = .empty ∧
      (t.dyn (s.slot (17 + m)).node).state = .running ∧ t.cores = s.cores ∧ t.mem = s.mem) ∧
  (let ended (s t : State) (n sel : Nat) : Prop :=
    let qs := (s.succs n).filter fun e => condHolds e sel
    t.inflight = s.inflight - 1 ∧ (t.dyn n).state ≠ .detached ∧ (∀ e ∈ t.pour.detached, e.1 ≠ n) ∧
    (qs.length ≤ 1 → (t.dyn n).state ≠ .running) ∧
    (2 ≤ qs.length → (t.dyn n).state = .running ∧ (s.tick + (qs.length - 1), n) ∈ t.pour.ending) ∧
    (∀ i e, qs[i]? = some e → ∃ q ∈ t.pour.posts, q.arr = s.tick + i ∧ q.node = bitsOf e 11 0 ∧
      q.input = bitsOf e 13 12 ∧ q.prod = .completion) ∧
    (∀ m, m ≠ n → t.dyn m = s.dyn m) ∧ t.mem = s.mem ∧ t.cores = s.cores
   (∀ (s : State) (m : Nat), m < 4 → s.awake = true → s.moverDone m = true →
    ∃ t, exec (.operationComplete m) s = .next t ∧ (t.mov m).busy = false ∧
      ended s t (s.mov m).node ((if (s.mov m).sel0 then 1 else 0) + (if (s.mov m).sel1 then 2 else 0))) ∧
   (∀ (s : State) (n : Nat) (err : Bool), s.awake = true → (s.dyn n).state = .detached →
    s.transferOver n = true →
    ∃ t, exec (.detachedComplete n err) s = .next t ∧ ended s t n (if err then 1 else 0)) ∧
   (∀ (s : State) (n : Nat) (err : Bool), ((s.dyn n).state ≠ .detached ∨ s.transferOver n = false) →
    exec (.detachedComplete n err) s = .next s)) ∧
  (∀ (s : State) (x k : Nat), (bit (s.ctxWord x (8 + 8 * k)) 31 = false ∨ s.ctxWord x (4 + 8 * k) ≠ 1) →
    exec (.contextTimerExpire x k) s = .next s) ∧
  (∀ (s : State) (x k : Nat), s.awake = true → 1 ≤ x → x ≤ 255 → k < 2 → s.ctxWord x (4 + 8 * k) = 1 →
    let ctl := s.ctxWord x (8 + 8 * k)
    bit ctl 31 = true →
    ∃ t, exec (.contextTimerExpire x k) s = .next t ∧
      (∃ q ∈ t.pour.posts, q.prod = .timer x k ∧ q.node = bitsOf ctl 11 0 ∧ q.input = bitsOf ctl 13 12) ∧
      (bit ctl 30 = true → t.ctxWord x (4 + 8 * k) = (s.pour.reload.get 0 (2 * x + k)).toNat ∧
        t.ctxWord x (8 + 8 * k) = ctl) ∧
      (bit ctl 30 = false → t.ctxWord x (4 + 8 * k) = 0 ∧ t.ctxWord x (8 + 8 * k) = ctl % 2 ^ 31) ∧
      (∀ y b, b < 256 → (y ≠ x ∨ b < 4 + 8 * k ∨ 12 + 8 * k ≤ b) → t.ctxByte y b = s.ctxByte y b) ∧
      { t with pour := s.pour } = s) ∧
  (∀ (s : State) (who : Initiator) (en : Bool), s.takes who R.POUR_CTRL.HOLD = true →
    ∃ t, exec (.pourHold who en) s = .next t ∧ t.answer.error = false ∧ t.on R.POUR_CTRL.HOLD = true ∧
      t.on R.POUR_CTRL.EN = en ∧ (∀ k, (t.slot k).busy = false) ∧ t.pour.nodes = s.pour.nodes ∧ t.mem = s.mem) ∧
  (∀ (s : State) (who : Initiator) (n : Nat), s.takes who R.POUR_NODE_CTRL.SET_EN = true → n < 4096 →
    (∃ t, exec (.setEn who n) s = .next t ∧ t.answer.error = false ∧ nEn (t.node n) = true ∧
      (∀ m, m ≠ n → t.node m = s.node m ∧ t.dyn m = s.dyn m) ∧ { t with pour := s.pour, answer := s.answer } = s) ∧
    (∃ t, exec (.clrEn who n) s = .next t ∧ t.answer.error = false ∧ nEn (t.node n) = false ∧
      (∀ m, m ≠ n → t.node m = s.node m) ∧ ((∀ e ∈ s.pour.slots, e.2.busy = true → e.2.node ≠ n) →
        t.pour.dyn = s.pour.dyn ∧ { t with pour := s.pour, answer := s.answer } = s)))

/-- With no pending write in the way of a read of its next point, a mover takes the bus's answer, or, where the
slot read the source ahead and it still stands, that without an access; with the last read the point enters the
pipeline, marked as failed where a read failed; a read that meets a pending write waits, and one that waits for
a far unit leaves the point issued. The oldest point whose reads are made is written and counted, a collision at
port A among it, or counted in error with no write after a failed read, or as skipped with none. COPY passes a
live point on and skips a dead one; SCALE with no deadband rounds or truncates, limits, and marks saturation.
HOLD = 1 stops the mover, aborts its operation and discards its slot. (spec/07 R237, spec/07 R240, spec/07 R242,
spec/07 R243, spec/07 R244, spec/07 R245, spec/07 R251, spec/07 R256, spec/07 R257) -/
def Obligations.MoversReadComputeAndWrite : Prop :=
  (∀ (s u : State) (m : Nat) (r : MovRead) (x : AccRes), m < 4 → s.awake = true → (s.mov m).busy = true →
    (s.mov m).refused = false →
    let d := parseMoverDesc (s.mov m).desc
    let a := d.readAt (s.mov m).op (s.mov m).next (s.mov m).got r
    ((s.mov m).pipe.all fun p => p.missing.isEmpty) = true → (s.mov m).next < d.count → (d.reads (s.mov m).op).drop (s.mov m).got.length = [r] →
    s.pendingHit (s.mov m).pipe a.1 a.2 = false → s.sourceAhead m r a.1 a.2 = none → s.busRead (.mover m) a.1 a.2 true = (u, x) →
    (∀ v, x = .data v → ∃ t, exec (.moverPointIssue m) s = .next t ∧
      t.mov m = { u.mov m with next := (u.mov m).next + 1, got := [], asked := false, pipe := (u.mov m).pipe ++
        [{ node := (u.mov m).node, op := (u.mov m).op, desc := (u.mov m).desc, index := (u.mov m).next
           vals := (u.mov m).got ++ [v], err := false }] } ∧ { t with movers := u.movers } = u) ∧
    (x = .err → ∃ t, exec (.moverPointIssue m) s = .next t ∧
      t.mov m = { u.mov m with next := (u.mov m).next + 1, got := [], asked := false, pipe := (u.mov m).pipe ++
        [{ node := (u.mov m).node, op := (u.mov m).op, desc := (u.mov m).desc, index := (u.mov m).next
           vals := (u.mov m).got, err := true }] } ∧ { t with movers := u.movers } = u)) ∧
  (∀ (s : State) (m : Nat) (r : MovRead) (rs : List MovRead), m < 4 → s.awake = true → (s.mov m).busy = true →
    (s.mov m).refused = false →
    let d := parseMoverDesc (s.mov m).desc
    let a := d.readAt (s.mov m).op (s.mov m).next (s.mov m).got r
    ((s.mov m).pipe.all fun p => p.missing.isEmpty) = true → (s.mov m).next < d.count → (d.reads (s.mov m).op).drop (s.mov m).got.length = r :: rs →
    (s.pendingHit (s.mov m).pipe a.1 a.2 = true → exec (.moverPointIssue m) s = .next s) ∧
    (∀ v, s.pendingHit (s.mov m).pipe a.1 a.2 = false → s.sourceAhead m r a.1 a.2 = some v →
      exec (.moverPointIssue m) s = .next ((s.setMov m { s.mov m with got := (s.mov m).got ++ [v] }).issueReads m rs)) ∧
    (∀ (u : State) (v : Nat), s.pendingHit (s.mov m).pipe a.1 a.2 = false → s.sourceAhead m r a.1 a.2 = none →
      s.busRead (.mover m) a.1 a.2 true = (u, .data v) →
      exec (.moverPointIssue m) s =
        .next ((u.setMov m { u.mov m with got := (u.mov m).got ++ [v], asked := false }).issueReads m rs)) ∧
    (∀ (u : State) (n : Nat), s.pendingHit (s.mov m).pipe a.1 a.2 = false → s.sourceAhead m r a.1 a.2 = none →
      s.busRead (.mover m) a.1 a.2 true = (u, .wait n) →
      exec (.moverPointIssue m) s = .next (u.setMov m { u.mov m with asked := true }))) ∧
  (∀ (s : State) (m : Nat) (p : PipePoint) (rest : List PipePoint) (hit : Bool), m < 4 → s.awake = true →
    (s.mov m).pipe = p :: rest →
    (∀ (u : State) (w : MovWrite) (v : Nat), p.err = false → p.missing = [] → p.result.writes.drop p.wrote = [w] →
      (s.setMov m { s.mov m with node := p.node }).busWrite (.mover m) w.at_ w.size
        (w.val ||| (if w.keep = 0 then 0 else s.memRead w.at_ 1 &&& w.keep)) true = (u, .data v) →
      ∃ t, exec (.moverPointWrite ⟨m, hit⟩) s = .next t ∧ (t.mov m).pipe = rest ∧ (t.mov m).node = (s.mov m).node ∧
        t.mem = u.mem ∧ t.rd R.MOV_POINTS.POINTS m = min (u.rd R.MOV_POINTS.POINTS m + 1) R.MOV_POINTS.POINTS.max ∧
        t.rd R.SRAM_COLL_CNT.WW = (if hit && inSram w.at_ w.size then
          min (u.rd R.SRAM_COLL_CNT.WW + 1) R.SRAM_COLL_CNT.WW.max else u.rd R.SRAM_COLL_CNT.WW) ∧
        t.rd R.MOV_ERRCNT.ERR m = u.rd R.MOV_ERRCNT.ERR m) ∧
    (∀ (u : State) (w : MovWrite), p.err = false → p.missing = [] → p.result.writes.drop p.wrote = [w] →
      (s.setMov m { s.mov m with node := p.node }).busWrite (.mover m) w.at_ w.size
        (w.val ||| (if w.keep = 0 then 0 else s.memRead w.at_ 1 &&& w.keep)) true = (u, .err) →
      ∃ t, exec (.moverPointWrite ⟨m, hit⟩) s = .next t ∧ (t.mov m).pipe = rest ∧ t.mem = u.mem ∧
        t.rd R.MOV_ERRCNT.ERR m = min (u.rd R.MOV_ERRCNT.ERR m + 1) R.MOV_ERRCNT.ERR.max) ∧
    (p.err = false → p.missing = [] → p.result.writes.drop p.wrote = [] →
      ∃ t, exec (.moverPointWrite ⟨m, hit⟩) s = .next t ∧ (t.mov m).pipe = rest ∧ t.mem = s.mem ∧
        t.rd R.MOV_POINTS.POINTS m = min (s.rd R.MOV_POINTS.POINTS m + 1) R.MOV_POINTS.POINTS.max ∧
        (p.result.skip = true → t.rd R.MOV_EXC.SKIP m = min (s.rd R.MOV_EXC.SKIP m + 1) R.MOV_EXC.SKIP.max)) ∧
    (p.err = true →
      ∃ t, exec (.moverPointWrite ⟨m, hit⟩) s = .next t ∧ (t.mov m).pipe = rest ∧ t.mem = s.mem ∧
        t.rd R.MOV_POINTS.POINTS m = min (s.rd R.MOV_POINTS.POINTS m + 1) R.MOV_POINTS.POINTS.max ∧
        t.rd R.MOV_ERRCNT.ERR m = min (s.rd R.MOV_ERRCNT.ERR m + 1) R.MOV_ERRCNT.ERR.max ∧
        (p.live = true → (t.mov m).sel1 = true))) ∧
  (∀ (d : Desc) (i v : Nat), d.swalk = 0 → d.sfmt = 0 → d.dwalk = 0 → d.dfmt = 0 → v < 65536 →
    let dst := d.dst + i * elemStep d.dst
    (d.compute 1 i [v] = if v / 4096 = 15 ∨ v / 4096 = 8 then { writes := [], skip := true }
      else { writes := [⟨dst, elemSize dst, v, 0⟩] }) ∧
    (d.db = 0 → v / 4096 ≠ 15 → v / 4096 ≠ 8 →
      let rd (x : Nat) : Int := if d.sgn then (if x % 4096 < 2048 then (x % 4096 : Nat) else ((x % 4096 : Nat) : Int) - 4096)
        else (x % 4096 : Nat)
      let prod := rd v * (if d.p0 % 65536 < 32768 then ((d.p0 % 65536 : Nat) : Int) else ((d.p0 % 65536 : Nat) : Int) - 65536)
      let off : Int := if d.p1 % 65536 < 32768 then (d.p1 % 65536 : Nat) else ((d.p1 % 65536 : Nat) : Int) - 65536
      ∃ q : Int, (d.trunc = true → q = prod / (2 ^ d.shift : Nat)) ∧
        (d.trunc = false → 2 * (q * (2 ^ d.shift : Nat) - prod).natAbs ≤ 2 ^ d.shift) ∧
        ∃ y : Nat, y < 4096 ∧ (d.compute 2 i [v]).skip = false ∧
          (rd d.limLo ≤ rd d.limHi → rd y = max (rd d.limLo) (min (rd d.limHi) (q + off)) ∧
            ((d.compute 2 i [v]).range = true ↔ (q + off < rd d.limLo ∨ rd d.limHi < q + off))) ∧
          ((d.compute 2 i [v]).range = false →
            (d.compute 2 i [v]).writes = [⟨dst, elemSize dst, v / 4096 * 4096 + y, 0⟩]))) ∧
  (∀ (s : State) (who : Initiator) (m : Nat), m < 4 → s.takes who R.MOV_CTRL.HOLD m = true →
    (∃ t, exec (.movHold who m true) s = .next t ∧ t.answer.error = false ∧ t.on R.MOV_CTRL.HOLD m = true ∧
      (t.mov m).busy = false ∧ (t.slot (17 + m)).busy = false ∧ t.mem = s.mem ∧
      ((s.mov m).busy = true → t.rd R.POUR_RETURN.ABORTED =
        min (s.rd R.POUR_RETURN.ABORTED + 1) R.POUR_RETURN.ABORTED.max)) ∧
    (∃ t, exec (.movHold who m false) s = .next t ∧ t.answer.error = false ∧ t.on R.MOV_CTRL.HOLD m = false ∧
      (∀ a, a ≠ R.MOV_CTRL.HOLD.addr m 0 → t.reg a = s.reg a) ∧ { t with regs := s.regs, answer := s.answer } = s))

/-- An event pulse of an event source that hardware raises, a rising level, and a trigger with CLR = 0 make an
INACTIVE source PENDING and an ACTIVE one ACTIVE+PENDING; a falling level, and a trigger with CLR = 1, take the
pending part away; a claim makes PENDING ACTIVE; a completion makes ACTIVE INACTIVE, or PENDING while its level
input is asserted, and ACTIVE+PENDING PENDING. Every other cell leaves the state, and no other source changes. A
trigger of a reserved source, an assertion of an event source that only software or a POP raises, the fall of a
level that has not fallen, and a completion or trigger of a number that names no source change no state.
(spec/09 R314) -/
def Obligations.InterruptSourcesChangeState : Prop :=
  (let event (x : SrcState) : SrcState := (match x with
     | .inactive => .pending | .pending => .pending | .active => .activePending | .activePending => .activePending)
   let fall (x : SrcState) : SrcState := (match x with
     | .inactive => .inactive | .pending => .inactive | .active => .active | .activePending => .active)
   let done (level : Bool) (x : SrcState) : SrcState := (match x with
     | .inactive => .inactive | .pending => .pending | .active => (if level then .pending else .inactive)
     | .activePending => .pending)
   let only (s t : State) (key : Nat) (st : SrcState) : Prop :=
     t.src key = st ∧ (∀ j, j ≠ key → t.src j = s.src j) ∧ { t with ic := { t.ic with src := s.ic.src }, answer := s.answer } = s
   (∀ (s : State) (key : Nat), s.awake = true → hardwareEvent key = true →
     ∃ t, exec (.sourceAssert key) s = .next t ∧ only s t key (event (s.src key))) ∧
   (∀ (s : State) (key : Nat), eventSource key = true → hardwareEvent key = false →
     exec (.sourceAssert key) s = .next s) ∧
   (∀ (s : State) (key : Nat), s.srcLevel key ≠ some false → exec (.sourceDeassert key) s = .next s) ∧
   (∀ (s : State) (key : Nat), s.awake = true → eventSource key = false → s.srcLevel key = some true →
     s.ic.level.get false key = false →
     ∃ t, exec (.sourceAssert key) s = .next t ∧ t.src key = event (s.src key) ∧ (∀ j, j ≠ key → t.src j = s.src j) ∧
       t.ic.level.get false key = true ∧ { t with ic := s.ic } = s) ∧
   (∀ (s : State) (key : Nat), s.awake = true → s.srcLevel key = some false → s.ic.level.get false key = true →
     ∃ t, exec (.sourceDeassert key) s = .next t ∧ t.src key = fall (s.src key) ∧ (∀ j, j ≠ key → t.src j = s.src j) ∧
       t.ic.level.get false key = false ∧ { t with ic := s.ic } = s) ∧
   (∀ (s : State) (who : Initiator) (c k : Nat), c < 18 → s.answers (96 + c) = true →
     (s.nextSource c false = some k → ∃ t, exec (.icNnextPop who c) s = .next t ∧ s.src k = .pending ∧
       t.answer = ⟨BitVec.ofNat 64 (srcNumber k), false⟩ ∧ only s t k .active) ∧
     (s.nextSource c true = some k → ∃ t, exec (.icUnextPop who c) s = .next t ∧ s.src k = .pending ∧
       t.answer = ⟨BitVec.ofNat 64 (srcNumber k), false⟩ ∧ only s t k .active)) ∧
   (∀ (s : State) (who : Initiator) (c n : Nat), c < 18 → n < 576 → s.takes who R.IC_EOI.SRC c = true →
     let key := if n < 64 then c * 64 + n else 0x1000 + n
     ∃ t, exec (.icEoi who c n) s = .next t ∧ t.answer.error = false ∧
       only s t key (done (s.srcLevel key == some true) (s.src key))) ∧
   (∀ (s : State) (who : Initiator) (n : Nat), 64 ≤ n → n < 576 → s.takes who R.IC_SEOI.SRC = true →
     ∃ t, exec (.icSeoi who n) s = .next t ∧ t.answer.error = false ∧
       only s t (0x1000 + n) (done (s.srcLevel (0x1000 + n) == some true) (s.src (0x1000 + n)))) ∧
   (∀ (s : State) (who : Initiator) (c n : Nat), c < 18 → n < 64 → s.takes who R.IC_PTRIG.SRC c = true →
     (∃ t, exec (.ptrigTrigger who c n) s = .next t ∧ t.answer.error = false ∧
       only s t (c * 64 + n) (if n < 18 then event (s.src (c * 64 + n)) else s.src (c * 64 + n))) ∧
     (∃ t, exec (.ptrigClear who c n) s = .next t ∧ t.answer.error = false ∧
       only s t (c * 64 + n) (if n < 18 then fall (s.src (c * 64 + n)) else s.src (c * 64 + n)))) ∧
   (∀ (s : State) (who : Initiator) (n : Nat), 64 ≤ n → n < 576 → s.takes who R.IC_STRIG.SRC = true →
     let key := 0x1000 + n
     let known := eventSource key || (s.srcLevel key).isSome
     (∃ t, exec (.strigTrigger who n) s = .next t ∧ t.answer.error = false ∧
       only s t key (if known then event (s.src key) else s.src key)) ∧
     (∃ t, exec (.strigClear who n) s = .next t ∧ t.answer.error = false ∧
       only s t key (if known then fall (s.src key) else s.src key)))) ∧
  (∀ (s : State) (who : Initiator) (c n : Nat), c < 18 → n < 1024 →
    let still (i : Instr) : Prop := ∃ t, exec i s = .next t ∧ t.answer.error = false ∧ { t with answer := s.answer } = s
    (576 ≤ n → s.takes who R.IC_EOI.SRC c = true → still (.icEoi who c n)) ∧
    (n < 64 ∨ 576 ≤ n → (s.takes who R.IC_SEOI.SRC = true → still (.icSeoi who n)) ∧
      (s.takes who R.IC_STRIG.SRC = true → still (.strigTrigger who n) ∧ still (.strigClear who n)))) ∧
  (∀ (s : State) (who : Initiator) (c : Nat), c < 18 → s.answers (96 + c) = true →
    (s.nextSource c false = none → ∃ t, exec (.icNnextPop who c) s = .next t ∧ t.answer = ⟨0x80000000, false⟩ ∧
      { t with answer := s.answer } = s) ∧
    (s.nextSource c true = none → ∃ t, exec (.icUnextPop who c) s = .next t ∧ t.answer = ⟨0x80000000, false⟩ ∧
      { t with answer := s.answer } = s)) ∧
  (∀ (s : State) (c k : Nat) (u : Bool), s.ic.src.wf (fun _ => .inactive) = true →
    (s.nextSource c u = some k ↔ s.presented c u k = true ∧ ∀ j, s.presented c u j = true → k ≤ j))

/-- IC_ROUTEn of an inactive, disabled source takes its fields, and otherwise the write gets an error response
and the route stays. A doorbell write sets its bits and no other. A LO write stages the sender's word, for a
ring unit only while fewer than four other ring units have one staged: else the write gets an error response and
counts STAGE_FULL; a HI write with room appends one message with the sender's stamp and frees the stage, and one
on channel 63 restarts KEEP's stopped clock; a full or disabled channel counts OVERFLOW and answers with an
error. The receiver's POP takes the oldest message, and the POP of anyone else gets an error response and takes
none. A stage that expires is freed. A route row for a number with no route register does nothing. (spec/09
R312, spec/09 R330, spec/09 R332, spec/09 R333, spec/09 R334, spec/09 R338) -/
def Obligations.RoutesDoorbellsAndMailboxes : Prop :=
  (∀ (s : State) (who : Initiator) (n : Nat) (v : Word), 64 ≤ n → n < 576 →
    s.takes who R.IC_ROUTEn.TARGET 0 (n - 64) = true →
    (s.src (0x1000 + n) = .inactive → s.sharedEn n = false →
      ∃ t, exec (.icRouteWrite who n v) s = .next t ∧ t.answer.error = false ∧
        t.rd R.IC_ROUTEn.URGENT 0 (n - 64) = v.toNat / 2 ^ 31 ∧ t.rd R.IC_ROUTEn.SENDER 0 (n - 64) = v.toNat / 2 ^ 30 % 2 ∧
        t.rd R.IC_ROUTEn.HOST 0 (n - 64) = v.toNat / 2 ^ 29 % 2 ∧ t.rd R.IC_ROUTEn.TARGET 0 (n - 64) = v.toNat % 64 ∧
        (∀ a, a ≠ R.IC_ROUTEn.TARGET.addr 0 (n - 64) → t.reg a = s.reg a) ∧
        { t with regs := s.regs, answer := s.answer } = s) ∧
    (s.src (0x1000 + n) ≠ .inactive ∨ s.sharedEn n = true →
      ∃ t, exec (.icRouteWrite who n v) s = .next t ∧ t.answer.error = true ∧
        t.reg (R.IC_ROUTEn.TARGET.addr 0 (n - 64)) = s.reg (R.IC_ROUTEn.TARGET.addr 0 (n - 64)))) ∧
  (∀ (s : State) (who : Initiator) (n : Nat) (v : Word), n < 64 → exec (.icRouteWrite who n v) s = .next s) ∧
  (∀ (s : State) (who : Initiator) (c : Nat) (v : Word), c < 18 →
    (s.takes who R.IC_DB_SET_LO.SET c = true → ∃ t, exec (.doorbellSet who c false v) s = .next t ∧
      t.answer.error = false ∧ t.rd R.IC_DB_LO.DB c = s.rd R.IC_DB_LO.DB c ||| v.toNat ∧
      (∀ a, a ≠ R.IC_DB_LO.DB.addr c 0 → t.reg a = s.reg a) ∧
      { t with regs := s.regs, ic := s.ic, answer := s.answer } = s) ∧
    (s.takes who R.IC_DB_SET_HI.SET c = true → ∃ t, exec (.doorbellSet who c true v) s = .next t ∧
      t.answer.error = false ∧ t.rd R.IC_DB_HI.DB c = s.rd R.IC_DB_HI.DB c ||| v.toNat ∧
      (∀ a, a ≠ R.IC_DB_HI.DB.addr c 0 → t.reg a = s.reg a) ∧
      { t with regs := s.regs, ic := s.ic, answer := s.answer } = s)) ∧
  (∀ (s : State) (who : Initiator) (n : Nat) (v : Word), n < 64 → s.takes who R.MBX_TX_LOn.PAYLOAD_LO 0 n = true →
    let others := (s.mbx.staged.filter fun e => e.1 / 4096 == 2 && e.1 != stampOf who).length
    (stampOf who / 4096 ≠ 2 ∨ others < 4 →
      ∃ t, exec (.mbxTxLo who n v) s = .next t ∧ t.answer.error = false ∧ t.stagedLo (stampOf who) = some v ∧
        (∀ j, j ≠ stampOf who → t.stagedLo j = s.stagedLo j) ∧
        { t with mbx := { t.mbx with staged := s.mbx.staged }, answer := s.answer } = s) ∧
    (stampOf who / 4096 = 2 → 4 ≤ others →
      ∃ t, exec (.mbxTxLo who n v) s = .next t ∧ t.answer.error = true ∧ t.mbx = s.mbx ∧
        t.rd R.MBX_ERR.STAGE_FULL = min (s.rd R.MBX_ERR.STAGE_FULL + 1) R.MBX_ERR.STAGE_FULL.max)) ∧
  (∀ (s : State) (who : Initiator) (n : Nat) (v : Word), n < 64 → s.takes who R.MBX_TX_HIn.PAYLOAD_HI 0 n = true →
    (s.on R.MBX_CFGn.EN 0 n = true → (s.chan n).length < 4 →
      ∃ t, exec (.mbxTxHi who n v) s = .next t ∧ t.answer.error = false ∧
        t.chan n = s.chan n ++ [BitVec.ofNat 64 (stampOf who * 2 ^ 48 + v.toNat % 65536 * 2 ^ 32 +
          ((s.stagedLo (stampOf who)).getD 0).toNat)] ∧
        t.stagedLo (stampOf who) = none ∧ (∀ j, j ≠ n → t.chan j = s.chan j) ∧
        (n = 63 → s.dom (domOf 17) = 2 → t.dom (domOf 17) = 3) ∧
        (n ≠ 63 ∨ s.dom (domOf 17) = 1 ∨ s.dom (domOf 17) = 3 →
          { t with mbx := s.mbx, ic := s.ic, answer := s.answer } = s)) ∧
    (s.on R.MBX_CFGn.EN 0 n = false ∨ 4 ≤ (s.chan n).length →
      ∃ t, exec (.mbxTxHi who n v) s = .next t ∧ t.answer.error = true ∧ t.mbx.chan = s.mbx.chan ∧
        t.stagedLo (stampOf who) = none ∧
        t.rd R.MBX_STATUSn.OVERFLOW 0 n = min (s.rd R.MBX_STATUSn.OVERFLOW 0 n + 1) R.MBX_STATUSn.OVERFLOW.max)) ∧
  (∀ (s : State) (who : Initiator) (n : Nat), n < 64 → s.answers 10 = true → s.rd R.MBX_CFGn.RX_CLASS 0 n < 2 →
    stampOf who = s.rd R.MBX_CFGn.RX_CLASS 0 n * 4096 + s.rd R.MBX_CFGn.RX_NUM 0 n →
    (∀ m rest, s.chan n = m :: rest →
      ∃ t, exec (.mbxPopHi who n) s = .next t ∧ t.answer = ⟨BitVec.ofNat 64 (m.toNat / 2 ^ 32), false⟩ ∧
        t.chan n = rest ∧ (∀ j, j ≠ n → t.chan j = s.chan j) ∧
        { t with mbx := s.mbx, ic := s.ic, regs := s.regs, answer := s.answer } = s) ∧
    (s.chan n = [] →
      ∃ t, exec (.mbxPopHi who n) s = .next t ∧ t.answer = ⟨0, false⟩ ∧ t.mbx = s.mbx ∧
        t.rd R.MBX_STATUSn.UNDERRUN 0 n = min (s.rd R.MBX_STATUSn.UNDERRUN 0 n + 1) R.MBX_STATUSn.UNDERRUN.max)) ∧
  (∀ (s : State) (who : Initiator) (n : Nat), n < 64 → s.answers 10 = true →
    (2 ≤ s.rd R.MBX_CFGn.RX_CLASS 0 n ∨
      stampOf who ≠ s.rd R.MBX_CFGn.RX_CLASS 0 n * 4096 + s.rd R.MBX_CFGn.RX_NUM 0 n) →
    ∃ t, exec (.mbxPopHi who n) s = .next t ∧ t.answer.error = true ∧ t.mbx = s.mbx ∧
      t.rd R.MBX_STATUSn.UNDERRUN 0 n = s.rd R.MBX_STATUSn.UNDERRUN 0 n) ∧
  (∀ (s : State) (u : Nat), s.awake = true →
    ∃ t, exec (.mbxStageExpire u) s = .next t ∧ t.stagedLo (0x2000 + u) = none ∧
      (∀ j, j ≠ 0x2000 + u → t.stagedLo j = s.stagedLo j) ∧ { t with mbx := { t.mbx with staged := s.mbx.staged } } = s)

/-- Engine tick n comes at the core tick T0 + floor(n x M / 256), M being the latched divider; a tick that is
not due, and a stopped engine at its tick, leave the engine as it is, and a hold counts down. Otherwise the
index of the four inputs selects a branch, an advance (past WRAP_END to WRAP_START, with an armed swap first),
or no move; the sticky copies that were sampled as 1 are cleared. The step entered counts, shifts, pushes and
pops, and drives the outputs as its word says unless OSRC = 1, and then raises its event: with no source entry
and no mailbox, an event sets its status bit only, and with a mailbox it sends step, event, counter and shift
register. Nothing outside the engine changes but by the event. (spec/10 R349, spec/10 R350, spec/10 R351,
spec/10 R353, spec/10 R354, spec/10 R355, spec/10 R356, spec/10 R357, spec/10 R358, spec/10 R360, spec/10 R362)
-/
def Obligations.PinEnginesRunTheirPrograms : Prop :=
  (∀ (len reg : Nat) (b : Bool), 0 < len → reg < 2 ^ len →
    (bit (shifted len reg true b) 0 = b ∧ ∀ k, k + 1 < len → bit (shifted len reg true b) (k + 1) = bit reg k) ∧
    (bit (shifted len reg false b) (len - 1) = b ∧ ∀ k, k + 1 < len → bit (shifted len reg false b) k = bit reg (k + 1)) ∧
    (∀ m, shifted len reg m b < 2 ^ len)) ∧
  (∀ (s : State) (e pins : Nat), s.awake = true → e < 64 →
    let u0 := s.seePins (e / 8) pins
    let d := u0.pe.ticks.get (0, 0) e
    let due : Prop := d.2 < u0.tick ∧ u0.pe.t0.get 0 e + (d.1 + 1) * max 256 (u0.pe.div.get 0 e).toNat / 256 ≤ u0.tick
    let u : State := { u0 with pe := { u0.pe with ticks := u0.pe.ticks.set (0, 0) e (d.1 + 1, u0.tick) } }
    let w := u.peStep e (u.rd R.PE_STATUS.STEP e)
    let i := u.peIndex e
    let inputs := [u.rd R.PE_A_INSEL.IN0 e, u.rd R.PE_A_INSEL.IN1 e, u.rd R.PE_A_INSEL.IN2 e, u.rd R.PE_A_INSEL.IN3 e]
    (¬due → exec (.engineTick e pins) s = .next u0) ∧
    (due → u.peRunning e = false → exec (.engineTick e pins) s = .next u) ∧
    (due → u.peRunning e = true → 0 < u.rd R.PE_STATUS.HOLD e →
      ∃ t, exec (.engineTick e pins) s = .next t ∧ t.rd R.PE_STATUS.HOLD e = u.rd R.PE_STATUS.HOLD e - 1 ∧
        t.rd R.PE_STATUS.STEP e = u.rd R.PE_STATUS.STEP e ∧
        (∀ a, a ≠ R.PE_STATUS.HOLD.addr e 0 → t.reg a = u.reg a) ∧ { t with regs := u.regs } = u) ∧
    (due → u.peRunning e = true → u.rd R.PE_STATUS.HOLD e = 0 →
      ∃ x : State, (∀ k, k < 8 → bit (x.pe.sticky.get 0 e) k = (bit (u.pe.sticky.get 0 e) k && !inputs.contains (56 + k))) ∧
        (∀ d, d ≠ e → x.pe.sticky.get 0 d = u.pe.sticky.get 0 d) ∧
        { x with pe := { x.pe with sticky := u.pe.sticky } } = u ∧
        (bit w (16 + i) = true → ∃ v : State, x.enteredStep v e (bitsOf w 38 32) (u.sin u e) ∧
          exec (.engineTick e pins) s = .next (v.entryEnds e (x.peStep e (bitsOf w 38 32)))) ∧
        (bit w (16 + i) = false → bit w i = true → u.rd R.PE_STATUS.STEP e ≠ u.rd R.PE_A_WRAP.END e →
          let n := (u.rd R.PE_STATUS.STEP e + 1) % 128
          ∃ v : State, x.enteredStep v e n (u.sin u e) ∧
            exec (.engineTick e pins) s = .next (v.entryEnds e (x.peStep e n))) ∧
        (bit w (16 + i) = false → bit w i = true → u.rd R.PE_STATUS.STEP e = u.rd R.PE_A_WRAP.END e →
          let y := if u.armed e then x.peSwap e else x
          let n := y.rd R.PE_A_WRAP.START e
          ∃ v : State, y.enteredStep v e n (u.sin y e) ∧
            exec (.engineTick e pins) s = .next (v.entryEnds e (y.peStep e n))) ∧
        (bit w (16 + i) = false → bit w i = false → exec (.engineTick e pins) s = .next x))) ∧
  (∀ (s : State) (e k : Nat), e < 64 → 1 ≤ k → k ≤ 3 → s.pour.sources.all (fun x => !(x.kind == 3 && x.sub == k && x.id == e)) = true →
    ((s.evMbx e k).1 = false →
      (s.peEvent e k).rd R.INT_STATUS.BITS (128 + e) = s.rd R.INT_STATUS.BITS (128 + e) ||| 2 ^ (k - 1) ∧
      (∀ a, a ≠ R.INT_STATUS.BITS.addr (128 + e) 0 → (s.peEvent e k).reg a = s.reg a) ∧
      { s.peEvent e k with regs := s.regs, ic := s.ic } = s) ∧
    ((s.evMbx e k).1 = true → s.on R.MBX_CFGn.EN 0 (s.evMbx e k).2 = true → (s.chan (s.evMbx e k).2).length < 4 →
      (s.peEvent e k).chan (s.evMbx e k).2 = s.chan (s.evMbx e k).2 ++
        [BitVec.ofNat 64 ((0x3000 + e) * 2 ^ 48 + s.rd R.PE_STATUS.STEP e * 2 ^ 30 + k * 2 ^ 28 +
          s.rd R.PE_CNT.COUNT e * 2 ^ 12 + s.shreg e)])) ∧
  (∀ (s : State) (e : Nat), s.peEvent e 0 = s)

/-- A start applies an armed swap, empties the word in progress, clears the engine's sticky copies, latches the
divider with this tick as engine tick 0 and enters step 0; a clock restart latches the divider only; with a
start in the same tick, a second start, a clock restart and a stop change nothing. A stop keeps everything else
and the outputs hold. ARM swaps the banks of a stopped engine at once and marks a running one, and DISARM takes
the mark away. INLATCH copies pin levels and counters, OUTLATCH the outputs. A TX push appends 12 bits or is
refused when eight words wait; an RX pop takes the oldest word or is refused when none waits. A stage takes the
written value, or the SUBST_VALUE of its bound point where the written quality is dead, and a running engine
with OSRC = 1 shows it. (spec/10 R341, spec/10 R344, spec/10 R345, spec/10 R347, spec/10 R361, spec/10 R363,
spec/10 R365, spec/10 R366, spec/10 R368, spec/10 R371, spec/10 R372, spec/10 R373) -/
def Obligations.PinStartsSwapsLatchesAndFifos : Prop :=
  (∀ (s : State) (e : Nat), s.pe.started.get none e = some s.tick → s.peStart e = s ∧ s.peRestart e = s) ∧
  (∀ (s : State) (e : Nat), e < 64 → s.pe.started.get none e ≠ some s.tick →
    let b := if s.armed e then s.peSwap e else s
    ∃ x v : State, b.pe.active = x.pe.active ∧ x.shreg e = b.fillWord e ∧ x.scnt e = 0 ∧ x.peRunning e = true ∧
      x.pe.t0.get 0 e = s.tick ∧ x.pe.ticks.get (0, 0) e = (0, s.tick) ∧ x.pe.started.get none e = some s.tick ∧
      x.pe.sticky.get 0 e = 0 ∧
      x.pe.div.get 0 e = (if s.rd R.PE_DIV.INT e = 0 then 0x100 else s.reg (R.PE_DIV.INT.addr e 0)) ∧
      (s.on R.PE_STATUS.WIP e = true → bit (x.rd R.INT_STATUS.BITS (128 + e)) 6 = true) ∧
      (∀ a, (a < regAt (128 + e) 0 ∨ regAt (129 + e) 0 ≤ a) → x.reg a = s.reg a) ∧
      { x with regs := s.regs, ic := s.ic, pe := s.pe } = s ∧
      x.enteredStep v e 0 (s.sin b e) ∧ s.peStart e = v.entryEnds e (x.peStep e 0)) ∧
  (∀ (s : State) (e : Nat), e < 64 → s.pe.started.get none e ≠ some s.tick →
    (s.peRestart e).pe.ticks.get (0, 0) e = (0, s.tick) ∧
    (∀ d, d ≠ e → (s.peRestart e).pe.ticks.get (0, 0) d = s.pe.ticks.get (0, 0) d) ∧
    (s.peRestart e).pe.t0.get 0 e = s.tick ∧
    (s.peRestart e).pe.div.get 0 e = (if s.rd R.PE_DIV.INT e = 0 then 0x100 else s.reg (R.PE_DIV.INT.addr e 0)) ∧
    (∀ d, d ≠ e → (s.peRestart e).pe.t0.get 0 d = s.pe.t0.get 0 d ∧ (s.peRestart e).pe.div.get 0 d = s.pe.div.get 0 d) ∧
    { s.peRestart e with pe := { (s.peRestart e).pe with t0 := s.pe.t0, div := s.pe.div, ticks := s.pe.ticks } } = s) ∧
  (∀ (s : State) (e : Nat), e < 64 →
    let t := s.peSwap e
    (∀ n, n < 128 → t.peStep e n = s.rd R.PE_STEP_HIn.WORD e n * 2 ^ 32 + s.rd R.PE_STEP_LOn.WORD e n ∧
      t.rd R.PE_STEP_HIn.WORD e n * 2 ^ 32 + t.rd R.PE_STEP_LOn.WORD e n = s.peStep e n ∧
      ∀ d, d ≠ e → t.peStep d n = s.peStep d n) ∧
    t.reg (R.PE_A_INSEL.all.addr e 0) = s.reg (R.PE_S_INSEL.all.addr e 0) ∧
    t.reg (R.PE_S_INSEL.all.addr e 0) = s.reg (R.PE_A_INSEL.all.addr e 0) ∧
    t.reg (R.PE_A_WRAP.all.addr e 0) = s.reg (R.PE_S_WRAP.all.addr e 0) ∧
    t.reg (R.PE_S_WRAP.all.addr e 0) = s.reg (R.PE_A_WRAP.all.addr e 0) ∧
    t.reg (R.PE_A_SHIFT.all.addr e 0) = s.reg (R.PE_S_SHIFT.all.addr e 0) ∧
    t.reg (R.PE_S_SHIFT.all.addr e 0) = s.reg (R.PE_A_SHIFT.all.addr e 0) ∧
    t.rd R.PE_STATUS.BANK e = 1 - s.rd R.PE_STATUS.BANK e ∧ t.armed e = false ∧ t.on R.PE_STATUS.ARMED e = false ∧
    bit (t.rd R.INT_STATUS.BITS (128 + e)) 7 = true ∧ t.scnt e = min (s.scnt e) (t.slen e) ∧
    (s.peRunning e = false → t.peOut e = s.peOut e) ∧ t.shreg e = s.shreg e ∧ t.rd R.PE_CNT.COUNT e = s.rd R.PE_CNT.COUNT e ∧
    (∀ a, (a < regAt (128 + e) 0 ∨ regAt (129 + e) 0 ≤ a) → t.reg a = s.reg a) ∧
    { t with regs := s.regs, ic := s.ic, pe := { t.pe with active := s.pe.active } } = s) ∧
  (∀ (s : State) (who : Initiator) (g mask pins : Nat), g < 8 →
    (s.takes who R.PE_GSTART.MASK g = true → exec (.peGstart who g mask pins) s =
      .next (((((List.range 8).filter (bit mask)).map (8 * g + ·)).foldl State.peStart (s.seePins g pins)).ok)) ∧
    (s.takes who R.PE_GRESTART.MASK g = true → exec (.peGrestart who g mask) s =
      .next (((((List.range 8).filter (bit mask)).map (8 * g + ·)).foldl State.peRestart s).ok))) ∧
  (∀ (s : State) (who : Initiator) (e : Nat), e < 64 → s.takes who R.PE_ECTRL.STOP e = true →
    (s.pe.started.get none e = some s.tick → exec (.stop who e) s = .next s.ok) ∧
    (s.pe.started.get none e ≠ some s.tick →
      ∃ t, exec (.stop who e) s = .next t ∧ t.answer.error = false ∧ t.peRunning e = false ∧
      t.rd R.PE_STATUS.STEP e = s.rd R.PE_STATUS.STEP e ∧ t.scnt e = s.scnt e ∧
      t.peOut e = s.peOut e ∧ (∀ d, d ≠ e → t.pe.held.get 0 d = s.pe.held.get 0 d) ∧
      (∀ a, a ≠ R.PE_STATUS.STATE.addr e 0 → t.reg a = s.reg a) ∧
      { t with regs := s.regs, pe := { t.pe with held := s.pe.held }, answer := s.answer } = s) ∧
    (s.peRunning e = true → ∃ t, exec (.arm who e) s = .next t ∧ t.answer.error = false ∧ t.armed e = true ∧
      t.on R.PE_STATUS.ARMED e = true ∧ t.peRunning e = true ∧
      (∀ a, a ≠ R.PE_STATUS.ARMED.addr e 0 → a ≠ R.PE_ECTRL.ARM.addr e 0 → t.reg a = s.reg a) ∧
      { t with regs := s.regs, answer := s.answer } = s) ∧
    (s.peRunning e = false → exec (.arm who e) s = .next (s.peSwap e).ok) ∧
    (∃ t, exec (.disarm who e) s = .next t ∧ t.answer.error = false ∧ t.armed e = false ∧
      t.on R.PE_STATUS.ARMED e = false ∧ t.peRunning e = s.peRunning e ∧
      (∀ a, a ≠ R.PE_STATUS.ARMED.addr e 0 → a ≠ R.PE_ECTRL.ARM.addr e 0 → t.reg a = s.reg a) ∧
      { t with regs := s.regs, answer := s.answer } = s)) ∧
  (∀ (s : State) (who : Initiator) (g pins : Nat), g < 8 → s.takes who R.PE_GCTRL.INLATCH g = true →
    (∃ t, exec (.inlatch who g pins) s = .next t ∧ t.answer.error = false ∧ t.rd R.PE_GINLAT.PINS g = pins % 2 ^ 24 ∧
      (∀ k, k < 8 → t.rd R.PE_CNTLAT.COUNT (8 * g + k) = s.rd R.PE_CNT.COUNT (8 * g + k)) ∧
      (∀ a, a ≠ R.PE_GINLAT.PINS.addr g 0 → (∀ k, k < 8 → a ≠ R.PE_CNTLAT.COUNT.addr (8 * g + k) 0) → t.reg a = s.reg a) ∧
      { t with regs := s.regs, answer := s.answer } = s.seePins g pins) ∧
    (∃ t, exec (.outlatch who g) s = .next t ∧ t.answer.error = false ∧
      (∀ k, k < 8 → t.pe.latch.get 0 (8 * g + k) = s.peOut (8 * g + k)) ∧
      (∀ d, d / 8 ≠ g → t.pe.latch.get 0 d = s.pe.latch.get 0 d) ∧
      { t with pe := { t.pe with latch := s.pe.latch }, answer := s.answer } = s)) ∧
  (∀ (s : State) (who : Initiator) (e : Nat) (v : Word), e < 64 → s.takes who R.PE_TX_PUSH.DATA e = true →
    ((s.peTx e).length < 8 → ∃ t, exec (.peTxPush who e v) s = .next t ∧ t.answer.error = false ∧
      t.peTx e = s.peTx e ++ [v.toNat % 4096] ∧ t.rd R.PE_STATUS.TXCNT e = (s.peTx e).length + 1 ∧
      (∀ d, d ≠ e → t.peTx d = s.peTx d) ∧ (∀ a, a ≠ R.PE_STATUS.TXCNT.addr e 0 → t.reg a = s.reg a) ∧
      { t with regs := s.regs, pe := { t.pe with tx := s.pe.tx }, answer := s.answer } = s) ∧
    (8 ≤ (s.peTx e).length → ∃ t, exec (.peTxPush who e v) s = .next t ∧ t.answer.error = true ∧ t.pe = s.pe ∧
      t.rd R.PE_ERRCNT.TX_FULL e = min (s.rd R.PE_ERRCNT.TX_FULL e + 1) R.PE_ERRCNT.TX_FULL.max)) ∧
  (∀ (s : State) (who : Initiator) (e : Nat), e < 64 → s.answers (128 + e) = true →
    (∀ w l, s.peRx e = w :: l → w < 4096 → l.length < 8 → ∃ t, exec (.peRxPop who e) s = .next t ∧
      t.answer = ⟨BitVec.ofNat 64 w, false⟩ ∧ t.peRx e = l ∧ t.rd R.PE_STATUS.RXCNT e = l.length ∧
      (∀ d, d ≠ e → t.peRx d = s.peRx d) ∧ (∀ a, a ≠ R.PE_STATUS.RXCNT.addr e 0 → t.reg a = s.reg a) ∧
      { t with regs := s.regs, pe := { t.pe with rx := s.pe.rx }, answer := s.answer } = s) ∧
    (s.peRx e = [] → ∃ t, exec (.peRxPop who e) s = .next t ∧ t.answer.error = true ∧ t.pe = s.pe ∧
      t.rd R.PE_ERRCNT.RX_EMPTY e = min (s.rd R.PE_ERRCNT.RX_EMPTY e + 1) R.PE_ERRCNT.RX_EMPTY.max)) ∧
  (∀ (s : State) (who : Initiator) (e : Nat) (v : Word), e < 64 → s.takes who R.PE_STAGE.VALUE e = true →
    let i := s.rd R.PE_OBIND.INDEX e
    let q := v.toNat / 4096 % 16
    ∃ t, exec (.peStageWrite who e v) s = .next t ∧ t.answer.error = false ∧
      t.rd R.PE_STAGE.VALUE e = (if s.on R.PE_OBIND.EN e && qDead q then aSubstVal (s.attr i) else v.toNat % 4096) ∧
      (s.peRunning e = false → t.peOut e = s.peOut e) ∧
      (s.on R.PE_CFG.OSRC e = true → s.peRunning e = true → t.peOut e = t.rd R.PE_STAGE.VALUE e % 256) ∧
      (∀ a, a ≠ R.PE_STAGE.VALUE.addr e 0 → t.reg a = s.reg a) ∧ { t with regs := s.regs, answer := s.answer } = s)

/-- A legal MODE takes effect at once out of INIT and between the bus modes, and is only recorded while the
controller is bus-off or is the mode that MODE holds; INIT and SLEEP take effect when the bus lets them, so that
a frame in progress ends first, and SLEEP is refused while a request is pending or the controller is bus-off. An
illegal bit timing or RAM layout is refused with CFGERR. INIT ends every pending request ABORTED. RECOVER of a
bus-off controller starts recovery, whose end clears both error counters; it does nothing otherwise. A request
marks its buffers pending, an abort ends a waiting buffer and marks the one on the bus. After each change of
mode an armed wake unit looks at its veto. No event reaches a controller that is off. (spec/11 R382, spec/11
R383, spec/11 R384, spec/11 R391, spec/11 R406, spec/11 R409, spec/11 R414, spec/11 R415) -/
def Obligations.CanModesAndRequests : Prop :=
  let only (s t : State) (c : Nat) (fs : List Fld) : Prop :=
    (∀ a, (∀ f ∈ fs, a ≠ f.addr c 0) → t.reg a = s.reg a) ∧ { t with regs := s.regs, power := s.power, answer := s.answer } = s
  let sets (i : Initiator → Nat → Instr) (m : Nat) : Prop :=
    ∀ (s : State) (who : Initiator) (c : Nat), c < 12 → s.takes who R.CAN_CTRL.MODE c = true →
      (s.canOff c = false → (m = 4 → s.rd R.CAN_TXREQ.BUF c = 0) →
        (s.rd R.CAN_CTRL.MODE c = 0 → s.timingOk c (s.on R.CAN_CTRL.RSW_EN c) = true → s.ramOk c = true →
          ∃ u : State, exec (i who c) s = .next u.vetoCheck.ok ∧ u.rd R.CAN_CTRL.MODE c = m ∧
            u.canMode c = (if m = 4 then s.canMode c else m) ∧ u.canPhase c = 0 ∧ u.rd R.CAN_STATUS.CFGERR c = 0 ∧
            u.on R.CAN_CTRL.FD_EN c = s.on R.CAN_CTRL.FD_EN c ∧ u.rd R.CAN_CTRL.TRIES c = s.rd R.CAN_CTRL.TRIES c ∧
            only s u c [R.CAN_CTRL.MODE, R.CAN_STATUS.STATE]) ∧
        (s.rd R.CAN_CTRL.MODE c ≠ 0 → s.rd R.CAN_CTRL.MODE c ≠ m →
          ∃ u : State, exec (i who c) s = .next u.vetoCheck.ok ∧ u.rd R.CAN_CTRL.MODE c = m ∧
            u.canMode c = (if m = 4 then s.canMode c else m) ∧ u.canPhase c = s.canPhase c ∧
            only s u c [R.CAN_CTRL.MODE, R.CAN_STATUS.STATE])) ∧
      (s.rd R.CAN_CTRL.MODE c ≠ 0 → s.canOff c = true → m ≠ 4 →
        ∃ u : State, exec (i who c) s = .next u.vetoCheck.ok ∧ u.rd R.CAN_CTRL.MODE c = m ∧ only s u c [R.CAN_CTRL.MODE]) ∧
      (s.rd R.CAN_CTRL.MODE c = m → (m = 4 → s.rd R.CAN_TXREQ.BUF c = 0 ∧ s.canOff c = false) → ∃ u : State, exec (i who c) s = .next u.vetoCheck.ok ∧ only s u c []) ∧
      (s.rd R.CAN_CTRL.MODE c = 0 → (m = 4 → s.rd R.CAN_TXREQ.BUF c = 0 ∧ s.canOff c = false) →
        (s.timingOk c (s.on R.CAN_CTRL.RSW_EN c) = false ∨ s.ramOk c = false) →
        ∃ t, exec (i who c) s = .next t ∧ t.answer.error = true ∧ t.rd R.CAN_CTRL.MODE c = 0 ∧
          t.canMode c = s.canMode c ∧
          t.rd R.CAN_STATUS.CFGERR c = (if s.timingOk c (s.on R.CAN_CTRL.RSW_EN c) then 2 else 1))
  let stopped (s t : State) (c : Nat) : Prop :=
    t.canMode c = 0 ∧ t.canPhase c = 0 ∧ (t.canCtl c).order = [] ∧ (t.canCtl c).onBus = none ∧
    (∀ b, b < 32 → b ∈ (s.canCtl c).order → t.canPending c b = false ∧ bit (t.rd R.CAN_TXFAIL.BUF c) b = true) ∧
    (∀ b, b < 32 → b ∉ (s.canCtl c).order → t.canPending c b = s.canPending c b)
  let stops (s u : State) (c : Nat) (mode : Nat) : Prop :=
    u.rd R.CAN_CTRL.MODE c = mode ∧ u.canMode c = 0 ∧ u.canPhase c = 0 ∧ u.canCtl c = { s.canCtl c with onBus := none } ∧
    (∀ d, d ≠ c → u.canCtl d = s.canCtl d) ∧
    (∀ a, a ≠ R.CAN_CTRL.MODE.addr c 0 → a ≠ R.CAN_STATUS.STATE.addr c 0 → u.reg a = s.reg a) ∧
    { u with regs := s.regs, can := { u.can with ctl := s.can.ctl } } = s
  let ended (u : State) (c : Nat) (l : List Nat) : State := (l.foldl (fun t b => t.canEnd c b 2 none) u).vetoCheck
  (sets Instr.canModeNormal 1 ∧ sets Instr.canModeListen 2 ∧ sets Instr.canModeLoopback 3 ∧ sets Instr.canModeSleep 4) ∧
  (∀ (s : State) (who : Initiator) (c : Nat), c < 12 → s.takes who R.CAN_CTRL.MODE c = true →
    (s.canOff c = false → s.rd R.CAN_CTRL.MODE c ≠ 0 → s.canPhase c ≤ 1 →
      (∃ u : State, exec (.canModeInit who c) s = .next (ended u c (s.canCtl c).order).ok ∧ stops s u c 0) ∧
      ((s.canCtl c).waiting = [] → (∀ b ∈ (s.canCtl c).order, b < 32) →
        ∃ t, exec (.canModeInit who c) s = .next t ∧ t.answer.error = false ∧ t.rd R.CAN_CTRL.MODE c = 0 ∧ stopped s t c)) ∧
    (s.rd R.CAN_CTRL.MODE c ≠ 0 → (2 ≤ s.canPhase c ∨ s.canOff c = true) →
      ∃ u : State, exec (.canModeInit who c) s = .next u.vetoCheck.ok ∧ u.rd R.CAN_CTRL.MODE c = 0 ∧
        only s u c [R.CAN_CTRL.MODE]) ∧
    (s.rd R.CAN_CTRL.MODE c = 0 → ∃ u : State, exec (.canModeInit who c) s = .next u.vetoCheck.ok ∧ only s u c []) ∧
    ((s.canOff c = true ∨ s.rd R.CAN_TXREQ.BUF c ≠ 0) →
      ∃ t, exec (.canModeSleep who c) s = .next t ∧ t.answer.error = true ∧
        t.rd R.CAN_CTRL.MODE c = s.rd R.CAN_CTRL.MODE c ∧ t.canMode c = s.canMode c) ∧
    (s.rd R.CAN_CTRL.MODE c < 5 →
      (s.canOff c = true ∧ s.canMode c ≠ 5 ∧ s.rd R.CAN_CTRL.MODE c ≠ 4 →
        ∃ u : State, exec (.recover who c) s = .next u.vetoCheck.ok ∧ u.canMode c = 5 ∧ only s u c [R.CAN_STATUS.STATE]) ∧
      (s.rd R.CAN_CTRL.MODE c = 4 → (s.canOff c = true ∨ s.rd R.CAN_TXREQ.BUF c ≠ 0) →
        ∃ t, exec (.recover who c) s = .next t ∧ t.answer.error = true ∧ t.canMode c = s.canMode c ∧ t.can = s.can ∧
          (∀ d, t.reg (R.CAN_CTRL.MODE.addr d 0) = s.reg (R.CAN_CTRL.MODE.addr d 0))) ∧
      ((s.canOff c = false ∨ s.canMode c = 5) →
        (s.rd R.CAN_CTRL.MODE c = 4 → s.canOff c = false ∧ s.rd R.CAN_TXREQ.BUF c = 0) →
        ∃ u : State, exec (.recover who c) s = .next u.vetoCheck.ok ∧ only s u c []))) ∧
  (∀ (s : State) (c : Nat), c < 12 → s.canOn = true → s.canOff c = false →
    (s.rd R.CAN_CTRL.MODE c = 0 → s.canMode c ≠ 0 → s.canPhase c ≤ 1 →
      (∃ u : State, exec (.canInitEffect c) s = .next (ended u c (s.canCtl c).order) ∧ stops s u c 0) ∧
      ((s.canCtl c).waiting = [] → (∀ b ∈ (s.canCtl c).order, b < 32) →
        ∃ t, exec (.canInitEffect c) s = .next t ∧ stopped s t c)) ∧
    (s.rd R.CAN_CTRL.MODE c = 4 → s.canMode c ≠ 4 → s.canPhase c ≤ 1 →
      ∃ t, exec (.canSleepEffect c) s = .next t ∧ t.canMode c = 4 ∧ t.canPhase c = 1 ∧
        t.rd R.CAN_WK_STATUS.FEC c = 0 ∧ t.canCtl c = { s.canCtl c with woken := false } ∧
        (∀ d, d ≠ c → t.canCtl d = s.canCtl d) ∧
        (∀ a, a ≠ R.CAN_STATUS.STATE.addr c 0 → a ≠ R.CAN_WK_STATUS.FEC.addr c 0 → t.reg a = s.reg a) ∧
        { t with regs := s.regs, can := { t.can with ctl := s.can.ctl } } = s) ∧
    (s.canMode c ≠ 0 → s.canPhase c = 0 →
      ∃ t, exec (.canBusIntegrated c) s = .next t ∧ t.canPhase c = 1 ∧ t.canMode c = s.canMode c ∧
        only s t c [R.CAN_STATUS.PHASE])) ∧
  (∀ (s : State) (c : Nat),
    (s.canOn = false ∨ s.canOff c = true ∨ s.rd R.CAN_CTRL.MODE c ≠ 0 ∨ s.canMode c = 0 ∨ 1 < s.canPhase c →
      exec (.canInitEffect c) s = .next s) ∧
    (s.canOn = false ∨ s.canOff c = true ∨ s.rd R.CAN_CTRL.MODE c ≠ 4 ∨ 1 < s.canPhase c → exec (.canSleepEffect c) s = .next s) ∧
    (s.canOn = false ∨ s.canOff c = true ∨ s.canMode c = 0 ∨ s.canPhase c ≠ 0 → exec (.canBusIntegrated c) s = .next s) ∧
    (s.canOn = false ∨ s.canMode c ≠ 5 ∨ s.canOff c = false → exec (.canRecoveryEnd c) s = .next s)) ∧
  (∀ (s : State) (c : Nat), c < 12 → s.canOn = true → s.canMode c = 5 → s.canOff c = true →
    let clean (u : State) : Prop := u.rd R.CAN_ERRCNT.TEC c = 0 ∧ u.rd R.CAN_ERRCNT.REC c = 0 ∧ u.canOff c = false ∧
      u.rd R.CAN_ERRCNT.PASSIVE c = 0
    (s.rd R.CAN_CTRL.MODE c ≠ 0 →
      ∃ u : State, exec (.canRecoveryEnd c) s = .next u.vetoCheck ∧ clean u ∧ u.canMode c = s.rd R.CAN_CTRL.MODE c ∧
        u.canPhase c = 1 ∧ only s u c [R.CAN_ERRCNT.TEC, R.CAN_STATUS.STATE]) ∧
    (s.rd R.CAN_CTRL.MODE c = 0 →
      ∃ u : State, exec (.canRecoveryEnd c) s = .next (ended u c (s.canCtl c).order) ∧ clean u ∧ u.canMode c = 0 ∧
        u.canPhase c = 0 ∧ u.canCtl c = { s.canCtl c with onBus := none } ∧
        (∀ a, a ≠ R.CAN_ERRCNT.TEC.addr c 0 → a ≠ R.CAN_STATUS.STATE.addr c 0 → u.reg a = s.reg a) ∧
        { u with regs := s.regs, can := s.can } = s)) ∧
  (∀ (s : State) (who : Initiator) (c : Nat) (bufs : Word), c < 12 → s.takes who R.CAN_TXREQ.BUF c = true →
    ∃ t, exec (.canTxreq who c bufs) s = .next t ∧ t.answer.error = false ∧
      (∀ b, t.canPending c b = (s.canPending c b || (decide (b < min 32 (s.txn c)) && bit bufs.toNat b))) ∧
      (t.canCtl c).order = (s.canCtl c).order ++
        ((List.range (min 32 (s.txn c))).filter fun b => bit bufs.toNat b && !s.canPending c b) ∧
      (∀ d, d ≠ c → t.canCtl d = s.canCtl d) ∧ (∀ a, a ≠ R.CAN_TXREQ.BUF.addr c 0 → t.reg a = s.reg a) ∧
      { t with regs := s.regs, can := { t.can with ctl := s.can.ctl }, answer := s.answer } = s) ∧
  (∀ (s : State) (who : Initiator) (c : Nat) (bufs : Word), c < 12 → s.takes who R.CAN_TXABORT.BUF c = true →
    let act (t : State) (b : Nat) : State :=
      if bit bufs.toNat b && t.canPending c b then
        (if ((t.canCtl c).onBus.map (·.buf)) = some b then
          t.wr R.CAN_TXABORT.BUF (t.rd R.CAN_TXABORT.BUF c ||| 2 ^ b) c else t.canEnd c b 2 none)
      else t
    exec (.canTxabort who c bufs) s = .next ((List.range (min 32 (s.txn c))).foldl act s).ok ∧
    ((s.canCtl c).waiting = [] →
    ∃ t, exec (.canTxabort who c bufs) s = .next t ∧ t.answer.error = false ∧
      ∀ b, b < 32 →
        (b < s.txn c → bit bufs.toNat b = true → s.canPending c b = true →
          (((s.canCtl c).onBus.map (·.buf)) ≠ some b → t.canPending c b = false ∧ bit (t.rd R.CAN_TXFAIL.BUF c) b = true ∧
            b ∉ (t.canCtl c).order) ∧
          (((s.canCtl c).onBus.map (·.buf)) = some b → t.canPending c b = true ∧
            bit (t.rd R.CAN_TXABORT.BUF c) b = true)) ∧
        (s.txn c ≤ b ∨ bit bufs.toNat b = false → t.canPending c b = s.canPending c b)))

/-- Arbitration takes the pending buffer of the lowest arbitration field, as a classical frame with a classical
frame's data where FD_EN = 0, with BRS only where RSW_EN = 1 and with ESI by the error state (PRESUMED, log 24);
without a buffer, and in LISTEN mode, another node's frame is received (log 43). A sent frame ends SENT and TEC
falls; a lost or failed attempt counts and its buffer ends aborted where an abort was asked for, ends by TRIES,
or stays pending. A loop delay measured in an FD frame with a recessive BRS that is not below MIN_GAP updates
LAST, MIN and MAX, and one above 255 is a bit error of the frame. The end of a buffer writes its RESULT,
ATTEMPTS and times, sets its TXDONE or TXFAIL bit, and completes the detached operation of a context when it was
the last that this context had requested. (spec/11 R381, spec/11 R385, spec/11 R387, spec/11 R392, spec/11 R406,
spec/11 R407, spec/11 R408, spec/11 R409, spec/11 R410) -/
def Obligations.CanTransmissionsEnd : Prop :=
  (∀ (s : State) (c : Nat) (x : CanOnBus), c < 12 → s.canOn = true → (s.canMode c = 1 ∨ s.canMode c = 3) → s.canPhase c = 1 →
    s.canOff c = false → (s.canCtl c).onBus = none → s.canWinner c (s.canCtl c).order = some x →
    let u := (s.sramBytes (s.canBase c + 80 * x.buf) 80).1
    let y := canElemOf x.buf (s.sramBytes (s.canBase c + 80 * x.buf) 80).2
    let fd := y.frame.fdf && s.on R.CAN_CTRL.FD_EN c
    x.buf ∈ (s.canCtl c).order ∧ (∀ b ∈ (s.canCtl c).order, arbKey x.frame ≤ arbKey (s.canElem c b).frame) ∧
    ∃ t, exec (.canArbitration c) s = .next t ∧ t.canPhase c = 3 ∧
      (t.canCtl c).onBus = some { y with frame := { y.frame with
        fdf := fd, brs := y.frame.brs && fd && s.on R.CAN_CTRL.RSW_EN c, esi := fd && s.rd R.CAN_STATUS.ERRST c == 1
        data := y.frame.data.take (dlcBytes y.frame.rtr fd y.frame.dlc) } } ∧
      (t.canCtl c).tries.get 0 x.buf = (s.canCtl c).tries.get 0 x.buf + 1 ∧ (t.canCtl c).order = (s.canCtl c).order ∧
      (∀ a, a ≠ R.CAN_STATUS.PHASE.addr c 0 → t.reg a = u.reg a) ∧
      { t with regs := u.regs, can := { t.can with ctl := s.can.ctl } } = u) ∧
  (∀ (s : State) (c : Nat), c < 12 → s.canOn = true → s.canPhase c = 1 → s.canOff c = false → (s.canCtl c).onBus = none →
    (s.canMode c = 2 ∨ (s.canMode c = 1 ∧ (s.canCtl c).order = []) →
      ∃ t, exec (.canArbitration c) s = .next t ∧ t.canPhase c = 2 ∧
        (∀ a, a ≠ R.CAN_STATUS.PHASE.addr c 0 → t.reg a = s.reg a) ∧ { t with regs := s.regs } = s) ∧
    (s.canMode c = 3 → (s.canCtl c).order = [] → exec (.canArbitration c) s = .next s)) ∧
  (∀ (s : State) (c : Nat) (e : CanEnd),
    (s.canOn = false ∨ s.canMode c = 0 ∨ 3 < s.canMode c ∨ s.canPhase c ≠ 1 ∨ s.canOff c = true ∨
      (s.canCtl c).onBus ≠ none → exec (.canArbitration c) s = .next s) ∧
    (s.canOn = false ∨ (s.canCtl c).onBus = none → exec (.canTxEnd c e) s = .next s)) ∧
  (∀ (s : State) (c : Nat) (x : CanOnBus) (loop : Option Nat), c < 12 → s.canOn = true → (s.canCtl c).onBus = some x →
    x.buf < 32 →
    let measured := (match loop with
      | some d => s.on R.CAN_LOOPC.EN c && x.frame.fdf && x.frame.brs && decide (s.rd R.CAN_LOOPC.MIN_GAP c ≤ d)
      | none => false)
    let late := measured && decide (255 < loop.getD 0)
    let loopSeen (u : State) : Prop :=
      (measured = true → let d := min (loop.getD 0) 255
        u.rd R.CAN_LOOP.LAST c = d ∧ u.rd R.CAN_LOOP.MIN c = min d (s.rd R.CAN_LOOP.MIN c) ∧
        u.rd R.CAN_LOOP.MAX c = max d (s.rd R.CAN_LOOP.MAX c) ∧ (u.canCtl c).ssp = d + s.sspOffset c) ∧
      (measured = false → u.rd R.CAN_LOOP.LAST c = s.rd R.CAN_LOOP.LAST c ∧ u.rd R.CAN_LOOP.MIN c = s.rd R.CAN_LOOP.MIN c ∧
        u.rd R.CAN_LOOP.MAX c = s.rd R.CAN_LOOP.MAX c ∧ (u.canCtl c).ssp = (s.canCtl c).ssp)
    let kept (u : State) : Prop := (u.canCtl c).order = (s.canCtl c).order ∧ (u.canCtl c).waiting = (s.canCtl c).waiting ∧
      (u.canCtl c).tries = (s.canCtl c).tries ∧ (∀ d, d ≠ c → u.canCtl d = s.canCtl d) ∧
      (∀ a, a < regAt (28 + c) 0 ∨ regAt (29 + c) 0 ≤ a → u.reg a = s.reg a) ∧
      { u with regs := s.regs, can := { u.can with ctl := s.can.ctl } } = s
    let failing (u : State) (r : Nat) : State :=
      if bit (s.rd R.CAN_TXABORT.BUF c) x.buf then u.canEnd c x.buf 2 none
      else if s.rd R.CAN_CTRL.TRIES c ≠ 0 ∧ s.rd R.CAN_CTRL.TRIES c ≤ (s.canCtl c).tries.get 0 x.buf then u.canEnd c x.buf r none
      else u
    (late = false → ∀ sec ns, ∃ u : State,
      exec (.canTxEnd c (.sent sec ns loop)) s = .next ((u.canEnd c x.buf 1 (some (sec, ns))).ctxCount 2 c 0x14) ∧
      loopSeen u ∧ kept u ∧ u.canPhase c = 1 ∧ u.rd R.CAN_ERRCNT.TEC c = s.rd R.CAN_ERRCNT.TEC c - 1 ∧
      u.rd R.CAN_ERRCNT.REC c = s.rd R.CAN_ERRCNT.REC c ∧ (u.canCtl c).onBus = some x ∧
      (u.canCtl c).held = (if s.canMode c = 3 ∧ (s.canCtl c).held = none then some (x.frame, sec, ns) else (s.canCtl c).held)) ∧
    (late = false → ∃ u : State, exec (.canTxEnd c (.error loop)) s = .next (failing u 4) ∧ loopSeen u ∧ kept u ∧
      u.canPhase c = 1 ∧ (u.canCtl c).onBus = none ∧ u.rd R.CAN_RETRY.LO c = min (s.rd R.CAN_RETRY.LO c + 1) 65535 ∧
      u.rd R.CAN_RETRY.HI c = s.rd R.CAN_RETRY.HI c ∧ u.rd R.CAN_TXREQ.BUF c = s.rd R.CAN_TXREQ.BUF c) ∧
    (∃ u : State, exec (.canTxEnd c .lost) s = .next (failing u 3) ∧ kept u ∧
      u.canPhase c = 2 ∧ (u.canCtl c).onBus = none ∧ u.rd R.CAN_RETRY.HI c = min (s.rd R.CAN_RETRY.HI c + 1) 65535 ∧
      u.rd R.CAN_RETRY.LO c = s.rd R.CAN_RETRY.LO c ∧ u.rd R.CAN_TXREQ.BUF c = s.rd R.CAN_TXREQ.BUF c) ∧
    (late = true → ∃ u : State, loopSeen u ∧ kept u ∧ (∀ a, a ≠ R.CAN_LOOP.LAST.addr c 0 → u.reg a = s.reg a) ∧
      let w := (u.bump R.CAN_RETRY.LO c).canError c 6 false 8 0
      ∀ e, (e = .error loop ∨ ∃ sec ns, e = .sent sec ns loop) →
        exec (.canTxEnd c e) s = .next (if w.canOff c then w
          else (w.wr R.CAN_STATUS.PHASE 1 c).canFailed c x.buf 4))) ∧
  (∀ (s : State) (c b r : Nat) (ts : Option (Nat × Nat)), c < 12 → b < 32 → r < 8 →
    let k := s.canCtl c
    let own := k.owned.filter (·.2 != b)
    let bad := if r = 1 then k.failed else k.failed ++ (k.owned.filter (·.2 == b)).map (·.1)
    let ended := k.waiting.filter fun w => !(own.any fun o => o.1 == w.2)
    ∃ u : State, s.canEnd c b r ts =
        ended.foldl (fun (t : State) w => t.completeNode w.1 (ofBool (bad.contains w.2))) u ∧
      u.canPending c b = false ∧ bit (u.rd R.CAN_TXABORT.BUF c) b = false ∧
      (∀ d, d < 32 → d ≠ b → u.canPending c d = s.canPending c d ∧
        bit (u.rd R.CAN_TXABORT.BUF c) d = bit (s.rd R.CAN_TXABORT.BUF c) d) ∧
      bit (u.rd (if r = 1 then R.CAN_TXDONE.BUF else R.CAN_TXFAIL.BUF) c) b = true ∧
      u.canCtl c = { k with order := k.order.filter (· != b), tries := k.tries.set 0 b 0, owned := own,
                            failed := bad.filter fun x => !(ended.any fun w => w.2 == x)
                            waiting := k.waiting.filter fun w => own.any fun o => o.1 == w.2
                            onBus := if (k.onBus.map (·.buf)) = some b then none else k.onBus } ∧
      (∀ d, d ≠ c → u.canCtl d = s.canCtl d)) ∧
  (∀ (s : State) (c b r : Nat) (ts : Option (Nat × Nat)), c < 12 → b < 32 → r < 8 →
    let a := s.canBase c + 80 * b
    let w := leNat ((s.canEnd c b r ts).memBytes (a + 4) 4)
    (s.canCtl c).waiting = [] → 0x10000000 ≤ a → a + 80 ≤ 0x10400000 → (∀ k, k < 80 → s.eccAt (a + k) = .clean) →
    bitsOf w 15 13 = r ∧ bitsOf w 23 16 = min ((s.canCtl c).tries.get 0 b) 255 ∧
    w / 2 ^ 24 = leNat (s.memBytes (a + 4) 4) / 2 ^ 24 ∧
    (∀ sec ns, ts = some (sec, ns) → ns < 2 ^ 32 → sec < 2 ^ 32 →
      leNat ((s.canEnd c b r ts).memBytes (a + 8) 8) = ns + sec * 2 ^ 32) ∧
    ∀ i, (i < a + 4 ∨ a + 16 ≤ i) → (s.canEnd c b r ts).mem.bytes.get 0 i = s.mem.bytes.get 0 i)

/-- A valid frame is held until its search ends, and REC falls (to a value from 119 to 127 that is open, log 24,
when it was above 127); an FD frame is a form error of a classical-only controller; a frame that the controller
does not receive changes nothing. Searches are served round-robin. The search takes the first matching element
of the window, else the miss fate: a dropped frame is counted, a kept one is written at PUT, or overwrites the
oldest, or is lost when the FIFO is full without OVW. An acknowledgement moves GET and lowers FILL. A bus error
counts, and its counter steps lead to error passive and bus-off, where every pending buffer ends with RESULT 5.
A sleeping controller wakes on an enabled event, and only then. The Strainer's staged word goes into the element
with its high word, and INDEX advances under INC. (spec/11 R387, spec/11 R393, spec/11 R395, spec/11 R396,
spec/11 R397, spec/11 R400, spec/11 R401, spec/11 R403, spec/11 R412, spec/11 R413, spec/11 R416, spec/11 R417)
-/
def Obligations.CanReceivesCountsAndWakes : Prop :=
  (∀ (s : State) (c : Nat) (f : CanFrame) (sec ns : Nat), c < 12 → s.canOn = true →
    let receives : Prop := 1 ≤ s.canMode c ∧ s.canMode c ≤ 2 ∧ 1 ≤ s.canPhase c ∧ s.canOff c = false ∧
      (s.canCtl c).onBus = none ∧ (s.canCtl c).held = none
    (receives → (f.fdf = false ∨ s.on R.CAN_CTRL.FD_EN c = true) →
      ∃ t, exec (.canFrameValid c f sec ns) s = .next t ∧ t.canCtl c = { s.canCtl c with held := some (f, sec, ns) } ∧
        t.canPhase c = 1 ∧ t.rd R.CAN_ERRCNT.TEC c = s.rd R.CAN_ERRCNT.TEC c ∧
        (s.rd R.CAN_ERRCNT.REC c ≤ 127 → t.rd R.CAN_ERRCNT.REC c = s.rd R.CAN_ERRCNT.REC c - 1) ∧
        (127 < s.rd R.CAN_ERRCNT.REC c → 119 ≤ t.rd R.CAN_ERRCNT.REC c ∧ t.rd R.CAN_ERRCNT.REC c ≤ 127) ∧
        (∀ a, a ≠ R.CAN_STATUS.PHASE.addr c 0 → a ≠ R.CAN_ERRCNT.REC.addr c 0 → t.reg a = s.reg a) ∧
        (∀ d, d ≠ c → t.canCtl d = s.canCtl d) ∧
        { t with regs := s.regs, can := { t.can with ctl := s.can.ctl }, fresh := s.fresh } = s) ∧
    (receives → f.fdf = true → s.on R.CAN_CTRL.FD_EN c = false →
      exec (.canFrameValid c f sec ns) s = .next ((s.wr R.CAN_STATUS.PHASE 1 c).canError c 3 false 0 1)) ∧
    (s.canMode c = 4 → f.fdf = false → f.rtr = false →
      ∃ t, exec (.canFrameValid c f sec ns) s = .next t ∧
        t.rd R.CAN_WK_STATUS.FEC c = s.rd R.CAN_WK_STATUS.FEC c - 1 ∧
        (∀ a, a ≠ R.CAN_WK_STATUS.FEC.addr c 0 → t.reg a = s.reg a) ∧ { t with regs := s.regs } = s) ∧
    ((s.canMode c = 4 ∧ (f.fdf = true ∨ f.rtr = true)) ∨ (s.canMode c ≠ 4 ∧ ¬receives) →
      exec (.canFrameValid c f sec ns) s = .next s)) ∧
  (∀ (s : State) (id base n i : Nat) (xtd rtr : Bool), s.strFind id xtd rtr base n = some i ↔
    base ≤ i ∧ i < base + n ∧ strMatch (s.strElem i) id xtd rtr = true ∧
    ∀ j, base ≤ j → j < i → strMatch (s.strElem j) id xtd rtr = false) ∧
  (∀ (s : State) (c : Nat), s.nextSearch = some c ↔ c < 12 ∧ (s.canCtl c).held.isSome = true ∧
    ∀ d, d < 12 → (s.canCtl d).held.isSome = true →
      (c + 23 - s.can.served % 12) % 12 ≤ (d + 23 - s.can.served % 12) % 12) ∧
  (∀ (s : State) (c wait : Nat), s.canOn = false ∨ s.nextSearch ≠ some c → exec (.strainerSearch c wait) s = .next s) ∧
  (∀ (s : State) (c wait : Nat) (f : CanFrame) (sec ns : Nat), c < 12 → s.canOn = true → s.nextSearch = some c →
    (s.canCtl c).held = some (f, sec, ns) →
    let x := s.fate c f
    ∃ w : State, exec (.strainerSearch c wait) s =
        .next (if x.keep then w.rxKeep c f x sec ns else w.bump R.CAN_RXLOSS.LO c) ∧
      w.canCtl c = { s.canCtl c with held := none } ∧ (∀ d, d ≠ c → w.canCtl d = s.canCtl d) ∧ w.can.served = c ∧
      w.rd R.STR_STATUS.MAXWAIT = max (min wait 6144) (s.rd R.STR_STATUS.MAXWAIT) ∧
      w.rd R.INT_STATUS.BITS (28 + c) = (if x.prio then s.rd R.INT_STATUS.BITS (28 + c) ||| 2 ^ 4
        else s.rd R.INT_STATUS.BITS (28 + c)) ∧
      (∀ a, a ≠ R.INT_STATUS.BITS.addr (28 + c) 0 → a ≠ R.STR_STATUS.MAXWAIT.addr 0 0 → w.reg a = s.reg a) ∧
      { w with regs := s.regs, ic := s.ic, can := { w.can with ctl := s.can.ctl, served := s.can.served } } = s ∧
      (x.prio = false → w.ic = s.ic)) ∧
  (∀ (w : State) (c : Nat) (f : CanFrame) (x : Fate) (sec ns : Nat), c < 12 →
    let q := fifoFlds x.fifo
    let n := w.rxn c x.fifo
    (w.rd q.fill c < n → w.rxKeep c f x sec ns = w.rxStore c f x sec ns) ∧
    (n ≤ w.rd q.fill c → ∃ l : State, w.rxKeep c f x sec ns =
        (if w.on q.ovw c ∧ n ≠ 0 then l.rxStore c f x sec ns else l) ∧
      l.rd R.CAN_RXLOSS.HI c = min (w.rd R.CAN_RXLOSS.HI c + 1) 65535 ∧
      l.rd q.get c = (if w.on q.ovw c ∧ n ≠ 0 then (w.rd q.get c + 1) % n else w.rd q.get c) ∧
      l.rd q.fill c = w.rd q.fill c ∧ l.rd q.put c = w.rd q.put c ∧
      bit (l.rd R.INT_STATUS.BITS (28 + c)) (if x.fifo then 3 else 1) = true ∧
      { l with regs := w.regs, ic := w.ic } = w) ∧
    (1 ≤ n → ∃ v : State, w.rxStore c f x sec ns =
        (((v.postSources (.can c) 7 (ofBool x.fifo) c).ctxCount 2 c (if x.fifo then 0x1C else 0x18)).canPointers c) ∧
      v.rd q.put c = (w.rd q.put c + 1) % n ∧ v.rd q.fill c = min (w.rd q.fill c + 1) n ∧ v.rd q.get c = w.rd q.get c ∧
      bit (v.rd R.INT_STATUS.BITS (28 + c)) (if x.fifo then 2 else 0) = true ∧ v.can = w.can ∧
      let a := w.rxAddr c x.fifo (w.rd q.put c)
      (0x10000000 ≤ a → a + 80 ≤ 0x10400000 → (∀ k, k < 80 → w.eccAt (a + k) = .clean) →
        v.memBytes a 16 = rxHeader f x sec ns ∧
        (∀ k, k < (f.data.take (dlcBytes f.rtr f.fdf f.dlc)).length →
          v.mem.bytes.get 0 (a + 16 + k) = f.data.getD k 0) ∧
        (∀ j, (j < a ∨ a + 80 ≤ j) → v.mem.bytes.get 0 j = w.mem.bytes.get 0 j)))) ∧
  (∀ (s : State) (who : Initiator) (c get : Nat) (f1 : Bool), c < 12 →
    s.takes who (if f1 then R.CAN_RXF1_ACK.GET else R.CAN_RXF0_ACK.GET) c = true →
    let q := fifoFlds f1
    let n := s.rxn c f1
    let d := (get + n - s.rd q.get c) % n
    get < 128 → s.rd q.get c < n →
    (get < n → d ≤ s.rd q.fill c →
      ∃ u : State, exec (.canRxfAck who c f1 get) s = .next (u.canPointers c).ok ∧ u.rd q.get c = get ∧
        u.rd q.fill c = s.rd q.fill c - d ∧ u.rd q.put c = s.rd q.put c ∧
        (∀ a, a ≠ q.get.addr c 0 → u.reg a = s.reg a) ∧ { u with regs := s.regs } = s) ∧
    (n ≤ get ∨ s.rd q.fill c < d →
      ∃ t, exec (.canRxfAck who c f1 get) s = .next t ∧ t.answer.error = true ∧ t.rd q.get c = s.rd q.get c ∧
        t.rd q.fill c = s.rd q.fill c)) ∧
  (∀ (s : State) (c : Nat), s.boundCtx 2 c = none → s.canPointers c = s ∧ ∀ o, s.ctxCount 2 c o = s) ∧
  (∀ (s : State) (c x : Nat), s.boundCtx 2 c = some x →
    (∀ o, s.ctxCount 2 c o = s.setCtxWord x o ((s.ctxWord x o + 1) % 2 ^ 32)) ∧
    s.canPointers c = ((s.setCtxWord x 0x24 (s.rd R.CAN_RXF0.GET c + s.rd R.CAN_RXF1.GET c * 65536)).setCtxWord x 0x28
      (s.rd R.CAN_RXF0.PUT c + s.rd R.CAN_RXF1.PUT c * 65536))) ∧
  (∀ (s : State) (c kind tec rec : Nat) (dp : Bool), c < 12 → s.canOn = true → 1 ≤ kind → kind ≤ 6 →
    let t0 := s.rd R.CAN_ERRCNT.TEC c
    let r0 := s.rd R.CAN_ERRCNT.REC c
    (1 ≤ s.canMode c → s.canMode c ≤ 3 → s.canOff c = false → t0 + tec ≤ 255 →
      ∃ t, exec (.canBusError c kind dp tec rec) s = .next t ∧
        t.rd (if dp then R.CAN_STATUS.DATA_ERR else R.CAN_STATUS.LAST_ERR) c = kind ∧
        t.rd R.CAN_BUSERR.HI c = min (s.rd R.CAN_BUSERR.HI c + 1) 65535 ∧
        t.rd R.CAN_ERRCNT.TEC c = t0 + tec ∧ t.rd R.CAN_ERRCNT.REC c = min (r0 + rec) 255 ∧
        (s.rd R.CAN_STATUS.ERRST c = 0 → (128 ≤ t0 + tec ∨ 128 ≤ r0 + rec) →
          t.rd R.CAN_STATUS.ERRST c = 1 ∧ t.on R.CAN_ERRCNT.PASSIVE c = true) ∧
        t.canPhase c = (if s.canPhase c = 2 then 1 else s.canPhase c) ∧ t.can = s.can ∧
        (t0 + tec < 96 → r0 + rec < 96 → t.rd R.CAN_STATUS.ERRST c = s.rd R.CAN_STATUS.ERRST c ∧
          { t with regs := s.regs, ic := s.ic } = s.ctxCount 2 c 0x20)) ∧
    (1 ≤ s.canMode c → s.canMode c ≤ 3 → s.canOff c = false → 255 < t0 + tec →
      (∃ u : State, exec (.canBusError c kind dp tec rec) s =
          .next (((((s.canCtl c).order.foldl (fun v b => v.canEnd c b 5 none) u).raise R.can_INT.BUSOFF c).bump
            R.CAN_BUSERR.LO c).alarm (28 + c) 1 c (min (t0 + tec) 511)) ∧
        u.canOff c = true ∧ u.canPhase c = 0 ∧ u.canCtl c = { s.canCtl c with onBus := none } ∧
        u.rd R.CAN_ERRCNT.TEC c = min (t0 + tec) 511 ∧ u.rd R.CAN_ERRCNT.REC c = min (r0 + rec) 255 ∧
        u.rd (if dp then R.CAN_STATUS.DATA_ERR else R.CAN_STATUS.LAST_ERR) c = kind) ∧
      ((s.canCtl c).waiting = [] → ∃ t, exec (.canBusError c kind dp tec rec) s = .next t ∧ t.canOff c = true ∧
        t.canPhase c = 0 ∧ (t.canCtl c).onBus = none ∧
        t.rd R.CAN_BUSERR.LO c = min (s.rd R.CAN_BUSERR.LO c + 1) 65535)) ∧
    (s.canMode c = 4 →
      ∃ t, exec (.canBusError c kind dp tec rec) s = .next t ∧
        t.rd R.CAN_WK_STATUS.FEC c = min (s.rd R.CAN_WK_STATUS.FEC c + 1) 32 ∧
        (∀ a, a ≠ R.CAN_WK_STATUS.FEC.addr c 0 → t.reg a = s.reg a) ∧ { t with regs := s.regs } = s) ∧
    (s.canMode c ≠ 4 → (s.canMode c = 0 ∨ 3 < s.canMode c ∨ s.canOff c = true) →
      exec (.canBusError c kind dp tec rec) s = .next s)) ∧
  (∀ (s : State) (c p : Nat) (w : CanWake) (kind tec rec : Nat) (dp : Bool) (f : CanFrame) (sec ns : Nat),
    (s.canOn = false ∨ s.canAsleep c = false → exec (.canWake c w p) s = .next s) ∧
    (s.canOn = false → exec (.canBusError c kind dp tec rec) s = .next s ∧ exec (.canFrameValid c f sec ns) s = .next s)) ∧
  (∀ (s : State) (c p : Nat) (w : CanWake), c < 12 → s.canOn = true → s.canAsleep c = true →
    let kind := (match w with | .edge => 1 | .frame _ => 2 | .errcnt => 3)
    let wakes := (match w with
      | .edge => s.on R.CAN_WK_CFG.EDGE_EN c
      | .frame f => s.on R.CAN_WK_CFG.FRAME_EN c && s.wakeFrame c f
      | .errcnt => s.on R.CAN_WK_CFG.ERR_EN c && s.rd R.CAN_WK_STATUS.FEC c == 32)
    (wakes = true → ∃ u : State, exec (.canWake c w p) s = .next (u.wakeSeen (2 + kind) c p) ∧
      u.on R.CAN_WK_STATUS.WOKE c = true ∧ u.rd R.CAN_WK_STATUS.KIND c = kind ∧
      (∀ f, w = .frame f → f.id < 2 ^ 29 → f.dlc < 16 → u.rd R.CAN_WK_FID.ID c = f.id ∧ u.rd R.CAN_WK_STATUS.DLC c = f.dlc) ∧
      u.rd R.CAN_WK_STATUS.FEC c = s.rd R.CAN_WK_STATUS.FEC c ∧ u.canCtl c = { s.canCtl c with woken := true } ∧
      (∀ d, d ≠ c → u.canCtl d = s.canCtl d) ∧
      { u with regs := s.regs, ic := s.ic, can := { u.can with ctl := s.can.ctl } } = s) ∧
    (wakes = false → exec (.canWake c w p) s = .next s)) ∧
  (∀ (s : State) (who : Initiator) (c : Nat), c < 12 → s.takes who R.CAN_LOOP.RESTART c = true →
    ∃ t, exec (.canLoopRestart who c) s = .next t ∧ t.answer.error = false ∧ t.rd R.CAN_LOOP.MIN c = 255 ∧
      t.rd R.CAN_LOOP.MAX c = 0 ∧ t.rd R.CAN_LOOP.LAST c = s.rd R.CAN_LOOP.LAST c ∧
      (∀ a, a ≠ R.CAN_LOOP.MIN.addr c 0 → t.reg a = s.reg a) ∧ { t with regs := s.regs, answer := s.answer } = s) ∧
  (∀ (s : State) (who : Initiator) (v : Word), s.takes who R.STR_DATA_LO.DATA = true →
    let i := s.rd R.STR_ADDR.INDEX
    let next := if s.on R.STR_ADDR.INC then (i + 1) % 2048 else i
    (∃ t, exec (.strDataLoWrite who v) s = .next t ∧ t.answer.error = false ∧ t.can.staged = v ∧
      { t with can := { t.can with staged := s.can.staged }, answer := s.answer } = s) ∧
    (∃ t, exec (.strDataHiWrite who v) s = .next t ∧ t.answer.error = false ∧
      t.strElem i = v.toNat * 2 ^ 32 + s.can.staged.toNat ∧ (∀ j, j < 2048 → j ≠ i → t.strElem j = s.strElem j) ∧
      t.rd R.STR_ADDR.INDEX = next ∧ (∀ a, a ≠ R.STR_ADDR.INDEX.addr 0 0 → t.reg a = s.reg a) ∧
      { t with regs := s.regs, can := { t.can with elems := s.can.elems }, answer := s.answer } = s) ∧
    (∃ t, exec (.strDataHiRead who) s = .next t ∧ t.answer = ⟨BitVec.ofNat 64 (s.strElem i / 2 ^ 32), false⟩ ∧
      t.rd R.STR_ADDR.INDEX = next ∧ (∀ a, a ≠ R.STR_ADDR.INDEX.addr 0 0 → t.reg a = s.reg a) ∧
      { t with regs := s.regs, answer := s.answer } = s))

/-- A disabled source, one seen by an awake unit or by an exiting one in another sample than its wake
decision's, WAKE_N while the unit drives it itself, and a ring detection or the timer of a unit that does not
sleep do nothing. An enabled source disarms an armed unit, is latched between commit point and power-down
complete and in the dwell, and wakes a sleeping unit, whose record takes its kind, detail and time; a further
one of that sample is latched, and the record takes it when it is the lower one. The maximum awake time ends the
stay veto and raises an ALARM. A vetoing member sends its keep-alive bit; the coordinator copies the vector at
an interval end, and commits when it was 0 KA_DWELL times, arming itself after its last token write. A written
token takes the unit's veto and is forwarded; a commit token without veto arms a unit that does not veto; a
token that returns to the coordinator of consent-ring mode starts the commit, or ends it when it carries a veto.
What a unit with MODE = OFF does with a token is log 47's. (spec/12 R420, spec/12 R425, spec/12 R426, spec/12
R429, spec/12 R431, spec/12 R432, spec/12 R434, spec/12 R435, spec/12 R436, spec/12 R437, spec/12 R441, spec/12
R443) -/
def Obligations.WakeSourcesAndVetoes : Prop :=
  let woken (s t : State) (kind detail p : Nat) : Prop :=
    t.wakeRun = .exiting ∧ t.rd R.WK_REC.KIND = kind ∧ t.rd R.WK_REC.DETAIL = detail ∧ t.rd R.WK_REC.LATE_KIND = 0 ∧
    t.rd R.WK_REC_TIME.PERIODS = p % 2 ^ 32 ∧ t.on R.WK_MAXAWAKE.EXPIRED = false ∧
    t.rd R.WK_PEND.all = s.rd R.WK_PEND.all ||| 2 ^ wakeBit kind detail ∧
    t.wake = { s.wake with driving := true, inh := true, late := none, dwell := [] } ∧
    bit (t.rd R.INT_STATUS.BITS 2) 0 = true ∧
    (∀ a, (a < regAt 2 0 ∨ regAt 3 0 ≤ a) → t.reg a = s.reg a) ∧ { t with regs := s.regs, ic := s.ic, wake := s.wake } = s
  let asleep (i : Nat → Instr) (kind detail : Nat) : Prop :=
    ∀ (s : State) (p : Nat), bit (s.rd R.WK_EN.all) (wakeBit kind detail) = true →
      (kind = 1 → s.wake.driving = false) → (kind = 8 → s.rd R.WK_TIMER.PERIODS ≠ 0) →
      (s.wakeRun = .asleep → ∃ t, exec (i p) s = .next t ∧ woken s t kind detail p) ∧
      (s.wakeRun = .dwell → ∃ t, exec (i p) s = .next t ∧ t.wake.dwell = s.wake.dwell ++ [(kind, detail)] ∧
        t.rd R.WK_PEND.all = s.rd R.WK_PEND.all ||| 2 ^ wakeBit kind detail ∧
        (∀ a, a ≠ R.WK_PEND.all.addr 0 0 → t.reg a = s.reg a) ∧
        { t with regs := s.regs, wake := { t.wake with dwell := s.wake.dwell } } = s)
  let sample (i : Nat → Instr) (kind detail : Nat) : Prop :=
    ∀ (s : State) (p : Nat), s.wakeRun = .exiting → (kind = 1 → s.wake.driving = false) →
      (kind = 8 → s.rd R.WK_TIMER.PERIODS ≠ 0) →
      (s.rd R.WK_REC_TIME.PERIODS ≠ p → exec (i p) s = .next s) ∧
      (bit (s.rd R.WK_EN.all) (wakeBit kind detail) = true → s.rd R.WK_REC_TIME.PERIODS = p →
        let k := s.rd R.WK_REC.KIND
        let d := s.rd R.WK_REC.DETAIL
        let lower : Prop := k ≠ 9 ∧ (kind < k ∨ (kind = k ∧ detail < d))
        ∃ t, exec (i p) s = .next t ∧ t.rd R.WK_PEND.all = s.rd R.WK_PEND.all ||| 2 ^ wakeBit kind detail ∧
          (lower → t.rd R.WK_REC.KIND = kind ∧ t.rd R.WK_REC.DETAIL = detail) ∧
          (¬lower → t.rd R.WK_REC.KIND = k ∧ t.rd R.WK_REC.DETAIL = d) ∧
          (∀ a, a ≠ R.WK_PEND.all.addr 0 0 → a ≠ R.WK_REC.KIND.addr 0 0 → t.reg a = s.reg a) ∧ { t with regs := s.regs } = s)
  let awake (i : Nat → Instr) (kind detail : Nat) : Prop :=
    ∀ (s : State) (p : Nat), (kind = 1 → s.wake.driving = false) →
      (bit (s.rd R.WK_EN.all) (wakeBit kind detail) = false → exec (i p) s = .next s) ∧
      (s.wakeRun = .awake → exec (i p) s = .next s) ∧
      (bit (s.rd R.WK_EN.all) (wakeBit kind detail) = true → s.wakeRun = .armed →
        ∃ t, exec (i p) s = .next t ∧ t.wakeRun = .awake ∧
          t.rd R.WK_CNT.ABORTS = min (s.rd R.WK_CNT.ABORTS + 1) 255 ∧ bit (t.rd R.INT_STATUS.BITS 2) 1 = true ∧
          t.wake = { s.wake with kaIdle := 0, driving := s.wake.driving || kind != 1 } ∧
          (∀ a, (a < regAt 2 0 ∨ regAt 3 0 ≤ a) → t.reg a = s.reg a) ∧
          { t with regs := s.regs, ic := s.ic, wake := s.wake } = s) ∧
      (bit (s.rd R.WK_EN.all) (wakeBit kind detail) = true → s.wakeRun = .committed →
        ∃ t, exec (i p) s = .next t ∧ t.wakeRun = .committed ∧ t.wake.late = some (s.wake.late.getD (kind, detail)) ∧
          t.rd R.WK_PEND.all = s.rd R.WK_PEND.all ||| 2 ^ wakeBit kind detail ∧
          (∀ a, a ≠ R.WK_PEND.all.addr 0 0 → t.reg a = s.reg a) ∧
          { t with regs := s.regs, wake := { t.wake with late := s.wake.late } } = s)
  (asleep .wakeNSeen 1 0 ∧ awake .wakeNSeen 1 0 ∧ sample .wakeNSeen 1 0) ∧
  (∀ k, k < 4 → asleep (Instr.wkupSeen k) 2 k ∧ awake (Instr.wkupSeen k) 2 k ∧ sample (Instr.wkupSeen k) 2 k) ∧
  (∀ k, k < 3 → asleep (Instr.hostWake k) 7 k ∧ awake (Instr.hostWake k) 7 k ∧ sample (Instr.hostWake k) 7 k) ∧
  (asleep (Instr.ringDetect .e) 6 0 ∧ asleep (Instr.ringDetect .w) 6 1 ∧ asleep Instr.wakeTimerExpire 8 0 ∧
    sample (Instr.ringDetect .e) 6 0 ∧ sample (Instr.ringDetect .w) 6 1 ∧ sample Instr.wakeTimerExpire 8 0) ∧
  (∀ (s : State) (p : Nat) (d : RingPort),
    (s.wake.driving = true → exec (.wakeNSeen p) s = .next s) ∧
    (s.wakeRun ≠ .dwell → s.wakeRun ≠ .asleep → s.wakeRun ≠ .exiting →
      exec (.ringDetect d p) s = .next s ∧ exec (.wakeTimerExpire p) s = .next s) ∧
    (bit (s.rd R.WK_EN.all) (match d with | .e => 17 | .w => 18) = false → exec (.ringDetect d p) s = .next s) ∧
    (bit (s.rd R.WK_EN.all) 20 = false ∨ s.rd R.WK_TIMER.PERIODS = 0 → exec (.wakeTimerExpire p) s = .next s) ∧
    (s.wakeRun ≠ .dwell → exec (.dwellEnd p) s = .next s)) ∧
  (∀ (s : State) (p : Nat), s.wakeRun = .dwell → p < 2 ^ 32 →
    (s.wake.late = none → s.wake.dwell = [] →
      ∃ t, exec (.dwellEnd p) s = .next t ∧ t.wakeRun = .asleep ∧
        (∀ a, a ≠ R.WK_STATUS.STATE.addr 0 0 → t.reg a = s.reg a) ∧ { t with regs := s.regs } = s) ∧
    (∀ k d, s.wake.late = some (k, d) → k < 16 → d < 16 →
      ∃ t, exec (.dwellEnd p) s = .next t ∧ t.wakeRun = .exiting ∧ t.rd R.WK_REC.KIND = 9 ∧ t.rd R.WK_REC.DETAIL = d ∧
        t.rd R.WK_REC.LATE_KIND = k ∧ t.rd R.WK_REC_TIME.PERIODS = p ∧
        t.rd R.WK_CNT.LATE = min (s.rd R.WK_CNT.LATE + 1) 255 ∧ t.wake.driving = true ∧ t.wake.inh = true) ∧
    (∀ k d, s.wake.late = none → (k, d) ∈ s.wake.dwell → k < 16 → d < 16 →
      (∀ x ∈ s.wake.dwell, k < x.1 ∨ (k = x.1 ∧ d ≤ x.2)) →
      ∃ t, exec (.dwellEnd p) s = .next t ∧ t.wakeRun = .exiting ∧ t.rd R.WK_REC.KIND = k ∧ t.rd R.WK_REC.DETAIL = d ∧
        t.rd R.WK_REC.LATE_KIND = 0 ∧ t.rd R.WK_REC_TIME.PERIODS = p)) ∧
  (∀ s : State, ∃ t, exec .wakePulseEnd s = .next t ∧ t.wake.driving = false ∧
    { t with wake := { t.wake with driving := s.wake.driving } } = s) ∧
  (∀ s : State, s.rd R.WK_MAXAWAKE.SECONDS ≠ 0 → s.on R.WK_MAXAWAKE.EXPIRED = false →
    ∃ t, exec .maxawakeExpire s = .next t ∧ t.on R.WK_MAXAWAKE.EXPIRED = true ∧
      bit (t.rd R.INT_STATUS.BITS 2) 4 = true ∧
      (s.wakeMode ≠ 0 → s.canBusy = false → t.veto = false) ∧
      (s.on R.TRC_CTRL.EN = true → t.rd R.TRC_ALARMS.COUNT = min (s.rd R.TRC_ALARMS.COUNT + 1) R.TRC_ALARMS.COUNT.max) ∧
      (s.on R.TRC_CTRL.EN = false → (∀ a, a ≠ R.WK_MAXAWAKE.EXPIRED.addr 0 0 → a ≠ R.INT_STATUS.BITS.addr 2 0 →
        t.reg a = s.reg a) ∧ { t with regs := s.regs, ic := s.ic } = s)) ∧
  (∀ s : State, (s.rd R.WK_MAXAWAKE.SECONDS = 0 ∨ s.on R.WK_MAXAWAKE.EXPIRED = true → exec .maxawakeExpire s = .next s) ∧
    (s.wakeMode ≠ 1 → exec .kaSend s = .next s) ∧
    (s.coord = false ∨ s.wakeMode ≠ 1 → exec .kaIntervalEnd s = .next s)) ∧
  (∀ s : State, s.wakeMode = 1 →
    (s.veto = false → exec .kaSend s = .next s) ∧
    (s.veto = true → s.coord = true →
      ∃ t, exec .kaSend s = .next t ∧ t.rd R.WK_KA_SET.BITS = s.rd R.WK_KA_SET.BITS ||| 2 ^ s.rd R.WK_CTRL.KA_BIT ∧
        (∀ a, a ≠ R.WK_KA_SET.BITS.addr 0 0 → t.reg a = s.reg a) ∧ { t with regs := s.regs } = s) ∧
    (s.veto = true → s.coord = false → exec .kaSend s =
      .next (s.farWrite s.ring.active.master R.WK_KA_SET.all.at (BitVec.ofNat 32 (2 ^ s.rd R.WK_CTRL.KA_BIT))))) ∧
  (∀ (s : State) (u a : Nat) (v : Word), s.cycling = true →
    ∃ r ∈ (s.farWrite u a v).ring.bridge, r.unit = u ∧ r.far = a ∧ r.size = 4 ∧ r.data = v.toNat ∧ r.write = true ∧
      (s.farWrite u a v).regs = s.regs) ∧
  (∀ (s : State) (who : Initiator) (v : Word), s.takes who R.WK_KA_SET.BITS = true →
    ∃ t, exec (.kaSet who v) s = .next t ∧ t.answer.error = false ∧
      t.rd R.WK_KA_SET.BITS = s.rd R.WK_KA_SET.BITS ||| v.toNat ∧
      (∀ a, a ≠ R.WK_KA_SET.BITS.addr 0 0 → t.reg a = s.reg a) ∧ { t with regs := s.regs, answer := s.answer } = s) ∧
  (∀ s : State, s.coord = true → s.wakeMode = 1 →
    let n := if s.rd R.WK_KA_SET.BITS = 0 then s.wake.kaIdle + 1 else 0
    let us := (s.ring.active.dynOrder.map (·.unit)).filter (· != s.ring.addr)
    let starts : Prop := max 1 (s.rd R.WK_CTRL.KA_DWELL) ≤ n ∧ s.wakeRun = .awake ∧ s.wake.kaWrites = []
    ∃ t, exec .kaIntervalEnd s = .next t ∧ t.rd R.WK_KA_VEC.BITS = s.rd R.WK_KA_SET.BITS ∧ t.rd R.WK_KA_SET.BITS = 0 ∧
      (¬starts → t.wake.kaIdle = n ∧
        (∀ a, a ≠ R.WK_KA_VEC.BITS.addr 0 0 → a ≠ R.WK_KA_SET.BITS.addr 0 0 → t.reg a = s.reg a) ∧
        { t with regs := s.regs, wake := { t.wake with kaIdle := s.wake.kaIdle } } = s) ∧
      (starts → t.reg R.WK_TOKEN.all.at = tokenWord true false 0 s.commitCycle ∧ bit (t.rd R.INT_STATUS.BITS 2) 3 = true ∧
        t.wake.kaWrites = us ∧ t.wake.kaIdle = 0 ∧
        (us = [] → s.veto = false → t.wakeRun = .armed ∧ t.rd R.WK_STATUS.CCYCLE = s.commitCycle) ∧
        (us ≠ [] ∨ s.veto = true → t.wakeRun = .awake))) ∧
  (∀ (s : State) (who : Initiator) (v : Word), s.takes who R.WK_TOKEN.COMMIT = true →
    let w := tokenWord (v.toNat.testBit 31) (v.toNat.testBit 30 || s.veto) (v.toNat / 2 ^ 16 % 4096) (v.toNat % 65536)
    (s.coord = false ∨ s.wakeMode = 1 ∨ remote who = false →
      ∃ t, exec (.wkTokenWrite who v) s = .next t ∧ t.answer.error = false ∧ t.reg R.WK_TOKEN.all.at = w ∧
        t.wake = { s.wake with tokenDue := if s.wakeMode = 1 then s.wake.tokenDue else some w } ∧
        (v.toNat.testBit 31 = true → v.toNat.testBit 30 = false → s.veto = false →
          (s.wakeRun = .awake ∨ s.wakeRun = .armed) → t.wakeRun = .armed ∧ t.rd R.WK_STATUS.CCYCLE = v.toNat % 65536) ∧
        (v.toNat.testBit 31 = false ∨ v.toNat.testBit 30 = true ∨ s.veto = true ∨ (s.wakeRun ≠ .awake ∧ s.wakeRun ≠ .armed) →
          t.wakeRun = s.wakeRun) ∧
        (∀ a, a ≠ R.WK_TOKEN.all.at → a ≠ R.WK_STATUS.STATE.addr 0 0 → t.reg a = s.reg a) ∧
        { t with regs := s.regs, wake := s.wake, answer := s.answer } = s) ∧
    (s.coord = true → s.wakeMode ≠ 1 → remote who = true → v.toNat.testBit 31 = true →
      (v.toNat.testBit 30 || s.veto) = true →
      ∃ u : State, exec (.wkTokenWrite who v) s =
          .next ((if u.wakeRun = .armed then u.disarm false else u).driveWake).ok ∧ u.reg R.WK_TOKEN.all.at = w ∧
        bit (u.rd R.INT_STATUS.BITS 2) 2 = true ∧
        (∀ a, a ≠ R.WK_TOKEN.all.at → a ≠ R.INT_STATUS.BITS.addr 2 0 → u.reg a = s.reg a) ∧
        { u with regs := s.regs, ic := s.ic } = s) ∧
    (s.coord = true → s.wakeMode ≠ 1 → remote who = true →
      v.toNat.testBit 31 = !(v.toNat.testBit 30 || s.veto) →
      ∃ t, exec (.wkTokenWrite who v) s = .next t ∧ t.answer.error = false ∧ t.reg R.WK_TOKEN.all.at = w ∧
        bit (t.rd R.INT_STATUS.BITS 2) 2 = true ∧
        (∀ a, a ≠ R.WK_TOKEN.all.at → a ≠ R.INT_STATUS.BITS.addr 2 0 → t.reg a = s.reg a) ∧
        { t with regs := s.regs, ic := s.ic, answer := s.answer } = s) ∧
    (s.coord = true → s.wakeMode ≠ 1 → remote who = true → v.toNat.testBit 31 = false → v.toNat.testBit 30 = false →
      s.veto = false →
      let c := tokenWord true false (v.toNat / 2 ^ 16 % 4096) s.commitCycle
      ∃ t, exec (.wkTokenWrite who v) s = .next t ∧ t.answer.error = false ∧ t.reg R.WK_TOKEN.all.at = c ∧
        t.wake.tokenDue = some c ∧
        ((s.wakeRun = .awake ∨ s.wakeRun = .armed) → t.wakeRun = .armed ∧ t.rd R.WK_STATUS.CCYCLE = s.commitCycle) ∧
        (s.wakeRun ≠ .awake → s.wakeRun ≠ .armed → t.wakeRun = s.wakeRun) ∧
        bit (t.rd R.INT_STATUS.BITS 2) 2 = true)) ∧
  (∀ (s : State) (u : Nat) (l : List Nat), s.wake.kaWrites = u :: l →
    let v := s.reg R.WK_TOKEN.all.at
    let w := ({ s with wake := { s.wake with kaWrites := l } } : State).farWrite u R.WK_TOKEN.all.at v
    let arms : Prop := l = [] ∧ v.toNat.testBit 31 = true ∧ v.toNat.testBit 30 = false ∧ w.veto = false ∧
      (w.wakeRun = .awake ∨ w.wakeRun = .armed)
    (¬arms → exec .tokenForward s = .next w) ∧
    (arms → ∃ t, exec .tokenForward s = .next t ∧ t.wakeRun = .armed ∧ t.rd R.WK_STATUS.CCYCLE = v.toNat % 65536 ∧
      (∀ a, a ≠ R.WK_STATUS.STATE.addr 0 0 → t.reg a = w.reg a) ∧ { t with regs := w.regs } = w)) ∧
  (∀ (s : State) (v : Word), s.wake.kaWrites = [] → s.wake.tokenDue = some v →
    let u := nextInOrder s.ring.addr s.ring.active.master (s.ring.active.dynOrder.map (·.unit))
    let x : State := { s with wake := { s.wake with tokenDue := none } }
    exec .tokenForward s = .next (if u = s.ring.addr then x.tokenBack v else x.farWrite u R.WK_TOKEN.all.at v)) ∧
  (∀ s : State, s.wake.kaWrites = [] → s.wake.tokenDue = none → exec .tokenForward s = .next s)

/-- At the start of its commit cycle an ARMED unit commits: the Pour unit's slots are discarded and the target
is taken from WK_CTRL; KET_STATE_REQ commits at once when nothing vetoes and the unit is awake, and is refused
otherwise. Operations that still run are aborted. At power-down complete Kettle enters NAP or DEEP, every domain
but a NAP's CAN domain is off, the cluster cores have lost their registers, the links are down and the dwell
begins. NAP exit starts those of SYS and KEEP that are out of reset, keeps memory and moves time on by the
periods asleep; DEEP exit is the start-up with SRAM banks 0 and 1 kept, and time moves on by the periods asleep
there too. (spec/12 R438, spec/12 R439, spec/12 R441, spec/12 R444, spec/12 R445, spec/17 R569, spec/17 R581,
spec/17 R582, spec/17 R583) -/
def Obligations.PowerDownAndResume : Prop :=
  let committed (s t : State) (forced deep : Bool) : Prop :=
    t.wakeRun = .committed ∧ t.power = { s.power with forced := forced, deep := deep } ∧
    (∀ k, (t.slot k).busy = false) ∧ t.mem = s.mem ∧ t.cores = s.cores
  (∀ s : State, s.awake = true →
    (s.wakeRun = .armed → s.rd R.WK_STATUS.CCYCLE = s.rd R.RING_CYC_NUM.CYCLE % 65536 →
      ∃ t, exec .commitPoint s = .next t ∧ committed s t false (s.rd R.WK_CTRL.TARGET == 1)) ∧
    (s.wakeRun ≠ .armed ∨ s.rd R.WK_STATUS.CCYCLE ≠ s.rd R.RING_CYC_NUM.CYCLE % 65536 → exec .commitPoint s = .next s)) ∧
  (∀ (s : State) (who : Initiator) (deep : Bool), s.takes who R.KET_STATE_REQ.ENTER = true →
    (s.canBusy = false → s.wakeRun = .awake →
      ∃ t, exec (.ketStateReq who deep) s = .next t ∧ t.answer.error = false ∧ committed s t true deep) ∧
    (s.canBusy = true ∨ s.rd R.WK_STATUS.STATE ≠ 0 →
      ∃ t, exec (.ketStateReq who deep) s = .next t ∧ t.answer.error = true ∧ t.wakeRun = s.wakeRun ∧ t.power = s.power)) ∧
  (∀ s : State, s.awake = true →
    (s.wakeRun = .committed →
      ∃ t, exec .powerDownAbort s = .next t ∧ (∀ c, (t.core c).inop = false) ∧ (∀ m, (t.mov m).busy = false) ∧
        t.mem = s.mem ∧ t.wakeRun = .committed) ∧
    (s.wakeRun = .committed →
      ∃ t, exec .powerDownComplete s = .next t ∧ t.wakeRun = .dwell ∧
        t.rd R.KET_STATUS.STATE = (if s.power.deep then 3 else 2) ∧
        (∀ d, d < 12 → t.dom d = if d = 6 ∧ s.power.deep = false then s.dom 6 else 0) ∧ t.power.requests = [] ∧
        (∀ c, c < 16 → (t.core c).g = [] ∧ ((s.core c).run ≠ .reset → (t.core c).run = .idle) ∧
          ((s.core c).run = .reset → (∀ e ∈ s.cores, e.1 = c → e.2.inop = false) → (t.core c).run = .reset)) ∧
        (∀ c, (t.core c).inop = false) ∧ (∀ m, (t.mov m).busy = false) ∧
        t.link .e = 0 ∧ t.link .w = 0 ∧ t.on R.PCIE_STATUS.LINK_UP = false ∧
        (∀ m, m < 4 → t.on R.MAC_STATUS.LINK m = false) ∧
        t.rd R.WK_CNT.SLEEPS = min (s.rd R.WK_CNT.SLEEPS + 1) 65535 ∧
        t.wake.inh = (s.wake.inh && !(s.power.deep && s.on R.WK_CTRL.INH_DEEP)) ∧
        ((∀ m q, m < 4 → s.queue m q = []) → t.mem = s.mem)) ∧
    (s.wakeRun ≠ .committed → exec .powerDownAbort s = .next s ∧ exec .powerDownComplete s = .next s)) ∧
  (∀ (s : State) (p : Nat), s.rd R.WK_STATUS.STATE = 5 → s.rd R.KET_STATUS.STATE = 2 → s.power.holds = [] →
    ∃ t, exec (.napExitComplete p) s = .next t ∧ t.rd R.KET_STATUS.STATE = 0 ∧ t.rd R.KET_STATUS.RESUME = 2 ∧
      t.wakeRun = .awake ∧
      (∀ c, c = 16 ∨ c = 17 → t.core c = if s.on R.CC_CTRL.RUN c then { run := .run } else s.core c) ∧
      (∀ c, c < 16 → t.core c = s.core c) ∧ (∀ d, d ∈ [0, 1, 2, 7] → t.dom d = 3) ∧ t.dom 3 = 1 ∧ t.dom 6 = s.dom 6 ∧
      t.now = s.now + p * (1000000000 * 2 ^ 25) ∧ (s.rd R.TB_CTRL.REF = 0 → t.servo = .holdover) ∧
      t.stored 0x007 = BitVec.ofNat 16 (s.rd R.WK_REC.KIND + 16 * s.rd R.WK_REC.DETAIL + 256 * s.rd R.WK_REC.LATE_KIND) ∧
      t.mem = s.mem ∧ t.pour = s.pour ∧ t.pt.miss = [] ∧ t.sec = s.sec) ∧
  (∀ (s : State) (x : DeepExit), s.rd R.WK_STATUS.STATE = 5 → s.rd R.KET_STATUS.STATE = 3 → s.power.holds = [] →
    let v := s.cause 8
    let u := ({ v with power := { v.power with board := x.board } } : State).startHardware true
    let w : State := { u with sec := { u.sec with selfTest := x.board.selfTest } }
    let y := w.bootRom x.board
    ∃ t, exec (.deepExit x) s = .next t ∧ t.rd R.KET_STATUS.RESUME = 3 ∧
      bit (u.rd R.KET_RESET_CAUSE.CAUSE) 8 = true ∧ u.awake = true ∧ u.wakeRun = .awake ∧
      (s.wipes = false → ∀ a, 0x10000000 ≤ a → a < 0x10040000 → u.mem.bytes.get 0 a = s.mem.bytes.get 0 a) ∧
      (∀ a, (a < 0x10000000 ∨ 0x10040000 ≤ a) → u.mem.bytes.get 0 a = 0) ∧
      t.now = s.now + x.periods * (1000000000 * 2 ^ 25) ∧ (y.rd R.TB_CTRL.REF = 0 → t.servo = .holdover) ∧
      (∀ a, a ≠ R.KET_STATUS.RESUME.addr 0 0 → a ≠ R.TB_STATUS.STATE.addr 0 0 → t.reg a = y.reg a) ∧
      (∀ i, i ≠ 0x035 → t.stored i = y.stored i) ∧
      { t with regs := y.regs, time := y.time, pt := { t.pt with store := y.pt.store, ecc := y.pt.ecc } } = y ∧
      (s.lifeCycle = .scrap → y = w)) ∧
  (∀ (s : State) (p : Nat) (b : DeepExit), (s.wakeRun ≠ .exiting ∨ s.power.holds ≠ []) →
    exec (.napExitComplete p) s = .next s ∧ exec (.deepExit b) s = .next s)

/-- A brownout, the reset pin, a lost clock and the thermal limit set their bit of the reset cause and hold the
device in reset: every register outside the always-on domain reads its reset value, memory and every block are
as after power-on, and OTP stays; the rails' fall is no brownout in DEEP while INH is released. Power-on resets
the always-on registers too. The start-up runs when the last hold ends, and at once for KET_RST with its key and
for an enabled watchdog that was not kicked for TIMEOUT milliseconds; a kick starts that time again, as enabling
it does. SYS and KEEP run from vector 0, MAIN, SRAM, CADDY and SYS are powered, RING ramps, and the keeper has a
fresh nonce. Without the ring clock the ports and the SGMII links are down. Whether memory reads zero after
power-on is the model's choice (log 7). (spec/17 R568, spec/17 R569, spec/17 R570, spec/17 R571, spec/17 R584,
spec/17 R586, spec/17 R587, spec/18 R602) -/
def Obligations.ResetsHoldAndStart : Prop :=
  let clear (s t : State) : Prop :=
    t.awake = false ∧ t.power.rail = s.power.rail ∧ t.power.ringClk = s.power.ringClk ∧ t.power.requests = [] ∧
    { t with regs := [], wake := {}, power := {} } =
      ({ sec := { otp := s.sec.otp, blocks := s.sec.blocks, nonce := s.sec.nonce }, host := { perst := s.host.perst }
         pe := { level := s.pe.level }, answer := s.answer, out := s.out, tick := s.tick, fresh := s.fresh
         pending := s.pending } : State)
  let held (s t : State) (h : ResetHold) (b : Nat) : Prop :=
    h ∈ t.power.holds ∧ (∀ x, x ≠ h → (x ∈ t.power.holds ↔ x ∈ s.power.holds)) ∧ clear s t ∧
    t.rd R.KET_RESET_CAUSE.CAUSE = s.rd R.KET_RESET_CAUSE.CAUSE ||| 2 ^ b ∧
    (∀ a, aoReg a = false → a ≠ R.KET_STATUS.STATE.addr 0 0 → t.reg a = regReset a) ∧
    (∀ a, aoReg a = true → a ≠ R.WK_STATUS.STATE.addr 0 0 → a ≠ R.KET_RESET_CAUSE.CAUSE.addr 0 0 → t.reg a = s.reg a) ∧
    t.on R.KET_STATUS.LFX_OK = s.on R.KET_STATUS.LFX_OK ∧ t.wakeRun = (if s.wakeRun = .exiting then .exiting else
      if s.wakeRun = .armed then .armed else .awake)
  let releases (i : Board → Instr) (h : ResetHold) : Prop :=
    ∀ (s : State) (b : Board),
      (s.power.holds.contains h = false → exec (i b) s = .next s) ∧
      (s.power.holds.contains h = true →
        let t := { s with power := { s.power with holds := s.power.holds.filter (· != h) } }
        ((∃ x ∈ s.power.holds, x ≠ h) → exec (i b) s = .next t) ∧
        ((∀ x ∈ s.power.holds, x = h) → exec (i b) s = .next (t.startUp b false)))
  (∀ s : State,
    (∃ t, exec .pinReset s = .next t ∧ held s t .resetN 2) ∧ (∃ t, exec .clkloss s = .next t ∧ held s t .refclk 6) ∧
    (∃ t, exec .thermalReset s = .next t ∧ held s t .thermal 7) ∧
    ((s.rd R.KET_STATUS.STATE ≠ 3 ∨ s.wake.inh = true) → ∃ t, exec .brownout s = .next t ∧ held s t .supplies 1) ∧
    (s.rd R.KET_STATUS.STATE = 3 → s.wake.inh = false → exec .brownout s = .next s) ∧
    (∃ t, exec .powerOnReset s = .next t ∧ .supplies ∈ t.power.holds ∧ clear s t ∧
      (∀ a, t.reg a = regReset a) ∧ t.wake = {})) ∧
  (releases Instr.suppliesValid .supplies ∧ releases Instr.resetNRelease .resetN ∧
    releases Instr.refclkReturn .refclk ∧ releases Instr.thermalResetRelease .thermal) ∧
  (∀ s : State, s.power.holds = [] →
    let u := s.startHardware false
    u.awake = true ∧ u.core 16 = { run := .run } ∧ u.core 17 = { run := .run } ∧ (∀ c, c < 16 → u.core c = {}) ∧
    (∀ d, d < 12 → u.dom d = if d = 0 ∨ d = 1 ∨ d = 2 ∨ d = 7 then 3 else if d = 3 then 1 else 0) ∧
    u.power.requests = [5] ∧ u.mem.bytes = [] ∧ u.pour = {} ∧ u.ring = {} ∧
    u.stored 0x037 = BitVec.ofNat 16 (s.rd R.KET_RESET_CAUSE.CAUSE) ∧
    u.rd R.TB_RATE.RATE = unsigned 32 (clampRate (signed 32 (s.otp 3))) ∧
    u.sec.nonce = s.sec.blocks ∧ u.sec.blocks = s.sec.blocks + 1 ∧ u.pending = s.pending) ∧
  (∀ (s : State) (b : Board) (banks : Bool),
    let u := ({ s with power := { s.power with board := b } } : State).startHardware banks
    s.startUp b banks = ({ u with sec := { u.sec with selfTest := b.selfTest } } : State).bootRom b ∧ u.power.board = b) ∧
  (∀ (s : State) (b : Board), s.lifeCycle = .scrap → s.bootRom b = s) ∧
  (∀ (s : State) (b : Board), s.awake = true →
    let due : Prop := s.on R.KET_WDOG.EN = true ∧ s.power.wdogAt + max 1 (s.rd R.KET_WDOG.TIMEOUT) * 400000 ≤ s.tick
    (due → exec (.wdogExpire b) s = .next (((s.cause 5).abortSleep).startUp b false)) ∧
    (¬due → exec (.wdogExpire b) s = .next s)) ∧
  (∀ (s : State) (who : Initiator) (key : Nat) (b : Board), s.takes who R.KET_RST.KEY = true →
    (key % 256 = 0xC5 → exec (.ketRst who key b) s =
      .next ((((({ s with power := { s.power with board := b } } : State).cause 3).abortSleep).startUp b false).ok)) ∧
    (key % 256 ≠ 0xC5 → exec (.ketRst who key b) s = .next s.ok)) ∧
  (∀ (s : State) (who : Initiator) (v : Word), s.takes who R.KET_WDOG.KICK = true →
    (s.on R.KET_WDOG.EN = true → exec (.wdogKick who v) s =
      .next ({ s with power := { s.power with wdogAt := s.tick } } : State).ok) ∧
    (s.on R.KET_WDOG.EN = false → ∃ t, exec (.wdogKick who v) s = .next t ∧ t.answer.error = false ∧
      t.rd R.KET_WDOG.TIMEOUT = v.toNat % 65536 ∧ t.on R.KET_WDOG.EN = v.toNat.testBit 31 ∧
      t.power = { s.power with wdogAt := if v.toNat.testBit 31 then s.tick else s.power.wdogAt } ∧
      (∀ a, a ≠ R.KET_WDOG.EN.addr 0 0 → t.reg a = s.reg a) ∧
      { t with regs := s.regs, power := s.power, answer := s.answer } = s)) ∧
  (∀ s : State,
    (∃ t, exec .ringRefclkReturn s = .next t ∧ t.power.ringClk = true ∧
      { t with power := { t.power with ringClk := s.power.ringClk } } = s) ∧
    (s.awake = false → ∃ t, exec .ringRefclkLoss s = .next t ∧ t.power.ringClk = false ∧
      { t with power := { t.power with ringClk := s.power.ringClk } } = s) ∧
    (s.awake = true →
      let x : State := { s with power := { s.power with ringClk := false } }
      exec .ringRefclkLoss s = .next (((List.range 4).foldl (fun (v : State) m =>
        if v.on R.MAC_CTRL.IF m then (v.wr R.MAC_STATUS.SYNC 0 m).putLink m false else v) ((x.portDown .e).portDown .w)).alarm 16 6 0 0)) ∧
    (s.awake = true → ∃ t, exec .ringRefclkLoss s = .next t ∧ t.power.ringClk = false ∧ t.link .e = 0 ∧ t.link .w = 0 ∧
      (∀ m, m < 4 → s.on R.MAC_CTRL.IF m = true →
        t.on R.MAC_STATUS.LINK m = false ∧ t.on R.MAC_STATUS.SYNC m = false) ∧
      (∀ m, m < 4 → s.on R.MAC_CTRL.IF m = false →
        t.reg (R.MAC_STATUS.LINK.addr m 0) = s.reg (R.MAC_STATUS.LINK.addr m 0)) ∧
      t.cores = s.cores ∧ ((∀ m q, m < 4 → s.queue m q = []) → t.mem = s.mem ∧ t.pour = s.pour)))

/-- At every change Kettle takes the largest duty, not above the present one except at an evaluation, whose sum
of grants fits CAP, or the lowest allowed duty, with OVER raised where even that does not fit. The next request
ramps when no domain ramps, a ramped domain runs, with ETH the link of a MAC whose link MAC_CTRL gives, an idle
SYS or cluster stops its clock, and a stopped cluster whose OFF_EN bit is set loses power and its cores'
registers. A temperature reading goes to status point TEMP and raises THERMAL when it reaches WARN. A bank's
rail takes its class when it comes up and loses it below 1.0 V. (spec/17 R573, spec/17 R574, spec/17 R575,
spec/17 R576, spec/17 R577, spec/17 R578, spec/17 R579, spec/17 R580, spec/21 R639) -/
def Obligations.KettleGrantsDomains : Prop :=
  let put (s t : State) (d v : Nat) : Prop :=
    (∀ k, k < 12 → t.dom k = if k = d then v else s.dom k) ∧ t.rd R.KET_STATUS.DUTY ≤ s.rd R.KET_STATUS.DUTY ∧
    t.mem = s.mem ∧ t.pour = s.pour ∧ t.movers = s.movers ∧ t.ring = s.ring
  (∀ (s : State) (evaluate : Bool),
    let hi := if evaluate then 16 else s.rd R.KET_STATUS.DUTY
    let t := s.regrant evaluate
    let k := t.rd R.KET_STATUS.DUTY
    k ≤ hi ∧ min hi s.minDuty ≤ k ∧ (∀ j, k < j → j ≤ hi → s.rd R.KET_CTRL.CAP < s.grantSum j) ∧
    (s.rd R.KET_CTRL.CAP < s.grantSum k → k = min hi s.minDuty) ∧
    (t.on R.KET_STATUS.OVER = true ↔ s.rd R.KET_CTRL.CAP < s.grantSum k) ∧
    t.rd R.KET_STATUS.GRANTED = s.grantSum k % 2048 ∧ (∀ d, t.dom d = s.dom d) ∧ t.power = s.power) ∧
  (∀ (s : State) (d : Nat), s.awake = true → d < 12 →
    (∀ rest, s.power.requests = d :: rest → (∀ k, k < 12 → s.dom k ≠ 1) →
      ∃ t, exec (.kettleGrant d) s = .next t ∧ put s t d 1 ∧ t.power.requests = rest ∧ t.cores = s.cores) ∧
    (s.power.requests.head? ≠ some d ∨ (∃ k, k < 12 ∧ s.dom k = 1) → exec (.kettleGrant d) s = .next s) ∧
    (s.dom d = 1 → ∃ t, exec (.domainRampDone d) s = .next t ∧ t.dom d = 3 ∧ (∀ k, k < 12 → k ≠ d → t.dom k = s.dom k) ∧
      t.cores = s.cores ∧ t.power = s.power ∧ (d ≠ 4 ∨ (∀ m q, m < 4 → s.queue m q = []) → put s t d 3) ∧
      (d = 4 → ∀ m, m < 4 → s.on R.MAC_CTRL.EN m = true → s.on R.MAC_CTRL.IF m = false → s.on R.MAC_CTRL.INBAND m = false →
        t.on R.MAC_STATUS.LINK m = true)) ∧
    (s.dom d ≠ 1 → exec (.domainRampDone d) s = .next s) ∧
    (s.mayDoze d = true → ∃ t, exec (.dozeStop d) s = .next t ∧ put s t d 2 ∧ t.cores = s.cores ∧ t.power = s.power) ∧
    (s.mayDoze d = false → exec (.dozeStop d) s = .next s)) ∧
  (∀ (s : State) (c : Nat), s.awake = true → c < 4 →
    (bit (s.rd R.KET_GATE.OFF_EN) c = true → s.dom (8 + c) = 2 →
      ∃ t, exec (.clusterGate c) s = .next t ∧ put s t (8 + c) 0 ∧
        (∀ k, k < 18 → (if k / 4 = c then (t.core k).g = [] ∧ ((s.core k).run ≠ .reset → (t.core k).run = .idle)
          else t.core k = s.core k))) ∧
    (bit (s.rd R.KET_GATE.OFF_EN) c = false ∨ s.dom (8 + c) ≠ 2 → exec (.clusterGate c) s = .next s)) ∧
  (∀ (s : State) (temp : Nat), s.awake = true →
    (∃ t, exec (.thermalWarn temp) s = .next t ∧ t.stored 0x005 = BitVec.ofNat 16 (temp % 4096) ∧
      (temp < (s.rd R.KET_THERM.WARN + 64) * 16 →
        (∀ i, i ≠ 0x005 → t.stored i = s.stored i) ∧ { t with pt := { t.pt with store := s.pt.store, ecc := s.pt.ecc } } = s) ∧
      ((s.stored 0x005).toNat % 4096 < (s.rd R.KET_THERM.WARN + 64) * 16 → (s.rd R.KET_THERM.WARN + 64) * 16 ≤ temp →
        bit (t.rd R.INT_STATUS.BITS 1) 2 = true)) ∧
    (∃ u, exec (.thermalWarn temp) s = .next u ∧ exec (.kettleEvaluate temp) s = .next (u.regrant true))) ∧
  (∀ s : State, ∃ t, exec .lfxtalTakeover s = .next t ∧ t.on R.KET_STATUS.LFX_OK = true ∧
    t.rd R.KET_STATUS.STATE = s.rd R.KET_STATUS.STATE ∧ (∀ a, a ≠ R.KET_STATUS.LFX_OK.addr 0 0 → t.reg a = s.reg a) ∧
    { t with regs := s.regs } = s) ∧
  (∀ (s : State) (bank mv : Nat), bank < 8 →
    ∃ t, exec (.bankRailClassDetect bank mv) s = .next t ∧
      t.power.rail.get 0 bank = (if mv < 1000 then 0 else if s.power.rail.get 0 bank ≠ 0 then s.power.rail.get 0 bank
        else if mv < 2100 then 1 else if mv ≤ 2900 then 2 else 3) ∧
      (∀ b, b ≠ bank → t.power.rail.get 0 b = s.power.rail.get 0 b) ∧
      { t with power := { t.power with rail := s.power.rail } } = s)

/-- Once the first 64 bytes of a MAC's frame have arrived, a lookup gives a frame the mask of its table entry,
or the flood mask, without its port of arrival, and drops a frame with no port left; a frame of a MAC's transmit
ring has none. An enqueued frame stands at the tail of its class at each port of its mask, behind the earlier
frames of its port and class; one that is too long for the ring port not there. A cell comes from the free pool,
which returns when no copy is left; with an empty pool a push-out takes the last candidate of the fullest queue
of the lowest class that has one, a forwarded frame that nothing can make room for is dropped, and a ring's
frame waits. A good frame is learned once all of it is stored, or when it ends after a drop; a full table counts
it, entries age unless TIME = 0 and become invalid, and the table operations read, write and flush, a refused
second valid entry of a key changing nothing. A copy that port 4, 6 or 7 takes leaves its queue, and is
delivered where its ring has a descriptor of its size; port 5's leave in a dynamic frame (log 22), in order, as
many as fit BYTES. An event that finds nothing to do changes nothing. (spec/14 R477, spec/14 R478, spec/14 R479,
spec/14 R480, spec/14 R481, spec/14 R482, spec/14 R483, spec/14 R485, spec/14 R487, spec/14 R490, spec/14 R491,
spec/14 R498) -/
def Obligations.SwitchForwardsFrames : Prop :=
  let only (s t : State) (f : Nat) : Prop := (∀ g, g ≠ f → t.frame g = s.frame g) ∧
    { t with regs := s.regs, ic := s.ic, eth := { t.eth with frames := s.eth.frames } } = s
  (∀ (s : State) (f : Nat) (x : EthFrame), s.awake = true → s.frame f = some x → x.looked = false → x.dropped = false →
    x.ofMacRing = false →
    let hit := s.fdbFind (dstOf x.data) (vidOf x.data)
    let m := (match hit with
      | some e => e.2.mask
      | none => if groupAddr (dstOf x.data) then s.rd R.SW_CTRL.MCAST else s.rd R.SW_CTRL.FLOOD)
    let seen : Prop := 4 ≤ x.port ∨ x.ring.isSome = true ∨ 64 ≤ wireLen x.data
    (¬seen → exec (.switchLookup f) s = .next s) ∧
    (seen → (∃ p, p ≠ x.port ∧ bit m p = true) →
      ∃ t y, exec (.switchLookup f) s = .next t ∧ t.frame f = some y ∧ y = { x with looked := true, mask := y.mask, unit := y.unit } ∧
        (∀ p, bit y.mask p = (bit m p && p != x.port)) ∧
        y.unit = (match hit with | some e => if e.2.unit = 0 then 0x7FF else e.2.unit | none => 0x7FF) ∧
        t.regs = s.regs ∧ only s t f) ∧
    (seen → (∀ p, p ≠ x.port → bit m p = false) →
      ∃ u y, exec (.switchLookup f) s = .next ((u.bump R.SW_PDROPp.NOROUTE 0 x.port).dropFrame f) ∧ u.frame f = some y ∧
        y = { x with looked := true, mask := 0, unit := y.unit } ∧ u.regs = s.regs ∧ only s u f) ∧
    (seen → (∀ p, p ≠ x.port → bit m p = false) → x.ring = none →
      ∃ t y, exec (.switchLookup f) s = .next t ∧ t.frame f = some y ∧ y.dropped = true ∧
        t.rd R.SW_PDROPp.NOROUTE 0 x.port = min (s.rd R.SW_PDROPp.NOROUTE 0 x.port + 1) R.SW_PDROPp.NOROUTE.max)) ∧
  (∀ (s : State) (f : Nat) (x : EthFrame), s.awake = true → s.frame f = some x → x.looked = true → x.queued = false →
    x.dropped = false → x.cls < 8 → s.overtakes f x = false →
    let big := bit x.mask 5 && decide (1564 < wireLen x.data)
    let goes (p : Nat) : Bool := bit x.mask p && !(p == 5 && big)
    let lost (v : State) : State := (match x.ring with
      | some (r, i) => (if big then v.descLost r i 2 else v)
      | none => v)
    ((∃ p, p < 8 ∧ goes p = true) →
    ∃ t, exec (.switchEnqueue f) s = .next (lost t) ∧
      (∀ p, p < 8 → goes p = true → t.queue p x.cls = s.queue p x.cls ++
        [⟨f, s.overThr p x.cls && (ecnOf x.data == some 1 || ecnOf x.data == some 2)⟩]) ∧
      (∀ p c, p < 8 → c < 8 → (c ≠ x.cls ∨ goes p = false) → t.queue p c = s.queue p c) ∧
      t.frame f = some { x with refs := x.refs + ((List.range 8).filter goes).length, queued := true } ∧
      t.rd R.SW_RP_STATUS.TOOBIG = (if big then min (s.rd R.SW_RP_STATUS.TOOBIG + 1) R.SW_RP_STATUS.TOOBIG.max
        else s.rd R.SW_RP_STATUS.TOOBIG) ∧
      (∀ g, g ≠ f → t.frame g = s.frame g) ∧
      { t with regs := s.regs, eth := { t.eth with frames := s.eth.frames, queues := s.eth.queues } } = s) ∧
    ((∀ p, p < 8 → goes p = false) → exec (.switchEnqueue f) s =
      .next (lost ((if big then s.bump R.SW_RP_STATUS.TOOBIG else s).dropFrame f)))) ∧
  (∀ (s : State) (f : Nat),
    (s.frame f = none → exec (.switchLookup f) s = .next s ∧ exec (.switchEnqueue f) s = .next s ∧
      exec (.cellAllocate f) s = .next s ∧ exec (.cellFree f) s = .next s ∧ exec (.switchFrameEnd f) s = .next s) ∧
    (∀ x, s.frame f = some x →
      (x.looked = true ∨ x.dropped = true ∨ x.ofMacRing = true → exec (.switchLookup f) s = .next s) ∧
      (x.looked = false ∨ x.queued = true ∨ x.dropped = true ∨ s.overtakes f x = true →
        exec (.switchEnqueue f) s = .next s) ∧
      (x.dropped = true ∨ x.need ≤ x.cells → exec (.cellAllocate f) s = .next s) ∧
      (s.cellsFree = 0 → (s.pushChoice x.cls).isSome = true ∨ x.ring.isSome = true → exec (.cellAllocate f) s = .next s) ∧
      (x.dropped = false → (x.queued = false ∨ x.ended = false) → exec (.cellFree f) s = .next s) ∧
      (x.ended = true ∨ x.ofMacRing = true ∨ (x.dropped = false ∧ x.cells < x.need) ∨
        (x.port < 4 ∧ x.ring = none ∧ x.checked = false) → exec (.switchFrameEnd f) s = .next s))) ∧
  (∀ (s : State) (f : Nat) (x : EthFrame), s.awake = true → s.frame f = some x →
    (x.dropped = false → x.cells < x.need → 0 < s.cellsFree →
      ∃ t, exec (.cellAllocate f) s = .next t ∧ t.cellsFree = s.cellsFree - 1 ∧
        t.frame f = some { x with cells := x.cells + 1, ended := x.ended || (x.ofMacRing && x.cells + 1 == x.need) } ∧
        (∀ a, a ≠ R.SW_CELLS.FREE.addr 0 0 → t.reg a = s.reg a) ∧ only s t f) ∧
    (x.dropped = false → x.cells < x.need → s.cellsFree = 0 → s.pushChoice x.cls = none → x.ring = none →
      ∃ t y, exec (.cellAllocate f) s = .next t ∧ t.frame f = some y ∧ y.dropped = true ∧
        t.rd R.SW_PDROPp.NOBUF 0 x.port = min (s.rd R.SW_PDROPp.NOBUF 0 x.port + 1) R.SW_PDROPp.NOBUF.max) ∧
    (x.refs = 0 → (x.dropped = true ∨ (x.queued = true ∧ x.ended = true)) → s.cellsFree + x.cells < 8192 →
      ∃ t, exec (.cellFree f) s = .next t ∧
        t.frame f = (if (x.port < 4 ∧ x.ring = none ∧ x.checked = false) ∨ (x.ended = false ∧ x.ofMacRing = false) then some { x with cells := 0 } else none) ∧
        t.cellsFree = s.cellsFree + x.cells ∧
        (∀ a, a ≠ R.SW_CELLS.FREE.addr 0 0 → t.reg a = s.reg a) ∧ only s t f) ∧
    (x.refs ≠ 0 → exec (.cellFree f) s = .next s)) ∧
  (∀ (s : State) (cls : Nat), s.awake = true →
    (s.cellsFree ≠ 0 ∨ s.pushChoice cls = none → exec (.pushOut cls) s = .next s) ∧
    (∀ p c e, s.lastCandidate p c = some e ↔ ∃ l1 l2, s.queue p c = l1 ++ e :: l2 ∧
      (∃ x, s.frame e.frame = some x ∧ x.ended = true) ∧ ∀ g ∈ l2, ∀ y, s.frame g.frame = some y → y.ended = false) ∧
    (∀ p c e, s.cellsFree = 0 → s.pushChoice cls = some (p, c) → s.lastCandidate p c = some e →
      exec (.pushOut cls) s = .next (((s.setQueue p c ((s.queue p c).filter fun x => x.frame != e.frame)).bump
        R.SW_PPUSHp.PUSHED 0 p).copyDone e.frame false)) ∧
    (∀ p c, s.pushChoice cls = some (p, c) → c < cls ∧ c < 8 ∧ p < 8 ∧ (s.lastCandidate p c).isSome = true ∧
      (∀ d q, d < c → q < 8 → s.lastCandidate q d = none) ∧
      (∀ q, q < 8 → (s.lastCandidate q c).isSome = true → s.queueCells q c ≤ s.queueCells p c ∧
        (s.queueCells q c = s.queueCells p c → p ≤ q)) ∧
      ∀ e x, s.lastCandidate p c = some e → s.frame e.frame = some x → x.ring = none → s.cellsFree = 0 →
        ∃ t, exec (.pushOut cls) s = .next t ∧ t.queue p c = (s.queue p c).filter (fun y => y.frame != e.frame) ∧
          t.frame e.frame = some { x with refs := x.refs - 1 } ∧
          t.rd R.SW_PPUSHp.PUSHED 0 p = min (s.rd R.SW_PPUSHp.PUSHED 0 p + 1) R.SW_PPUSHp.PUSHED.max) ∧
    (s.pushChoice cls = none ↔ ∀ c q, c < cls → c < 8 → q < 8 → s.lastCandidate q c = none) ∧
    (∀ p c, s.queueCells p c = ((s.queue p c).map fun e => s.cellsOf e.frame).sum +
      (match s.sending p with | some g => if g.cls = c then s.cellsOf g.frame else 0 | none => 0))) ∧
  (∀ (s : State) (f : Nat) (x : EthFrame), s.awake = true → s.frame f = some x → x.ended = false →
    x.ofMacRing = false → (4 ≤ x.port ∨ x.ring.isSome = true ∨ x.checked = true) → (x.dropped = true ∨ x.need ≤ x.cells) →
    let gone : Prop := x.dropped = true ∧ x.refs = 0 ∧ x.cells = 0
    (x.fcsBad = true → ∃ u : State, (gone → u.frame f = none) ∧ (¬gone → u.frame f = some { x with ended := true }) ∧
      u.regs = s.regs ∧ only s u f ∧
      exec (.switchFrameEnd f) s =
        .next ((if x.port = 5 then u.bump R.SW_RP_STATUS.BADFCS else u).dropFrame f)) ∧
    (x.fcsBad = true → x.ring = none →
      ∃ t, exec (.switchFrameEnd f) s = .next t ∧ (gone → t.frame f = none) ∧
        (¬gone → ∃ y, t.frame f = some y ∧ y.dropped = true ∧ y.ended = true) ∧ t.eth.fdb = s.eth.fdb ∧
        (x.port = 5 →
          t.rd R.SW_RP_STATUS.BADFCS = min (s.rd R.SW_RP_STATUS.BADFCS + 1) R.SW_RP_STATUS.BADFCS.max)) ∧
    (x.fcsBad = false →
      let key := s.fdbFind (srcOf x.data) (vidOf x.data)
      let e : FdbEntry := { mac := srcOf x.data, vid := vidOf x.data, valid := true, static := false,
                            unit := if x.port = 5 then x.srcUnit else 0, mask := 2 ^ x.port, age := 0 }
      let learns := s.on R.SW_PCFGp.LEARN 0 x.port && !groupAddr (srcOf x.data)
      ∃ t, exec (.switchFrameEnd f) s = .next t ∧ (gone → t.frame f = none) ∧
        (¬gone → t.frame f = some { x with ended := true }) ∧
        (∀ g, g ≠ f → t.frame g = s.frame g) ∧
        (∀ i old, learns = true → key = some (i, old) → old.static = false → t.fdb i = e) ∧
        (∀ i, learns = true → key = none → i < 1024 → (s.fdb i).valid = false → (∀ j, j < i → (s.fdb j).valid = true) →
          t.fdb i = e ∧ (∀ j, j ≠ i → t.fdb j = s.fdb j)) ∧
        (learns = true → key = none → (∀ i, i < 1024 → (s.fdb i).valid = true) → t.eth.fdb = s.eth.fdb ∧
          t.rd R.SW_FDB_STATUS.LEARN_FULL = min (s.rd R.SW_FDB_STATUS.LEARN_FULL + 1) R.SW_FDB_STATUS.LEARN_FULL.max) ∧
        (learns = false ∨ (∃ i old, key = some (i, old) ∧ old.static = true) → only s t f ∧ t.regs = s.regs))) ∧
  (∀ (s : State) (p c : Nat) (e : QEntry) (rest : List QEntry) (l : List Nat), s.pickQueue p l = some (c, e, rest) →
    c ∈ l ∧ s.queue p c = e :: rest ∧ s.eligible p e.frame = true ∧
    ∃ l1 l2, l = l1 ++ c :: l2 ∧ ∀ d ∈ l1, ∀ g more, s.queue p d = g :: more → s.eligible p g.frame = false) ∧
  (∀ (s : State) (p : Nat),
    (p < 4 ∨ p = 5 ∨ 7 < p → exec (.switchEgress p) s = .next s) ∧
    ((s.sending p).isSome = true → exec (.switchEgress p) s = .next s) ∧
    (p < 4 ∨ p = 5 ∨ 7 < p ∨ s.sending p = none → exec (.switchDeliver p) s = .next s)) ∧
  (∀ (s : State) (p : Nat), s.awake = true → (p = 4 ∨ p = 6 ∨ p = 7) →
    (s.sending p = none → ∀ c e rest, s.pickQueue p [7, 6, 5, 4, 3, 2, 1, 0] = some (c, e, rest) →
      ∃ t, exec (.switchEgress p) s = .next t ∧ t.queue p c = rest ∧
        t.sending p = some { frame := e.frame, cls := c, mark := e.mark, time := 0 } ∧
        { t with eth := { t.eth with queues := s.eth.queues, sending := s.eth.sending } } = s) ∧
    (s.sending p = none → s.pickQueue p [7, 6, 5, 4, 3, 2, 1, 0] = none → exec (.switchEgress p) s = .next s) ∧
    (∀ g, s.sending p = some g → s.frame g.frame = none → exec (.switchDeliver p) s = .next (s.setSending p none)) ∧
    (∀ g x, s.sending p = some g → s.frame g.frame = some x →
      let u := s.setSending p none
      let r := u.rxDeliver (rxRing p g.cls x) x (u.copyBytes g.frame g.mark)
      exec (.switchDeliver p) s = .next ((if r.2 then r.1.bump R.SW_PTXp.FRAMES 0 p else r.1).copyDone g.frame r.2))) ∧
  (∀ (s : State) (r : Nat) (x : EthFrame) (data : List Byte), r < 48 → s.rxSize r ≤ 1024 →
    let d := s.rxDeliver r x data
    d.2 = (decide (2 ≤ s.rxSize r) && (s.rxPut r + 1) % s.rxSize r != s.rxGet r &&
      decide (data.length ≤ le (s.sramBytes (s.rxBase r + 32 * s.rxPut r) 8).2 4 2)) ∧
    (d.2 = true → 2 ≤ s.rxSize r ∧ (s.rxPut r + 1) % s.rxSize r ≠ s.rxGet r ∧
      d.1.rxPut r = (s.rxPut r + 1) % s.rxSize r ∧ d.1.rxGet r = s.rxGet r) ∧
    (d.2 = false → d.1.rxPut r = s.rxPut r ∧ d.1.rxGet r = s.rxGet r)) ∧
  (∀ (s : State) (n : Nat),
    let l := s.frameCopies n
    let size (l : List (Nat × QEntry)) : Nat := (l.map fun x => 8 + (s.copyMsg x.2).body.length).sum
    let room := min n (min 1564 (s.rd R.SW_RP_CTRL.BYTES))
    size l ≤ room ∧ (∃ more, s.ringCopies = l ++ more ∧ ∀ x m, more = x :: m → room < size (l ++ [x])) ∧
    (∀ x ∈ s.ringCopies, x.1 < 8 ∧ x.2 ∈ s.queue 5 x.1 ∧ s.eligible 5 x.2.frame = true) ∧
    (∀ x y l1 l2, s.ringCopies = l1 ++ x :: y :: l2 → y.1 ≤ x.1) ∧
    ∀ x ∈ l, (s.copyMsg x.2).type = 4 ∧ (s.copyMsg x.2).body = switchBody (s.copyBytes x.2.frame x.2.mark) ∧
      ∀ y, s.frame x.2.frame = some y → (s.copyMsg x.2).dest = y.unit) ∧
  (∀ (s : State) (c : Nat) (e : QEntry) (x : EthFrame), c < 8 → s.frame e.frame = some x → x.ring = none →
    let t := s.sentCopies [(c, e)]
    t.queue 5 c = (s.queue 5 c).filter (fun y => y.frame != e.frame) ∧ t.frame e.frame = some { x with refs := x.refs - 1 } ∧
    t.rd R.SW_PTXp.FRAMES 0 5 = min (s.rd R.SW_PTXp.FRAMES 0 5 + 1) R.SW_PTXp.FRAMES.max ∧
    (∀ g, g ≠ e.frame → t.frame g = s.frame g)) ∧
  (∀ (s : State) (f : Nat) (x : EthFrame) (sent : Bool), s.frame f = some x → x.ring = none →
    (s.copyDone f sent).frame f = some { x with refs := x.refs - 1 } ∧ only s (s.copyDone f sent) f ∧
    (s.copyDone f sent).regs = s.regs) ∧
  (∀ (s : State) (f r i : Nat) (x : EthFrame), s.frame f = some x → x.ring = some (r, i) →
    let u := s.setFrame f (some { x with refs := x.refs - 1 })
    (i = noDesc → ∀ sent, s.copyDone f sent = u) ∧
    (i ≠ noDesc → s.copyDone f false = u.descLost r i 2 ∧
      s.copyDone f true = (if x.refs ≤ 1 then u.descUpdate r i segOut else u))) ∧
  (∀ s : State, s.awake = true →
    (s.rd R.SW_AGE.TIME = 0 → exec .ageTick s = .next s) ∧
    (s.rd R.SW_AGE.TIME ≠ 0 → ∃ t, exec .ageTick s = .next t ∧
      (∀ i, (s.fdb i).valid = false ∨ (s.fdb i).static = true → t.fdb i = s.fdb i) ∧
      (∀ i, (s.fdb i).valid = true → (s.fdb i).static = false →
        t.fdb i = { s.fdb i with age := min ((s.fdb i).age + 1) 255
                                 valid := decide (min ((s.fdb i).age + 1) 255 < s.rd R.SW_AGE.TIME) }) ∧
      { t with eth := { t.eth with fdb := s.eth.fdb } } = s)) ∧
  (∀ (s : State) (who : Initiator) (i : Nat), s.takes who R.SW_FDB_SEL.OP = true → i < 1024 →
    let e := s.fdb i
    let n : FdbEntry := { mac := s.rd R.SW_FDB_DATA1.MAC_HI * 2 ^ 32 + s.rd R.SW_FDB_DATA0.MAC_LO,
                          vid := s.rd R.SW_FDB_DATA1.VID, valid := s.on R.SW_FDB_DATA2.VALID,
                          static := s.on R.SW_FDB_DATA2.STATIC, unit := s.rd R.SW_FDB_DATA2.UNIT,
                          mask := s.rd R.SW_FDB_DATA2.PORTMASK, age := s.rd R.SW_FDB_DATA2.AGE }
    let twin := s.eth.fdb.any fun x => x.1 != i && x.2.valid && x.2.mac == n.mac && x.2.vid == n.vid
    (e.mac < 2 ^ 48 → e.vid < 4096 → e.unit < 2048 → e.mask < 256 → e.age < 256 →
      ∃ t, exec (.fdbRead who i) s = .next t ∧ t.answer.error = false ∧
        t.rd R.SW_FDB_DATA1.MAC_HI * 2 ^ 32 + t.rd R.SW_FDB_DATA0.MAC_LO = e.mac ∧ t.rd R.SW_FDB_DATA1.VID = e.vid ∧
        t.on R.SW_FDB_DATA2.VALID = e.valid ∧ t.on R.SW_FDB_DATA2.STATIC = e.static ∧ t.rd R.SW_FDB_DATA2.UNIT = e.unit ∧
        t.rd R.SW_FDB_DATA2.PORTMASK = e.mask ∧ t.rd R.SW_FDB_DATA2.AGE = e.age ∧ t.eth = s.eth) ∧
    (n.valid = false ∨ twin = false →
      ∃ t, exec (.fdbWrite who i) s = .next t ∧ t.answer.error = false ∧ t.fdb i = n ∧ ∀ j, j ≠ i → t.fdb j = s.fdb j) ∧
    (n.valid = true → twin = true → ∃ t, exec (.fdbWrite who i) s = .next t ∧ t.answer.error = true ∧ t.eth = s.eth ∧
      t.reg (R.SW_FDB_SEL.INDEX.addr 0 0) = s.reg (R.SW_FDB_SEL.INDEX.addr 0 0)) ∧
    (∃ t, exec (.fdbFlush who i) s = .next t ∧ t.answer.error = false ∧
      ∀ j, t.fdb j = if (s.fdb j).static then s.fdb j else { s.fdb j with valid := false })) ∧
  (∀ (s : State) (who : Initiator) (q tail : Nat), q < 8 → tail < 1024 →
    (s.takes who R.SW_TXRq_PTR.TAIL 0 q = true →
      (2 ≤ s.txSize (32 + q) → tail < s.txSize (32 + q) →
        ∃ t, exec (.swTxrTail who false q tail) s = .next t ∧ t.answer.error = false ∧ t.txTail (32 + q) = tail ∧
          t.txHead (32 + q) = s.txHead (32 + q) ∧
          t.eth.ringPort.get 7 q = (match who with | .core c => (if c < 8 then 6 else 7) | _ => 7) ∧
          (∀ k, k ≠ q → t.eth.ringPort.get 7 k = s.eth.ringPort.get 7 k) ∧
          (∀ a, a ≠ R.SW_TXRq_PTR.TAIL.addr 0 q → t.reg a = s.reg a) ∧
          { t with regs := s.regs, eth := { t.eth with ringPort := s.eth.ringPort }, answer := s.answer } = s) ∧
      (s.txSize (32 + q) < 2 ∨ s.txSize (32 + q) ≤ tail →
        ∃ t, exec (.swTxrTail who false q tail) s = .next t ∧ t.answer.error = true ∧
          t.txTail (32 + q) = s.txTail (32 + q))) ∧
    (s.takes who R.PCIE_HTXRq_PTR.TAIL_or_GET 0 q = true → (s.txSize (40 + q) < 2 ∨ s.txSize (40 + q) ≤ tail) →
      ∃ t, exec (.swTxrTail who true q tail) s = .next t ∧ t.answer.error = true ∧ t.txTail (40 + q) = s.txTail (40 + q)) ∧
    (s.takes who R.PCIE_HTXRq_PTR.TAIL_or_GET 0 q = true → 2 ≤ s.txSize (40 + q) → tail < s.txSize (40 + q) →
      ∃ t, exec (.swTxrTail who true q tail) s = .next t ∧ t.answer.error = false ∧ t.txTail (40 + q) = tail ∧
        t.txHead (40 + q) = s.txHead (40 + q) ∧
        (∀ a, a ≠ R.PCIE_HTXRq_PTR.TAIL_or_GET.addr 0 q → t.reg a = s.reg a) ∧
        { t with regs := s.regs, answer := s.answer } = s))

/-- A frame that passes the address filter enters the switch core, or is dropped while that is disabled, and one
that does not is counted; at its end the first failed check counts and drops it. A link follows its PHY, and
frames that wait for a link that goes down are dropped. Ring pointers move within their ring, are refused
outside it, and are seen in the bound context. The next segment of a descriptor enters its queue, or the switch
core, as a frame of the ring, and a descriptor out of range ends ERROR. The end of a frame puts it on the wire,
with its timestamp where its descriptor asks for one; an ended descriptor's STATUS is written and HEAD moves on,
and the last one of a detached operation completes it. The oldest transmit timestamp is popped. An enabling
takes effect once the ETH domain is on. An event with nothing to do changes nothing. (spec/13 R450, spec/13
R453, spec/13 R454, spec/13 R456, spec/13 R457, spec/13 R459, spec/13 R461, spec/13 R462, spec/13 R463, spec/13
R464, spec/13 R467, spec/13 R471) -/
def Obligations.MacsReceiveAndSend : Prop :=
  (∀ (s : State) (m t0 : Nat) (data : List Byte), s.awake = true → m < 4 →
    (s.on R.MAC_CTRL.EN m = false ∨ s.dom 4 ≠ 3 ∨ s.on R.MAC_STATUS.LINK m = false →
      exec (.macRxFilter m data t0) s = .next s) ∧
    (s.on R.MAC_CTRL.EN m = true → s.dom 4 = 3 → s.on R.MAC_STATUS.LINK m = true →
    (s.filterPass m (dstOf data) = none →
      ∃ t, exec (.macRxFilter m data t0) s = .next t ∧
        t.rd R.MAC_RXDROP_C.HI m = min (s.rd R.MAC_RXDROP_C.HI m + 1) R.MAC_RXDROP_C.HI.max ∧
        (∀ a, a ≠ R.MAC_RXDROP_C.HI.addr m 0 → t.reg a = s.reg a) ∧ { t with regs := s.regs } = s) ∧
    (∀ e, s.filterPass m (dstOf data) = some e → s.on R.SW_CTRL.EN = false →
      ∃ t, exec (.macRxFilter m data t0) s = .next t ∧
        t.frame s.eth.next = some { data := data.take (s.maxLen (8 * m) - 3), port := m, cls := s.classOf m data, entry := e,
                                    time := resolved ((t0 : Int) - s.rd R.TB_ING_LATp.LAT 0 m), ended := true,
                                    dropped := true } ∧
        t.eth.next = s.eth.next + 1 ∧ (∀ f, f ≠ s.eth.next → t.frame f = s.frame f) ∧
        { t with eth := { t.eth with frames := s.eth.frames, next := s.eth.next } } = s) ∧
    (∀ e, s.filterPass m (dstOf data) = some e → s.on R.SW_CTRL.EN = true →
      ∃ t, exec (.macRxFilter m data t0) s = .next t ∧
        t.frame s.eth.next = some { data := data.take (s.maxLen (8 * m) - 3), port := m, cls := s.classOf m data, entry := e,
                                    time := resolved ((t0 : Int) - s.rd R.TB_ING_LATp.LAT 0 m) } ∧
        t.eth.next = s.eth.next + 1 ∧ (∀ f, f ≠ s.eth.next → t.frame f = s.frame f) ∧
        t.rd R.SW_PRXp.FRAMES 0 m = min (s.rd R.SW_PRXp.FRAMES 0 m + 1) R.SW_PRXp.FRAMES.max ∧
        { t with regs := s.regs, eth := { t.eth with frames := s.eth.frames, next := s.eth.next } } = s)) ∧
    (s.rd R.MAC_FILT.MODE m ≠ 0 → ∀ n, s.filterPass m (dstOf data) = some n → n < 16 →
      s.on R.MAC_ADDRn_HI.EN m n = true ∧
      s.rd R.MAC_ADDRn_HI.ADDR_HI m n * 2 ^ 32 + s.rd R.MAC_ADDRn_LO.ADDR_LO m n = dstOf data)) ∧
  (∀ (s : State) (f : Nat) (sym bad : Bool), s.awake = true →
    (s.frame f = none → exec (.macRxEnd f sym bad) s = .next s) ∧
    (∀ x, s.frame f = some x → (4 ≤ x.port ∨ x.ring.isSome = true ∨ x.checked = true → exec (.macRxEnd f sym bad) s = .next s) ∧
      (x.port < 4 → x.ring = none → x.checked = false →
      (s.rxCause x.port x.data sym bad = none →
        ∃ t, exec (.macRxEnd f sym bad) s = .next t ∧ t.frame f = some { x with checked := true } ∧
          t.rd R.MAC_RXCNT.FRAMES x.port = min (s.rd R.MAC_RXCNT.FRAMES x.port + 1) R.MAC_RXCNT.FRAMES.max ∧
          (∀ a, a ≠ R.MAC_RXCNT.FRAMES.addr x.port 0 → t.reg a = s.reg a) ∧
          { t with regs := s.regs, eth := { t.eth with frames := s.eth.frames } } = s) ∧
      (∀ c, s.rxCause x.port x.data sym bad = some c →
        ∃ t y, exec (.macRxEnd f sym bad) s = .next t ∧ t.frame f = some y ∧ y.dropped = true ∧
          t.rd c x.port = min (s.rd c x.port + 1) c.max)))) ∧
  (∀ (s : State) (m speed : Nat) (up half sync : Bool), s.awake = true → m < 4 →
    let dead : Prop := s.on R.MAC_CTRL.IF m = true ∧ s.power.ringClk = false
    (s.on R.MAC_CTRL.EN m = false ∨ s.dom 4 ≠ 3 ∨ s.linkFromPhy m = false ∨ dead →
      exec (.macLinkChange m up speed half sync) s = .next s) ∧
    (s.on R.MAC_CTRL.EN m = true → s.dom 4 = 3 → s.linkFromPhy m = true → ¬dead →
    ∃ t : State, exec (.macLinkChange m up speed half sync) s =
        .next (if s.on R.MAC_STATUS.LINK m && !(up && !half) then t.dropDown m else t) ∧
      t.on R.MAC_STATUS.LINK m = (up && !half) ∧
      t.rd R.MAC_STATUS.SPEED m = min speed 2 ∧ t.on R.MAC_STATUS.HALF m = half ∧ t.on R.MAC_STATUS.SYNC m = sync ∧
      (s.on R.MAC_STATUS.LINK m ≠ (up && !half) →
        t.rd R.INT_STATUS.BITS (24 + m) = s.rd R.INT_STATUS.BITS (24 + m) ||| 2 ^ R.mac_INT.LINK.lo) ∧
      (∀ a, a ≠ R.MAC_STATUS.LINK.addr m 0 → a ≠ R.INT_STATUS.BITS.addr (24 + m) 0 → t.reg a = s.reg a) ∧
      { t with regs := s.regs, ic := s.ic } = s)) ∧
  (∀ (s : State) (m : Nat), m < 4 → (∀ q, q < 8 → (s.dropDown m).queue m q = []) ∧
    ((∀ q, q < 8 → s.queue m q = []) → s.dropDown m = s)) ∧
  (∀ (s : State) (m : Nat), (s.boundCtx 1 m = none → s.macPointers m = s) ∧
    (∀ x, s.boundCtx 1 m = some x →
      let tq := 8 * m + s.rd R.MAC_PD.TXQ m
      let rq := 8 * m + s.rd R.MAC_PD.RXQ m
      s.macPointers m = (s.setCtxWord x 0x24 (s.txHead tq + s.rxGet rq * 65536)).setCtxWord x 0x28
        (s.txTail tq + s.rxPut rq * 65536))) ∧
  (∀ (s : State) (who : Initiator) (m q v : Nat), m < 4 → q < 8 → v < 1024 →
    (s.takes who R.MAC_RXRq_PTR.GET m q = true →
      (s.getOk (8 * m + q) v = true →
        ∃ t : State, exec (.macRxrGet who m q v) s = .next (t.macPointers m).ok ∧ t.rxGet (8 * m + q) = v ∧
          t.rxPut (8 * m + q) = s.rxPut (8 * m + q) ∧ (∀ a, a ≠ R.MAC_RXRq_PTR.GET.addr m q → t.reg a = s.reg a) ∧
          { t with regs := s.regs } = s) ∧
      (s.getOk (8 * m + q) v = false →
        ∃ t, exec (.macRxrGet who m q v) s = .next t ∧ t.answer.error = true ∧ t.rxGet (8 * m + q) = s.rxGet (8 * m + q))) ∧
    (s.takes who R.MAC_TXRq_PTR.TAIL m q = true →
      (s.tailOk (8 * m + q) v = true →
        let n := s.txSize (8 * m + q)
        let old := s.txTail (8 * m + q)
        let mine := (match who with
          | .core c => if (s.core c).inop && s.boundCtx 1 m == some (s.core c).opCtx then [(s.core c).opCtx] else []
          | _ => [])
        ∃ t : State, exec (.macTxrTail who m q v) s = .next (t.macPointers m).ok ∧ t.txTail (8 * m + q) = v ∧
          t.txHead (8 * m + q) = s.txHead (8 * m + q) ∧ (∀ a, a ≠ R.MAC_TXRq_PTR.TAIL.addr m q → t.reg a = s.reg a) ∧
          t.macOf m = { s.macOf m with owned := (s.macOf m).owned ++ mine.flatMap fun x =>
            (List.range ((v + n - old) % n)).map fun i => (x, (q, (old + i) % n)) } ∧
          (∀ k, k ≠ m → t.macOf k = s.macOf k) ∧
          { t with regs := s.regs, eth := { t.eth with macs := s.eth.macs } } = s) ∧
      (s.tailOk (8 * m + q) v = false →
        ∃ t, exec (.macTxrTail who m q v) s = .next t ∧ t.answer.error = true ∧ t.txTail (8 * m + q) = s.txTail (8 * m + q)))) ∧
  (∀ (s : State) (r : Nat), s.awake = true → r < 48 →
    let on := (if r < 32 then s.on R.MAC_CTRL.EN (r / 8) && s.dom 4 == 3 else s.on R.SW_CTRL.EN) && !s.storing r
    (s.nextDesc r = none ∨ on = false ∨ s.txSize r < 2 ∨ s.cellsFree = 0 → exec (.lsoSegmentEnqueue r) s = .next s) ∧
    (∀ idx k, s.nextDesc r = some (idx, k) → on = true → 2 ≤ s.txSize r → 0 < s.cellsFree →
      let b := s.sramBytes (s.txBase r + 32 * idx) 32
      let d := parseDesc b.2
      let g := b.1.engineGet d.addr d.len
      let seg := (g.1.segment d k g.2).2
      (d.ok r (g.1.maxLen r) g.2 = true →
        ∃ t y, exec (.lsoSegmentEnqueue r) s = .next t ∧ t.frame s.eth.next = some y ∧
          y.data = (if r < 32 then padded seg else seg) ∧
          y.port = (if r < 32 then r / 8 else if r < 40 then s.eth.ringPort.get 7 (r % 8) else 4) ∧ y.ring = some (r, idx) ∧
          (r < 40 → y.cls = r % 8) ∧ y.cells = 1 ∧ y.stamp = (if k = 0 ∧ d.ts = true then some idx else none) ∧ t.cellsFree = s.cellsFree - 1 ∧ t.eth.next = s.eth.next + 1 ∧
          (r < 32 → (t.queue (r / 8) (r % 8)).map (·.frame) = (s.queue (r / 8) (r % 8)).map (·.frame) ++ [s.eth.next]) ∧
          (32 ≤ r → t.eth.queues = s.eth.queues)) ∧
      (d.ok r (g.1.maxLen r) g.2 = false → exec (.lsoSegmentEnqueue r) s =
        .next ((if k = 0 then g.1.startDesc r idx d.segs false else g.1).descUpdate r idx (descFail 3))))) ∧
  (∀ (s : State) (r idx : Nat), r < 48 → s.ringProg r = [] → 2 ≤ s.txSize r → s.txSize r ≤ 1024 →
    let a := s.txBase r + 32 * idx + 12
    0x10000000 ≤ a → a + 4 ≤ 0x10400000 → (r < 32 → (s.macOf (r / 8)).owned = []) → ∀ n,
    let t := (s.startDesc r idx n false).descUpdate r idx (descFail 3)
    t.ringProg r = [] ∧ t.txHead r = (idx + 1) % s.txSize r ∧ leNat (t.memBytes a 4) = 3 * 2 ^ 29) ∧
  (∀ (s : State) (d : SendDesc) (k : Nat) (data : List Byte), d.lso = true → (∀ x ∈ d.rules, x.kind = 0) →
    (s.segment d k data).2 = data.take d.hdr ++ ((data.drop d.hdr).drop (k * d.mss)).take d.mss) ∧
  (∀ (s : State) (m : Nat), s.awake = true → m < 4 →
    (s.sending m = none → exec (.macTxEnd m) s = .next s) ∧
    (∀ g, s.sending m = some g → s.frame g.frame = none → exec (.macTxEnd m) s = .next (s.setSending m none)) ∧
    (∀ g x, s.sending m = some g → s.frame g.frame = some x →
      let w := (s.setSending m none).wireBytes m g x
      ∃ t : State, exec (.macTxEnd m) s = .next (t.copyDone g.frame (!x.dropped)) ∧ t.sending m = none ∧
        t.out = .eth m w.2 x.dropped :: w.1.out ∧ t.eth.frames = w.1.eth.frames ∧ t.eth.queues = w.1.eth.queues ∧
        t.rd R.MAC_TXCNT.FRAMES m = min (w.1.rd R.MAC_TXCNT.FRAMES m + 1) R.MAC_TXCNT.FRAMES.max ∧
        (4 ≤ x.port ∨ x.ring.isSome = true → w = (s.setSending m none, padded (s.copyBytes g.frame g.mark))) ∧
        (x.ring = none ∨ x.stamp = none → t.eth.macs = w.1.eth.macs) ∧
        (∀ r j i, x.ring = some (r, j) → x.stamp = some i →
          ((s.macOf m).stamps.length < 16 → (t.macOf m).stamps = (s.macOf m).stamps ++ [⟨g.time, r % 8, i⟩]) ∧
          (16 ≤ (s.macOf m).stamps.length → t.eth.macs = s.eth.macs ∧
            t.rd R.MAC_TXDROP.TSLOST m = min (s.rd R.MAC_TXDROP.TSLOST m + 1) R.MAC_TXDROP.TSLOST.max)))) ∧
  (∀ (s : State) (r res : Nat) (d : DescProg), r < 48 → res < 8 → 2 ≤ s.txSize r → s.txSize r ≤ 1024 →
    let a := s.txBase r + 32 * d.idx + 12
    0x10000000 ≤ a → a + 4 ≤ 0x10400000 →
    ∃ t : State, s.descEnd r d res = (if r < 32 then t.macDescEnd r d.idx res else t) ∧
    leNat (t.memBytes a 4) = res * 2 ^ 29 + d.out % 65536 ∧
    t.txHead r = (d.idx + 1) % s.txSize r ∧ t.txTail r = s.txTail r ∧ t.eth = s.eth ∧
    ∀ i, (i < a ∨ a + 4 ≤ i) → t.mem.bytes.get 0 i = s.mem.bytes.get 0 i) ∧
  (∀ (s : State) (r idx res : Nat), r < 32 →
    let m := r / 8
    let k := s.macOf m
    ((∀ o ∈ k.owned, o.2 ≠ (r % 8, idx)) → s.macDescEnd r idx res = s.macPointers m) ∧
    (∀ o, k.owned.find? (fun o => o.2 == (r % 8, idx)) = some o →
      let own := k.owned.filter (·.2 != (r % 8, idx))
      let bad := if res = 1 then k.failed else k.failed ++ [o.1]
      let ended := k.waiting.filter fun w => !(own.any fun x => x.1 == w.2)
      let v := s.setMac m { k with owned := own, failed := bad }
      let u := (if s.boundCtx 1 m = some o.1 then v.ctxCount 1 m (if res = 1 then 0x14 else 0x20) else v).macPointers m
      s.macDescEnd r idx res = ended.foldl (fun (t : State) w => t.completeNode w.1 (ofBool (bad.contains w.2)))
        (u.setMac m { k with owned := own, waiting := k.waiting.filter fun w => own.any fun x => x.1 == w.2
                             failed := bad.filter fun x => !(ended.any fun w => w.2 == x) }))) ∧
  (∀ (s : State) (who : Initiator) (m : Nat), m < 4 → s.answers (24 + m) = true → (∀ x ∈ (s.macOf m).stamps, x.q < 8) →
    ∃ t, exec (.macTxtsPop who m) s = .next t ∧ t.answer = ⟨BitVec.ofNat 64 (s.txtsPeek m), false⟩ ∧
      (t.macOf m).stamps = (s.macOf m).stamps.drop 1 ∧ (∀ k, k ≠ m → t.macOf k = s.macOf k) ∧
      { t with eth := { t.eth with macs := s.eth.macs }, answer := s.answer } = s) ∧
  (∀ (s : State) (who : Initiator) (m : Nat), m < 4 → s.takes who R.MAC_CTRL.EN m = true →
    (s.dom 4 ≠ 3 → ∃ t, exec (.macEnable who m) s = .next t ∧ (s.dom 4 = 0 → 4 ∈ t.power.requests) ∧
      { t with power := { t.power with requests := s.power.requests } } = s) ∧
    (s.dom 4 = 3 → ∃ t, exec (.macEnable who m) s = .next t ∧ t.answer.error = false ∧ t.on R.MAC_CTRL.EN m = true ∧
      t.rd R.MAC_CTRL.SPEED m = s.rd R.MAC_CTRL.SPEED m ∧
      (s.linkFromPhy m = false → t.on R.MAC_STATUS.LINK m = true ∧
        t.rd R.MAC_STATUS.SPEED m = min (s.rd R.MAC_CTRL.SPEED m) 2) ∧
      (s.linkFromPhy m = true → t.on R.MAC_STATUS.LINK m = s.on R.MAC_STATUS.LINK m) ∧
      { t with regs := s.regs, ic := s.ic, answer := s.answer } = s))

/-- The head of the highest open queue that may leave starts when its gate stays open for its wire time and the
row names its queue (log 9), and waits otherwise; frames that can never fit the list go first, and with the link
down every frame that waits is dropped. Without a list every gate is open; a RING-mode list without a ring cycle
leaves the idle gates. MAC_GCL_STATUS shows the gates and the entry in effect from the instant that the entry
begins. A list cycle starts at its instant, and an armed shadow list swaps in at the first cycle start of its
own that follows the arming. How a list that is cut or armed is read in these instants is log 44's. (spec/13
R468, spec/13 R469, spec/13 R470, spec/13 R471, spec/13 R472) -/
def Obligations.GateListsGovernTransmission : Prop :=
  (∀ (s : State) (m queue t0 : Nat), s.awake = true → m < 4 →
    (s.on R.MAC_STATUS.LINK m = false → exec (.macTxStart m queue t0) s = .next (s.dropDown m)) ∧
    (s.on R.MAC_STATUS.LINK m = true → s.on R.MAC_CTRL.EN m = false ∨ s.dom 4 ≠ 3 ∨ (s.sending m).isSome = true →
      exec (.macTxStart m queue t0) s = .next s) ∧
    (s.on R.MAC_GCL_CTRL.EN m = false → s.dropAllUnfit m = s ∧ s.openQueues m = [7, 6, 5, 4, 3, 2, 1, 0] ∧
      ∀ q n, s.staysOpen m q n = true) ∧
    (s.on R.MAC_STATUS.LINK m = true → s.on R.MAC_CTRL.EN m = true → s.dom 4 = 3 → s.sending m = none →
      let u := s.dropAllUnfit m
      (u.pickQueue m (u.openQueues m) = none → exec (.macTxStart m queue t0) s = .next u) ∧
      (∀ q e rest x, u.pickQueue m (u.openQueues m) = some (q, e, rest) → u.frame e.frame = some x →
        let need := (8 + (if x.ended = false ∧ u.cutThrough m x = true then u.maxLen (8 * m) else max 64 (wireLen x.data)) + 12) *
          (match u.rd R.MAC_STATUS.SPEED m with | 0 => 1600 | 1 => 160 | _ => 16)
        (q = queue → u.staysOpen m q need = true →
          ∃ t, exec (.macTxStart m queue t0) s = .next t ∧ t.queue m q = rest ∧
            t.sending m = some ⟨e.frame, q, e.mark, resolved ((t0 : Int) + u.rd R.TB_EGR_LATp.LAT 0 m)⟩ ∧
            { t with eth := { t.eth with queues := u.eth.queues, sending := u.eth.sending } } = u) ∧
        (q ≠ queue ∨ u.staysOpen m q need = false → exec (.macTxStart m queue t0) s = .next u)))) ∧
  (∀ (q : Nat) (l : GateList) (skip need : Nat), walkOpen q l skip need = some 0 ↔
    (need = 0 ∨ (skip + need ≤ (l.map (·.1)).sum ∧ ∀ i, i < l.length → bit (l.getD i (0, 0)).2 q = false →
      (l.getD i (0, 0)).1 = 0 ∨ ((l.take (i + 1)).map (·.1)).sum ≤ skip ∨
        skip + need ≤ ((l.take i).map (·.1)).sum))) ∧
  (∀ (l : List Nat) (pos : Nat), l ≠ [] → entryAt l pos < l.length ∧ (l.take (entryAt l pos)).sum ≤ pos ∧
    (entryAt l pos + 1 < l.length → pos < (l.take (entryAt l pos + 1)).sum)) ∧
  (∀ (s : State) (m k : Nat), s.awake = true → m < 4 →
    let b := s.gclActive m
    let idle := b.ring && s.rd R.RING_CYC_STATUS.SEG == 4
    let shows (t : State) (gates entry : Nat) : Prop := t.rd R.MAC_GCL_STATUS.GATES m = gates ∧
      t.rd R.MAC_GCL_STATUS.ENTRY m = entry ∧ (∀ a, a ≠ R.MAC_GCL_STATUS.GATES.addr m 0 → t.reg a = s.reg a) ∧
      { t with regs := s.regs } = s
    (s.gated m = false → ∃ t, exec (.gclEntryStart m k) s = .next t ∧ shows t 0xFF 0) ∧
    (s.gated m = true → idle = true → ∃ t, exec (.gclEntryStart m k) s = .next t ∧
      shows t (s.rd R.MAC_GCL_CTRL.IDLE_GATES m) (s.rd R.MAC_GCL_STATUS.ENTRY m)) ∧
    (s.gated m = true → idle = false → s.gclNow m = k →
      ∃ t, exec (.gclEntryStart m k) s = .next t ∧ shows t (b.gates k) k) ∧
    (s.gated m = true → idle = false → s.gclNow m ≠ k → exec (.gclEntryStart m k) s = .next s)) ∧
  (∀ (s : State) (b : GateBank),
    let base := (b.sec.toNat * 1000000000 + b.ns.toNat % 2 ^ 30) * 2 ^ 40
    let x := s.now + halfTick
    let c := b.cycle.toNat * 2 ^ 40
    (b.ring = true → s.lastStart b = if s.rd R.RING_CYC_STATUS.SEG = 4 then none else some s.time.cycStart) ∧
    (b.ring = false → c ≠ 0 → base ≤ x → 2 * (x - base) < secWrap → s.lastStart b = some (base + (x - base) / c * c)) ∧
    (b.ring = false → x < base → 2 * (base - x) ≤ secWrap → s.lastStart b = none)) ∧
  (∀ (s : State) (m : Nat),
    ((s.gclActive m).ring = true → s.gclPos m = (s.now + halfTick - (s.macOf m).gclFrom) / 2 ^ 39) ∧
    ((s.gclActive m).ring = false → ∀ t0, s.lastStart (s.gclActive m) = some t0 →
      s.gclPos m = (s.now + halfTick - t0) / 2 ^ 39)) ∧
  (∀ (s : State) (m : Nat), s.awake = true → m < 4 →
    let b := s.gclActive m
    (∀ t0, s.swapDue m = some t0 ↔ s.on R.MAC_GCL_CTRL.ARM m = true ∧ s.lastStart (s.gclShadow m) = some t0 ∧
      (s.macOf m).gclArmed < t0) ∧
    (∀ t0, s.swapDue m = some t0 →
      ∃ t, exec (.gclCycleStart m) s = .next t ∧ t.on R.MAC_GCL_CTRL.ARM m = false ∧ (t.macOf m).gclFrom = t0 ∧
        t.rd R.MAC_GCL_CTRL.BANK m = 1 - s.rd R.MAC_GCL_CTRL.BANK m ∧ (t.gclActive m).cfg = (s.gclShadow m).cfg ∧
        (t.gclActive m).cycle = (s.gclShadow m).cycle ∧ (t.gclActive m).words = (s.gclShadow m).words ∧
        (t.gclShadow m).cfg = b.cfg ∧ (t.gclShadow m).cycle = b.cycle ∧
        bit (t.rd R.INT_STATUS.BITS (24 + m)) R.mac_INT.GSWAP.lo = true) ∧
    (s.swapDue m = none →
      (∀ t0, s.lastStart b = some t0 → (s.macOf m).gclFrom ≠ t0 →
        ∃ t, exec (.gclCycleStart m) s = .next t ∧ t.macOf m = { s.macOf m with gclFrom := t0 } ∧
          t.rd R.MAC_GCL_STATUS.GATES m = t.gatesNow m ∧
          (∀ a, a ≠ R.MAC_GCL_STATUS.GATES.addr m 0 → t.reg a = s.reg a) ∧
          { t with regs := s.regs, eth := { t.eth with macs := s.eth.macs } } = s) ∧
      (∀ t0, s.lastStart b = some t0 → (s.macOf m).gclFrom = t0 → exec (.gclCycleStart m) s = .next s) ∧
      (s.lastStart b = none → exec (.gclCycleStart m) s = .next (s.gclShow m)))) ∧
  (∀ (s : State) (who : Initiator) (m : Nat), m < 4 → s.takes who R.MAC_GCL_CTRL.ARM m = true →
    let sets (t : State) (arm : Bool) : Prop := t.answer.error = false ∧ t.on R.MAC_GCL_CTRL.ARM m = arm ∧
      t.on R.MAC_GCL_CTRL.EN m = s.on R.MAC_GCL_CTRL.EN m ∧
      t.rd R.MAC_GCL_CTRL.IDLE_GATES m = s.rd R.MAC_GCL_CTRL.IDLE_GATES m ∧ t.rd R.MAC_GCL_STATUS.GATES m = s.gatesNow m ∧
      (∀ a, a ≠ R.MAC_GCL_CTRL.ARM.addr m 0 → a ≠ R.MAC_GCL_STATUS.GATES.addr m 0 → t.reg a = s.reg a) ∧
      { t with regs := s.regs, eth := { t.eth with macs := s.eth.macs }, answer := s.answer } = s
    (∃ t, exec (.gclArm who m) s = .next t ∧ sets t true ∧
      t.macOf m = { s.macOf m with gclArmed := s.now + halfTick } ∧ ∀ k, k ≠ m → t.macOf k = s.macOf k) ∧
    (∃ t, exec (.gclDisarm who m) s = .next t ∧ sets t false ∧ t.eth = s.eth))

/-- An aligned PCI Express access of 1, 2, 4 or 8 bytes inside a BAR, with no request waiting before it, is one
access of the unit: a read completes with its bytes, with Completer Abort on an error, or waits for the ring
bridge; a posted BAR4 write in progress, a register under soft reset, and for a read a missing credit, make the
request wait its turn. A BAR2 read with RA_EN starts a run, a later read inside a standing run is served from
it, and without RA_EN no run is kept or serves. A request without a target, an I/O and an AtomicOp request end
Unsupported Request. A configuration request reads the space or sets its field. PERST resets the endpoint's
registers, also in NAP, and takes the link down; no request is taken while the link is not up. MSI-X sends the
lowest open vector and claims its source, and so does HNEXT for software. An SPI element travels MSB first; a
misaligned address and a narrow register access fail; an incomplete element, an unknown command and a disabled
port make no access. The place and the bits of the capabilities beyond the spec's are log 18's. (spec/16 R531,
spec/16 R532, spec/16 R533, spec/16 R535, spec/16 R536, spec/16 R538, spec/16 R539, spec/16 R541, spec/16 R547,
spec/16 R548, spec/16 R549, spec/16 R550) -/
def Obligations.HostPortsServeTheHost : Prop :=
  let sends (s t : State) (e : Emission) : Prop := t.out = e :: s.out ∧ { t with out := s.out } = s
  let queued (s : State) (r : HostReq) : State := { s with host := { s.host with waits := [r] } }
  let taken (s : State) : State := { s with host := { s.host with waits := [] } }
  (∀ (s u : State) (bar off n a v : Nat), s.awake = true → s.pcieOpen = true → s.host.waits = [] →
    (n = 1 ∨ n = 2 ∨ n = 4 ∨ n = 8) → (bar = 0 → n = 4) → off % n = 0 → s.barHit bar off n = true →
    barMap bar off = some a →
    let q : PcieReq := .read bar off (List.replicate n true)
    let w := queued s (.pcie q)
    let ready : Prop := (bar = 4 → s.bar4Held = false) ∧ s.creditsLeft = true ∧ s.regWaits a = false
    (¬ready → exec (.pcieRequest q) s = .next w) ∧
    (ready →
      (∀ l, bar = 2 → w.runServes a (List.replicate n true) = some l → (∀ r ∈ s.host.reads, r.parts.all HostPart.ended = false) →
        ∃ t, exec (.pcieRequest q) s = .next t ∧ sends s t (.pcie 0 l)) ∧
      ((bar = 2 → w.runServes a (List.replicate n true) = none) → (∀ r ∈ u.host.reads, r.parts.all HostPart.ended = false) →
        (w.busRead .pcie a n = (u, .data v) →
          ∃ t, exec (.pcieRequest q) s = .next (taken (if bar = 2 then t.startRun (a + n - 1) else t)) ∧
            sends u t (.pcie 0 (leBytes n v))) ∧
        (w.busRead .pcie a n = (u, .err) →
          ∃ t, exec (.pcieRequest q) s = .next (taken t) ∧ t.out = .pcie 4 [] :: u.out ∧
            t.rd R.PCIE_ERRCNT.RDERR = min (u.rd R.PCIE_ERRCNT.RDERR + 1) R.PCIE_ERRCNT.RDERR.max ∧
            { t with regs := u.regs, out := u.out } = u) ∧
        (∀ tag, bar ≠ 2 → w.busRead .pcie a n = (u, .wait tag) →
          ∃ t, exec (.pcieRequest q) s = .next (taken t) ∧
            t.host.reads = u.host.reads ++ [⟨.pcie, [.wait tag n], false, off % 64, List.replicate n true⟩] ∧
            { t with host := { t.host with reads := u.host.reads } } = u)))) ∧
  (∀ (s : State) (r q : PcieReq) (l : List HostReq), s.awake = true → s.pcieOpen = true → s.host.waits = .pcie r :: l →
    (∀ x ∈ l, x.port = .pcie) → s.pcieReady r = false → (∀ b o d, r ≠ .write b o d) →
    ∃ t, exec (.pcieRequest q) s = .next t ∧ t.host.waits = s.host.waits ++ [.pcie q] ∧
      { t with host := { t.host with waits := s.host.waits } } = s) ∧
  (∀ (s : State) (a : Nat),
    (s.on R.PCIE_CTRL.RA_EN = false → s.startRun a = s ∧ ∀ en, s.runServes a en = none) ∧
    (s.on R.PCIE_CTRL.RA_EN = true → s.readAhead (a + 1) (min 256 (0x3FF - a % 0x400)) ≠ [] →
      (s.startRun a).host.runs.length ≤ 4 ∧ s.readAhead (a + 1) (min 256 (0x3FF - a % 0x400)) ∈ (s.startRun a).host.runs ∧
      (∀ r ∈ (s.startRun a).host.runs, r ∈ s.host.runs ∨ r = s.readAhead (a + 1) (min 256 (0x3FF - a % 0x400))) ∧
      { s.startRun a with host := s.host } = s)) ∧
  (∀ (s : State) (bar off a : Nat) (l : List Byte), s.awake = true → s.pcieOpen = true → s.host.waits = [] →
    (l.length = 1 ∨ l.length = 2 ∨ l.length = 4 ∨ l.length = 8) → (bar = 0 → l.length = 4) → off % l.length = 0 →
    s.barHit bar off l.length = true → barMap bar off = some a →
    let q : PcieReq := .write bar off (l.map some)
    let w := queued s (.pcie q)
    (w.ethWaits .pcie a l.length (leNat l) = true → exec (.pcieRequest q) s = .next (w.requestDom 4)) ∧
    (w.ethWaits .pcie a l.length (leNat l) = false → (s.bar4Held = true ∨ s.regWaits a = true) →
      exec (.pcieRequest q) s = .next w) ∧
    (w.ethWaits .pcie a l.length (leNat l) = false → s.bar4Held = false → s.regWaits a = false →
      exec (.pcieRequest q) s = .next (taken (w.busWrite .pcie a l.length (leNat l)).1))) ∧
  (∀ s : State, s.awake = true → s.pcieOpen = false →
    (∀ r, exec (.pcieRequest r) s = .next s) ∧ exec .msixSend s = .next s) ∧
  (∀ s : State, s.awake = true → s.pcieOpen = true → s.host.waits = [] →
    let shows (n : Nat) (f : List Byte → Prop) : Prop := ∃ t l, exec (.pcieRequest (.headerRead n)) s = .next t ∧
      t.out = .pcie 0 l :: s.out ∧ l.length = 4 ∧ f l ∧ { t with out := s.out, fresh := s.fresh } = s
    (∀ bar off en, s.barHit bar off en.length = false →
      ∃ t, exec (.pcieRequest (.read bar off en)) s = .next t ∧ sends s t (.pcie 1 [])) ∧
    (∀ bar off data, s.barHit bar off data.length = false →
      ∃ t, exec (.pcieRequest (.write bar off data)) s = .next t ∧ sends s t (.pcie 1 [])) ∧
    (∃ t, exec (.pcieRequest .miss) s = .next t ∧ sends s t (.pcie 1 [])) ∧
    (∃ t, exec (.pcieRequest .io) s = .next t ∧ sends s t (.pcie 1 [])) ∧
    (∃ t, exec (.pcieRequest .atomicOp) s = .next t ∧ sends s t (.pcie 1 [])) ∧
    shows 0 (· = [0x3D, 0x1F, 0x00, 0x48]) ∧ shows 2 (· = [0xB1, 0x00, 0x40, 0x0B]) ∧
    (∀ n, n = 5 ∨ n = 9 ∨ n = 12 → shows n (· = [0, 0, 0, 0])) ∧
    shows 4 (fun l => leNat l % 2 ^ 22 = 0) ∧ shows 6 (fun l => leNat l % 2 ^ 27 = 12) ∧ shows 8 (fun l => leNat l % 2 ^ 23 = 0) ∧
    (∀ n, shows n fun _ => True) ∧
    (∀ en, ∃ t, exec (.pcieRequest (.busMaster en)) s = .next t ∧ t.on R.PCIE_STATUS.BME = en ∧
      t.out = .pcie 0 [] :: s.out ∧ (∀ a, a ≠ R.PCIE_STATUS.BME.addr 0 0 → t.reg a = s.reg a) ∧
      { t with regs := s.regs, out := s.out } = s) ∧
    (∀ en mask, ∃ t, exec (.pcieRequest (.msix en mask)) s = .next t ∧ t.on R.PCIE_STATUS.MSIX_EN = en ∧
      t.on R.PCIE_STATUS.FMASK = mask ∧ t.out = .pcie 0 [] :: s.out ∧
      (∀ a, a ≠ R.PCIE_STATUS.BME.addr 0 0 → t.reg a = s.reg a) ∧ { t with regs := s.regs, out := s.out } = s) ∧
    (∀ d3, ∃ t, exec (.pcieRequest (.deviceState d3)) s = .next t ∧ t.rd R.PCIE_STATUS.DSTATE = (if d3 then 3 else 0) ∧
      t.out = .pcie 0 [] :: s.out ∧ (∀ a, a ≠ R.PCIE_STATUS.DSTATE.addr 0 0 → t.reg a = s.reg a) ∧
      { t with regs := s.regs, out := s.out } = s) ∧
    (∀ code, ∃ t, exec (.pcieRequest (.maxPayload code)) s = .next t ∧ t.host.maxPayload = code % 8 ∧
      t.out = .pcie 0 [] :: s.out ∧ { t with out := s.out, host := { t.host with maxPayload := s.host.maxPayload } } = s)) ∧
  (∀ (s : State) (which : Nat),
    (s.wakeRun ≠ .asleep → s.wakeRun ≠ .exiting → s.hostAssert which = s.wakeSeen 7 which 0) ∧
    (s.wakeRun = .exiting → s.hostAssert which = s) ∧
    (s.wakeRun = .asleep → ∃ p : Nat, s.hostAssert which = ({ s with fresh := s.fresh + 1 } : State).wakeSeen 7 which p)) ∧
  (∀ s : State,
    (s.host.perst = false → exec (.pciePerst false) s = .next s) ∧
    (∃ t, exec (.pciePerst true) s = .next t ∧ t.host.perst = true ∧ t.on R.PCIE_STATUS.LINK_UP = false ∧
      (∀ a, regAt 5 0x800 ≤ a → a < regAt 5 0x800 + 0x400 → t.reg a = regReset a) ∧
      (∀ r ∈ t.host.reads, r.port ≠ .pcie) ∧ (∀ r ∈ t.host.waits, r.port ≠ .pcie)) ∧
    (s.host.perst = true → exec (.pciePerst false) s =
      .next (({ s with host := { s.host with perst := false } } : State).hostAssert 0))) ∧
  (∀ (s : State) (link : PcieLink) (lanes rate : Nat), s.awake = true → lanes < 4 → rate < 4 →
    (link = .detect → exec (.pcieLinkChange link lanes rate) s = exec .hostLinkLoss s ∧
      ∃ t, exec (.pcieLinkChange link lanes rate) s = .next t ∧ t.on R.PCIE_STATUS.LINK_UP = false ∧
        (∀ r ∈ t.host.reads, r.port ≠ .pcie) ∧ (∀ r ∈ t.host.waits, r.port ≠ .pcie)) ∧
    (link ≠ .detect → s.host.perst = true → exec (.pcieLinkChange link lanes rate) s = .next s) ∧
    (link ≠ .detect → s.host.perst = false →
      ∃ t, exec (.pcieLinkChange link lanes rate) s = .next t ∧ t.on R.PCIE_STATUS.LINK_UP = true ∧
        t.host.lowPower = (link != .l0) ∧ t.rd R.PCIE_STATUS.LANES = lanes ∧ t.rd R.PCIE_STATUS.RATE = rate ∧
        t.rd R.INT_STATUS.BITS 5 = (if s.on R.PCIE_STATUS.LINK_UP then s.rd R.INT_STATUS.BITS 5
          else s.rd R.INT_STATUS.BITS 5 ||| 2 ^ R.pcie_INT.LINK.lo) ∧
        (∀ a, a ≠ R.PCIE_STATUS.LINK_UP.addr 0 0 → a ≠ R.INT_STATUS.BITS.addr 5 0 → t.reg a = s.reg a) ∧
        { t with regs := s.regs, ic := s.ic, host := { t.host with lowPower := s.host.lowPower } } = s)) ∧
  (∀ s : State, s.awake = true → s.pcieOpen = true →
    (∀ k v, (s.hostSources.find? fun e => s.vectorOpen e.2) = some (k, v) →
      ∃ t, exec .msixSend s = .next t ∧ t.out = .msix ((s.reg (R.MSIX_UPPERv.all.addr 0 v)).toNat * 2 ^ 32 +
          (s.reg (R.MSIX_ADDRv.all.addr 0 v)).toNat) (s.rd R.MSIX_DATAv.DATA 0 v) :: s.out ∧
        t.src k = (s.src k).claim ∧ (∀ j, j ≠ k → t.src j = s.src j) ∧
        { t with out := s.out, ic := { t.ic with src := s.ic.src } } = s) ∧
    ((s.hostSources.find? fun e => s.vectorOpen e.2) = none → exec .msixSend s = .next s)) ∧
  (∀ (s : State) (who : Initiator), s.answers 6 = true →
    (∀ k v, s.nextHost = some (k, v) → k < 0x2000 →
      ∃ t, exec (.lbHnextPop who) s = .next t ∧ t.answer = ⟨BitVec.ofNat 64 (k - 0x1000), false⟩ ∧
        t.src k = (s.src k).claim ∧ (∀ j, j ≠ k → t.src j = s.src j) ∧
        { t with answer := s.answer, ic := { t.ic with src := s.ic.src } } = s) ∧
    (s.nextHost = none → ∃ t, exec (.lbHnextPop who) s = .next t ∧ t.answer = ⟨0x80000000, false⟩ ∧
      { t with answer := s.answer } = s)) ∧
  (∀ (s : State) (k a : Nat), s.awake = true → s.spiReady = true → k < 4 →
    let n := 2 ^ k
    let b := s.spiBegin
    b.host.spiOpen = true ∧ b.out = .spiFill :: s.out ∧
    (a % n ≠ 0 → ∀ count,
      (∃ t, exec (.spiRead k count a) s = .next t ∧ t.host.spiOpen = true ∧ t.mem = s.mem ∧
        t.out = .spi ([0xA5] ++ List.replicate (n * count) 0 ++ [1]) :: .spiFill :: s.out) ∧
      (∀ l, ∃ t, exec (.spiWrite k count a l) s = .next t ∧ t.host.spiOpen = true ∧ t.host.werr = true ∧ t.mem = s.mem ∧
        t.rd R.LB_ERRCNT.SPI = min (s.rd R.LB_ERRCNT.SPI + 1) R.LB_ERRCNT.SPI.max ∧ t.out = .spiFill :: s.out)) ∧
    (a % n = 0 → s.host.waits = [] → ∀ count,
      let w := queued b (.spiRead a n count)
      (s.spiWaits a n count = true → exec (.spiRead k count a) s = .next w) ∧
      (s.spiWaits a n count = false → exec (.spiRead k count a) s = .next (taken
        ((w.spiElements a n count).1.startRead ⟨.spi, (w.spiElements a n count).2.1, (w.spiElements a n count).2.2, 0, []⟩))) ∧
      (∀ l, l.length = n * count → (l ≠ [] ∨ count = 0) → s.spiWaits a n count = true →
        (queued b (.spiWrite a n (entriesOf n l))).hostHeld (.spiWrite a n (entriesOf n l)) = false →
        exec (.spiWrite k count a l) s = .next (queued b (.spiWrite a n (entriesOf n l))))) ∧
    (s.regWaits a = false → s.host.waits = [] →
    (a % n = 0 → (isReg a = false ∨ n = 4) → ∀ u, (∀ r ∈ u.host.reads, r.parts.all HostPart.ended = false) →
      let w := queued b (.spiRead a n 1)
      (∀ v, w.busRead .spi a n = (u, .data v) →
        ∃ t, exec (.spiRead k 1 a) s = .next (taken t) ∧ sends u t (.spi ([0xA5] ++ (leBytes n v).reverse ++ [0]))) ∧
      (w.busRead .spi a n = (u, .err) →
        ∃ t, exec (.spiRead k 1 a) s = .next (taken t) ∧ sends u t (.spi ([0xA5] ++ List.replicate n 0 ++ [1]))) ∧
      (∀ tag, w.busRead .spi a n = (u, .wait tag) →
        ∃ t, exec (.spiRead k 1 a) s = .next (taken t) ∧ t.host.reads = u.host.reads ++ [⟨.spi, [.wait tag n], false, 0, []⟩] ∧
          { t with host := { t.host with reads := u.host.reads } } = u)) ∧
    (a % n = 0 → isReg a = true → n < 4 → (∀ r ∈ s.host.reads, r.parts.all HostPart.ended = false) →
      ∃ t, exec (.spiRead k 1 a) s = .next t ∧ t.out = .spi ([0xA5] ++ List.replicate n 0 ++ [1]) :: .spiFill :: s.out ∧
        t.mem = s.mem ∧ t.rd R.LB_ERRCNT.SPI = min (s.rd R.LB_ERRCNT.SPI + 1) R.LB_ERRCNT.SPI.max) ∧
    (a % n = 0 → (isReg a = false ∨ n = 4) → ∀ l, l.length = n →
      let w := queued b (.spiWrite a n [l])
      (w.ethWaits .spi a n (leNat l.reverse) = true → exec (.spiWrite k 1 a l) s = .next (w.requestDom 4)) ∧
      (w.ethWaits .spi a n (leNat l.reverse) = false →
        ∃ t, exec (.spiWrite k 1 a l) s = .next t ∧
          t = { (w.busWrite .spi a n (leNat l.reverse)).1 with
                host := { (w.busWrite .spi a n (leNat l.reverse)).1.host with spiPartial := [], waits := [] } })) ∧
    (a % n = 0 → ∀ l, l.length < n →
      ∃ t, exec (.spiWrite k 1 a l) s = .next t ∧ t.host.spiPartial = l ∧
        { t with host := { t.host with spiPartial := [] } } = b))) ∧
  (∀ s : State, s.awake = true → s.spiReady = false →
    (∀ k count a, exec (.spiRead k count a) s = .next s) ∧ (∀ k count a l, exec (.spiWrite k count a l) s = .next s) ∧
    exec .spiStatus s = .next s ∧ ∀ b, exec (.spiUnknownCommand b) s = .next s) ∧
  (∀ s : State, s.awake = true →
    (s.spiReady = true → ∃ t, exec .spiStatus s = .next t ∧ t.host.werr = false ∧ t.host.spiOpen = true ∧
      t.out = .spi [BitVec.ofNat 8 (ofBool s.spiBegin.hostIrq * 4 +
        ofBool ((s.ring.bridge.any fun r => r.who == .spi && r.write) ||
          s.host.waits.any fun r => match r with | .spiWrite _ _ _ => true | _ => false) * 2 +
        ofBool s.host.werr)] :: .spiFill :: s.out ∧
      { t with out := .spiFill :: s.out, host := { t.host with werr := s.host.werr } } = s.spiBegin) ∧
    (∀ b, s.spiReady = true → b ≠ 2 → b ≠ 3 → b ≠ 5 →
      ∃ t, exec (.spiUnknownCommand b) s = .next t ∧ t.host.spiOpen = true ∧
        t.rd R.LB_ERRCNT.SPI = min (s.rd R.LB_ERRCNT.SPI + 1) R.LB_ERRCNT.SPI.max ∧ t.mem = s.mem ∧
        t.out = .spiFill :: s.out) ∧
    (∃ t, exec .spiCsRise s = .next t ∧ t.host.spiOpen = false ∧ t.host.spiPartial = [] ∧
      t.host.reads = s.host.reads.filter (fun r => r.port != .spi) ∧ t.out = .spiFloat :: s.out ∧
      t.host.waits = s.host.waits.filter (fun r => match r with | .spiRead _ _ _ => false | _ => true) ∧
      { t with out := s.out, host := { t.host with spiOpen := s.host.spiOpen, spiPartial := s.host.spiPartial
                                                   reads := s.host.reads, waits := s.host.waits } } = s))

/-- A local-bus cycle reads or writes the enabled bytes of the mailbox RAM, corrected or refused by its ECC; a
read that meets a collision with MODE bit 31 clear answers free data as busy, and a write that does counts WW.
Both strobes at once, or neither, have no effect. A gateway cycle with both byte enables reads or writes ADDR,
stages or issues DATA, and reads STAT, which clears ERR; above STAT it reads 0 and writes nothing; one with a
single byte enable sets ERR. A cycle that must wait for the gateway is held, LB_BUSY_N low. The address advances
by 4 after a DATA_HI access under INC; a DATA_LO read that fails answers zeros and one across the ring waits.
Two chip selects at once are counted, and what the gateway has under way ends. Every cycle is a wake; with LB_EN
= 0 none has another effect. A flash transaction starts for SYS and KEEP while none runs, with ADDR4's address
bytes, and its end fills the data registers of a read. A free semaphore is granted to the reader of its POP
register, who sees it granted again, and only its owner releases it. (spec/16 R551, spec/16 R553, spec/16 R554,
spec/16 R556, spec/16 R558, spec/16 R560, spec/21 R648) -/
def Obligations.LocalBusFlashAndSemaphores : Prop :=
  let queued (s : State) (r : HostReq) : State := { s with host := { s.host with waits := [r] } }
  let gateway (i : Bool → Instr) (f : State → State → Prop) : Prop :=
    ∀ s : State, s.awake = true → s.on R.LB_CTRL.LB_EN = true → s.host.waits = [] → s.gwBusy = false →
      ∃ t, exec (i true) s = .next t ∧ f (s.hostAssert 2) t
  let waits (i : Bool → Instr) (op : GwOp) : Prop :=
    ∀ s : State, s.awake = true → s.on R.LB_CTRL.LB_EN = true → s.host.waits = [] → s.gwBusy = true →
      ∃ t, exec (i true) s = .next t ∧ t.host.waits = [.gw op] ∧ t.out = .localBus [none, none] true :: s.out ∧
        { t with out := s.out, power := s.power, host := { t.host with waits := [] } } = s.hostAssert 2
  let narrow (i : Bool → Instr) : Prop := ∀ s : State,
    (s.awake = true → s.on R.LB_CTRL.LB_EN = true →
      ∃ t, exec (i false) s = .next t ∧ t.host.gwErr = true ∧ t.host.gwAddr = s.host.gwAddr ∧ t.mem = s.mem ∧
        t.out = s.out ∧ t.rd R.LB_ERRCNT.LB = min (s.rd R.LB_ERRCNT.LB + 1) R.LB_ERRCNT.LB.max) ∧
    (s.on R.LB_CTRL.LB_EN = false ∨ s.awake = false → ∀ full, exec (i full) s = .next (s.hostAssert 2))
  let reads (v : State → Nat) (u t : State) : Prop := t.out = .localBus (lanes 3 (v u)) false :: u.out ∧ { t with out := u.out } = u
  let inc (u : State) : Nat := if u.host.gwInc then (u.host.gwAddr + 4) % 2 ^ 32 else u.host.gwAddr
  (∀ (s : State) (a be : Nat), s.awake = true → s.on R.LB_CTRL.LB_EN = true →
    let u := s.hostAssert 2
    let h := 0x103F0000 + a % 0x10000 / 2 * 2
    let free := s.rd R.SRAM_BANK_COLLIDE.MODE / 2 ^ 31 % 2 = 1
    (∀ c, c = false ∨ free →
      (s.eccAt h = .clean → ∃ t, exec (.lbCycle a be true none c) s = .next t ∧
        t.out = .localBus (lanes be (leNat (s.memBytes h 2))) false :: s.out ∧ { t with out := u.out } = u) ∧
      (∀ w x, u.sramRead h 2 = (w, some x) → ∃ t, exec (.lbCycle a be true none c) s = .next t ∧
        t.out = .localBus (lanes be x) false :: w.out ∧ { t with out := w.out } = w) ∧
      (∀ w, u.sramRead h 2 = (w, none) → ∃ t, exec (.lbCycle a be true none c) s = .next t ∧
        t.out = .localBus (lanes be 0) true :: w.out ∧ t.mem = w.mem ∧
        t.rd R.LB_ERRCNT.LB = min (w.rd R.LB_ERRCNT.LB + 1) R.LB_ERRCNT.LB.max)) ∧
    (¬ free → ∃ t, exec (.lbCycle a be true none true) s = .next t ∧
      t.out = .localBus (lanes be (Config.freeWord u.fresh).toNat) true :: s.out ∧ t.mem = s.mem ∧
      t.rd R.SRAM_COLL_CNT.BUSY = min (s.rd R.SRAM_COLL_CNT.BUSY + 1) R.SRAM_COLL_CNT.BUSY.max ∧
      (∀ x, x ≠ R.SRAM_COLL_CNT.BUSY.addr 0 0 → t.reg x = u.reg x)) ∧
    (∀ (v : Half), ∃ t w, exec (.lbCycle a be false (some v) false) s = .next t ∧
      exec (.lbCycle a be false (some v) true) s = .next w ∧ w.mem.bytes = t.mem.bytes ∧ w.mem.ecc = t.mem.ecc ∧
      w.rd R.SRAM_COLL_CNT.WW = min (s.rd R.SRAM_COLL_CNT.WW + 1) R.SRAM_COLL_CNT.WW.max) ∧
    (∀ (v : Half), s.eccAt h = .clean ∨ be % 4 = 3 ∨ be % 4 = 0 → ∃ t, exec (.lbCycle a be false (some v) false) s = .next t ∧
      (be % 4 = 3 → t.eccAt h = .clean) ∧
      t.mem.bytes.get 0 h = (if bit be 0 then BitVec.ofNat 8 v.toNat else s.mem.bytes.get 0 h) ∧
      t.mem.bytes.get 0 (h + 1) = (if bit be 1 then BitVec.ofNat 8 (v.toNat / 256) else s.mem.bytes.get 0 (h + 1)) ∧
      (∀ x, x ≠ h → x ≠ h + 1 → t.mem.bytes.get 0 x = s.mem.bytes.get 0 x) ∧ t.regs = u.regs ∧ t.out = s.out) ∧
    (∀ v c, exec (.lbCycle a be true (some v) c) s = .next u) ∧ (∀ c, exec (.lbCycle a be false none c) s = .next u)) ∧
  (∀ s : State, (s.awake = false ∨ s.on R.LB_CTRL.LB_EN = false) →
    (∀ a be oe data c, exec (.lbCycle a be oe data c) s = .next (s.hostAssert 2)) ∧
    exec .lbDualSelect s = .next (s.hostAssert 2)) ∧
  (narrow (fun f => .addrLo f none) ∧ narrow (fun f => .addrHi f none) ∧ narrow .dataLoRead ∧ narrow .dataHiRead ∧
    (∀ k, narrow (fun f => .statRead ⟨f, k⟩)) ∧ ∀ v : Half, narrow (fun f => .addrLo f (some v)) ∧
      narrow (fun f => .addrHi f (some v)) ∧ narrow (fun f => .dataLoWrite f v) ∧ narrow (fun f => .dataHiWrite f v) ∧
      ∀ k, narrow (fun f => .statWrite ⟨f, k⟩ v)) ∧
  (waits (fun f => .addrLo f none) (.addrLo none) ∧ waits (fun f => .addrHi f none) (.addrHi none) ∧
    waits .dataLoRead (.dataLo none) ∧ waits .dataHiRead (.dataHi none) ∧ waits (fun f => .statRead ⟨f, 4⟩) (.stat none) ∧
    ∀ v : Half, waits (fun f => .addrLo f (some v)) (.addrLo (some v)) ∧
      waits (fun f => .addrHi f (some v)) (.addrHi (some v)) ∧ waits (fun f => .dataLoWrite f v) (.dataLo (some v)) ∧
      waits (fun f => .dataHiWrite f v) (.dataHi (some v)) ∧ waits (fun f => .statWrite ⟨f, 4⟩ v) (.stat (some v))) ∧
  (gateway (fun f => .addrLo f none) (reads fun u => u.host.gwAddr % 65536) ∧
   gateway (fun f => .addrHi f none) (reads fun u => u.host.gwAddr / 65536)) ∧
  (∀ v : Half,
    gateway (fun f => .addrLo f (some v)) (fun u t => t = { u with host := { u.host with
      gwAddr := u.host.gwAddr / 65536 * 65536 + v.toNat / 4 * 4 } }) ∧
    gateway (fun f => .addrHi f (some v)) (fun u t => t = { u with host := { u.host with
      gwAddr := u.host.gwAddr % 65536 + v.toNat * 65536 } }) ∧
    gateway (fun f => .dataLoWrite f v) (fun u t => t = { u with host := { u.host with gwStaged := v.toNat } }) ∧
    gateway (fun f => .statWrite ⟨f, 4⟩ v) (fun u t => t = { u with host := { u.host with gwInc := v.toNat.testBit 1 } }) ∧
    (∀ k, k ≠ 4 → gateway (fun f => .statWrite ⟨f, k⟩ v) (fun u t => t = u)) ∧
    (∀ s : State, s.awake = true → s.on R.LB_CTRL.LB_EN = true → s.host.waits = [] → s.gwBusy = false →
      s.regWaits s.host.gwAddr = false →
      let w := queued (s.hostAssert 2) (.gw (.dataHi (some v)))
      let x := s.host.gwStaged + v.toNat * 65536
      let u := (w.busWrite .localBus s.host.gwAddr 4 x).1
      (w.ethWaits .localBus s.host.gwAddr 4 x = false →
        ∃ t, exec (.dataHiWrite true v) s = .next t ∧ t.host.gwAddr = inc u ∧
          { t with host := { t.host with gwAddr := u.host.gwAddr, waits := u.host.waits } } = u))) ∧
  gateway .dataHiRead (fun u t => t.out = .localBus (lanes 3 u.host.gwLatch) false :: u.out ∧ t.host.gwAddr = inc u ∧
    { t with out := u.out, host := { t.host with gwAddr := u.host.gwAddr } } = u) ∧
  (∀ k, k ≠ 4 → gateway (fun f => .statRead ⟨f, k⟩) (reads fun _ => 0)) ∧
  gateway (fun f => .statRead ⟨f, 4⟩) (fun u t => t.out = .localBus (lanes 3 (ofBool u.host.gwInc * 2 + ofBool u.host.gwErr)) false :: u.out ∧
    t.host.gwErr = false ∧ { t with out := u.out, host := { t.host with gwErr := u.host.gwErr } } = u) ∧
  (∀ (s u : State) (v : Nat), s.awake = true → s.on R.LB_CTRL.LB_EN = true → s.host.waits = [] → s.gwBusy = false →
    s.regWaits s.host.gwAddr = false → (∀ r ∈ u.host.reads, r.parts.all HostPart.ended = false) →
    let b := (queued (s.hostAssert 2) (.gw (.dataLo none))).busRead .localBus s.host.gwAddr 4
    let gives (t : State) (v : Nat) : Prop :=
      t.out = .localBus [some (BitVec.ofNat 8 v), some (BitVec.ofNat 8 (v / 256))] false :: u.out ∧
        t.host.gwLatch = v / 65536 % 65536 ∧
        { t with out := u.out, host := { t.host with gwLatch := u.host.gwLatch, waits := u.host.waits } } = u
    (b = (u, .data v) → ∃ t, exec (.dataLoRead true) s = .next t ∧ gives t v) ∧
    (b = (u, .err) → ∃ t, exec (.dataLoRead true) s = .next t ∧ gives t 0) ∧
    (∀ tag, b = (u, .wait tag) →
      ∃ t, exec (.dataLoRead true) s = .next t ∧ t.host.reads = u.host.reads ++ [⟨.localBus, [.wait tag 4], false, 0, []⟩] ∧
        t.out = .localBus [none, none] true :: u.out ∧
        { t with out := u.out, host := { t.host with reads := u.host.reads, waits := u.host.waits } } = u)) ∧
  (∀ s : State, s.awake = true → s.on R.LB_CTRL.LB_EN = true →
    ∃ t, exec .lbDualSelect s = .next t ∧ t.rd R.LB_ERRCNT.LB = min (s.rd R.LB_ERRCNT.LB + 1) R.LB_ERRCNT.LB.max ∧
      t.mem = s.mem ∧ t.host.reads = s.host.reads.filter (fun r => r.port != .localBus) ∧
      t.host.waits = s.host.waits.filter (fun r => r.port != .localBus) ∧
      { t.host with reads := s.host.reads, waits := s.host.waits } = s.host ∧ t.out = s.out) ∧
  (∀ (s : State) (who : Initiator) (v : Word), s.takes who R.LB_FL_CMD.START = true →
    (flashUser who = true → s.on R.LB_FL_CMD.BUSY = false →
      ∃ t data, exec (.flashTransaction who v) s = .next t ∧ t.answer.error = false ∧ t.on R.LB_FL_CMD.BUSY = true ∧
        t.rd R.LB_FL_CMD.OPCODE = v.toNat % 256 ∧ t.on R.LB_FL_CMD.WRITE = v.toNat.testBit 29 ∧
        t.rd R.LB_FL_CMD.LEN = v.toNat / 256 % 64 ∧
        t.out = .flash (v.toNat % 256) (if v.toNat.testBit 28 then none else
            some (s.rd R.LB_FL_ADDR.ADDR % (if s.on R.LB_FL_CFG.ADDR4 then 2 ^ 32 else 2 ^ 24)))
          (min 32 (v.toNat / 256 % 64)) (v.toNat.testBit 29) data
          ⟨s.rd R.LB_FL_CFG.LINES % 3, if s.on R.LB_FL_CFG.ADDR4 then 4 else 3, s.rd R.LB_FL_CFG.DUMMY,
            max 1 (s.rd R.LB_FL_CFG.DIV)⟩ :: s.out ∧
        (v.toNat.testBit 29 = false → data = []) ∧ (v.toNat.testBit 29 = true → data.length = min 32 (v.toNat / 256 % 64)) ∧
        (∀ a, a ≠ R.LB_FL_CMD.BUSY.addr 0 0 → t.reg a = s.reg a) ∧
        { t with regs := s.regs, out := s.out, answer := s.answer } = s) ∧
    (flashUser who = false ∨ s.on R.LB_FL_CMD.BUSY = true →
      ∃ t, exec (.flashTransaction who v) s = .next t ∧ t.answer.error = true ∧ t.out = s.out ∧
        t.reg (R.LB_FL_CMD.BUSY.addr 0 0) = s.reg (R.LB_FL_CMD.BUSY.addr 0 0))) ∧
  (∀ (s : State) (data : List Byte), s.awake = true →
    (s.on R.LB_FL_CMD.BUSY = false → exec (.flashDone data) s = .next s) ∧
    (s.on R.LB_FL_CMD.BUSY = true →
      ∃ t, exec (.flashDone data) s = .next t ∧ t.on R.LB_FL_CMD.BUSY = false ∧
        bit (t.rd R.INT_STATUS.BITS 6) R.localBus_INT.FL_DONE.lo = true ∧
        (s.on R.LB_FL_CMD.WRITE = false → ∀ i, i < min 32 (s.rd R.LB_FL_CMD.LEN) →
          t.rd R.LB_FL_DATAn.DATA 0 (i / 4) / 256 ^ (i % 4) % 256 = (data.getD i 0).toNat) ∧
        (s.on R.LB_FL_CMD.WRITE = true → ∀ k, k < 8 → t.rd R.LB_FL_DATAn.DATA 0 k = s.rd R.LB_FL_DATAn.DATA 0 k) ∧
        { t with regs := s.regs, ic := s.ic } = s)) ∧
  (∀ (s : State) (who : Initiator) (n : Nat), n < 32 → s.answers 18 = true →
    (stampOf who ≠ 0xF000 → stampOf who < 65536 → s.semHeld n = false →
      ∃ t, exec (.semPop who n) s = .next t ∧ t.answer = ⟨BitVec.ofNat 64 (2 ^ 31 + 2 ^ 30 + stampOf who), false⟩ ∧
        t.semHeld n = true ∧ t.semOwner n = stampOf who ∧
        (∀ a, a ≠ R.BR_SEM_PEEKn.HELD.addr 0 n → t.reg a = s.reg a) ∧
        { t with regs := s.regs, answer := s.answer } = s) ∧
    (stampOf who ≠ 0xF000 → s.semHeld n = true → s.semOwner n ≠ stampOf who →
      ∃ t, exec (.semPop who n) s = .next t ∧ t.answer = ⟨BitVec.ofNat 64 (2 ^ 31 + s.semOwner n), false⟩ ∧
        { t with answer := s.answer } = s) ∧
    (stampOf who ≠ 0xF000 → s.semHeld n = true → s.semOwner n = stampOf who →
      ∃ t, exec (.semPop who n) s = .next t ∧ t.answer = ⟨BitVec.ofNat 64 (2 ^ 31 + 2 ^ 30 + stampOf who), false⟩ ∧
        { t with answer := s.answer } = s) ∧
    (stampOf who = 0xF000 → ∃ t, exec (.semPop who n) s = .next t ∧ t.answer.error = true ∧
      t.reg (R.BR_SEM_PEEKn.HELD.addr 0 n) = s.reg (R.BR_SEM_PEEKn.HELD.addr 0 n))) ∧
  (∀ (s : State) (who : Initiator) (n : Nat), n < 32 → s.takes who R.BR_SEM_PEEKn.REL 0 n = true →
    (s.semHeld n = true → s.semOwner n = stampOf who →
      ∃ t, exec (.semRelease who n) s = .next t ∧ t.answer.error = false ∧ t.semHeld n = false ∧
        (∀ a, a ≠ R.BR_SEM_PEEKn.HELD.addr 0 n → t.reg a = s.reg a) ∧ { t with regs := s.regs, answer := s.answer } = s) ∧
    (s.semHeld n = false ∨ s.semOwner n ≠ stampOf who →
      ∃ t, exec (.semRelease who n) s = .next t ∧ t.answer.error = true ∧
        t.reg (R.BR_SEM_PEEKn.HELD.addr 0 n) = s.reg (R.BR_SEM_PEEKn.HELD.addr 0 n)))

/-- KEEP takes the request at the head of channel 63, ends the power-up self-tests if they run, and answers once
with stamp class 4, the service number and a STATUS; RESULT is free where the spec gives none (log 2). A service
whose request is not at the head, or with KEEP not running or its clock stopped, is not begun. SCRAP and a
requester outside the table are REFUSED, a failed self-test FAILED; a reserved service answers BAD_ARG to every
requester but another ring unit, which is REFUSED. Each service writes what its row says, or its STATUS says why
not; a life-cycle transition programs its byte and resets the device. A host image is looked at only while SYS
waits for one: it runs, or its code and the filled destinations say that it failed. A failed health test stops
the generator, raises its interrupt and an ALARM. The order of the checks before a service is the model's
reading (log 40). (spec/18 R593, spec/18 R594, spec/18 R596, spec/18 R598, spec/18 R600, spec/18 R601, spec/18
R602, spec/18 R603, spec/18 R605, spec/18 R606, spec/18 R608, spec/18 R609) -/
def Obligations.KeeperServesItsChannel : Prop :=
  let popped (s : State) : State := (s.mbxPop (.core 17) 63).s.selfTestsEnd
  let said (u t : State) (svc chan st : Nat) (res : Option Nat) : Prop :=
    (u.on R.MBX_CFGn.EN 0 chan = true → (u.chan chan).length < 4 → ∃ v, v < 2 ^ 32 ∧ (∀ r, res = some r → v = r) ∧
      t.chan chan = u.chan chan ++ [BitVec.ofNat 64 ((0x4000 + svc) * 2 ^ 48 + st * 2 ^ 40 + v)]) ∧
    (u.on R.MBX_CFGn.EN 0 chan = false ∨ 4 ≤ (u.chan chan).length → t.chan chan = u.chan chan ∧
      t.rd R.MBX_STATUSn.OVERFLOW 0 chan = min (u.rd R.MBX_STATUSn.OVERFLOW 0 chan + 1) R.MBX_STATUSn.OVERFLOW.max) ∧
    (∀ c, c ≠ chan → t.chan c = u.chan c) ∧
    t.rd R.SEC_SVC_CNT.SERVED = (if st = 0 then min (u.rd R.SEC_SVC_CNT.SERVED + 1) R.SEC_SVC_CNT.SERVED.max
      else u.rd R.SEC_SVC_CNT.SERVED) ∧
    t.rd R.SEC_SVC_CNT.REFUSED = (if st = 0 then u.rd R.SEC_SVC_CNT.REFUSED
      else min (u.rd R.SEC_SVC_CNT.REFUSED + 1) R.SEC_SVC_CNT.REFUSED.max) ∧
    t.mem = u.mem ∧ t.cores = u.cores ∧ t.sec = u.sec ∧ t.ring = u.ring ∧ t.trace = u.trace ∧ t.out = u.out
  let took (s : State) (svc a : Nat) : State := if svc = 4 then (popped s).tokenRead a else popped s
  let asks (svc stamp : Nat) : Prop :=
    if svc = 3 ∨ svc = 7 then stamp = 16
    else if svc = 4 ∨ svc = 5 ∨ svc = 6 then stamp = 16 ∨ (0x1000 ≤ stamp ∧ stamp < 0x2000)
    else if svc = 1 ∨ svc = 2 ∨ svc = 8 then stamp < 0x2000
    else stamp / 4096 ≠ 2
  let turns (i : Instr) (svc : Nat) : Prop :=
    ∀ (s : State) (stamp chan arg : Nat), s.awake = true → s.keeperUp = true →
      s.keeperHead = some (svc, stamp, chan, arg) →
      let u := took s svc arg
      (u.lifeCycle = .scrap ∨ ¬ asks svc stamp → ∃ t, exec i s = .next t ∧ said u t svc chan 1 none) ∧
      (u.lifeCycle ≠ .scrap → asks svc stamp → u.on R.SEC_STATUS.ST_FAIL = true → svc ≠ 8 →
        ∃ t, exec i s = .next t ∧ said u t svc chan 3 none)
  let serves (i : Instr) (svc : Nat) (p : State → Nat → Nat → Prop) (w : State → Nat → Nat → State) (st : Nat)
      (res : Option Nat) : Prop :=
    ∀ (s : State) (stamp chan arg : Nat), s.awake = true → s.keeperUp = true →
      s.keeperHead = some (svc, stamp, chan, arg) →
      let u := took s svc arg
      u.lifeCycle ≠ .scrap → asks svc stamp → (u.on R.SEC_STATUS.ST_FAIL = false ∨ svc = 8) → p u stamp arg →
      ∃ t, exec i s = .next t ∧ said (w u stamp arg) t svc chan st res
  let sleeps (i : Instr) (svc : Nat → Prop) : Prop := ∀ s : State, s.awake = true →
    (s.keeperUp = false ∨ s.keeperHead = none ∨ (∃ n x, s.keeperHead = some (n, x) ∧ ¬ svc n)) → exec i s = .next s
  let same (u : State) (_stamp _arg : Nat) : State := u
  let fits (a n : Nat) : Prop := 0x10000000 ≤ a ∧ a + n ≤ 0x10400000
  let block (u : State) (a n : Nat) : List Byte := (u.sramBytes a n).2
  let seen (u : State) (a n : Nat) : State := (u.sramBytes a n).1
  let list (u : State) (a : Nat) : State × List Byte := (seen u a 4).sramBytes (a + 4) (8 * le (block u a 4) 0 4)
  let pairs (u : State) (a : Nat) : List (Nat × Nat) :=
    (List.range (le (block u a 4) 0 4)).map fun i => (le (list u a).2 (8 * i) 4, le (list u a).2 (8 * i + 4) 4)
  let listed (u : State) (a : Nat) : Prop := fits a 4 ∧ fits (a + 4) (8 * le (block u a 4) 0 4)
  let good (u : State) (a kind : Nat) : Prop := u.certOk (block u a 216) = true ∧ be (block u a 216) 4 1 = kind
  (∀ i ∈ [(Instr.random, 1), (.derive, 2), (.ringKeys, 3), (.debugOpen, 5), (.otpProgram, 6), (.svnCommit, 7)],
    turns i.1 i.2) ∧ (∀ svc, svc = 0 ∨ 9 ≤ svc → turns .keeperBadService svc) ∧ (∀ b, turns (.lcRequest b) 4) ∧ (∀ b, turns (.selftest b) 8) ∧
  (∀ b, sleeps .random (· = 1) ∧ sleeps .derive (· = 2) ∧ sleeps .ringKeys (· = 3) ∧ sleeps (.lcRequest b) (· = 4) ∧
    sleeps .debugOpen (· = 5) ∧ sleeps .otpProgram (· = 6) ∧ sleeps .svnCommit (· = 7)) ∧
  (∀ n, sleeps (.selftest n) (· = 8)) ∧ sleeps .keeperBadService (fun n => n = 0 ∨ 9 ≤ n) ∧
  (serves .random 1 (fun u _ a => u.on R.SEC_STATUS.RBG_FAIL = false ∧ a % 64 = 0 ∧ fits a 64)
      (fun u _ a => ({ u with sec := { u.sec with blocks := u.sec.blocks + 1 } } : State).sramPut a
        ((List.range 64).map (Config.drbg u.sec.blocks))) 0 none ∧
    serves .random 1 (fun u _ a => u.on R.SEC_STATUS.RBG_FAIL = false ∧ ¬ (a % 64 = 0 ∧ fits a 64)) same 2 none ∧
    serves .random 1 (fun u _ _ => u.on R.SEC_STATUS.RBG_FAIL = true) same 3 none) ∧
  (serves .derive 2 (fun u _ a => u.lifeCycle ≠ .back ∧ fits a 64)
      (fun u stamp a => (u.sramBytes a 64).1.sramPut a (kdf (u.otpBytes 0x8D 8) (ascii "APP" ++ (block u a 64).take 32)
        (beBytes 2 stamp ++ (block u a 64).drop 32))) 0 none ∧
    serves .derive 2 (fun u _ a => u.lifeCycle ≠ .back ∧ ¬ fits a 64) same 2 none ∧
    serves .derive 2 (fun u _ _ => u.lifeCycle = .back) same 1 none) ∧
  (serves .ringKeys 3 (fun u _ e => u.lifeCycle ≠ .back ∧ 1 ≤ e ∧ e ≤ 65535 ∧ ∃ k, k < 8 ∧ u.otp (0x95 + k) ≠ 0)
      (fun u _ e => { u with ring := { u.ring with
        keys := (if e = 65535 then [e] else [e, e + 1]).map fun x => (x, (kdf (u.otpBytes 0x95 8) (ascii "NOBASIN-RING") (beBytes 2 x)).take 16) } }) 0 none ∧
    serves .ringKeys 3 (fun u _ e => u.lifeCycle ≠ .back ∧ 1 ≤ e ∧ e ≤ 65535 ∧ ∀ k, k < 8 → u.otp (0x95 + k) = 0) same 3 none ∧
    serves .ringKeys 3 (fun u _ e => u.lifeCycle ≠ .back ∧ (e = 0 ∨ 65535 < e)) same 2 none ∧
    serves .ringKeys 3 (fun u _ _ => u.lifeCycle = .back) same 1 none) ∧
  (serves .debugOpen 5 (fun u _ a => u.lifeCycle ≠ .test ∧ u.on R.SEC_STATUS.RBG_FAIL = false ∧ fits a 216 ∧ good u a 1)
      (fun u _ a => (((((seen u a 216).wr R.SEC_STATUS.DBG_OPEN 1).wr R.SEC_STATUS.PERMS ((seen u a 216).rd R.SEC_STATUS.PERMS |||
        be (block u a 216) 6 2 % 4)).raise
        R.keeper_INT.DBG_OPEN).newNonce)) 0 none ∧
    serves .debugOpen 5 (fun u _ a => u.lifeCycle ≠ .test ∧ u.on R.SEC_STATUS.RBG_FAIL = false ∧ fits a 216 ∧
      ¬ good u a 1) (fun u _ a => seen u a 216) 3 none ∧
    serves .debugOpen 5 (fun u _ a => u.lifeCycle ≠ .test ∧ u.on R.SEC_STATUS.RBG_FAIL = false ∧ ¬ fits a 216) same 2 none ∧
    serves .debugOpen 5 (fun u _ _ => u.lifeCycle ≠ .test ∧ u.on R.SEC_STATUS.RBG_FAIL = true) same 3 none ∧
    serves .debugOpen 5 (fun u _ _ => u.lifeCycle = .test) same 1 none) ∧
  (serves .otpProgram 6 (fun u _ a => listed u a ∧ ∀ p ∈ pairs u a, otpAllowed u.lifeCycle p.1 = true)
      (fun u _ a => (pairs u a).foldl (fun (t : State) p => { t with sec := { t.sec with
        otp := t.sec.otp.set 0 p.1 (BitVec.ofNat 32 (t.otp p.1 ||| p.2)) } }) (list u a).1) 0 none ∧
    serves .otpProgram 6 (fun u _ a => listed u a ∧ ∃ p ∈ pairs u a, otpAllowed u.lifeCycle p.1 = false)
      (fun u _ a => (list u a).1) 1 none ∧
    serves .otpProgram 6 (fun _ _ a => ¬ fits a 4) same 2 none ∧
    serves .otpProgram 6 (fun u _ a => fits a 4 ∧ ¬ fits (a + 4) (8 * le (block u a 4) 0 4)) (fun u _ a => seen u a 4) 2 none) ∧
  (serves .svnCommit 7 (fun u _ n => u.rollback < n ∧ n ≤ 64 ∧ n ≤ u.rd R.SEC_STATUS.SVN)
      (fun u _ n => (u.otpOr 6 ((2 ^ n - 1) % 2 ^ 32)).otpOr 7 ((2 ^ n - 1) / 2 ^ 32)) 0 none ∧
    serves .svnCommit 7 (fun u _ n => n ≤ u.rollback ∧ n ≤ 64 ∧ n ≤ u.rd R.SEC_STATUS.SVN) same 0 none ∧
    serves .svnCommit 7 (fun u _ n => u.rd R.SEC_STATUS.SVN < n) same 1 none ∧
    serves .svnCommit 7 (fun u _ n => 64 < n ∧ n ≤ u.rd R.SEC_STATUS.SVN) same 2 none) ∧
  (∀ b, (b % 32 = 0 → serves (.selftest b) 8 (fun _ _ _ => True) same 0 (some 0)) ∧
    (b % 32 ≠ 0 → serves (.selftest b) 8 (fun _ _ _ => True)
      (fun u _ _ => ((u.wr R.SEC_STATUS.ST_FAIL 1).raise R.keeper_INT.ST_FAIL).alarm 3 2 0 (b % 32)) 3 (some (b % 32)))) ∧
  (∀ svc, svc = 0 ∨ 9 ≤ svc → serves .keeperBadService svc (fun _ _ _ => True) same 2 none) ∧
  (∀ b, serves (.lcRequest b) 4 (fun u _ a => (u.lifeCycle = .test ∧ a ≠ 1 ∧ a ≠ 4) ∨
    (u.lifeCycle = .provision ∧ a ≠ 2 ∧ a ≠ 4) ∨ (u.lifeCycle = .back ∧ a ≠ 4) ∨
    (u.lifeCycle = .test ∧ a = 1 ∧ u.on R.SEC_STATUS.RBG_FAIL = false ∧ (u.otpSet 0 2 = false ∨ u.otpSet 0x48 12 = false)) ∨
    (u.lifeCycle = .provision ∧ a = 2 ∧ (u.otpSet 0x54 12 = false ∨ ((u.otp 5).testBit 5 = true ∧ u.otpSet 0x85 8 = false))) ∨
    (u.lifeCycle = .field ∧ (¬ fits a 216 ∨ (¬ good u a 2 ∧ ¬ good u a 3)))) same 1 none ∧
    serves (.lcRequest b) 4 (fun u _ a => u.lifeCycle = .test ∧ a = 1 ∧ u.on R.SEC_STATUS.RBG_FAIL = true) same 3 none) ∧
  (∀ (s : State) (stamp chan a : Nat) (b : Board), s.awake = true → s.keeperUp = true →
    s.keeperHead = some (4, stamp, chan, a) → asks 4 stamp →
    let u := took s 4 a
    let goes (u : State) (v : Nat) : Prop := exec (.lcRequest b) s = .next ((u.otpOr 2 v).resetNow 3 b)
    u.on R.SEC_STATUS.ST_FAIL = false →
    (u.lifeCycle = .test → a = 1 → u.on R.SEC_STATUS.RBG_FAIL = false → u.otpSet 0 2 = true → u.otpSet 0x48 12 = true →
      goes (({ u with sec := { u.sec with blocks := u.sec.blocks + 1 } } : State).otpPut 0x8D
        ((List.range 32).map (Config.drbg u.sec.blocks))) 0xFF) ∧
    (u.lifeCycle = .provision → a = 2 → u.otpSet 0x54 12 = true →
      ((u.otp 5).testBit 5 = true → u.otpSet 0x85 8 = true) → goes u 0xFF00) ∧
    (u.lifeCycle = .test ∨ u.lifeCycle = .provision ∨ u.lifeCycle = .back → a = 4 → goes u 0xFF000000) ∧
    (u.lifeCycle = .field → fits a 216 → (good u a 3 → goes u 0xFF0000) ∧ (good u a 2 → goes u 0xFF000000))) ∧
  (∀ (s : State) (who : Initiator) (v : Word), s.takes who R.SEC_HOST_IMG.ADDR = true →
    (s.sec.waitHost = false → ∃ t, exec (.secHostImg who v) s = .next t ∧ t.answer = ⟨0, false⟩ ∧
      t.rd R.SEC_HOST_IMG.ADDR = v.toNat / 4 ∧ (∀ a, a ≠ R.SEC_HOST_IMG.ADDR.addr 0 0 → t.reg a = s.reg a) ∧
      { t with regs := s.regs, answer := s.answer } = s) ∧
    (s.sec.waitHost = true → ∃ u t : State, exec (.secHostImg who v) s = .next { t with answer := ⟨0, false⟩ } ∧
      u.rd R.SEC_HOST_IMG.ADDR = v.toNat / 4 ∧ (∀ a, a ≠ R.SEC_HOST_IMG.ADDR.addr 0 0 → u.reg a = s.reg a) ∧
      { u with regs := s.regs } = s ∧
      let w := u.selfTestsEnd
      let a := v.toNat / 4 * 4
      let r := if 0x10040000 ≤ a ∧ a < 0x10060000 then w.sramBytes a (0x10060000 - a) else (w, [])
      let i := parseImage r.2
      (r.1.imageError i = 0 → t = (r.1.wr R.SEC_BOOT_ERR.SLOT_B 0).runImage i) ∧
      (r.1.imageError i ≠ 0 → t =
        ((r.1.wr R.SEC_BOOT_ERR.SLOT_B (r.1.imageError i)).raise R.keeper_INT.BOOT_FAIL).wipeSections i))) ∧
  (∀ s : State, s.awake = true → ∃ t, exec .rbgHealthFail s = .next t ∧
    t.on R.SEC_STATUS.RBG_FAIL = true ∧ t.on R.keeper_INT.RBG_FAIL = true ∧
    t.rd R.TRC_ALARMS.COUNT = (if s.on R.TRC_CTRL.EN then min (s.rd R.TRC_ALARMS.COUNT + 1) R.TRC_ALARMS.COUNT.max
      else s.rd R.TRC_ALARMS.COUNT) ∧
    (s.on R.TRC_CTRL.EN = false → t.trace = s.trace) ∧
    t.mem = s.mem ∧ t.sec = s.sec ∧ t.cores = s.cores)

/-- The end of a window, WINDOW milliseconds after T_FIRST, frees the entry of its key alone, with a CLOSE
record of the occurrences that followed the OPEN record, or keeps it while the queue is full; before it nothing
closes; the overflow entry closes in the same way. After drops, and with the fill below 96 or a count at its
end, one GAP record carries the counts and clears them, and one the records lost of each source unit. The oldest
record goes to the buffer at PUT when PUT + 1 is not GET, and else FULL is raised and the record stays. A commit
queues the staged words under the committer's stamp and clears them, or is counted as a drop when the fill has
reached its class's limit; of a disabled class it has no effect, and of a closed DEBUG class, or by a ring unit,
it is an error. PAGE, CODE and AUX of a GAP record are the model's choice (log 41). (spec/19 R612, spec/19 R614,
spec/19 R615, spec/19 R617, spec/19 R619, spec/19 R620, spec/19 R622) -/
def Obligations.TraceWindowsGapsAndBuffer : Prop :=
  let clears (s t : State) (stamp : Nat) : Prop :=
    (∀ k, k < 4 → t.trace.staged.get 0 (4 * stamp + k) = 0) ∧
    (∀ x, x / 4 ≠ stamp → t.trace.staged.get 0 x = s.trace.staged.get 0 x)
  let only (s t : State) : Prop := { t with trace := s.trace } = s
  (∀ (s : State) (e : AlarmEntry) (a b : List AlarmEntry), s.awake = true → s.trace.entries = a ++ e :: b →
    s.trace.overflow = none → e.openOut = true → e.closing = false → e.gap = false →
    (∀ x ∈ a ++ b, x.openOut = true ∧ x.closing = false ∧
      (x.unit, x.page, x.code, x.aux) ≠ (e.unit, e.page, e.code, e.aux)) →
    let i : Instr := .alarmWindowClose e.unit e.page e.code e.aux
    let elapsed := max 1 (s.rd R.TRC_CTRL.WINDOW) * 1000 ≤
      ((s.stamp.sec * 1000000000 + s.stamp.ns) - (e.first.sec * 1000000000 + e.first.ns)) / 1000
    (¬ elapsed → exec i s = .next s) ∧
    (elapsed → (e.count = e.placed → ∃ t, exec i s = .next t ∧ t.trace.entries = a ++ b ∧ t.trace.queue = s.trace.queue ∧ only s t) ∧
    (e.count ≠ e.placed → s.trace.queue.length < 256 → ∃ t r, exec i s = .next t ∧ t.trace.entries = a ++ b ∧
      t.trace.queue = s.trace.queue ++ [r] ∧ r.cls = .alarm ∧ r.kind = 1 ∧ r.close = true ∧ r.count = e.count - e.placed ∧
      r.unit = e.unit ∧ r.page = e.page ∧ r.code = e.code ∧ r.aux = e.aux ∧ r.first = e.first ∧ r.data = e.data ∧
      r.delta = ((e.last.sec * 1000000000 + e.last.ns) - (e.first.sec * 1000000000 + e.first.ns)) / 1000 ∧ only s t) ∧
    (e.count ≠ e.placed → 256 ≤ s.trace.queue.length → ∃ t, exec i s = .next t ∧
      t.trace.entries = a ++ { e with closing := true } :: b ∧ t.trace.queue = s.trace.queue ∧ only s t))) ∧
  (∀ (s : State) (e : AlarmEntry), s.awake = true → s.trace.entries = [] → s.trace.overflow = some e → e.openOut = true →
    e.closing = false → e.gap = false → s.windowOver e = true →
    let i : Instr := .alarmWindowClose e.unit e.page e.code e.aux
    (e.count = e.placed → ∃ t, exec i s = .next t ∧ t.trace.overflow = none ∧ t.trace.queue = s.trace.queue ∧ only s t) ∧
    (e.count ≠ e.placed → s.trace.queue.length < 256 → ∃ t r, exec i s = .next t ∧ t.trace.overflow = none ∧
      t.trace.queue = s.trace.queue ++ [r] ∧ r.close = true ∧ r.count = e.count - e.placed ∧ only s t)) ∧
  (∀ s : State, s.awake = true → s.trace.lost = [] →
    let t0 := s.trace
    let n := max t0.dropEvent (max t0.dropTrace t0.dropDebug)
    (n = 0 → exec .gap s = .next s) ∧
    (n ≠ 0 → t0.queue.length < 96 ∨ (n = 65535 ∧ t0.queue.length < 256) → ∃ t r, exec .gap s = .next t ∧ t.trace.queue = t0.queue ++ [r] ∧ r.cls = .alarm ∧
      r.kind = 2 ∧ r.unit = s.ring.addr ∧ r.first = t0.dropFirst ∧
      r.data = t0.dropEvent + t0.dropTrace * 2 ^ 16 + t0.dropDebug * 2 ^ 32 ∧
      r.delta = microsBetween t0.dropFirst t0.dropLast ∧
      t.trace.dropEvent = 0 ∧ t.trace.dropTrace = 0 ∧ t.trace.dropDebug = 0 ∧
      t.trace.entries = t0.entries ∧ only s t) ∧
    (96 ≤ t0.queue.length → n ≠ 65535 ∨ 256 ≤ t0.queue.length → exec .gap s = .next s)) ∧
  (∀ (s : State) (u : Nat) (c : LostCount), s.awake = true → s.trace.lost = [(u, c)] →
    s.trace.dropEvent = 0 → s.trace.dropTrace = 0 → s.trace.dropDebug = 0 →
    let t0 := s.trace
    (c.n ≠ 0 → t0.queue.length < 96 ∨ (c.n = 65535 ∧ t0.queue.length < 256) → ∃ t r, exec .gap s = .next t ∧
      t.trace.queue = t0.queue ++ [r] ∧ r.cls = .alarm ∧ r.kind = 2 ∧ r.unit = u ∧ r.first = c.first ∧
      r.delta = microsBetween c.first c.last ∧ r.data = c.n * 2 ^ 48 ∧ t.trace.lost = [] ∧ only s t) ∧
    (c.n = 0 ∨ (96 ≤ t0.queue.length ∧ (c.n ≠ 65535 ∨ 256 ≤ t0.queue.length)) → exec .gap s = .next s)) ∧
  (∀ s : State, s.awake = true → s.trace.queue = [] → exec .traceBufferWrite s = .next s) ∧
  (∀ (s : State) (r : TraceRec) (q : List TraceRec), s.awake = true → s.trace.queue = r :: q →
    let n := s.rd R.TRC_BUF_SIZE.SIZE
    let put := s.rd R.TRC_BUF_PUT.INDEX
    let a := s.rd R.TRC_BUF_BASE.BASE * 32 + 32 * put
    (s.on R.TRC_CTRL.EN = false ∨ s.on R.TRC_CTRL.BUF_EN = false ∨ n < 16 ∨ 262144 < n →
      exec .traceBufferWrite s = .next s) ∧
    (s.on R.TRC_CTRL.EN = true → s.on R.TRC_CTRL.BUF_EN = true → 16 ≤ n → n ≤ 262144 →
      ((put + 1) % n = s.rd R.TRC_BUF_GET.INDEX → ∃ t, exec .traceBufferWrite s = .next t ∧
        t.on R.trace_INT.FULL = true ∧ t.trace = s.trace ∧ t.mem = s.mem ∧ t.rd R.TRC_BUF_PUT.INDEX = put) ∧
      ((put + 1) % n ≠ s.rd R.TRC_BUF_GET.INDEX →
        ∃ t l, exec .traceBufferWrite s = .next t ∧ t.trace.queue = q ++ l ∧ t.rd R.TRC_BUF_PUT.INDEX = (put + 1) % n ∧
          (0x10000000 ≤ a → a + 32 ≤ 0x10400000 →
            (s.trace.entries = [] → s.trace.overflow = none → l = []) ∧
            (∀ k, k < 32 → t.mem.bytes.get 0 (a + k) = (r.bytes[k]?).getD 0) ∧
            (∀ x, x < a ∨ a + 32 ≤ x → t.mem.bytes.get 0 x = s.mem.bytes.get 0 x)) ∧
          t.on R.trace_INT.ALARM = (s.on R.trace_INT.ALARM || r.kind == 1) ∧
          t.on R.trace_INT.GAP = (s.on R.trace_INT.GAP || r.kind == 2)))) ∧
  (∀ (s : State) (who : Initiator) (cls : Nat), s.takes who R.TRC_SW_COMMIT.CLASS = true → cls < 4 →
    let st := stampOf who
    let i : Instr := .trcSwCommit who cls
    let word (k : Nat) : Nat := (s.trace.staged.get 0 (4 * st + k)).toNat
    (0x2000 ≤ st ∨ (cls = 3 ∧ s.traceDebugOpen = false) → ∃ t, exec i s = .next t ∧ t.answer = ⟨0, true⟩ ∧
      t.trace = s.trace ∧ t.mem = s.mem) ∧
    (st < 0x2000 → (cls = 3 → s.traceDebugOpen = true) →
      (s.on R.TRC_CTRL.EN = false → ∃ t, exec i s = .next t ∧ t.answer = ⟨0, false⟩ ∧ clears s t st ∧
        t.trace.queue = s.trace.queue ∧ t.trace.entries = s.trace.entries) ∧
      (s.on R.TRC_CTRL.EN = true →
        (∀ (f d : Fld) (lim : Nat), (cls = 1 ∧ f = R.TRC_CLASS_EN.EVENT ∧ d = R.TRC_DROP_A.HI ∧ lim = 224) ∨
            (cls = 2 ∧ f = R.TRC_CLASS_EN.TRACE ∧ d = R.TRC_DROP_A.LO ∧ lim = 160) ∨
            (cls = 3 ∧ f = R.TRC_CLASS_EN.DEBUG ∧ d = R.TRC_DROP_B.HI ∧ lim = 96) →
          (s.on f = true → lim ≤ s.trace.queue.length → ∃ t, exec i s = .next t ∧ t.answer = ⟨0, false⟩ ∧ clears s t st ∧
            t.trace.queue = s.trace.queue ∧ t.rd d = min (s.rd d + 1) d.max) ∧
          (s.on f = false → ∃ t, exec i s = .next t ∧ t.answer = ⟨0, false⟩ ∧ { t with answer := s.answer } = s) ∧
          (s.on f = true → s.trace.queue.length < lim → ∃ t r, exec i s = .next t ∧ t.answer = ⟨0, false⟩ ∧
            t.trace.queue = s.trace.queue ++ [r] ∧ r.cls.code = cls ∧ r.kind = 0 ∧ r.page = 0x3FF ∧ r.code = st / 4096 ∧
            r.aux = st % 2048 ∧ r.unit = s.ring.addr ∧ r.first = s.stamp ∧
            r.data = word 0 + word 1 * 2 ^ 32 + word 2 * 2 ^ 64 + word 3 * 2 ^ 96 ∧ clears s t st)) ∧
        (cls = 0 → ∃ t, exec i s = .next t ∧ t.answer = ⟨0, false⟩ ∧ clears s t st ∧
          t.rd R.TRC_ALARMS.COUNT = min (s.rd R.TRC_ALARMS.COUNT + 1) R.TRC_ALARMS.COUNT.max ∧
          ((∀ e ∈ s.trace.entries, (e.page, e.code, e.aux) ≠ (0x3FF, st / 4096, st % 2048)) → s.trace.entries.length < 64 →
            ∃ e ∈ t.trace.entries, e.unit = s.ring.addr ∧ e.page = 0x3FF ∧ e.code = st / 4096 ∧ e.aux = st % 2048 ∧
              e.count = 1 ∧ e.first = s.stamp ∧ e.data = word 0 + word 1 * 2 ^ 32))))) ∧
  (∀ (s : State) (who : Initiator) (k : Nat) (v : Word), s.takes who R.TRC_SW_DATAk.DATA 0 k = true → k < 4 →
    0x2000 ≤ stampOf who → ∃ t, exec (.registerWrite who (R.TRC_SW_DATAk.DATA.addr 0 k) v) s = .next t ∧
      t.answer = ⟨0, true⟩ ∧ t.trace = s.trace) ∧
  (∀ (s : State) (who : Initiator) (k : Nat) (v : Word), s.takes who R.TRC_SW_DATAk.DATA 0 k = true → k < 4 →
    stampOf who < 0x2000 → ∃ t, exec (.registerWrite who (R.TRC_SW_DATAk.DATA.addr 0 k) v) s = .next t ∧
      t.answer = ⟨0, false⟩ ∧ t.trace.staged.get 0 (4 * stampOf who + k) = v ∧
      (∀ x, x ≠ 4 * stampOf who + k → t.trace.staged.get 0 x = s.trace.staged.get 0 x))

/-- From every state whose memories list rising addresses and no byte that reads as an unlisted one, and whose
register store lists rising addresses and no register at its reset value, every step, whatever command it takes,
leads to such a state. Equal contents are therefore equal data. (spec/01 R5, spec/20 R626) -/
def Obligations.EveryStepKeepsTheCanonicalForm : Prop :=
  ∀ s t : State, s.mem.wf = true → regsWf s.regs = true → step s = .next t → t.mem.wf = true ∧ regsWf t.regs = true

/-- Whatever command a step takes, resets and power-on among them, every bit of the OTP that reads 1 still reads
1 after it. The life-cycle state, which is the highest of the LC bytes with at least five bits set, therefore
never goes back: its code after the step is at least its code before, and a device in SCRAP stays there.
(spec/18 R596, spec/18 R597, spec/18 R598) -/
def Obligations.OtpBitsNeverReturnToZero : Prop :=
  (∀ (s t : State) (w i : Nat), step s = .next t → (s.sec.otp.get 0 w).getLsbD i = true →
    (t.sec.otp.get 0 w).getLsbD i = true) ∧
  (∀ s t : State, step s = .next t → s.lifeCycle.code ≤ t.lifeCycle.code ∧
    (s.lifeCycle = .scrap → t.lifeCycle = .scrap))
end

