-- ==== Sys2Proof/Laws/Bits.lean ====
section
/-! SUPPORT. Laws of bit fields: what a field reads after a field is put. -/

namespace Sys2Proof.Machine

theorem testBit_mul_pow (x n i : Nat) : (x * 2 ^ n).testBit i = (decide (n ≤ i) && x.testBit (i - n)) := by
  rw [← Nat.shiftLeft_eq, Nat.testBit_shiftLeft]

theorem bitsOf_testBit (v hi lo i : Nat) :
    (bitsOf v hi lo).testBit i = (decide (i < hi + 1 - lo) && v.testBit (lo + i)) := by
  simp [bitsOf, Nat.testBit_mod_two_pow, Nat.testBit_shiftRight]

theorem putBits_getLsbD (v : Word) (hi lo x i : Nat) (h : i < 32) :
    (putBits v hi lo x).getLsbD i =
      if lo ≤ i ∧ i < hi + 1 ∧ lo < hi + 1 then x.testBit (i - lo) else v.getLsbD i := by
  have e : (i - lo < hi + 1 - lo) ↔ (i < hi + 1 ∧ lo < hi + 1 ∧ lo ≤ i) ∨ (i < lo ∧ lo < hi + 1) := by omega
  simp only [putBits, BitVec.getLsbD_or, BitVec.getLsbD_and, BitVec.getLsbD_not, BitVec.getLsbD_ofNat, h,
    decide_true, Bool.true_and, testBit_mul_pow, Nat.testBit_two_pow_sub_one]
  by_cases h1 : lo ≤ i
  · by_cases h2 : i < hi + 1
    · have h3 : i - lo < hi + 1 - lo := by omega
      have h4 : lo < hi + 1 := by omega
      simp [h1, h2, h3, h4]
    · have h3 : ¬ i - lo < hi + 1 - lo := by omega
      simp [h1, h2, h3]
  · simp [h1]

/-- A field reads what was put into it. -/
theorem getBits_putBits_same (v : Word) (hi lo x : Nat) (h : hi < 32) (hl : lo ≤ hi) (hx : x < 2 ^ (hi + 1 - lo)) :
    getBits (putBits v hi lo x) hi lo = x := by
  apply Nat.eq_of_testBit_eq
  intro i
  rw [getBits, bitsOf_testBit]
  by_cases hi' : i < hi + 1 - lo
  · have h1 : lo + i < 32 := by omega
    have h2 : lo ≤ lo + i ∧ lo + i < hi + 1 ∧ lo < hi + 1 := by omega
    have := putBits_getLsbD v hi lo x (lo + i) h1
    rw [if_pos h2] at this
    simp only [BitVec.getLsbD] at this
    simp [hi', this]
  · have : x.testBit i = false := by
      apply Nat.testBit_lt_two_pow
      exact Nat.lt_of_lt_of_le hx (Nat.pow_le_pow_right (by decide) (by omega))
    simp [hi', this]

/-- A field does not change when another one is put. -/
theorem getBits_putBits_other (v : Word) (hi lo x hi' lo' : Nat) (h : hi' < 32) (hd : hi' < lo ∨ hi < lo') :
    getBits (putBits v hi lo x) hi' lo' = getBits v hi' lo' := by
  apply Nat.eq_of_testBit_eq
  intro i
  rw [getBits, getBits, bitsOf_testBit, bitsOf_testBit]
  by_cases hi' : i < hi' + 1 - lo'
  · have h1 : lo' + i < 32 := by omega
    have h2 : ¬ (lo ≤ lo' + i ∧ lo' + i < hi + 1 ∧ lo < hi + 1) := by omega
    have := putBits_getLsbD v hi lo x (lo' + i) h1
    rw [if_neg h2] at this
    simp only [BitVec.getLsbD] at this
    simp [hi', this]
  · simp [hi']

end Sys2Proof.Machine
end

