-- ==== Sys2Proof/Laws/Sparse.lean ====
section
/-! SUPPORT. Laws of sparse tables: a read after a write, and that every write keeps the canonical form. -/

namespace Sys2Proof.Machine

variable {α : Type}

theorem SMap.get_erase (d : α) (m : SMap α) (k j : Nat) :
    SMap.get d (SMap.erase k m) j = if j = k then d else SMap.get d m j := by
  induction m with
  | nil => simp [SMap.erase, SMap.get]
  | cons e t ih =>
    obtain ⟨i, w⟩ := e
    by_cases h : i = k
    · subst h
      simp only [SMap.erase, if_true, ih, SMap.get]
      by_cases hj : j = i <;> simp [hj, eq_comm]
    · simp only [SMap.erase, h, if_false, SMap.get, ih]
      by_cases hj : i = j
      · subst hj; simp [h]
      · simp [hj]

theorem SMap.get_insert (d v : α) (m : SMap α) (k j : Nat) (h : ∀ e ∈ m, e.1 ≠ k) :
    SMap.get d (SMap.insert k v m) j = if j = k then v else SMap.get d m j := by
  induction m with
  | nil => simp [SMap.insert, SMap.get, eq_comm]
  | cons e t ih =>
    obtain ⟨i, w⟩ := e
    have hi : i ≠ k := h (i, w) (by simp)
    have ht : ∀ e ∈ t, e.1 ≠ k := fun e he => h e (by simp [he])
    unfold SMap.insert
    split
    · simp only [SMap.get]
      by_cases hj : k = j
      · subst hj; simp
      · simp [hj, Ne.symm hj]
    · simp only [SMap.get, ih ht]
      by_cases hj : i = j
      · subst hj; simp [hi]
      · simp [hj]

theorem SMap.erase_no_key (m : SMap α) (k : Nat) : ∀ e ∈ SMap.erase k m, e.1 ≠ k := by
  induction m with
  | nil => simp [SMap.erase]
  | cons e t ih =>
    obtain ⟨i, w⟩ := e
    unfold SMap.erase
    split
    · exact ih
    · rename_i h
      intro e he
      rcases List.mem_cons.mp he with rfl | he
      · exact h
      · exact ih e he

/-- What a table reads after a write. -/
theorem SMap.get_set [DecidableEq α] (d : α) (m : SMap α) (k j : Nat) (v : α) :
    SMap.get d (SMap.set d m k v) j = if j = k then v else SMap.get d m j := by
  unfold SMap.set
  split
  · rename_i h; subst h; exact SMap.get_erase v m k j
  · rw [SMap.get_insert d v _ k j (SMap.erase_no_key m k), SMap.get_erase]
    by_cases hj : j = k <;> simp [hj]

@[simp] theorem SMap.get_set_same [DecidableEq α] (d : α) (m : SMap α) (k : Nat) (v : α) :
    SMap.get d (SMap.set d m k v) k = v := by simp [SMap.get_set]

theorem SMap.get_set_other [DecidableEq α] (d : α) (m : SMap α) (k j : Nat) (v : α) (h : j ≠ k) :
    SMap.get d (SMap.set d m k v) j = SMap.get d m j := by simp [SMap.get_set, h]

/-- A write with the key's own default leaves what another key reads, whatever its default. -/
theorem SMap.get_set_default [DecidableEq α] (d e : α) (m : SMap α) (k j : Nat) (v : α) (h : j ≠ k) :
    SMap.get d (SMap.set e m k v) j = SMap.get d m j := by
  unfold SMap.set
  split
  · rw [SMap.get_erase, if_neg h]
  · rw [SMap.get_insert d v _ k j (SMap.erase_no_key m k), if_neg h, SMap.get_erase, if_neg h]

/-- A key is above a bound that may be absent. -/
def SMap.aboveOpt (lo : Option Nat) (k : Nat) : Prop := ∀ l, lo = some l → l < k

theorem SMap.wfFrom_cons [DecidableEq α] (d : Nat → α) (lo : Option Nat) (k : Nat) (v : α) (t : SMap α) :
    SMap.wfFrom d lo ((k, v) :: t) = true ↔ SMap.aboveOpt lo k ∧ v ≠ d k ∧ SMap.wfFrom d (some k) t = true := by
  cases lo <;> simp [SMap.wfFrom, SMap.aboveOpt, and_assoc]

theorem SMap.wfFrom_weaken [DecidableEq α] (d : Nat → α) (k : Nat) (lo : Option Nat) (t : SMap α)
    (hk : SMap.aboveOpt lo k) (h : SMap.wfFrom d (some k) t = true) : SMap.wfFrom d lo t = true := by
  cases t with
  | nil => rfl
  | cons e t =>
    obtain ⟨i, w⟩ := e
    rw [SMap.wfFrom_cons] at h ⊢
    refine ⟨fun l hl => Nat.lt_trans (hk l hl) (h.1 k rfl), h.2⟩

theorem SMap.wfFrom_erase [DecidableEq α] (d : Nat → α) (m : SMap α) (k : Nat) :
    ∀ lo, SMap.wfFrom d lo m = true → SMap.wfFrom d lo (SMap.erase k m) = true := by
  induction m with
  | nil => intro lo h; exact h
  | cons e t ih =>
    obtain ⟨i, w⟩ := e
    intro lo h
    rw [SMap.wfFrom_cons] at h
    unfold SMap.erase
    split
    · exact ih lo (SMap.wfFrom_weaken d i lo t h.1 h.2.2)
    · rw [SMap.wfFrom_cons]; exact ⟨h.1, h.2.1, ih _ h.2.2⟩

theorem SMap.wfFrom_insert [DecidableEq α] (d : Nat → α) (m : SMap α) (k : Nat) (v : α) (hv : v ≠ d k)
    (hn : ∀ e ∈ m, e.1 ≠ k) :
    ∀ lo, SMap.aboveOpt lo k → SMap.wfFrom d lo m = true → SMap.wfFrom d lo (SMap.insert k v m) = true := by
  induction m with
  | nil => intro lo hk _; unfold SMap.insert; rw [SMap.wfFrom_cons]; exact ⟨hk, hv, rfl⟩
  | cons e t ih =>
    obtain ⟨i, w⟩ := e
    intro lo hk h
    rw [SMap.wfFrom_cons] at h
    have hi : i ≠ k := hn (i, w) (by simp)
    have ht : ∀ e ∈ t, e.1 ≠ k := fun e he => hn e (by simp [he])
    unfold SMap.insert
    split
    · rename_i hlt
      rw [SMap.wfFrom_cons, SMap.wfFrom_cons]
      exact ⟨hk, hv, fun l hl => by cases hl; exact hlt, h.2⟩
    · rename_i hge
      rw [SMap.wfFrom_cons]
      refine ⟨h.1, h.2.1, ih ht _ ?_ h.2.2⟩
      intro l hl; cases hl; omega

/-- A write keeps the canonical form. -/
theorem SMap.wf_set [DecidableEq α] (d : Nat → α) (m : SMap α) (k : Nat) (v : α) (h : SMap.wf d m = true) :
    SMap.wf d (SMap.set (d k) m k v) = true := by
  unfold SMap.set
  have he := SMap.wfFrom_erase d m k none h
  split
  · exact he
  · rename_i hv
    exact SMap.wfFrom_insert d _ k v hv (SMap.erase_no_key m k) none (by simp [SMap.aboveOpt]) he

theorem SMap.wf_erase [DecidableEq α] (d : Nat → α) (m : SMap α) (k : Nat) (h : SMap.wf d m = true) :
    SMap.wf d (SMap.erase k m) = true := SMap.wfFrom_erase d m k none h

end Sys2Proof.Machine
end

