-- ==== Sys2Proof/Laws/State.lean ====
section
/-! SUPPORT. Laws of the state: one lemma per field per update, and what registers, fields and cores read
after an update. -/

namespace Sys2Proof.Machine

/-! ### Fields that an update leaves alone -/

@[simp] theorem State.setReg_pt (s : State) (a : Nat) (v : Word) : (s.setReg a v).pt = s.pt := rfl
@[simp] theorem State.setReg_mem (s : State) (a : Nat) (v : Word) : (s.setReg a v).mem = s.mem := rfl
@[simp] theorem State.setReg_trace (s : State) (a : Nat) (v : Word) : (s.setReg a v).trace = s.trace := rfl
@[simp] theorem State.setReg_ic (s : State) (a : Nat) (v : Word) : (s.setReg a v).ic = s.ic := rfl
@[simp] theorem State.setReg_mbx (s : State) (a : Nat) (v : Word) : (s.setReg a v).mbx = s.mbx := rfl
@[simp] theorem State.setReg_pour (s : State) (a : Nat) (v : Word) : (s.setReg a v).pour = s.pour := rfl
@[simp] theorem State.setReg_time (s : State) (a : Nat) (v : Word) : (s.setReg a v).time = s.time := rfl
@[simp] theorem State.setReg_pe (s : State) (a : Nat) (v : Word) : (s.setReg a v).pe = s.pe := rfl
@[simp] theorem State.setReg_wake (s : State) (a : Nat) (v : Word) : (s.setReg a v).wake = s.wake := rfl
@[simp] theorem State.setReg_can (s : State) (a : Nat) (v : Word) : (s.setReg a v).can = s.can := rfl
@[simp] theorem State.setReg_eth (s : State) (a : Nat) (v : Word) : (s.setReg a v).eth = s.eth := rfl
@[simp] theorem State.setReg_ring (s : State) (a : Nat) (v : Word) : (s.setReg a v).ring = s.ring := rfl
@[simp] theorem State.setReg_sec (s : State) (a : Nat) (v : Word) : (s.setReg a v).sec = s.sec := rfl
@[simp] theorem State.setReg_host (s : State) (a : Nat) (v : Word) : (s.setReg a v).host = s.host := rfl
@[simp] theorem State.setReg_power (s : State) (a : Nat) (v : Word) : (s.setReg a v).power = s.power := rfl
@[simp] theorem State.setReg_movers (s : State) (a : Nat) (v : Word) : (s.setReg a v).movers = s.movers := rfl
@[simp] theorem State.setReg_desc (s : State) (a : Nat) (v : Word) : (s.setReg a v).desc = s.desc := rfl
@[simp] theorem State.setReg_descs (s : State) (a : Nat) (v : Word) : (s.setReg a v).descs = s.descs := rfl
@[simp] theorem State.setReg_cores (s : State) (a : Nat) (v : Word) : (s.setReg a v).cores = s.cores := rfl
@[simp] theorem State.setReg_stores (s : State) (a : Nat) (v : Word) : (s.setReg a v).stores = s.stores := rfl
@[simp] theorem State.setReg_answer (s : State) (a : Nat) (v : Word) : (s.setReg a v).answer = s.answer := rfl
@[simp] theorem State.setReg_out (s : State) (a : Nat) (v : Word) : (s.setReg a v).out = s.out := rfl
@[simp] theorem State.setReg_tick (s : State) (a : Nat) (v : Word) : (s.setReg a v).tick = s.tick := rfl
@[simp] theorem State.setReg_fresh (s : State) (a : Nat) (v : Word) : (s.setReg a v).fresh = s.fresh := rfl
@[simp] theorem State.setReg_pending (s : State) (a : Nat) (v : Word) : (s.setReg a v).pending = s.pending := rfl

@[simp] theorem State.wr_pt (s : State) (f : Fld) (v i j : Nat) : (s.wr f v i j).pt = s.pt := rfl
@[simp] theorem State.wr_mem (s : State) (f : Fld) (v i j : Nat) : (s.wr f v i j).mem = s.mem := rfl
@[simp] theorem State.wr_trace (s : State) (f : Fld) (v i j : Nat) : (s.wr f v i j).trace = s.trace := rfl
@[simp] theorem State.wr_ic (s : State) (f : Fld) (v i j : Nat) : (s.wr f v i j).ic = s.ic := rfl
@[simp] theorem State.wr_mbx (s : State) (f : Fld) (v i j : Nat) : (s.wr f v i j).mbx = s.mbx := rfl
@[simp] theorem State.wr_pour (s : State) (f : Fld) (v i j : Nat) : (s.wr f v i j).pour = s.pour := rfl
@[simp] theorem State.wr_time (s : State) (f : Fld) (v i j : Nat) : (s.wr f v i j).time = s.time := rfl
@[simp] theorem State.wr_pe (s : State) (f : Fld) (v i j : Nat) : (s.wr f v i j).pe = s.pe := rfl
@[simp] theorem State.wr_wake (s : State) (f : Fld) (v i j : Nat) : (s.wr f v i j).wake = s.wake := rfl
@[simp] theorem State.wr_can (s : State) (f : Fld) (v i j : Nat) : (s.wr f v i j).can = s.can := rfl
@[simp] theorem State.wr_eth (s : State) (f : Fld) (v i j : Nat) : (s.wr f v i j).eth = s.eth := rfl
@[simp] theorem State.wr_ring (s : State) (f : Fld) (v i j : Nat) : (s.wr f v i j).ring = s.ring := rfl
@[simp] theorem State.wr_sec (s : State) (f : Fld) (v i j : Nat) : (s.wr f v i j).sec = s.sec := rfl
@[simp] theorem State.wr_host (s : State) (f : Fld) (v i j : Nat) : (s.wr f v i j).host = s.host := rfl
@[simp] theorem State.wr_power (s : State) (f : Fld) (v i j : Nat) : (s.wr f v i j).power = s.power := rfl
@[simp] theorem State.wr_movers (s : State) (f : Fld) (v i j : Nat) : (s.wr f v i j).movers = s.movers := rfl
@[simp] theorem State.wr_desc (s : State) (f : Fld) (v i j : Nat) : (s.wr f v i j).desc = s.desc := rfl
@[simp] theorem State.wr_descs (s : State) (f : Fld) (v i j : Nat) : (s.wr f v i j).descs = s.descs := rfl
@[simp] theorem State.wr_cores (s : State) (f : Fld) (v i j : Nat) : (s.wr f v i j).cores = s.cores := rfl
@[simp] theorem State.wr_stores (s : State) (f : Fld) (v i j : Nat) : (s.wr f v i j).stores = s.stores := rfl
@[simp] theorem State.wr_answer (s : State) (f : Fld) (v i j : Nat) : (s.wr f v i j).answer = s.answer := rfl
@[simp] theorem State.wr_out (s : State) (f : Fld) (v i j : Nat) : (s.wr f v i j).out = s.out := rfl
@[simp] theorem State.wr_tick (s : State) (f : Fld) (v i j : Nat) : (s.wr f v i j).tick = s.tick := rfl
@[simp] theorem State.wr_fresh (s : State) (f : Fld) (v i j : Nat) : (s.wr f v i j).fresh = s.fresh := rfl
@[simp] theorem State.wr_pending (s : State) (f : Fld) (v i j : Nat) : (s.wr f v i j).pending = s.pending := rfl

@[simp] theorem State.bumpBy_pt (s : State) (f : Fld) (n i j : Nat) : (s.bumpBy f n i j).pt = s.pt := rfl
@[simp] theorem State.bumpBy_mem (s : State) (f : Fld) (n i j : Nat) : (s.bumpBy f n i j).mem = s.mem := rfl
@[simp] theorem State.bumpBy_trace (s : State) (f : Fld) (n i j : Nat) : (s.bumpBy f n i j).trace = s.trace := rfl
@[simp] theorem State.bumpBy_ic (s : State) (f : Fld) (n i j : Nat) : (s.bumpBy f n i j).ic = s.ic := rfl
@[simp] theorem State.bumpBy_mbx (s : State) (f : Fld) (n i j : Nat) : (s.bumpBy f n i j).mbx = s.mbx := rfl
@[simp] theorem State.bumpBy_pour (s : State) (f : Fld) (n i j : Nat) : (s.bumpBy f n i j).pour = s.pour := rfl
@[simp] theorem State.bumpBy_time (s : State) (f : Fld) (n i j : Nat) : (s.bumpBy f n i j).time = s.time := rfl
@[simp] theorem State.bumpBy_pe (s : State) (f : Fld) (n i j : Nat) : (s.bumpBy f n i j).pe = s.pe := rfl
@[simp] theorem State.bumpBy_wake (s : State) (f : Fld) (n i j : Nat) : (s.bumpBy f n i j).wake = s.wake := rfl
@[simp] theorem State.bumpBy_can (s : State) (f : Fld) (n i j : Nat) : (s.bumpBy f n i j).can = s.can := rfl
@[simp] theorem State.bumpBy_eth (s : State) (f : Fld) (n i j : Nat) : (s.bumpBy f n i j).eth = s.eth := rfl
@[simp] theorem State.bumpBy_ring (s : State) (f : Fld) (n i j : Nat) : (s.bumpBy f n i j).ring = s.ring := rfl
@[simp] theorem State.bumpBy_sec (s : State) (f : Fld) (n i j : Nat) : (s.bumpBy f n i j).sec = s.sec := rfl
@[simp] theorem State.bumpBy_host (s : State) (f : Fld) (n i j : Nat) : (s.bumpBy f n i j).host = s.host := rfl
@[simp] theorem State.bumpBy_power (s : State) (f : Fld) (n i j : Nat) : (s.bumpBy f n i j).power = s.power := rfl
@[simp] theorem State.bumpBy_movers (s : State) (f : Fld) (n i j : Nat) : (s.bumpBy f n i j).movers = s.movers := rfl
@[simp] theorem State.bumpBy_desc (s : State) (f : Fld) (n i j : Nat) : (s.bumpBy f n i j).desc = s.desc := rfl
@[simp] theorem State.bumpBy_descs (s : State) (f : Fld) (n i j : Nat) : (s.bumpBy f n i j).descs = s.descs := rfl
@[simp] theorem State.bumpBy_cores (s : State) (f : Fld) (n i j : Nat) : (s.bumpBy f n i j).cores = s.cores := rfl
@[simp] theorem State.bumpBy_stores (s : State) (f : Fld) (n i j : Nat) : (s.bumpBy f n i j).stores = s.stores := rfl
@[simp] theorem State.bumpBy_answer (s : State) (f : Fld) (n i j : Nat) : (s.bumpBy f n i j).answer = s.answer := rfl
@[simp] theorem State.bumpBy_out (s : State) (f : Fld) (n i j : Nat) : (s.bumpBy f n i j).out = s.out := rfl
@[simp] theorem State.bumpBy_tick (s : State) (f : Fld) (n i j : Nat) : (s.bumpBy f n i j).tick = s.tick := rfl
@[simp] theorem State.bumpBy_fresh (s : State) (f : Fld) (n i j : Nat) : (s.bumpBy f n i j).fresh = s.fresh := rfl
@[simp] theorem State.bumpBy_pending (s : State) (f : Fld) (n i j : Nat) : (s.bumpBy f n i j).pending = s.pending := rfl

@[simp] theorem State.bump_pt (s : State) (f : Fld) (i j : Nat) : (s.bump f i j).pt = s.pt := rfl
@[simp] theorem State.bump_mem (s : State) (f : Fld) (i j : Nat) : (s.bump f i j).mem = s.mem := rfl
@[simp] theorem State.bump_trace (s : State) (f : Fld) (i j : Nat) : (s.bump f i j).trace = s.trace := rfl
@[simp] theorem State.bump_ic (s : State) (f : Fld) (i j : Nat) : (s.bump f i j).ic = s.ic := rfl
@[simp] theorem State.bump_mbx (s : State) (f : Fld) (i j : Nat) : (s.bump f i j).mbx = s.mbx := rfl
@[simp] theorem State.bump_pour (s : State) (f : Fld) (i j : Nat) : (s.bump f i j).pour = s.pour := rfl
@[simp] theorem State.bump_time (s : State) (f : Fld) (i j : Nat) : (s.bump f i j).time = s.time := rfl
@[simp] theorem State.bump_pe (s : State) (f : Fld) (i j : Nat) : (s.bump f i j).pe = s.pe := rfl
@[simp] theorem State.bump_wake (s : State) (f : Fld) (i j : Nat) : (s.bump f i j).wake = s.wake := rfl
@[simp] theorem State.bump_can (s : State) (f : Fld) (i j : Nat) : (s.bump f i j).can = s.can := rfl
@[simp] theorem State.bump_eth (s : State) (f : Fld) (i j : Nat) : (s.bump f i j).eth = s.eth := rfl
@[simp] theorem State.bump_ring (s : State) (f : Fld) (i j : Nat) : (s.bump f i j).ring = s.ring := rfl
@[simp] theorem State.bump_sec (s : State) (f : Fld) (i j : Nat) : (s.bump f i j).sec = s.sec := rfl
@[simp] theorem State.bump_host (s : State) (f : Fld) (i j : Nat) : (s.bump f i j).host = s.host := rfl
@[simp] theorem State.bump_power (s : State) (f : Fld) (i j : Nat) : (s.bump f i j).power = s.power := rfl
@[simp] theorem State.bump_movers (s : State) (f : Fld) (i j : Nat) : (s.bump f i j).movers = s.movers := rfl
@[simp] theorem State.bump_desc (s : State) (f : Fld) (i j : Nat) : (s.bump f i j).desc = s.desc := rfl
@[simp] theorem State.bump_descs (s : State) (f : Fld) (i j : Nat) : (s.bump f i j).descs = s.descs := rfl
@[simp] theorem State.bump_cores (s : State) (f : Fld) (i j : Nat) : (s.bump f i j).cores = s.cores := rfl
@[simp] theorem State.bump_stores (s : State) (f : Fld) (i j : Nat) : (s.bump f i j).stores = s.stores := rfl
@[simp] theorem State.bump_answer (s : State) (f : Fld) (i j : Nat) : (s.bump f i j).answer = s.answer := rfl
@[simp] theorem State.bump_out (s : State) (f : Fld) (i j : Nat) : (s.bump f i j).out = s.out := rfl
@[simp] theorem State.bump_tick (s : State) (f : Fld) (i j : Nat) : (s.bump f i j).tick = s.tick := rfl
@[simp] theorem State.bump_fresh (s : State) (f : Fld) (i j : Nat) : (s.bump f i j).fresh = s.fresh := rfl
@[simp] theorem State.bump_pending (s : State) (f : Fld) (i j : Nat) : (s.bump f i j).pending = s.pending := rfl

@[simp] theorem State.setCore_regs (s : State) (c : Nat) (k : CoreState) : (s.setCore c k).regs = s.regs := rfl
@[simp] theorem State.setCore_pt (s : State) (c : Nat) (k : CoreState) : (s.setCore c k).pt = s.pt := rfl
@[simp] theorem State.setCore_mem (s : State) (c : Nat) (k : CoreState) : (s.setCore c k).mem = s.mem := rfl
@[simp] theorem State.setCore_trace (s : State) (c : Nat) (k : CoreState) : (s.setCore c k).trace = s.trace := rfl
@[simp] theorem State.setCore_ic (s : State) (c : Nat) (k : CoreState) : (s.setCore c k).ic = s.ic := rfl
@[simp] theorem State.setCore_mbx (s : State) (c : Nat) (k : CoreState) : (s.setCore c k).mbx = s.mbx := rfl
@[simp] theorem State.setCore_pour (s : State) (c : Nat) (k : CoreState) : (s.setCore c k).pour = s.pour := rfl
@[simp] theorem State.setCore_time (s : State) (c : Nat) (k : CoreState) : (s.setCore c k).time = s.time := rfl
@[simp] theorem State.setCore_pe (s : State) (c : Nat) (k : CoreState) : (s.setCore c k).pe = s.pe := rfl
@[simp] theorem State.setCore_wake (s : State) (c : Nat) (k : CoreState) : (s.setCore c k).wake = s.wake := rfl
@[simp] theorem State.setCore_can (s : State) (c : Nat) (k : CoreState) : (s.setCore c k).can = s.can := rfl
@[simp] theorem State.setCore_eth (s : State) (c : Nat) (k : CoreState) : (s.setCore c k).eth = s.eth := rfl
@[simp] theorem State.setCore_ring (s : State) (c : Nat) (k : CoreState) : (s.setCore c k).ring = s.ring := rfl
@[simp] theorem State.setCore_sec (s : State) (c : Nat) (k : CoreState) : (s.setCore c k).sec = s.sec := rfl
@[simp] theorem State.setCore_host (s : State) (c : Nat) (k : CoreState) : (s.setCore c k).host = s.host := rfl
@[simp] theorem State.setCore_power (s : State) (c : Nat) (k : CoreState) : (s.setCore c k).power = s.power := rfl
@[simp] theorem State.setCore_movers (s : State) (c : Nat) (k : CoreState) : (s.setCore c k).movers = s.movers := rfl
@[simp] theorem State.setCore_desc (s : State) (c : Nat) (k : CoreState) : (s.setCore c k).desc = s.desc := rfl
@[simp] theorem State.setCore_descs (s : State) (c : Nat) (k : CoreState) : (s.setCore c k).descs = s.descs := rfl
@[simp] theorem State.setCore_stores (s : State) (c : Nat) (k : CoreState) : (s.setCore c k).stores = s.stores := rfl
@[simp] theorem State.setCore_answer (s : State) (c : Nat) (k : CoreState) : (s.setCore c k).answer = s.answer := rfl
@[simp] theorem State.setCore_out (s : State) (c : Nat) (k : CoreState) : (s.setCore c k).out = s.out := rfl
@[simp] theorem State.setCore_tick (s : State) (c : Nat) (k : CoreState) : (s.setCore c k).tick = s.tick := rfl
@[simp] theorem State.setCore_fresh (s : State) (c : Nat) (k : CoreState) : (s.setCore c k).fresh = s.fresh := rfl
@[simp] theorem State.setCore_pending (s : State) (c : Nat) (k : CoreState) : (s.setCore c k).pending = s.pending := rfl

@[simp] theorem State.updCore_regs (s : State) (c : Nat) (u : CoreState → CoreState) : (s.updCore c u).regs = s.regs := rfl
@[simp] theorem State.updCore_pt (s : State) (c : Nat) (u : CoreState → CoreState) : (s.updCore c u).pt = s.pt := rfl
@[simp] theorem State.updCore_mem (s : State) (c : Nat) (u : CoreState → CoreState) : (s.updCore c u).mem = s.mem := rfl
@[simp] theorem State.updCore_trace (s : State) (c : Nat) (u : CoreState → CoreState) : (s.updCore c u).trace = s.trace := rfl
@[simp] theorem State.updCore_ic (s : State) (c : Nat) (u : CoreState → CoreState) : (s.updCore c u).ic = s.ic := rfl
@[simp] theorem State.updCore_mbx (s : State) (c : Nat) (u : CoreState → CoreState) : (s.updCore c u).mbx = s.mbx := rfl
@[simp] theorem State.updCore_pour (s : State) (c : Nat) (u : CoreState → CoreState) : (s.updCore c u).pour = s.pour := rfl
@[simp] theorem State.updCore_time (s : State) (c : Nat) (u : CoreState → CoreState) : (s.updCore c u).time = s.time := rfl
@[simp] theorem State.updCore_pe (s : State) (c : Nat) (u : CoreState → CoreState) : (s.updCore c u).pe = s.pe := rfl
@[simp] theorem State.updCore_wake (s : State) (c : Nat) (u : CoreState → CoreState) : (s.updCore c u).wake = s.wake := rfl
@[simp] theorem State.updCore_can (s : State) (c : Nat) (u : CoreState → CoreState) : (s.updCore c u).can = s.can := rfl
@[simp] theorem State.updCore_eth (s : State) (c : Nat) (u : CoreState → CoreState) : (s.updCore c u).eth = s.eth := rfl
@[simp] theorem State.updCore_ring (s : State) (c : Nat) (u : CoreState → CoreState) : (s.updCore c u).ring = s.ring := rfl
@[simp] theorem State.updCore_sec (s : State) (c : Nat) (u : CoreState → CoreState) : (s.updCore c u).sec = s.sec := rfl
@[simp] theorem State.updCore_host (s : State) (c : Nat) (u : CoreState → CoreState) : (s.updCore c u).host = s.host := rfl
@[simp] theorem State.updCore_power (s : State) (c : Nat) (u : CoreState → CoreState) : (s.updCore c u).power = s.power := rfl
@[simp] theorem State.updCore_movers (s : State) (c : Nat) (u : CoreState → CoreState) : (s.updCore c u).movers = s.movers := rfl
@[simp] theorem State.updCore_desc (s : State) (c : Nat) (u : CoreState → CoreState) : (s.updCore c u).desc = s.desc := rfl
@[simp] theorem State.updCore_descs (s : State) (c : Nat) (u : CoreState → CoreState) : (s.updCore c u).descs = s.descs := rfl
@[simp] theorem State.updCore_stores (s : State) (c : Nat) (u : CoreState → CoreState) : (s.updCore c u).stores = s.stores := rfl
@[simp] theorem State.updCore_answer (s : State) (c : Nat) (u : CoreState → CoreState) : (s.updCore c u).answer = s.answer := rfl
@[simp] theorem State.updCore_out (s : State) (c : Nat) (u : CoreState → CoreState) : (s.updCore c u).out = s.out := rfl
@[simp] theorem State.updCore_tick (s : State) (c : Nat) (u : CoreState → CoreState) : (s.updCore c u).tick = s.tick := rfl
@[simp] theorem State.updCore_fresh (s : State) (c : Nat) (u : CoreState → CoreState) : (s.updCore c u).fresh = s.fresh := rfl
@[simp] theorem State.updCore_pending (s : State) (c : Nat) (u : CoreState → CoreState) : (s.updCore c u).pending = s.pending := rfl

@[simp] theorem State.retireTo_pt (s : State) (c : Nat) (p : Word) : (s.retireTo c p).pt = s.pt := rfl
@[simp] theorem State.retireTo_mem (s : State) (c : Nat) (p : Word) : (s.retireTo c p).mem = s.mem := rfl
@[simp] theorem State.retireTo_trace (s : State) (c : Nat) (p : Word) : (s.retireTo c p).trace = s.trace := rfl
@[simp] theorem State.retireTo_ic (s : State) (c : Nat) (p : Word) : (s.retireTo c p).ic = s.ic := rfl
@[simp] theorem State.retireTo_mbx (s : State) (c : Nat) (p : Word) : (s.retireTo c p).mbx = s.mbx := rfl
@[simp] theorem State.retireTo_pour (s : State) (c : Nat) (p : Word) : (s.retireTo c p).pour = s.pour := rfl
@[simp] theorem State.retireTo_time (s : State) (c : Nat) (p : Word) : (s.retireTo c p).time = s.time := rfl
@[simp] theorem State.retireTo_pe (s : State) (c : Nat) (p : Word) : (s.retireTo c p).pe = s.pe := rfl
@[simp] theorem State.retireTo_wake (s : State) (c : Nat) (p : Word) : (s.retireTo c p).wake = s.wake := rfl
@[simp] theorem State.retireTo_can (s : State) (c : Nat) (p : Word) : (s.retireTo c p).can = s.can := rfl
@[simp] theorem State.retireTo_eth (s : State) (c : Nat) (p : Word) : (s.retireTo c p).eth = s.eth := rfl
@[simp] theorem State.retireTo_ring (s : State) (c : Nat) (p : Word) : (s.retireTo c p).ring = s.ring := rfl
@[simp] theorem State.retireTo_sec (s : State) (c : Nat) (p : Word) : (s.retireTo c p).sec = s.sec := rfl
@[simp] theorem State.retireTo_host (s : State) (c : Nat) (p : Word) : (s.retireTo c p).host = s.host := rfl
@[simp] theorem State.retireTo_power (s : State) (c : Nat) (p : Word) : (s.retireTo c p).power = s.power := rfl
@[simp] theorem State.retireTo_movers (s : State) (c : Nat) (p : Word) : (s.retireTo c p).movers = s.movers := rfl
@[simp] theorem State.retireTo_desc (s : State) (c : Nat) (p : Word) : (s.retireTo c p).desc = s.desc := rfl
@[simp] theorem State.retireTo_descs (s : State) (c : Nat) (p : Word) : (s.retireTo c p).descs = s.descs := rfl
@[simp] theorem State.retireTo_stores (s : State) (c : Nat) (p : Word) : (s.retireTo c p).stores = s.stores := rfl
@[simp] theorem State.retireTo_answer (s : State) (c : Nat) (p : Word) : (s.retireTo c p).answer = s.answer := rfl
@[simp] theorem State.retireTo_out (s : State) (c : Nat) (p : Word) : (s.retireTo c p).out = s.out := rfl
@[simp] theorem State.retireTo_tick (s : State) (c : Nat) (p : Word) : (s.retireTo c p).tick = s.tick := rfl
@[simp] theorem State.retireTo_fresh (s : State) (c : Nat) (p : Word) : (s.retireTo c p).fresh = s.fresh := rfl
@[simp] theorem State.retireTo_pending (s : State) (c : Nat) (p : Word) : (s.retireTo c p).pending = s.pending := rfl

@[simp] theorem State.retire_pt (s : State) (c n : Nat) : (s.retire c n).pt = s.pt := rfl
@[simp] theorem State.retire_mem (s : State) (c n : Nat) : (s.retire c n).mem = s.mem := rfl
@[simp] theorem State.retire_trace (s : State) (c n : Nat) : (s.retire c n).trace = s.trace := rfl
@[simp] theorem State.retire_ic (s : State) (c n : Nat) : (s.retire c n).ic = s.ic := rfl
@[simp] theorem State.retire_mbx (s : State) (c n : Nat) : (s.retire c n).mbx = s.mbx := rfl
@[simp] theorem State.retire_pour (s : State) (c n : Nat) : (s.retire c n).pour = s.pour := rfl
@[simp] theorem State.retire_time (s : State) (c n : Nat) : (s.retire c n).time = s.time := rfl
@[simp] theorem State.retire_pe (s : State) (c n : Nat) : (s.retire c n).pe = s.pe := rfl
@[simp] theorem State.retire_wake (s : State) (c n : Nat) : (s.retire c n).wake = s.wake := rfl
@[simp] theorem State.retire_can (s : State) (c n : Nat) : (s.retire c n).can = s.can := rfl
@[simp] theorem State.retire_eth (s : State) (c n : Nat) : (s.retire c n).eth = s.eth := rfl
@[simp] theorem State.retire_ring (s : State) (c n : Nat) : (s.retire c n).ring = s.ring := rfl
@[simp] theorem State.retire_sec (s : State) (c n : Nat) : (s.retire c n).sec = s.sec := rfl
@[simp] theorem State.retire_host (s : State) (c n : Nat) : (s.retire c n).host = s.host := rfl
@[simp] theorem State.retire_power (s : State) (c n : Nat) : (s.retire c n).power = s.power := rfl
@[simp] theorem State.retire_movers (s : State) (c n : Nat) : (s.retire c n).movers = s.movers := rfl
@[simp] theorem State.retire_desc (s : State) (c n : Nat) : (s.retire c n).desc = s.desc := rfl
@[simp] theorem State.retire_descs (s : State) (c n : Nat) : (s.retire c n).descs = s.descs := rfl
@[simp] theorem State.retire_stores (s : State) (c n : Nat) : (s.retire c n).stores = s.stores := rfl
@[simp] theorem State.retire_answer (s : State) (c n : Nat) : (s.retire c n).answer = s.answer := rfl
@[simp] theorem State.retire_out (s : State) (c n : Nat) : (s.retire c n).out = s.out := rfl
@[simp] theorem State.retire_tick (s : State) (c n : Nat) : (s.retire c n).tick = s.tick := rfl
@[simp] theorem State.retire_fresh (s : State) (c n : Nat) : (s.retire c n).fresh = s.fresh := rfl
@[simp] theorem State.retire_pending (s : State) (c n : Nat) : (s.retire c n).pending = s.pending := rfl

@[simp] theorem State.setPtEcc_regs (s : State) (i : Nat) (e : EccMark) : (s.setPtEcc i e).regs = s.regs := rfl
@[simp] theorem State.setPtEcc_mem (s : State) (i : Nat) (e : EccMark) : (s.setPtEcc i e).mem = s.mem := rfl
@[simp] theorem State.setPtEcc_trace (s : State) (i : Nat) (e : EccMark) : (s.setPtEcc i e).trace = s.trace := rfl
@[simp] theorem State.setPtEcc_ic (s : State) (i : Nat) (e : EccMark) : (s.setPtEcc i e).ic = s.ic := rfl
@[simp] theorem State.setPtEcc_mbx (s : State) (i : Nat) (e : EccMark) : (s.setPtEcc i e).mbx = s.mbx := rfl
@[simp] theorem State.setPtEcc_pour (s : State) (i : Nat) (e : EccMark) : (s.setPtEcc i e).pour = s.pour := rfl
@[simp] theorem State.setPtEcc_time (s : State) (i : Nat) (e : EccMark) : (s.setPtEcc i e).time = s.time := rfl
@[simp] theorem State.setPtEcc_pe (s : State) (i : Nat) (e : EccMark) : (s.setPtEcc i e).pe = s.pe := rfl
@[simp] theorem State.setPtEcc_wake (s : State) (i : Nat) (e : EccMark) : (s.setPtEcc i e).wake = s.wake := rfl
@[simp] theorem State.setPtEcc_can (s : State) (i : Nat) (e : EccMark) : (s.setPtEcc i e).can = s.can := rfl
@[simp] theorem State.setPtEcc_eth (s : State) (i : Nat) (e : EccMark) : (s.setPtEcc i e).eth = s.eth := rfl
@[simp] theorem State.setPtEcc_ring (s : State) (i : Nat) (e : EccMark) : (s.setPtEcc i e).ring = s.ring := rfl
@[simp] theorem State.setPtEcc_sec (s : State) (i : Nat) (e : EccMark) : (s.setPtEcc i e).sec = s.sec := rfl
@[simp] theorem State.setPtEcc_host (s : State) (i : Nat) (e : EccMark) : (s.setPtEcc i e).host = s.host := rfl
@[simp] theorem State.setPtEcc_power (s : State) (i : Nat) (e : EccMark) : (s.setPtEcc i e).power = s.power := rfl
@[simp] theorem State.setPtEcc_movers (s : State) (i : Nat) (e : EccMark) : (s.setPtEcc i e).movers = s.movers := rfl
@[simp] theorem State.setPtEcc_desc (s : State) (i : Nat) (e : EccMark) : (s.setPtEcc i e).desc = s.desc := rfl
@[simp] theorem State.setPtEcc_descs (s : State) (i : Nat) (e : EccMark) : (s.setPtEcc i e).descs = s.descs := rfl
@[simp] theorem State.setPtEcc_cores (s : State) (i : Nat) (e : EccMark) : (s.setPtEcc i e).cores = s.cores := rfl
@[simp] theorem State.setPtEcc_stores (s : State) (i : Nat) (e : EccMark) : (s.setPtEcc i e).stores = s.stores := rfl
@[simp] theorem State.setPtEcc_answer (s : State) (i : Nat) (e : EccMark) : (s.setPtEcc i e).answer = s.answer := rfl
@[simp] theorem State.setPtEcc_out (s : State) (i : Nat) (e : EccMark) : (s.setPtEcc i e).out = s.out := rfl
@[simp] theorem State.setPtEcc_tick (s : State) (i : Nat) (e : EccMark) : (s.setPtEcc i e).tick = s.tick := rfl
@[simp] theorem State.setPtEcc_fresh (s : State) (i : Nat) (e : EccMark) : (s.setPtEcc i e).fresh = s.fresh := rfl
@[simp] theorem State.setPtEcc_pending (s : State) (i : Nat) (e : EccMark) : (s.setPtEcc i e).pending = s.pending := rfl

@[simp] theorem State.setPtEcc_store (s : State) (i : Nat) (e : EccMark) : (s.setPtEcc i e).pt.store = s.pt.store := rfl
@[simp] theorem State.setPtEcc_attr (s : State) (i : Nat) (e : EccMark) : (s.setPtEcc i e).pt.attr = s.pt.attr := rfl
theorem State.ptEcc_setPtEcc (s : State) (i j : Nat) (e : EccMark) :
    (s.setPtEcc i e).ptEcc j = if j = i then e else s.ptEcc j := SMap.get_set _ _ _ _ _

@[simp] theorem State.begin_regs (s : State) (c : Nat) : (s.begin c).regs = s.regs := rfl
@[simp] theorem State.begin_pt (s : State) (c : Nat) : (s.begin c).pt = s.pt := rfl
@[simp] theorem State.begin_mem (s : State) (c : Nat) : (s.begin c).mem = s.mem := rfl
@[simp] theorem State.begin_trace (s : State) (c : Nat) : (s.begin c).trace = s.trace := rfl
@[simp] theorem State.begin_ic (s : State) (c : Nat) : (s.begin c).ic = s.ic := rfl
@[simp] theorem State.begin_mbx (s : State) (c : Nat) : (s.begin c).mbx = s.mbx := rfl
@[simp] theorem State.begin_pour (s : State) (c : Nat) : (s.begin c).pour = s.pour := rfl
@[simp] theorem State.begin_time (s : State) (c : Nat) : (s.begin c).time = s.time := rfl
@[simp] theorem State.begin_pe (s : State) (c : Nat) : (s.begin c).pe = s.pe := rfl
@[simp] theorem State.begin_wake (s : State) (c : Nat) : (s.begin c).wake = s.wake := rfl
@[simp] theorem State.begin_can (s : State) (c : Nat) : (s.begin c).can = s.can := rfl
@[simp] theorem State.begin_eth (s : State) (c : Nat) : (s.begin c).eth = s.eth := rfl
@[simp] theorem State.begin_ring (s : State) (c : Nat) : (s.begin c).ring = s.ring := rfl
@[simp] theorem State.begin_sec (s : State) (c : Nat) : (s.begin c).sec = s.sec := rfl
@[simp] theorem State.begin_host (s : State) (c : Nat) : (s.begin c).host = s.host := rfl
@[simp] theorem State.begin_power (s : State) (c : Nat) : (s.begin c).power = s.power := rfl
@[simp] theorem State.begin_movers (s : State) (c : Nat) : (s.begin c).movers = s.movers := rfl
@[simp] theorem State.begin_desc (s : State) (c : Nat) : (s.begin c).desc = s.desc := rfl
@[simp] theorem State.begin_descs (s : State) (c : Nat) : (s.begin c).descs = s.descs := rfl
@[simp] theorem State.begin_stores (s : State) (c : Nat) : (s.begin c).stores = s.stores := rfl
@[simp] theorem State.begin_answer (s : State) (c : Nat) : (s.begin c).answer = s.answer := rfl
@[simp] theorem State.begin_out (s : State) (c : Nat) : (s.begin c).out = s.out := rfl
@[simp] theorem State.begin_tick (s : State) (c : Nat) : (s.begin c).tick = s.tick := rfl
@[simp] theorem State.begin_fresh (s : State) (c : Nat) : (s.begin c).fresh = s.fresh := rfl
@[simp] theorem State.begin_pending (s : State) (c : Nat) : (s.begin c).pending = s.pending := rfl

@[simp] theorem State.setMov_regs (s : State) (m : Nat) (k : MoverState) : (s.setMov m k).regs = s.regs := rfl
@[simp] theorem State.setMov_pt (s : State) (m : Nat) (k : MoverState) : (s.setMov m k).pt = s.pt := rfl
@[simp] theorem State.setMov_mem (s : State) (m : Nat) (k : MoverState) : (s.setMov m k).mem = s.mem := rfl
@[simp] theorem State.setMov_trace (s : State) (m : Nat) (k : MoverState) : (s.setMov m k).trace = s.trace := rfl
@[simp] theorem State.setMov_ic (s : State) (m : Nat) (k : MoverState) : (s.setMov m k).ic = s.ic := rfl
@[simp] theorem State.setMov_mbx (s : State) (m : Nat) (k : MoverState) : (s.setMov m k).mbx = s.mbx := rfl
@[simp] theorem State.setMov_pour (s : State) (m : Nat) (k : MoverState) : (s.setMov m k).pour = s.pour := rfl
@[simp] theorem State.setMov_time (s : State) (m : Nat) (k : MoverState) : (s.setMov m k).time = s.time := rfl
@[simp] theorem State.setMov_pe (s : State) (m : Nat) (k : MoverState) : (s.setMov m k).pe = s.pe := rfl
@[simp] theorem State.setMov_wake (s : State) (m : Nat) (k : MoverState) : (s.setMov m k).wake = s.wake := rfl
@[simp] theorem State.setMov_can (s : State) (m : Nat) (k : MoverState) : (s.setMov m k).can = s.can := rfl
@[simp] theorem State.setMov_eth (s : State) (m : Nat) (k : MoverState) : (s.setMov m k).eth = s.eth := rfl
@[simp] theorem State.setMov_ring (s : State) (m : Nat) (k : MoverState) : (s.setMov m k).ring = s.ring := rfl
@[simp] theorem State.setMov_sec (s : State) (m : Nat) (k : MoverState) : (s.setMov m k).sec = s.sec := rfl
@[simp] theorem State.setMov_host (s : State) (m : Nat) (k : MoverState) : (s.setMov m k).host = s.host := rfl
@[simp] theorem State.setMov_power (s : State) (m : Nat) (k : MoverState) : (s.setMov m k).power = s.power := rfl
@[simp] theorem State.setMov_desc (s : State) (m : Nat) (k : MoverState) : (s.setMov m k).desc = s.desc := rfl
@[simp] theorem State.setMov_descs (s : State) (m : Nat) (k : MoverState) : (s.setMov m k).descs = s.descs := rfl
@[simp] theorem State.setMov_cores (s : State) (m : Nat) (k : MoverState) : (s.setMov m k).cores = s.cores := rfl
@[simp] theorem State.setMov_stores (s : State) (m : Nat) (k : MoverState) : (s.setMov m k).stores = s.stores := rfl
@[simp] theorem State.setMov_answer (s : State) (m : Nat) (k : MoverState) : (s.setMov m k).answer = s.answer := rfl
@[simp] theorem State.setMov_out (s : State) (m : Nat) (k : MoverState) : (s.setMov m k).out = s.out := rfl
@[simp] theorem State.setMov_tick (s : State) (m : Nat) (k : MoverState) : (s.setMov m k).tick = s.tick := rfl
@[simp] theorem State.setMov_fresh (s : State) (m : Nat) (k : MoverState) : (s.setMov m k).fresh = s.fresh := rfl
@[simp] theorem State.setMov_pending (s : State) (m : Nat) (k : MoverState) : (s.setMov m k).pending = s.pending := rfl

@[simp] theorem State.setSlot_regs (s : State) (k : Nat) (v : Slot) : (s.setSlot k v).regs = s.regs := rfl
@[simp] theorem State.setSlot_pt (s : State) (k : Nat) (v : Slot) : (s.setSlot k v).pt = s.pt := rfl
@[simp] theorem State.setSlot_mem (s : State) (k : Nat) (v : Slot) : (s.setSlot k v).mem = s.mem := rfl
@[simp] theorem State.setSlot_trace (s : State) (k : Nat) (v : Slot) : (s.setSlot k v).trace = s.trace := rfl
@[simp] theorem State.setSlot_ic (s : State) (k : Nat) (v : Slot) : (s.setSlot k v).ic = s.ic := rfl
@[simp] theorem State.setSlot_mbx (s : State) (k : Nat) (v : Slot) : (s.setSlot k v).mbx = s.mbx := rfl
@[simp] theorem State.setSlot_time (s : State) (k : Nat) (v : Slot) : (s.setSlot k v).time = s.time := rfl
@[simp] theorem State.setSlot_pe (s : State) (k : Nat) (v : Slot) : (s.setSlot k v).pe = s.pe := rfl
@[simp] theorem State.setSlot_wake (s : State) (k : Nat) (v : Slot) : (s.setSlot k v).wake = s.wake := rfl
@[simp] theorem State.setSlot_can (s : State) (k : Nat) (v : Slot) : (s.setSlot k v).can = s.can := rfl
@[simp] theorem State.setSlot_eth (s : State) (k : Nat) (v : Slot) : (s.setSlot k v).eth = s.eth := rfl
@[simp] theorem State.setSlot_ring (s : State) (k : Nat) (v : Slot) : (s.setSlot k v).ring = s.ring := rfl
@[simp] theorem State.setSlot_sec (s : State) (k : Nat) (v : Slot) : (s.setSlot k v).sec = s.sec := rfl
@[simp] theorem State.setSlot_host (s : State) (k : Nat) (v : Slot) : (s.setSlot k v).host = s.host := rfl
@[simp] theorem State.setSlot_power (s : State) (k : Nat) (v : Slot) : (s.setSlot k v).power = s.power := rfl
@[simp] theorem State.setSlot_movers (s : State) (k : Nat) (v : Slot) : (s.setSlot k v).movers = s.movers := rfl
@[simp] theorem State.setSlot_desc (s : State) (k : Nat) (v : Slot) : (s.setSlot k v).desc = s.desc := rfl
@[simp] theorem State.setSlot_descs (s : State) (k : Nat) (v : Slot) : (s.setSlot k v).descs = s.descs := rfl
@[simp] theorem State.setSlot_cores (s : State) (k : Nat) (v : Slot) : (s.setSlot k v).cores = s.cores := rfl
@[simp] theorem State.setSlot_stores (s : State) (k : Nat) (v : Slot) : (s.setSlot k v).stores = s.stores := rfl
@[simp] theorem State.setSlot_answer (s : State) (k : Nat) (v : Slot) : (s.setSlot k v).answer = s.answer := rfl
@[simp] theorem State.setSlot_out (s : State) (k : Nat) (v : Slot) : (s.setSlot k v).out = s.out := rfl
@[simp] theorem State.setSlot_tick (s : State) (k : Nat) (v : Slot) : (s.setSlot k v).tick = s.tick := rfl
@[simp] theorem State.setSlot_fresh (s : State) (k : Nat) (v : Slot) : (s.setSlot k v).fresh = s.fresh := rfl
@[simp] theorem State.setSlot_pending (s : State) (k : Nat) (v : Slot) : (s.setSlot k v).pending = s.pending := rfl

@[simp] theorem State.setDyn_regs (s : State) (n : Nat) (d : NodeDyn) : (s.setDyn n d).regs = s.regs := rfl
@[simp] theorem State.setDyn_pt (s : State) (n : Nat) (d : NodeDyn) : (s.setDyn n d).pt = s.pt := rfl
@[simp] theorem State.setDyn_mem (s : State) (n : Nat) (d : NodeDyn) : (s.setDyn n d).mem = s.mem := rfl
@[simp] theorem State.setDyn_trace (s : State) (n : Nat) (d : NodeDyn) : (s.setDyn n d).trace = s.trace := rfl
@[simp] theorem State.setDyn_ic (s : State) (n : Nat) (d : NodeDyn) : (s.setDyn n d).ic = s.ic := rfl
@[simp] theorem State.setDyn_mbx (s : State) (n : Nat) (d : NodeDyn) : (s.setDyn n d).mbx = s.mbx := rfl
@[simp] theorem State.setDyn_time (s : State) (n : Nat) (d : NodeDyn) : (s.setDyn n d).time = s.time := rfl
@[simp] theorem State.setDyn_pe (s : State) (n : Nat) (d : NodeDyn) : (s.setDyn n d).pe = s.pe := rfl
@[simp] theorem State.setDyn_wake (s : State) (n : Nat) (d : NodeDyn) : (s.setDyn n d).wake = s.wake := rfl
@[simp] theorem State.setDyn_can (s : State) (n : Nat) (d : NodeDyn) : (s.setDyn n d).can = s.can := rfl
@[simp] theorem State.setDyn_eth (s : State) (n : Nat) (d : NodeDyn) : (s.setDyn n d).eth = s.eth := rfl
@[simp] theorem State.setDyn_ring (s : State) (n : Nat) (d : NodeDyn) : (s.setDyn n d).ring = s.ring := rfl
@[simp] theorem State.setDyn_sec (s : State) (n : Nat) (d : NodeDyn) : (s.setDyn n d).sec = s.sec := rfl
@[simp] theorem State.setDyn_host (s : State) (n : Nat) (d : NodeDyn) : (s.setDyn n d).host = s.host := rfl
@[simp] theorem State.setDyn_power (s : State) (n : Nat) (d : NodeDyn) : (s.setDyn n d).power = s.power := rfl
@[simp] theorem State.setDyn_movers (s : State) (n : Nat) (d : NodeDyn) : (s.setDyn n d).movers = s.movers := rfl
@[simp] theorem State.setDyn_desc (s : State) (n : Nat) (d : NodeDyn) : (s.setDyn n d).desc = s.desc := rfl
@[simp] theorem State.setDyn_descs (s : State) (n : Nat) (d : NodeDyn) : (s.setDyn n d).descs = s.descs := rfl
@[simp] theorem State.setDyn_cores (s : State) (n : Nat) (d : NodeDyn) : (s.setDyn n d).cores = s.cores := rfl
@[simp] theorem State.setDyn_stores (s : State) (n : Nat) (d : NodeDyn) : (s.setDyn n d).stores = s.stores := rfl
@[simp] theorem State.setDyn_answer (s : State) (n : Nat) (d : NodeDyn) : (s.setDyn n d).answer = s.answer := rfl
@[simp] theorem State.setDyn_out (s : State) (n : Nat) (d : NodeDyn) : (s.setDyn n d).out = s.out := rfl
@[simp] theorem State.setDyn_tick (s : State) (n : Nat) (d : NodeDyn) : (s.setDyn n d).tick = s.tick := rfl
@[simp] theorem State.setDyn_fresh (s : State) (n : Nat) (d : NodeDyn) : (s.setDyn n d).fresh = s.fresh := rfl
@[simp] theorem State.setDyn_pending (s : State) (n : Nat) (d : NodeDyn) : (s.setDyn n d).pending = s.pending := rfl

@[simp] theorem State.setNodeState_regs (s : State) (n : Nat) (st : NodeState) : (s.setNodeState n st).regs = s.regs := rfl
@[simp] theorem State.setNodeState_pt (s : State) (n : Nat) (st : NodeState) : (s.setNodeState n st).pt = s.pt := rfl
@[simp] theorem State.setNodeState_mem (s : State) (n : Nat) (st : NodeState) : (s.setNodeState n st).mem = s.mem := rfl
@[simp] theorem State.setNodeState_trace (s : State) (n : Nat) (st : NodeState) : (s.setNodeState n st).trace = s.trace := rfl
@[simp] theorem State.setNodeState_ic (s : State) (n : Nat) (st : NodeState) : (s.setNodeState n st).ic = s.ic := rfl
@[simp] theorem State.setNodeState_mbx (s : State) (n : Nat) (st : NodeState) : (s.setNodeState n st).mbx = s.mbx := rfl
@[simp] theorem State.setNodeState_time (s : State) (n : Nat) (st : NodeState) : (s.setNodeState n st).time = s.time := rfl
@[simp] theorem State.setNodeState_pe (s : State) (n : Nat) (st : NodeState) : (s.setNodeState n st).pe = s.pe := rfl
@[simp] theorem State.setNodeState_wake (s : State) (n : Nat) (st : NodeState) : (s.setNodeState n st).wake = s.wake := rfl
@[simp] theorem State.setNodeState_can (s : State) (n : Nat) (st : NodeState) : (s.setNodeState n st).can = s.can := rfl
@[simp] theorem State.setNodeState_eth (s : State) (n : Nat) (st : NodeState) : (s.setNodeState n st).eth = s.eth := rfl
@[simp] theorem State.setNodeState_ring (s : State) (n : Nat) (st : NodeState) : (s.setNodeState n st).ring = s.ring := rfl
@[simp] theorem State.setNodeState_sec (s : State) (n : Nat) (st : NodeState) : (s.setNodeState n st).sec = s.sec := rfl
@[simp] theorem State.setNodeState_host (s : State) (n : Nat) (st : NodeState) : (s.setNodeState n st).host = s.host := rfl
@[simp] theorem State.setNodeState_power (s : State) (n : Nat) (st : NodeState) : (s.setNodeState n st).power = s.power := rfl
@[simp] theorem State.setNodeState_movers (s : State) (n : Nat) (st : NodeState) : (s.setNodeState n st).movers = s.movers := rfl
@[simp] theorem State.setNodeState_desc (s : State) (n : Nat) (st : NodeState) : (s.setNodeState n st).desc = s.desc := rfl
@[simp] theorem State.setNodeState_descs (s : State) (n : Nat) (st : NodeState) : (s.setNodeState n st).descs = s.descs := rfl
@[simp] theorem State.setNodeState_cores (s : State) (n : Nat) (st : NodeState) : (s.setNodeState n st).cores = s.cores := rfl
@[simp] theorem State.setNodeState_stores (s : State) (n : Nat) (st : NodeState) : (s.setNodeState n st).stores = s.stores := rfl
@[simp] theorem State.setNodeState_answer (s : State) (n : Nat) (st : NodeState) : (s.setNodeState n st).answer = s.answer := rfl
@[simp] theorem State.setNodeState_out (s : State) (n : Nat) (st : NodeState) : (s.setNodeState n st).out = s.out := rfl
@[simp] theorem State.setNodeState_tick (s : State) (n : Nat) (st : NodeState) : (s.setNodeState n st).tick = s.tick := rfl
@[simp] theorem State.setNodeState_fresh (s : State) (n : Nat) (st : NodeState) : (s.setNodeState n st).fresh = s.fresh := rfl
@[simp] theorem State.setNodeState_pending (s : State) (n : Nat) (st : NodeState) : (s.setNodeState n st).pending = s.pending := rfl

@[simp] theorem State.setLevel_regs (s : State) (l : Nat) (es : List ReadyEntry) : (s.setLevel l es).regs = s.regs := rfl
@[simp] theorem State.setLevel_pt (s : State) (l : Nat) (es : List ReadyEntry) : (s.setLevel l es).pt = s.pt := rfl
@[simp] theorem State.setLevel_mem (s : State) (l : Nat) (es : List ReadyEntry) : (s.setLevel l es).mem = s.mem := rfl
@[simp] theorem State.setLevel_trace (s : State) (l : Nat) (es : List ReadyEntry) : (s.setLevel l es).trace = s.trace := rfl
@[simp] theorem State.setLevel_ic (s : State) (l : Nat) (es : List ReadyEntry) : (s.setLevel l es).ic = s.ic := rfl
@[simp] theorem State.setLevel_mbx (s : State) (l : Nat) (es : List ReadyEntry) : (s.setLevel l es).mbx = s.mbx := rfl
@[simp] theorem State.setLevel_time (s : State) (l : Nat) (es : List ReadyEntry) : (s.setLevel l es).time = s.time := rfl
@[simp] theorem State.setLevel_pe (s : State) (l : Nat) (es : List ReadyEntry) : (s.setLevel l es).pe = s.pe := rfl
@[simp] theorem State.setLevel_wake (s : State) (l : Nat) (es : List ReadyEntry) : (s.setLevel l es).wake = s.wake := rfl
@[simp] theorem State.setLevel_can (s : State) (l : Nat) (es : List ReadyEntry) : (s.setLevel l es).can = s.can := rfl
@[simp] theorem State.setLevel_eth (s : State) (l : Nat) (es : List ReadyEntry) : (s.setLevel l es).eth = s.eth := rfl
@[simp] theorem State.setLevel_ring (s : State) (l : Nat) (es : List ReadyEntry) : (s.setLevel l es).ring = s.ring := rfl
@[simp] theorem State.setLevel_sec (s : State) (l : Nat) (es : List ReadyEntry) : (s.setLevel l es).sec = s.sec := rfl
@[simp] theorem State.setLevel_host (s : State) (l : Nat) (es : List ReadyEntry) : (s.setLevel l es).host = s.host := rfl
@[simp] theorem State.setLevel_power (s : State) (l : Nat) (es : List ReadyEntry) : (s.setLevel l es).power = s.power := rfl
@[simp] theorem State.setLevel_movers (s : State) (l : Nat) (es : List ReadyEntry) : (s.setLevel l es).movers = s.movers := rfl
@[simp] theorem State.setLevel_desc (s : State) (l : Nat) (es : List ReadyEntry) : (s.setLevel l es).desc = s.desc := rfl
@[simp] theorem State.setLevel_descs (s : State) (l : Nat) (es : List ReadyEntry) : (s.setLevel l es).descs = s.descs := rfl
@[simp] theorem State.setLevel_cores (s : State) (l : Nat) (es : List ReadyEntry) : (s.setLevel l es).cores = s.cores := rfl
@[simp] theorem State.setLevel_stores (s : State) (l : Nat) (es : List ReadyEntry) : (s.setLevel l es).stores = s.stores := rfl
@[simp] theorem State.setLevel_answer (s : State) (l : Nat) (es : List ReadyEntry) : (s.setLevel l es).answer = s.answer := rfl
@[simp] theorem State.setLevel_out (s : State) (l : Nat) (es : List ReadyEntry) : (s.setLevel l es).out = s.out := rfl
@[simp] theorem State.setLevel_tick (s : State) (l : Nat) (es : List ReadyEntry) : (s.setLevel l es).tick = s.tick := rfl
@[simp] theorem State.setLevel_fresh (s : State) (l : Nat) (es : List ReadyEntry) : (s.setLevel l es).fresh = s.fresh := rfl
@[simp] theorem State.setLevel_pending (s : State) (l : Nat) (es : List ReadyEntry) : (s.setLevel l es).pending = s.pending := rfl

@[simp] theorem State.setSrc_regs (s : State) (k : Nat) (st : SrcState) : (s.setSrc k st).regs = s.regs := rfl
@[simp] theorem State.setSrc_pt (s : State) (k : Nat) (st : SrcState) : (s.setSrc k st).pt = s.pt := rfl
@[simp] theorem State.setSrc_mem (s : State) (k : Nat) (st : SrcState) : (s.setSrc k st).mem = s.mem := rfl
@[simp] theorem State.setSrc_trace (s : State) (k : Nat) (st : SrcState) : (s.setSrc k st).trace = s.trace := rfl
@[simp] theorem State.setSrc_mbx (s : State) (k : Nat) (st : SrcState) : (s.setSrc k st).mbx = s.mbx := rfl
@[simp] theorem State.setSrc_pour (s : State) (k : Nat) (st : SrcState) : (s.setSrc k st).pour = s.pour := rfl
@[simp] theorem State.setSrc_time (s : State) (k : Nat) (st : SrcState) : (s.setSrc k st).time = s.time := rfl
@[simp] theorem State.setSrc_pe (s : State) (k : Nat) (st : SrcState) : (s.setSrc k st).pe = s.pe := rfl
@[simp] theorem State.setSrc_wake (s : State) (k : Nat) (st : SrcState) : (s.setSrc k st).wake = s.wake := rfl
@[simp] theorem State.setSrc_can (s : State) (k : Nat) (st : SrcState) : (s.setSrc k st).can = s.can := rfl
@[simp] theorem State.setSrc_eth (s : State) (k : Nat) (st : SrcState) : (s.setSrc k st).eth = s.eth := rfl
@[simp] theorem State.setSrc_ring (s : State) (k : Nat) (st : SrcState) : (s.setSrc k st).ring = s.ring := rfl
@[simp] theorem State.setSrc_sec (s : State) (k : Nat) (st : SrcState) : (s.setSrc k st).sec = s.sec := rfl
@[simp] theorem State.setSrc_host (s : State) (k : Nat) (st : SrcState) : (s.setSrc k st).host = s.host := rfl
@[simp] theorem State.setSrc_power (s : State) (k : Nat) (st : SrcState) : (s.setSrc k st).power = s.power := rfl
@[simp] theorem State.setSrc_movers (s : State) (k : Nat) (st : SrcState) : (s.setSrc k st).movers = s.movers := rfl
@[simp] theorem State.setSrc_desc (s : State) (k : Nat) (st : SrcState) : (s.setSrc k st).desc = s.desc := rfl
@[simp] theorem State.setSrc_descs (s : State) (k : Nat) (st : SrcState) : (s.setSrc k st).descs = s.descs := rfl
@[simp] theorem State.setSrc_cores (s : State) (k : Nat) (st : SrcState) : (s.setSrc k st).cores = s.cores := rfl
@[simp] theorem State.setSrc_stores (s : State) (k : Nat) (st : SrcState) : (s.setSrc k st).stores = s.stores := rfl
@[simp] theorem State.setSrc_answer (s : State) (k : Nat) (st : SrcState) : (s.setSrc k st).answer = s.answer := rfl
@[simp] theorem State.setSrc_out (s : State) (k : Nat) (st : SrcState) : (s.setSrc k st).out = s.out := rfl
@[simp] theorem State.setSrc_tick (s : State) (k : Nat) (st : SrcState) : (s.setSrc k st).tick = s.tick := rfl
@[simp] theorem State.setSrc_fresh (s : State) (k : Nat) (st : SrcState) : (s.setSrc k st).fresh = s.fresh := rfl
@[simp] theorem State.setSrc_pending (s : State) (k : Nat) (st : SrcState) : (s.setSrc k st).pending = s.pending := rfl

@[simp] theorem State.setStored_regs (s : State) (i : Nat) (v : Half) : (s.setStored i v).regs = s.regs := rfl
@[simp] theorem State.setStored_mem (s : State) (i : Nat) (v : Half) : (s.setStored i v).mem = s.mem := rfl
@[simp] theorem State.setStored_trace (s : State) (i : Nat) (v : Half) : (s.setStored i v).trace = s.trace := rfl
@[simp] theorem State.setStored_ic (s : State) (i : Nat) (v : Half) : (s.setStored i v).ic = s.ic := rfl
@[simp] theorem State.setStored_mbx (s : State) (i : Nat) (v : Half) : (s.setStored i v).mbx = s.mbx := rfl
@[simp] theorem State.setStored_pour (s : State) (i : Nat) (v : Half) : (s.setStored i v).pour = s.pour := rfl
@[simp] theorem State.setStored_time (s : State) (i : Nat) (v : Half) : (s.setStored i v).time = s.time := rfl
@[simp] theorem State.setStored_pe (s : State) (i : Nat) (v : Half) : (s.setStored i v).pe = s.pe := rfl
@[simp] theorem State.setStored_wake (s : State) (i : Nat) (v : Half) : (s.setStored i v).wake = s.wake := rfl
@[simp] theorem State.setStored_can (s : State) (i : Nat) (v : Half) : (s.setStored i v).can = s.can := rfl
@[simp] theorem State.setStored_eth (s : State) (i : Nat) (v : Half) : (s.setStored i v).eth = s.eth := rfl
@[simp] theorem State.setStored_ring (s : State) (i : Nat) (v : Half) : (s.setStored i v).ring = s.ring := rfl
@[simp] theorem State.setStored_sec (s : State) (i : Nat) (v : Half) : (s.setStored i v).sec = s.sec := rfl
@[simp] theorem State.setStored_host (s : State) (i : Nat) (v : Half) : (s.setStored i v).host = s.host := rfl
@[simp] theorem State.setStored_power (s : State) (i : Nat) (v : Half) : (s.setStored i v).power = s.power := rfl
@[simp] theorem State.setStored_movers (s : State) (i : Nat) (v : Half) : (s.setStored i v).movers = s.movers := rfl
@[simp] theorem State.setStored_desc (s : State) (i : Nat) (v : Half) : (s.setStored i v).desc = s.desc := rfl
@[simp] theorem State.setStored_descs (s : State) (i : Nat) (v : Half) : (s.setStored i v).descs = s.descs := rfl
@[simp] theorem State.setStored_cores (s : State) (i : Nat) (v : Half) : (s.setStored i v).cores = s.cores := rfl
@[simp] theorem State.setStored_stores (s : State) (i : Nat) (v : Half) : (s.setStored i v).stores = s.stores := rfl
@[simp] theorem State.setStored_answer (s : State) (i : Nat) (v : Half) : (s.setStored i v).answer = s.answer := rfl
@[simp] theorem State.setStored_out (s : State) (i : Nat) (v : Half) : (s.setStored i v).out = s.out := rfl
@[simp] theorem State.setStored_tick (s : State) (i : Nat) (v : Half) : (s.setStored i v).tick = s.tick := rfl
@[simp] theorem State.setStored_fresh (s : State) (i : Nat) (v : Half) : (s.setStored i v).fresh = s.fresh := rfl
@[simp] theorem State.setStored_pending (s : State) (i : Nat) (v : Half) : (s.setStored i v).pending = s.pending := rfl

@[simp] theorem State.ok_regs (s : State) (d : Nat) : (s.ok d).regs = s.regs := rfl
@[simp] theorem State.ok_pt (s : State) (d : Nat) : (s.ok d).pt = s.pt := rfl
@[simp] theorem State.ok_mem (s : State) (d : Nat) : (s.ok d).mem = s.mem := rfl
@[simp] theorem State.ok_trace (s : State) (d : Nat) : (s.ok d).trace = s.trace := rfl
@[simp] theorem State.ok_ic (s : State) (d : Nat) : (s.ok d).ic = s.ic := rfl
@[simp] theorem State.ok_mbx (s : State) (d : Nat) : (s.ok d).mbx = s.mbx := rfl
@[simp] theorem State.ok_pour (s : State) (d : Nat) : (s.ok d).pour = s.pour := rfl
@[simp] theorem State.ok_time (s : State) (d : Nat) : (s.ok d).time = s.time := rfl
@[simp] theorem State.ok_pe (s : State) (d : Nat) : (s.ok d).pe = s.pe := rfl
@[simp] theorem State.ok_wake (s : State) (d : Nat) : (s.ok d).wake = s.wake := rfl
@[simp] theorem State.ok_can (s : State) (d : Nat) : (s.ok d).can = s.can := rfl
@[simp] theorem State.ok_eth (s : State) (d : Nat) : (s.ok d).eth = s.eth := rfl
@[simp] theorem State.ok_ring (s : State) (d : Nat) : (s.ok d).ring = s.ring := rfl
@[simp] theorem State.ok_sec (s : State) (d : Nat) : (s.ok d).sec = s.sec := rfl
@[simp] theorem State.ok_host (s : State) (d : Nat) : (s.ok d).host = s.host := rfl
@[simp] theorem State.ok_power (s : State) (d : Nat) : (s.ok d).power = s.power := rfl
@[simp] theorem State.ok_movers (s : State) (d : Nat) : (s.ok d).movers = s.movers := rfl
@[simp] theorem State.ok_desc (s : State) (d : Nat) : (s.ok d).desc = s.desc := rfl
@[simp] theorem State.ok_descs (s : State) (d : Nat) : (s.ok d).descs = s.descs := rfl
@[simp] theorem State.ok_cores (s : State) (d : Nat) : (s.ok d).cores = s.cores := rfl
@[simp] theorem State.ok_stores (s : State) (d : Nat) : (s.ok d).stores = s.stores := rfl
@[simp] theorem State.ok_out (s : State) (d : Nat) : (s.ok d).out = s.out := rfl
@[simp] theorem State.ok_tick (s : State) (d : Nat) : (s.ok d).tick = s.tick := rfl
@[simp] theorem State.ok_fresh (s : State) (d : Nat) : (s.ok d).fresh = s.fresh := rfl
@[simp] theorem State.ok_pending (s : State) (d : Nat) : (s.ok d).pending = s.pending := rfl

@[simp] theorem State.err_regs (s : State) : (s.err).regs = s.regs := rfl
@[simp] theorem State.err_pt (s : State) : (s.err).pt = s.pt := rfl
@[simp] theorem State.err_mem (s : State) : (s.err).mem = s.mem := rfl
@[simp] theorem State.err_trace (s : State) : (s.err).trace = s.trace := rfl
@[simp] theorem State.err_ic (s : State) : (s.err).ic = s.ic := rfl
@[simp] theorem State.err_mbx (s : State) : (s.err).mbx = s.mbx := rfl
@[simp] theorem State.err_pour (s : State) : (s.err).pour = s.pour := rfl
@[simp] theorem State.err_time (s : State) : (s.err).time = s.time := rfl
@[simp] theorem State.err_pe (s : State) : (s.err).pe = s.pe := rfl
@[simp] theorem State.err_wake (s : State) : (s.err).wake = s.wake := rfl
@[simp] theorem State.err_can (s : State) : (s.err).can = s.can := rfl
@[simp] theorem State.err_eth (s : State) : (s.err).eth = s.eth := rfl
@[simp] theorem State.err_ring (s : State) : (s.err).ring = s.ring := rfl
@[simp] theorem State.err_sec (s : State) : (s.err).sec = s.sec := rfl
@[simp] theorem State.err_host (s : State) : (s.err).host = s.host := rfl
@[simp] theorem State.err_power (s : State) : (s.err).power = s.power := rfl
@[simp] theorem State.err_movers (s : State) : (s.err).movers = s.movers := rfl
@[simp] theorem State.err_desc (s : State) : (s.err).desc = s.desc := rfl
@[simp] theorem State.err_descs (s : State) : (s.err).descs = s.descs := rfl
@[simp] theorem State.err_cores (s : State) : (s.err).cores = s.cores := rfl
@[simp] theorem State.err_stores (s : State) : (s.err).stores = s.stores := rfl
@[simp] theorem State.err_out (s : State) : (s.err).out = s.out := rfl
@[simp] theorem State.err_tick (s : State) : (s.err).tick = s.tick := rfl
@[simp] theorem State.err_fresh (s : State) : (s.err).fresh = s.fresh := rfl
@[simp] theorem State.err_pending (s : State) : (s.err).pending = s.pending := rfl

@[simp] theorem State.emit_regs (s : State) (e : Emission) : (s.emit e).regs = s.regs := rfl
@[simp] theorem State.emit_pt (s : State) (e : Emission) : (s.emit e).pt = s.pt := rfl
@[simp] theorem State.emit_mem (s : State) (e : Emission) : (s.emit e).mem = s.mem := rfl
@[simp] theorem State.emit_trace (s : State) (e : Emission) : (s.emit e).trace = s.trace := rfl
@[simp] theorem State.emit_ic (s : State) (e : Emission) : (s.emit e).ic = s.ic := rfl
@[simp] theorem State.emit_mbx (s : State) (e : Emission) : (s.emit e).mbx = s.mbx := rfl
@[simp] theorem State.emit_pour (s : State) (e : Emission) : (s.emit e).pour = s.pour := rfl
@[simp] theorem State.emit_time (s : State) (e : Emission) : (s.emit e).time = s.time := rfl
@[simp] theorem State.emit_pe (s : State) (e : Emission) : (s.emit e).pe = s.pe := rfl
@[simp] theorem State.emit_wake (s : State) (e : Emission) : (s.emit e).wake = s.wake := rfl
@[simp] theorem State.emit_can (s : State) (e : Emission) : (s.emit e).can = s.can := rfl
@[simp] theorem State.emit_eth (s : State) (e : Emission) : (s.emit e).eth = s.eth := rfl
@[simp] theorem State.emit_ring (s : State) (e : Emission) : (s.emit e).ring = s.ring := rfl
@[simp] theorem State.emit_sec (s : State) (e : Emission) : (s.emit e).sec = s.sec := rfl
@[simp] theorem State.emit_host (s : State) (e : Emission) : (s.emit e).host = s.host := rfl
@[simp] theorem State.emit_power (s : State) (e : Emission) : (s.emit e).power = s.power := rfl
@[simp] theorem State.emit_movers (s : State) (e : Emission) : (s.emit e).movers = s.movers := rfl
@[simp] theorem State.emit_desc (s : State) (e : Emission) : (s.emit e).desc = s.desc := rfl
@[simp] theorem State.emit_descs (s : State) (e : Emission) : (s.emit e).descs = s.descs := rfl
@[simp] theorem State.emit_cores (s : State) (e : Emission) : (s.emit e).cores = s.cores := rfl
@[simp] theorem State.emit_stores (s : State) (e : Emission) : (s.emit e).stores = s.stores := rfl
@[simp] theorem State.emit_answer (s : State) (e : Emission) : (s.emit e).answer = s.answer := rfl
@[simp] theorem State.emit_tick (s : State) (e : Emission) : (s.emit e).tick = s.tick := rfl
@[simp] theorem State.emit_fresh (s : State) (e : Emission) : (s.emit e).fresh = s.fresh := rfl
@[simp] theorem State.emit_pending (s : State) (e : Emission) : (s.emit e).pending = s.pending := rfl

/-! ### Registers -/

theorem State.reg_setReg (s : State) (a b : Nat) (v : Word) :
    (s.setReg a v).reg b = if b = a then v else s.reg b := by
  unfold State.reg State.setReg
  by_cases h : b = a
  · subst h; simp
  · rw [if_neg h]; exact SMap.get_set_default _ _ _ _ _ _ h

@[simp] theorem State.reg_setCore (s : State) (c : Nat) (k : CoreState) (a : Nat) : (s.setCore c k).reg a = s.reg a := rfl
@[simp] theorem State.reg_updCore (s : State) (c : Nat) (u : CoreState → CoreState) (a : Nat) :
    (s.updCore c u).reg a = s.reg a := rfl

/-- Writing a field leaves every other register alone. -/
theorem State.reg_wr_other (s : State) (f : Fld) (v i j a : Nat) (h : a ≠ f.addr i j) :
    (s.wr f v i j).reg a = s.reg a := by
  unfold State.wr; rw [State.reg_setReg, if_neg h]

/-- A field reads what was put into it. -/
theorem State.rd_wr_same (s : State) (f : Fld) (v i j : Nat) (h : f.hi < 32) (hl : f.lo ≤ f.hi)
    (hv : v < 2 ^ (f.hi + 1 - f.lo)) : (s.wr f v i j).rd f i j = v := by
  unfold State.rd State.wr; rw [State.reg_setReg, if_pos rfl]; exact getBits_putBits_same _ _ _ _ h hl hv

/-- A field of another register is left alone. -/
theorem State.rd_wr_other (s : State) (f g : Fld) (v i j i' j' : Nat) (h : g.addr i' j' ≠ f.addr i j) :
    (s.wr f v i j).rd g i' j' = s.rd g i' j' := by
  unfold State.rd; rw [State.reg_wr_other _ _ _ _ _ _ h]

/-- Another field of the same register is left alone. -/
theorem State.rd_wr_field (s : State) (f g : Fld) (v i j i' j' : Nat) (ha : g.addr i' j' = f.addr i j)
    (h : g.hi < 32) (hd : g.hi < f.lo ∨ f.hi < g.lo) : (s.wr f v i j).rd g i' j' = s.rd g i' j' := by
  unfold State.rd State.wr; rw [State.reg_setReg, if_pos ha, ha]; exact getBits_putBits_other _ _ _ _ _ _ h hd

/-- The register store keeps its canonical form. -/
theorem State.regs_wf_setReg (s : State) (a : Nat) (v : Word) (h : s.regs.wf regReset = true) :
    (s.setReg a v).regs.wf regReset = true := SMap.wf_set regReset s.regs a v h

/-! ### Cores -/

theorem State.core_setCore (s : State) (c d : Nat) (k : CoreState) :
    (s.setCore c k).core d = if d = c then k else s.core d := by
  unfold State.core State.setCore; exact SMap.get_set _ _ _ _ _

@[simp] theorem State.core_setCore_same (s : State) (c : Nat) (k : CoreState) : (s.setCore c k).core c = k := by
  simp [State.core_setCore]

@[simp] theorem State.core_updCore_same (s : State) (c : Nat) (u : CoreState → CoreState) :
    (s.updCore c u).core c = u (s.core c) := by
  simp [State.updCore]

theorem State.core_updCore_other (s : State) (c d : Nat) (u : CoreState → CoreState) (h : d ≠ c) :
    (s.updCore c u).core d = s.core d := by
  simp [State.updCore, State.core_setCore, h]

@[simp] theorem State.core_wr (s : State) (f : Fld) (v i j c : Nat) : (s.wr f v i j).core c = s.core c := rfl
@[simp] theorem State.core_setReg (s : State) (a : Nat) (v : Word) (c : Nat) : (s.setReg a v).core c = s.core c := rfl

@[simp] theorem State.core_retireTo_same (s : State) (c : Nat) (p : Word) :
    (s.retireTo c p).core c = { s.core c with pc := p, begun := false } := by
  simp [State.retireTo]

theorem State.core_retireTo_other (s : State) (c d : Nat) (p : Word) (h : d ≠ c) :
    (s.retireTo c p).core d = s.core d := by
  simp [State.retireTo, State.core_updCore_other _ _ _ _ h]

/-- Registers of a core. -/
theorem CoreState.reg_setReg (k : CoreState) (r q : Nat) (v : Word) :
    (k.setReg r v).reg q = if q % 16 = r % 16 then v else k.reg q := by
  unfold CoreState.reg CoreState.setReg; exact SMap.get_set _ _ _ _ _

@[simp] theorem CoreState.reg_setFlags (k : CoreState) (f : Flags) (q : Nat) : (k.setFlags f).reg q = k.reg q := rfl
@[simp] theorem CoreState.flags_setFlags (k : CoreState) (f : Flags) : (k.setFlags f).flags = f := rfl
@[simp] theorem CoreState.flags_setReg (k : CoreState) (r : Nat) (v : Word) : (k.setReg r v).flags = k.flags := rfl
@[simp] theorem CoreState.pc_setReg (k : CoreState) (r : Nat) (v : Word) : (k.setReg r v).pc = k.pc := rfl
@[simp] theorem CoreState.pc_setFlags (k : CoreState) (f : Flags) : (k.setFlags f).pc = k.pc := rfl

end Sys2Proof.Machine
end

