-- ==== Sys2Proof/Laws/Access.lean ====
section
/-! SUPPORT. Laws of register accesses: what a row that writes or reads one named register comes to, once the
page accepts it. -/

namespace Sys2Proof.Machine

/-- While the device is awake a command has its effect. -/
theorem State.powered_awake (s t : State) (h : s.awake = true) : s.powered t = .next t := by
  simp [State.powered, h]

theorem State.accepts_awake {s : State} {who : Initiator} {p off : Nat} (h : s.accepts who p off = true) :
    s.awake = true := by
  simp only [State.accepts, Bool.and_eq_true] at h; exact h.1.1.1.1

theorem State.accepts_running {s : State} {who : Initiator} {p off : Nat} (h : s.accepts who p off = true) :
    s.resetting p = false := by
  simp only [State.accepts, Bool.and_eq_true, Bool.not_eq_true'] at h; exact h.1.1.2

/-- A register address lies in the range of register pages. -/
theorem rangeOf_regAt (p off : Nat) (hp : p < 1024) (ho : off < 0x1000) : rangeOf (regAt p off) = some .regs := by
  unfold rangeOf regAt
  repeat' (first | (rw [if_neg (by omega)]) | (rw [if_pos (by omega)]))

theorem pageOf_regAt (p off : Nat) (hp : p < 1024) (ho : off < 0x1000) : pageOf (regAt p off) = p := by
  unfold pageOf regAt; omega

theorem offOf_regAt (p off : Nat) (ho : off < 0x1000) : regAt p off % 0x1000 = off := by
  unfold regAt; omega

theorem State.regWaits_open (s : State) (p off : Nat) (hp : p < 1024) (ho : off < 0x1000)
    (h : s.resetting p = false) : s.regWaits (regAt p off) = false := by
  simp [State.regWaits, pageOf_regAt p off hp ho, h]

/-- Only the write of MAC_CTRL waits for the ETH domain. -/
theorem State.ethWaits_off (s : State) (who : Initiator) (p off v : Nat) (hp : p < 1024) (ho : off < 0x1000)
    (h : off ≠ 0x40 ∨ p / 4 ≠ 6) : s.ethWaits who (regAt p off) 4 v = false := by
  unfold State.ethWaits
  rw [pageOf_regAt p off hp ho, offOf_regAt p off ho]
  rcases h with h | h <;> simp [h]

/-- A register write that meets no soft reset, and does not wait for the ETH domain, goes to its page. -/
theorem State.busWrite_regAt (s : State) (who : Initiator) (p off v : Nat) (stall : Bool) (hp : p < 1024)
    (ho : off < 0x1000) (h4 : off % 4 = 0) (h : s.resetting p = false)
    (he : s.ethWaits who (regAt p off) 4 v = false) :
    s.busWrite who (regAt p off) 4 v stall =
      State.regAnswer (s.regWrite who p off (BitVec.ofNat 32 v)) who true (regAt p off) := by
  have h4' : regAt p off % 4 = 0 := by unfold regAt; omega
  have hs : seesRange who .regs = true := by cases who <;> rfl
  unfold State.busWrite
  rw [rangeOf_regAt p off hp ho]
  simp [hs, widthOk, h4', he, State.regWaits_open s p off hp ho h, pageOf_regAt p off hp ho, offOf_regAt p off ho]

/-- A register read that meets no soft reset goes to its page. -/
theorem State.busRead_regAt (s : State) (who : Initiator) (p off : Nat) (stall : Bool) (hp : p < 1024)
    (ho : off < 0x1000) (h4 : off % 4 = 0) (h : s.resetting p = false) :
    s.busRead who (regAt p off) 4 stall =
      State.regAnswer (s.regRead who p off) who false (regAt p off) := by
  have h4' : regAt p off % 4 = 0 := by unfold regAt; omega
  have hs : seesRange who .regs = true := by cases who <;> rfl
  unfold State.busRead
  rw [rangeOf_regAt p off hp ho]
  simp [hs, widthOk, h4', State.regWaits_open s p off hp ho h, pageOf_regAt p off hp ho, offOf_regAt p off ho]

/-- The effect of an accepted write on a block-specific register. -/
def State.blockWrite (s : State) (who : Initiator) (p off : Nat) (row : PageRow) (d : RegDesc) (v : Word) : RegRes :=
  match s.writeSpecial who row.ty (p - row.first) off d v with
  | some r => r
  | none => { s := s.writePlain p off d v }

/-- An accepted write of a block-specific register. -/
theorem State.regWrite_open (s : State) (who : Initiator) (p off : Nat) (v : Word) (row : PageRow) (d : RegDesc)
    (hrow : pageRow p = some row) (hreg : findReg row.ty off = some d) (ho : 0x40 ≤ off)
    (h : s.accepts who p off = true) : s.regWrite who p off v = s.blockWrite who p off row d v := by
  simp only [State.accepts, Bool.and_eq_true, pageRemote, pageHasRw, srstPage, hrow, hreg] at h
  obtain ⟨⟨⟨⟨_, hr⟩, _⟩, hl⟩, he⟩ := h
  have hr' : (remote who && !row.remote) = false := by revert hr; cases remote who <;> cases row.remote <;> simp
  have hl' : (s.on R.PAGE_CTRL.LOCK p && d.hasRw) = false := by revert hl; cases s.on R.PAGE_CTRL.LOCK p <;> cases d.hasRw <;> simp
  have he' : (row.srst && !s.pageEn p) = false := by revert he; cases row.srst <;> cases s.pageEn p <;> simp
  have : ¬ off < 0x40 := by omega
  simp only [State.regWrite, hrow, hreg, hr', this, State.writeBlock, hl', he', State.blockWrite, if_false,
    Bool.false_eq_true]
  all_goals rfl

/-- A row that writes one named register of an open page. -/
theorem State.rowWrite_open (s : State) (who : Initiator) (f : Fld) (v inst idx : Nat) (row : PageRow) (d : RegDesc)
    (hn : regNamed f inst idx = true) (hrow : pageRow (f.page + inst) = some row)
    (hreg : findReg row.ty (f.off + f.stride * idx) = some d) (hp : f.page + inst < 1024)
    (ho : 0x40 ≤ f.off + f.stride * idx) (ho' : f.off + f.stride * idx < 0x1000)
    (h4 : (f.off + f.stride * idx) % 4 = 0) (h : s.takes who f inst idx = true)
    (he : f.off + f.stride * idx ≠ 0x40 ∨ (f.page + inst) / 4 ≠ 6) :
    s.rowWrite who f v inst idx =
      answered (State.regAnswer (s.blockWrite who (f.page + inst) (f.off + f.stride * idx) row d
        (BitVec.ofNat 32 v)) who true (regAt (f.page + inst) (f.off + f.stride * idx))) := by
  have ha : f.addr inst idx = regAt (f.page + inst) (f.off + f.stride * idx) := by
    unfold Fld.addr regAt; omega
  have hh : s.resetting (f.page + inst) = false := State.accepts_running h
  simp only [State.rowWrite, hn, if_true, State.writeReg, ha]
  rw [State.busWrite_regAt s who _ _ _ false hp ho' h4 hh (State.ethWaits_off s who _ _ _ hp ho' he),
    State.regWrite_open s who _ _ _ row d hrow hreg ho h,
    show BitVec.ofNat 32 (BitVec.ofNat 32 v).toNat = BitVec.ofNat 32 v from
      BitVec.eq_of_toNat_eq (by simp)]

/-- A write of any block-specific register of an open page. -/
theorem State.writeReg_open (s : State) (who : Initiator) (p off : Nat) (v : Word) (row : PageRow) (d : RegDesc)
    (hrow : pageRow p = some row) (hreg : findReg row.ty off = some d) (hp : p < 1024) (ho : 0x40 ≤ off)
    (ho' : off < 0x1000) (h4 : off % 4 = 0) (h : s.accepts who p off = true)
    (he : s.ethWaits who (regAt p off) 4 v.toNat = false) :
    s.writeReg who (regAt p off) v =
      answered (State.regAnswer (s.blockWrite who p off row d v) who true (regAt p off)) := by
  have e : BitVec.ofNat 32 v.toNat = v := by simp
  rw [State.writeReg, State.busWrite_regAt s who p off _ false hp ho' h4 (State.accepts_running h) he, e,
    State.regWrite_open s who p off v row d hrow hreg ho h]

/-- The place of field `f` in instance `inst` at repetition `idx`: register `d` of a page of row `row`, outside
the common layout, and not MAC_CTRL, whose write may wait for the ETH domain. -/
def rowOk (f : Fld) (inst idx : Nat) (row : PageRow) (d : RegDesc) : Bool :=
  regNamed f inst idx && decide (pageRow (f.page + inst) = some row) &&
    decide (findReg row.ty (f.off + f.stride * idx) = some d) && decide (f.page + inst < 1024) &&
    decide (0x40 ≤ f.off + f.stride * idx) && decide (f.off + f.stride * idx < 0x1000) &&
    decide ((f.off + f.stride * idx) % 4 = 0) && decide (f.off + f.stride * idx ≠ 0x40 ∨ (f.page + inst) / 4 ≠ 6)

/-- What a command that writes one named register comes to, where its write has an effect of its own. -/
theorem State.row_effect (s : State) (who : Initiator) (f : Fld) (v inst idx : Nat) (row : PageRow) (d : RegDesc)
    (t : State) (hk : rowOk f inst idx row d = true) (ha : s.takes who f inst idx = true)
    (hb : s.writeSpecial who row.ty (f.page + inst - row.first) (f.off + f.stride * idx) d (BitVec.ofNat 32 v) =
      some { s := t }) : s.powered (s.rowWrite who f v inst idx) = .next t.ok := by
  simp only [rowOk, Bool.and_eq_true, decide_eq_true_eq] at hk
  obtain ⟨⟨⟨⟨⟨⟨⟨h1, h2⟩, h3⟩, h4⟩, h5⟩, h6⟩, h7⟩, h8⟩ := hk
  rw [State.powered_awake s _ (State.accepts_awake ha),
    State.rowWrite_open s who f v inst idx row d h1 h2 h3 h4 h5 h6 h7 ha h8]
  simp [State.blockWrite, hb, State.regAnswer, answered]

/-- What a command that writes one plain register comes to. -/
theorem State.row_plain (s : State) (who : Initiator) (f : Fld) (v inst idx : Nat) (row : PageRow) (d : RegDesc)
    (hk : rowOk f inst idx row d = true) (ha : s.takes who f inst idx = true)
    (hb : s.writeSpecial who row.ty (f.page + inst - row.first) (f.off + f.stride * idx) d (BitVec.ofNat 32 v) = none) :
    s.powered (s.rowWrite who f v inst idx) =
      .next (s.writePlain (f.page + inst) (f.off + f.stride * idx) d (BitVec.ofNat 32 v)).ok := by
  simp only [rowOk, Bool.and_eq_true, decide_eq_true_eq] at hk
  obtain ⟨⟨⟨⟨⟨⟨⟨h1, h2⟩, h3⟩, h4⟩, h5⟩, h6⟩, h7⟩, h8⟩ := hk
  rw [State.powered_awake s _ (State.accepts_awake ha),
    State.rowWrite_open s who f v inst idx row d h1 h2 h3 h4 h5 h6 h7 ha h8]
  simp [State.blockWrite, hb, State.regAnswer, answered]

theorem State.answers_awake {s : State} {p : Nat} (h : s.answers p = true) : s.awake = true := by
  simp only [State.answers, Bool.and_eq_true] at h; exact h.1

theorem State.answers_running {s : State} {p : Nat} (h : s.answers p = true) : s.resetting p = false := by
  simp only [State.answers, Bool.and_eq_true, Bool.not_eq_true'] at h; exact h.2

theorem State.readCommon_block (s : State) (p : Nat) (row : PageRow) (off : Nat) (h : 0x40 ≤ off) :
    s.readCommon p row off = none := by
  have h1 : off ≠ 0 := by omega
  have h2 : off ≠ 4 := by omega
  have h3 : off ≠ 0xC := by omega
  have h4 : off ≠ 0x10 := by omega
  simp [State.readCommon, h1, h2, h3, h4]

/-- What a command that reads one named register comes to, where its read has an effect of its own. -/
theorem State.row_shown (s : State) (who : Initiator) (f : Fld) (inst idx : Nat) (row : PageRow) (d : RegDesc)
    (r : RegRes) (hk : rowOk f inst idx row d = true) (ha : s.answers (f.page + inst) = true)
    (hb : s.readSpecial who row.ty (f.page + inst - row.first) (f.off + f.stride * idx) d = some r)
    (hc : r.cause = none) : s.powered (s.rowRead who f inst idx) = .next (r.s.ok r.data) := by
  simp only [rowOk, Bool.and_eq_true, decide_eq_true_eq] at hk
  obtain ⟨⟨⟨⟨⟨⟨⟨h1, h2⟩, h3⟩, h4⟩, h5⟩, h6⟩, h7⟩, _⟩ := hk
  have e : f.addr inst idx = regAt (f.page + inst) (f.off + f.stride * idx) := by
    unfold Fld.addr regAt; omega
  rw [State.powered_awake s _ (State.answers_awake ha)]
  simp only [State.rowRead, h1, if_true, State.readReg, e]
  rw [State.busRead_regAt s who _ _ false h4 h6 h7 (State.answers_running ha)]
  simp [State.regRead, h2, h3, State.readCommon_block s _ row _ h5, hb, State.regAnswer, hc, answered]

/-! ### The common layout -/

/-- A page that exists lies in the range of page numbers. -/
theorem pageRow_lt {p : Nat} {row : PageRow} (h : pageRow p = some row) : p < 1024 := by
  have h1 := List.find?_some h
  have h2 := List.mem_of_find?_eq_some h
  simp only [Bool.and_eq_true, decide_eq_true_eq] at h1
  have : ∀ r ∈ pageRows, r.first + r.count ≤ 1024 := by decide
  have := this row h2
  omega

/-- A write of the common layout goes to its page, whatever the page's reset state. -/
theorem State.writeReg_common (s : State) (who : Initiator) (p off : Nat) (v : Word) (hp : p < 1024)
    (ho : off < 0x40) (h4 : off % 4 = 0) :
    s.writeReg who (regAt p off) v = answered (State.regAnswer (s.regWrite who p off v) who true (regAt p off)) := by
  have h4' : regAt p off % 4 = 0 := by unfold regAt; omega
  have hs : seesRange who .regs = true := by cases who <;> rfl
  have hw : s.regWaits (regAt p off) = false := by
    have : ¬ 0x40 ≤ off := by omega
    simp [State.regWaits, offOf_regAt p off (by omega), this]
  have he : s.ethWaits who (regAt p off) 4 v.toNat = false :=
    State.ethWaits_off s who p off _ hp (by omega) (Or.inl (by omega))
  unfold State.writeReg State.busWrite
  rw [rangeOf_regAt p off hp (by omega)]
  simp [hs, widthOk, h4', hw, he, pageOf_regAt p off hp (by omega), offOf_regAt p off (by omega)]

end Sys2Proof.Machine
end

