-- ==== Sys2Proof/Laws/Shared.lean ====
section
/-! SUPPORT. Laws of the operations that every block shares: all that each of them can change, then field by
field. -/

namespace Sys2Proof.Machine

/-- All that `syncSource` changes. -/
theorem State.syncSource_frame (s : State) (key : Nat) :
    { s.syncSource key with ic := s.ic } = s := by
  unfold State.syncSource; dsimp only; (repeat' split) <;> rfl

@[simp] theorem State.syncSource_regs (s : State) (key : Nat) : (s.syncSource key).regs = s.regs :=
  (congrArg State.regs (State.syncSource_frame s key) :)
@[simp] theorem State.syncSource_pt (s : State) (key : Nat) : (s.syncSource key).pt = s.pt :=
  (congrArg State.pt (State.syncSource_frame s key) :)
@[simp] theorem State.syncSource_mem (s : State) (key : Nat) : (s.syncSource key).mem = s.mem :=
  (congrArg State.mem (State.syncSource_frame s key) :)
@[simp] theorem State.syncSource_trace (s : State) (key : Nat) : (s.syncSource key).trace = s.trace :=
  (congrArg State.trace (State.syncSource_frame s key) :)
@[simp] theorem State.syncSource_mbx (s : State) (key : Nat) : (s.syncSource key).mbx = s.mbx :=
  (congrArg State.mbx (State.syncSource_frame s key) :)
@[simp] theorem State.syncSource_pour (s : State) (key : Nat) : (s.syncSource key).pour = s.pour :=
  (congrArg State.pour (State.syncSource_frame s key) :)
@[simp] theorem State.syncSource_time (s : State) (key : Nat) : (s.syncSource key).time = s.time :=
  (congrArg State.time (State.syncSource_frame s key) :)
@[simp] theorem State.syncSource_pe (s : State) (key : Nat) : (s.syncSource key).pe = s.pe :=
  (congrArg State.pe (State.syncSource_frame s key) :)
@[simp] theorem State.syncSource_wake (s : State) (key : Nat) : (s.syncSource key).wake = s.wake :=
  (congrArg State.wake (State.syncSource_frame s key) :)
@[simp] theorem State.syncSource_can (s : State) (key : Nat) : (s.syncSource key).can = s.can :=
  (congrArg State.can (State.syncSource_frame s key) :)
@[simp] theorem State.syncSource_eth (s : State) (key : Nat) : (s.syncSource key).eth = s.eth :=
  (congrArg State.eth (State.syncSource_frame s key) :)
@[simp] theorem State.syncSource_ring (s : State) (key : Nat) : (s.syncSource key).ring = s.ring :=
  (congrArg State.ring (State.syncSource_frame s key) :)
@[simp] theorem State.syncSource_sec (s : State) (key : Nat) : (s.syncSource key).sec = s.sec :=
  (congrArg State.sec (State.syncSource_frame s key) :)
@[simp] theorem State.syncSource_host (s : State) (key : Nat) : (s.syncSource key).host = s.host :=
  (congrArg State.host (State.syncSource_frame s key) :)
@[simp] theorem State.syncSource_power (s : State) (key : Nat) : (s.syncSource key).power = s.power :=
  (congrArg State.power (State.syncSource_frame s key) :)
@[simp] theorem State.syncSource_movers (s : State) (key : Nat) : (s.syncSource key).movers = s.movers :=
  (congrArg State.movers (State.syncSource_frame s key) :)
@[simp] theorem State.syncSource_desc (s : State) (key : Nat) : (s.syncSource key).desc = s.desc :=
  (congrArg State.desc (State.syncSource_frame s key) :)
@[simp] theorem State.syncSource_descs (s : State) (key : Nat) : (s.syncSource key).descs = s.descs :=
  (congrArg State.descs (State.syncSource_frame s key) :)
@[simp] theorem State.syncSource_cores (s : State) (key : Nat) : (s.syncSource key).cores = s.cores :=
  (congrArg State.cores (State.syncSource_frame s key) :)
@[simp] theorem State.syncSource_stores (s : State) (key : Nat) : (s.syncSource key).stores = s.stores :=
  (congrArg State.stores (State.syncSource_frame s key) :)
@[simp] theorem State.syncSource_answer (s : State) (key : Nat) : (s.syncSource key).answer = s.answer :=
  (congrArg State.answer (State.syncSource_frame s key) :)
@[simp] theorem State.syncSource_out (s : State) (key : Nat) : (s.syncSource key).out = s.out :=
  (congrArg State.out (State.syncSource_frame s key) :)
@[simp] theorem State.syncSource_tick (s : State) (key : Nat) : (s.syncSource key).tick = s.tick :=
  (congrArg State.tick (State.syncSource_frame s key) :)
@[simp] theorem State.syncSource_fresh (s : State) (key : Nat) : (s.syncSource key).fresh = s.fresh :=
  (congrArg State.fresh (State.syncSource_frame s key) :)
@[simp] theorem State.syncSource_pending (s : State) (key : Nat) : (s.syncSource key).pending = s.pending :=
  (congrArg State.pending (State.syncSource_frame s key) :)

/-- All that `syncPage` changes. -/
theorem State.syncPage_frame (s : State) (p : Nat) :
    { s.syncPage p with ic := s.ic } = s := by
  unfold State.syncPage; split
  · split
    · exact State.syncSource_frame s _
    · rfl
  · rfl

@[simp] theorem State.syncPage_regs (s : State) (p : Nat) : (s.syncPage p).regs = s.regs :=
  (congrArg State.regs (State.syncPage_frame s p) :)
@[simp] theorem State.syncPage_pt (s : State) (p : Nat) : (s.syncPage p).pt = s.pt :=
  (congrArg State.pt (State.syncPage_frame s p) :)
@[simp] theorem State.syncPage_mem (s : State) (p : Nat) : (s.syncPage p).mem = s.mem :=
  (congrArg State.mem (State.syncPage_frame s p) :)
@[simp] theorem State.syncPage_trace (s : State) (p : Nat) : (s.syncPage p).trace = s.trace :=
  (congrArg State.trace (State.syncPage_frame s p) :)
@[simp] theorem State.syncPage_mbx (s : State) (p : Nat) : (s.syncPage p).mbx = s.mbx :=
  (congrArg State.mbx (State.syncPage_frame s p) :)
@[simp] theorem State.syncPage_pour (s : State) (p : Nat) : (s.syncPage p).pour = s.pour :=
  (congrArg State.pour (State.syncPage_frame s p) :)
@[simp] theorem State.syncPage_time (s : State) (p : Nat) : (s.syncPage p).time = s.time :=
  (congrArg State.time (State.syncPage_frame s p) :)
@[simp] theorem State.syncPage_pe (s : State) (p : Nat) : (s.syncPage p).pe = s.pe :=
  (congrArg State.pe (State.syncPage_frame s p) :)
@[simp] theorem State.syncPage_wake (s : State) (p : Nat) : (s.syncPage p).wake = s.wake :=
  (congrArg State.wake (State.syncPage_frame s p) :)
@[simp] theorem State.syncPage_can (s : State) (p : Nat) : (s.syncPage p).can = s.can :=
  (congrArg State.can (State.syncPage_frame s p) :)
@[simp] theorem State.syncPage_eth (s : State) (p : Nat) : (s.syncPage p).eth = s.eth :=
  (congrArg State.eth (State.syncPage_frame s p) :)
@[simp] theorem State.syncPage_ring (s : State) (p : Nat) : (s.syncPage p).ring = s.ring :=
  (congrArg State.ring (State.syncPage_frame s p) :)
@[simp] theorem State.syncPage_sec (s : State) (p : Nat) : (s.syncPage p).sec = s.sec :=
  (congrArg State.sec (State.syncPage_frame s p) :)
@[simp] theorem State.syncPage_host (s : State) (p : Nat) : (s.syncPage p).host = s.host :=
  (congrArg State.host (State.syncPage_frame s p) :)
@[simp] theorem State.syncPage_power (s : State) (p : Nat) : (s.syncPage p).power = s.power :=
  (congrArg State.power (State.syncPage_frame s p) :)
@[simp] theorem State.syncPage_movers (s : State) (p : Nat) : (s.syncPage p).movers = s.movers :=
  (congrArg State.movers (State.syncPage_frame s p) :)
@[simp] theorem State.syncPage_desc (s : State) (p : Nat) : (s.syncPage p).desc = s.desc :=
  (congrArg State.desc (State.syncPage_frame s p) :)
@[simp] theorem State.syncPage_descs (s : State) (p : Nat) : (s.syncPage p).descs = s.descs :=
  (congrArg State.descs (State.syncPage_frame s p) :)
@[simp] theorem State.syncPage_cores (s : State) (p : Nat) : (s.syncPage p).cores = s.cores :=
  (congrArg State.cores (State.syncPage_frame s p) :)
@[simp] theorem State.syncPage_stores (s : State) (p : Nat) : (s.syncPage p).stores = s.stores :=
  (congrArg State.stores (State.syncPage_frame s p) :)
@[simp] theorem State.syncPage_answer (s : State) (p : Nat) : (s.syncPage p).answer = s.answer :=
  (congrArg State.answer (State.syncPage_frame s p) :)
@[simp] theorem State.syncPage_out (s : State) (p : Nat) : (s.syncPage p).out = s.out :=
  (congrArg State.out (State.syncPage_frame s p) :)
@[simp] theorem State.syncPage_tick (s : State) (p : Nat) : (s.syncPage p).tick = s.tick :=
  (congrArg State.tick (State.syncPage_frame s p) :)
@[simp] theorem State.syncPage_fresh (s : State) (p : Nat) : (s.syncPage p).fresh = s.fresh :=
  (congrArg State.fresh (State.syncPage_frame s p) :)
@[simp] theorem State.syncPage_pending (s : State) (p : Nat) : (s.syncPage p).pending = s.pending :=
  (congrArg State.pending (State.syncPage_frame s p) :)

/-- All that `raise` changes. -/
theorem State.raise_frame (s : State) (f : Fld) (inst : Nat) :
    { s.raise f inst with regs := s.regs, ic := s.ic } = s := by
  unfold State.raise; apply State.ext <;> simp

@[simp] theorem State.raise_pt (s : State) (f : Fld) (inst : Nat) : (s.raise f inst).pt = s.pt :=
  (congrArg State.pt (State.raise_frame s f inst) :)
@[simp] theorem State.raise_mem (s : State) (f : Fld) (inst : Nat) : (s.raise f inst).mem = s.mem :=
  (congrArg State.mem (State.raise_frame s f inst) :)
@[simp] theorem State.raise_trace (s : State) (f : Fld) (inst : Nat) : (s.raise f inst).trace = s.trace :=
  (congrArg State.trace (State.raise_frame s f inst) :)
@[simp] theorem State.raise_mbx (s : State) (f : Fld) (inst : Nat) : (s.raise f inst).mbx = s.mbx :=
  (congrArg State.mbx (State.raise_frame s f inst) :)
@[simp] theorem State.raise_pour (s : State) (f : Fld) (inst : Nat) : (s.raise f inst).pour = s.pour :=
  (congrArg State.pour (State.raise_frame s f inst) :)
@[simp] theorem State.raise_time (s : State) (f : Fld) (inst : Nat) : (s.raise f inst).time = s.time :=
  (congrArg State.time (State.raise_frame s f inst) :)
@[simp] theorem State.raise_pe (s : State) (f : Fld) (inst : Nat) : (s.raise f inst).pe = s.pe :=
  (congrArg State.pe (State.raise_frame s f inst) :)
@[simp] theorem State.raise_wake (s : State) (f : Fld) (inst : Nat) : (s.raise f inst).wake = s.wake :=
  (congrArg State.wake (State.raise_frame s f inst) :)
@[simp] theorem State.raise_can (s : State) (f : Fld) (inst : Nat) : (s.raise f inst).can = s.can :=
  (congrArg State.can (State.raise_frame s f inst) :)
@[simp] theorem State.raise_eth (s : State) (f : Fld) (inst : Nat) : (s.raise f inst).eth = s.eth :=
  (congrArg State.eth (State.raise_frame s f inst) :)
@[simp] theorem State.raise_ring (s : State) (f : Fld) (inst : Nat) : (s.raise f inst).ring = s.ring :=
  (congrArg State.ring (State.raise_frame s f inst) :)
@[simp] theorem State.raise_sec (s : State) (f : Fld) (inst : Nat) : (s.raise f inst).sec = s.sec :=
  (congrArg State.sec (State.raise_frame s f inst) :)
@[simp] theorem State.raise_host (s : State) (f : Fld) (inst : Nat) : (s.raise f inst).host = s.host :=
  (congrArg State.host (State.raise_frame s f inst) :)
@[simp] theorem State.raise_power (s : State) (f : Fld) (inst : Nat) : (s.raise f inst).power = s.power :=
  (congrArg State.power (State.raise_frame s f inst) :)
@[simp] theorem State.raise_movers (s : State) (f : Fld) (inst : Nat) : (s.raise f inst).movers = s.movers :=
  (congrArg State.movers (State.raise_frame s f inst) :)
@[simp] theorem State.raise_desc (s : State) (f : Fld) (inst : Nat) : (s.raise f inst).desc = s.desc :=
  (congrArg State.desc (State.raise_frame s f inst) :)
@[simp] theorem State.raise_descs (s : State) (f : Fld) (inst : Nat) : (s.raise f inst).descs = s.descs :=
  (congrArg State.descs (State.raise_frame s f inst) :)
@[simp] theorem State.raise_cores (s : State) (f : Fld) (inst : Nat) : (s.raise f inst).cores = s.cores :=
  (congrArg State.cores (State.raise_frame s f inst) :)
@[simp] theorem State.raise_stores (s : State) (f : Fld) (inst : Nat) : (s.raise f inst).stores = s.stores :=
  (congrArg State.stores (State.raise_frame s f inst) :)
@[simp] theorem State.raise_answer (s : State) (f : Fld) (inst : Nat) : (s.raise f inst).answer = s.answer :=
  (congrArg State.answer (State.raise_frame s f inst) :)
@[simp] theorem State.raise_out (s : State) (f : Fld) (inst : Nat) : (s.raise f inst).out = s.out :=
  (congrArg State.out (State.raise_frame s f inst) :)
@[simp] theorem State.raise_tick (s : State) (f : Fld) (inst : Nat) : (s.raise f inst).tick = s.tick :=
  (congrArg State.tick (State.raise_frame s f inst) :)
@[simp] theorem State.raise_fresh (s : State) (f : Fld) (inst : Nat) : (s.raise f inst).fresh = s.fresh :=
  (congrArg State.fresh (State.raise_frame s f inst) :)
@[simp] theorem State.raise_pending (s : State) (f : Fld) (inst : Nat) : (s.raise f inst).pending = s.pending :=
  (congrArg State.pending (State.raise_frame s f inst) :)

/-- All that `raiseBits` changes. -/
theorem State.raiseBits_frame (s : State) (p b : Nat) :
    { s.raiseBits p b with regs := s.regs, ic := s.ic } = s := by
  unfold State.raiseBits; apply State.ext <;> simp

@[simp] theorem State.raiseBits_pt (s : State) (p b : Nat) : (s.raiseBits p b).pt = s.pt :=
  (congrArg State.pt (State.raiseBits_frame s p b) :)
@[simp] theorem State.raiseBits_mem (s : State) (p b : Nat) : (s.raiseBits p b).mem = s.mem :=
  (congrArg State.mem (State.raiseBits_frame s p b) :)
@[simp] theorem State.raiseBits_trace (s : State) (p b : Nat) : (s.raiseBits p b).trace = s.trace :=
  (congrArg State.trace (State.raiseBits_frame s p b) :)
@[simp] theorem State.raiseBits_mbx (s : State) (p b : Nat) : (s.raiseBits p b).mbx = s.mbx :=
  (congrArg State.mbx (State.raiseBits_frame s p b) :)
@[simp] theorem State.raiseBits_pour (s : State) (p b : Nat) : (s.raiseBits p b).pour = s.pour :=
  (congrArg State.pour (State.raiseBits_frame s p b) :)
@[simp] theorem State.raiseBits_time (s : State) (p b : Nat) : (s.raiseBits p b).time = s.time :=
  (congrArg State.time (State.raiseBits_frame s p b) :)
@[simp] theorem State.raiseBits_pe (s : State) (p b : Nat) : (s.raiseBits p b).pe = s.pe :=
  (congrArg State.pe (State.raiseBits_frame s p b) :)
@[simp] theorem State.raiseBits_wake (s : State) (p b : Nat) : (s.raiseBits p b).wake = s.wake :=
  (congrArg State.wake (State.raiseBits_frame s p b) :)
@[simp] theorem State.raiseBits_can (s : State) (p b : Nat) : (s.raiseBits p b).can = s.can :=
  (congrArg State.can (State.raiseBits_frame s p b) :)
@[simp] theorem State.raiseBits_eth (s : State) (p b : Nat) : (s.raiseBits p b).eth = s.eth :=
  (congrArg State.eth (State.raiseBits_frame s p b) :)
@[simp] theorem State.raiseBits_ring (s : State) (p b : Nat) : (s.raiseBits p b).ring = s.ring :=
  (congrArg State.ring (State.raiseBits_frame s p b) :)
@[simp] theorem State.raiseBits_sec (s : State) (p b : Nat) : (s.raiseBits p b).sec = s.sec :=
  (congrArg State.sec (State.raiseBits_frame s p b) :)
@[simp] theorem State.raiseBits_host (s : State) (p b : Nat) : (s.raiseBits p b).host = s.host :=
  (congrArg State.host (State.raiseBits_frame s p b) :)
@[simp] theorem State.raiseBits_power (s : State) (p b : Nat) : (s.raiseBits p b).power = s.power :=
  (congrArg State.power (State.raiseBits_frame s p b) :)
@[simp] theorem State.raiseBits_movers (s : State) (p b : Nat) : (s.raiseBits p b).movers = s.movers :=
  (congrArg State.movers (State.raiseBits_frame s p b) :)
@[simp] theorem State.raiseBits_desc (s : State) (p b : Nat) : (s.raiseBits p b).desc = s.desc :=
  (congrArg State.desc (State.raiseBits_frame s p b) :)
@[simp] theorem State.raiseBits_descs (s : State) (p b : Nat) : (s.raiseBits p b).descs = s.descs :=
  (congrArg State.descs (State.raiseBits_frame s p b) :)
@[simp] theorem State.raiseBits_cores (s : State) (p b : Nat) : (s.raiseBits p b).cores = s.cores :=
  (congrArg State.cores (State.raiseBits_frame s p b) :)
@[simp] theorem State.raiseBits_stores (s : State) (p b : Nat) : (s.raiseBits p b).stores = s.stores :=
  (congrArg State.stores (State.raiseBits_frame s p b) :)
@[simp] theorem State.raiseBits_answer (s : State) (p b : Nat) : (s.raiseBits p b).answer = s.answer :=
  (congrArg State.answer (State.raiseBits_frame s p b) :)
@[simp] theorem State.raiseBits_out (s : State) (p b : Nat) : (s.raiseBits p b).out = s.out :=
  (congrArg State.out (State.raiseBits_frame s p b) :)
@[simp] theorem State.raiseBits_tick (s : State) (p b : Nat) : (s.raiseBits p b).tick = s.tick :=
  (congrArg State.tick (State.raiseBits_frame s p b) :)
@[simp] theorem State.raiseBits_fresh (s : State) (p b : Nat) : (s.raiseBits p b).fresh = s.fresh :=
  (congrArg State.fresh (State.raiseBits_frame s p b) :)
@[simp] theorem State.raiseBits_pending (s : State) (p b : Nat) : (s.raiseBits p b).pending = s.pending :=
  (congrArg State.pending (State.raiseBits_frame s p b) :)

/-- All that `pulse` changes. -/
theorem State.pulse_frame (s : State) (key : Nat) :
    { s.pulse key with ic := s.ic } = s := by
  unfold State.pulse; split <;> rfl

@[simp] theorem State.pulse_regs (s : State) (key : Nat) : (s.pulse key).regs = s.regs :=
  (congrArg State.regs (State.pulse_frame s key) :)
@[simp] theorem State.pulse_pt (s : State) (key : Nat) : (s.pulse key).pt = s.pt :=
  (congrArg State.pt (State.pulse_frame s key) :)
@[simp] theorem State.pulse_mem (s : State) (key : Nat) : (s.pulse key).mem = s.mem :=
  (congrArg State.mem (State.pulse_frame s key) :)
@[simp] theorem State.pulse_trace (s : State) (key : Nat) : (s.pulse key).trace = s.trace :=
  (congrArg State.trace (State.pulse_frame s key) :)
@[simp] theorem State.pulse_mbx (s : State) (key : Nat) : (s.pulse key).mbx = s.mbx :=
  (congrArg State.mbx (State.pulse_frame s key) :)
@[simp] theorem State.pulse_pour (s : State) (key : Nat) : (s.pulse key).pour = s.pour :=
  (congrArg State.pour (State.pulse_frame s key) :)
@[simp] theorem State.pulse_time (s : State) (key : Nat) : (s.pulse key).time = s.time :=
  (congrArg State.time (State.pulse_frame s key) :)
@[simp] theorem State.pulse_pe (s : State) (key : Nat) : (s.pulse key).pe = s.pe :=
  (congrArg State.pe (State.pulse_frame s key) :)
@[simp] theorem State.pulse_wake (s : State) (key : Nat) : (s.pulse key).wake = s.wake :=
  (congrArg State.wake (State.pulse_frame s key) :)
@[simp] theorem State.pulse_can (s : State) (key : Nat) : (s.pulse key).can = s.can :=
  (congrArg State.can (State.pulse_frame s key) :)
@[simp] theorem State.pulse_eth (s : State) (key : Nat) : (s.pulse key).eth = s.eth :=
  (congrArg State.eth (State.pulse_frame s key) :)
@[simp] theorem State.pulse_ring (s : State) (key : Nat) : (s.pulse key).ring = s.ring :=
  (congrArg State.ring (State.pulse_frame s key) :)
@[simp] theorem State.pulse_sec (s : State) (key : Nat) : (s.pulse key).sec = s.sec :=
  (congrArg State.sec (State.pulse_frame s key) :)
@[simp] theorem State.pulse_host (s : State) (key : Nat) : (s.pulse key).host = s.host :=
  (congrArg State.host (State.pulse_frame s key) :)
@[simp] theorem State.pulse_power (s : State) (key : Nat) : (s.pulse key).power = s.power :=
  (congrArg State.power (State.pulse_frame s key) :)
@[simp] theorem State.pulse_movers (s : State) (key : Nat) : (s.pulse key).movers = s.movers :=
  (congrArg State.movers (State.pulse_frame s key) :)
@[simp] theorem State.pulse_desc (s : State) (key : Nat) : (s.pulse key).desc = s.desc :=
  (congrArg State.desc (State.pulse_frame s key) :)
@[simp] theorem State.pulse_descs (s : State) (key : Nat) : (s.pulse key).descs = s.descs :=
  (congrArg State.descs (State.pulse_frame s key) :)
@[simp] theorem State.pulse_cores (s : State) (key : Nat) : (s.pulse key).cores = s.cores :=
  (congrArg State.cores (State.pulse_frame s key) :)
@[simp] theorem State.pulse_stores (s : State) (key : Nat) : (s.pulse key).stores = s.stores :=
  (congrArg State.stores (State.pulse_frame s key) :)
@[simp] theorem State.pulse_answer (s : State) (key : Nat) : (s.pulse key).answer = s.answer :=
  (congrArg State.answer (State.pulse_frame s key) :)
@[simp] theorem State.pulse_out (s : State) (key : Nat) : (s.pulse key).out = s.out :=
  (congrArg State.out (State.pulse_frame s key) :)
@[simp] theorem State.pulse_tick (s : State) (key : Nat) : (s.pulse key).tick = s.tick :=
  (congrArg State.tick (State.pulse_frame s key) :)
@[simp] theorem State.pulse_fresh (s : State) (key : Nat) : (s.pulse key).fresh = s.fresh :=
  (congrArg State.fresh (State.pulse_frame s key) :)
@[simp] theorem State.pulse_pending (s : State) (key : Nat) : (s.pulse key).pending = s.pending :=
  (congrArg State.pending (State.pulse_frame s key) :)

theorem State.syncPage_setRegs (s : State) (a b : Nat) (v w : Word) (p : Nat) :
    { (((s.setReg a v).setReg b w).syncPage p) with regs := s.regs, ic := s.ic } = s := by
  apply State.ext <;> simp

/-- All that `capture` changes. -/
theorem State.capture_frame (s : State) (p : Nat) (who : Initiator) (write : Bool) (size cause addr : Nat) :
    { s.capture p who write size cause addr with regs := s.regs, ic := s.ic } = s := by
  unfold State.capture; split
  · rfl
  · exact State.syncPage_setRegs s _ _ _ _ p

@[simp] theorem State.capture_pt (s : State) (p : Nat) (who : Initiator) (write : Bool) (size cause addr : Nat) : (s.capture p who write size cause addr).pt = s.pt :=
  (congrArg State.pt (State.capture_frame s p who write size cause addr) :)
@[simp] theorem State.capture_mem (s : State) (p : Nat) (who : Initiator) (write : Bool) (size cause addr : Nat) : (s.capture p who write size cause addr).mem = s.mem :=
  (congrArg State.mem (State.capture_frame s p who write size cause addr) :)
@[simp] theorem State.capture_trace (s : State) (p : Nat) (who : Initiator) (write : Bool) (size cause addr : Nat) : (s.capture p who write size cause addr).trace = s.trace :=
  (congrArg State.trace (State.capture_frame s p who write size cause addr) :)
@[simp] theorem State.capture_mbx (s : State) (p : Nat) (who : Initiator) (write : Bool) (size cause addr : Nat) : (s.capture p who write size cause addr).mbx = s.mbx :=
  (congrArg State.mbx (State.capture_frame s p who write size cause addr) :)
@[simp] theorem State.capture_pour (s : State) (p : Nat) (who : Initiator) (write : Bool) (size cause addr : Nat) : (s.capture p who write size cause addr).pour = s.pour :=
  (congrArg State.pour (State.capture_frame s p who write size cause addr) :)
@[simp] theorem State.capture_time (s : State) (p : Nat) (who : Initiator) (write : Bool) (size cause addr : Nat) : (s.capture p who write size cause addr).time = s.time :=
  (congrArg State.time (State.capture_frame s p who write size cause addr) :)
@[simp] theorem State.capture_pe (s : State) (p : Nat) (who : Initiator) (write : Bool) (size cause addr : Nat) : (s.capture p who write size cause addr).pe = s.pe :=
  (congrArg State.pe (State.capture_frame s p who write size cause addr) :)
@[simp] theorem State.capture_wake (s : State) (p : Nat) (who : Initiator) (write : Bool) (size cause addr : Nat) : (s.capture p who write size cause addr).wake = s.wake :=
  (congrArg State.wake (State.capture_frame s p who write size cause addr) :)
@[simp] theorem State.capture_can (s : State) (p : Nat) (who : Initiator) (write : Bool) (size cause addr : Nat) : (s.capture p who write size cause addr).can = s.can :=
  (congrArg State.can (State.capture_frame s p who write size cause addr) :)
@[simp] theorem State.capture_eth (s : State) (p : Nat) (who : Initiator) (write : Bool) (size cause addr : Nat) : (s.capture p who write size cause addr).eth = s.eth :=
  (congrArg State.eth (State.capture_frame s p who write size cause addr) :)
@[simp] theorem State.capture_ring (s : State) (p : Nat) (who : Initiator) (write : Bool) (size cause addr : Nat) : (s.capture p who write size cause addr).ring = s.ring :=
  (congrArg State.ring (State.capture_frame s p who write size cause addr) :)
@[simp] theorem State.capture_sec (s : State) (p : Nat) (who : Initiator) (write : Bool) (size cause addr : Nat) : (s.capture p who write size cause addr).sec = s.sec :=
  (congrArg State.sec (State.capture_frame s p who write size cause addr) :)
@[simp] theorem State.capture_host (s : State) (p : Nat) (who : Initiator) (write : Bool) (size cause addr : Nat) : (s.capture p who write size cause addr).host = s.host :=
  (congrArg State.host (State.capture_frame s p who write size cause addr) :)
@[simp] theorem State.capture_power (s : State) (p : Nat) (who : Initiator) (write : Bool) (size cause addr : Nat) : (s.capture p who write size cause addr).power = s.power :=
  (congrArg State.power (State.capture_frame s p who write size cause addr) :)
@[simp] theorem State.capture_movers (s : State) (p : Nat) (who : Initiator) (write : Bool) (size cause addr : Nat) : (s.capture p who write size cause addr).movers = s.movers :=
  (congrArg State.movers (State.capture_frame s p who write size cause addr) :)
@[simp] theorem State.capture_desc (s : State) (p : Nat) (who : Initiator) (write : Bool) (size cause addr : Nat) : (s.capture p who write size cause addr).desc = s.desc :=
  (congrArg State.desc (State.capture_frame s p who write size cause addr) :)
@[simp] theorem State.capture_descs (s : State) (p : Nat) (who : Initiator) (write : Bool) (size cause addr : Nat) : (s.capture p who write size cause addr).descs = s.descs :=
  (congrArg State.descs (State.capture_frame s p who write size cause addr) :)
@[simp] theorem State.capture_cores (s : State) (p : Nat) (who : Initiator) (write : Bool) (size cause addr : Nat) : (s.capture p who write size cause addr).cores = s.cores :=
  (congrArg State.cores (State.capture_frame s p who write size cause addr) :)
@[simp] theorem State.capture_stores (s : State) (p : Nat) (who : Initiator) (write : Bool) (size cause addr : Nat) : (s.capture p who write size cause addr).stores = s.stores :=
  (congrArg State.stores (State.capture_frame s p who write size cause addr) :)
@[simp] theorem State.capture_answer (s : State) (p : Nat) (who : Initiator) (write : Bool) (size cause addr : Nat) : (s.capture p who write size cause addr).answer = s.answer :=
  (congrArg State.answer (State.capture_frame s p who write size cause addr) :)
@[simp] theorem State.capture_out (s : State) (p : Nat) (who : Initiator) (write : Bool) (size cause addr : Nat) : (s.capture p who write size cause addr).out = s.out :=
  (congrArg State.out (State.capture_frame s p who write size cause addr) :)
@[simp] theorem State.capture_tick (s : State) (p : Nat) (who : Initiator) (write : Bool) (size cause addr : Nat) : (s.capture p who write size cause addr).tick = s.tick :=
  (congrArg State.tick (State.capture_frame s p who write size cause addr) :)
@[simp] theorem State.capture_fresh (s : State) (p : Nat) (who : Initiator) (write : Bool) (size cause addr : Nat) : (s.capture p who write size cause addr).fresh = s.fresh :=
  (congrArg State.fresh (State.capture_frame s p who write size cause addr) :)
@[simp] theorem State.capture_pending (s : State) (p : Nat) (who : Initiator) (write : Bool) (size cause addr : Nat) : (s.capture p who write size cause addr).pending = s.pending :=
  (congrArg State.pending (State.capture_frame s p who write size cause addr) :)

/-- All that `pageErr` changes. -/
theorem State.pageErr_frame (s : State) (p : Nat) (who : Initiator) (write : Bool) (cause addr : Nat) :
    { s.pageErr p who write cause addr with regs := s.regs, ic := s.ic, answer := s.answer } = s := by
  unfold State.pageErr; apply State.ext <;> simp

@[simp] theorem State.pageErr_pt (s : State) (p : Nat) (who : Initiator) (write : Bool) (cause addr : Nat) : (s.pageErr p who write cause addr).pt = s.pt :=
  (congrArg State.pt (State.pageErr_frame s p who write cause addr) :)
@[simp] theorem State.pageErr_mem (s : State) (p : Nat) (who : Initiator) (write : Bool) (cause addr : Nat) : (s.pageErr p who write cause addr).mem = s.mem :=
  (congrArg State.mem (State.pageErr_frame s p who write cause addr) :)
@[simp] theorem State.pageErr_trace (s : State) (p : Nat) (who : Initiator) (write : Bool) (cause addr : Nat) : (s.pageErr p who write cause addr).trace = s.trace :=
  (congrArg State.trace (State.pageErr_frame s p who write cause addr) :)
@[simp] theorem State.pageErr_mbx (s : State) (p : Nat) (who : Initiator) (write : Bool) (cause addr : Nat) : (s.pageErr p who write cause addr).mbx = s.mbx :=
  (congrArg State.mbx (State.pageErr_frame s p who write cause addr) :)
@[simp] theorem State.pageErr_pour (s : State) (p : Nat) (who : Initiator) (write : Bool) (cause addr : Nat) : (s.pageErr p who write cause addr).pour = s.pour :=
  (congrArg State.pour (State.pageErr_frame s p who write cause addr) :)
@[simp] theorem State.pageErr_time (s : State) (p : Nat) (who : Initiator) (write : Bool) (cause addr : Nat) : (s.pageErr p who write cause addr).time = s.time :=
  (congrArg State.time (State.pageErr_frame s p who write cause addr) :)
@[simp] theorem State.pageErr_pe (s : State) (p : Nat) (who : Initiator) (write : Bool) (cause addr : Nat) : (s.pageErr p who write cause addr).pe = s.pe :=
  (congrArg State.pe (State.pageErr_frame s p who write cause addr) :)
@[simp] theorem State.pageErr_wake (s : State) (p : Nat) (who : Initiator) (write : Bool) (cause addr : Nat) : (s.pageErr p who write cause addr).wake = s.wake :=
  (congrArg State.wake (State.pageErr_frame s p who write cause addr) :)
@[simp] theorem State.pageErr_can (s : State) (p : Nat) (who : Initiator) (write : Bool) (cause addr : Nat) : (s.pageErr p who write cause addr).can = s.can :=
  (congrArg State.can (State.pageErr_frame s p who write cause addr) :)
@[simp] theorem State.pageErr_eth (s : State) (p : Nat) (who : Initiator) (write : Bool) (cause addr : Nat) : (s.pageErr p who write cause addr).eth = s.eth :=
  (congrArg State.eth (State.pageErr_frame s p who write cause addr) :)
@[simp] theorem State.pageErr_ring (s : State) (p : Nat) (who : Initiator) (write : Bool) (cause addr : Nat) : (s.pageErr p who write cause addr).ring = s.ring :=
  (congrArg State.ring (State.pageErr_frame s p who write cause addr) :)
@[simp] theorem State.pageErr_sec (s : State) (p : Nat) (who : Initiator) (write : Bool) (cause addr : Nat) : (s.pageErr p who write cause addr).sec = s.sec :=
  (congrArg State.sec (State.pageErr_frame s p who write cause addr) :)
@[simp] theorem State.pageErr_host (s : State) (p : Nat) (who : Initiator) (write : Bool) (cause addr : Nat) : (s.pageErr p who write cause addr).host = s.host :=
  (congrArg State.host (State.pageErr_frame s p who write cause addr) :)
@[simp] theorem State.pageErr_power (s : State) (p : Nat) (who : Initiator) (write : Bool) (cause addr : Nat) : (s.pageErr p who write cause addr).power = s.power :=
  (congrArg State.power (State.pageErr_frame s p who write cause addr) :)
@[simp] theorem State.pageErr_movers (s : State) (p : Nat) (who : Initiator) (write : Bool) (cause addr : Nat) : (s.pageErr p who write cause addr).movers = s.movers :=
  (congrArg State.movers (State.pageErr_frame s p who write cause addr) :)
@[simp] theorem State.pageErr_desc (s : State) (p : Nat) (who : Initiator) (write : Bool) (cause addr : Nat) : (s.pageErr p who write cause addr).desc = s.desc :=
  (congrArg State.desc (State.pageErr_frame s p who write cause addr) :)
@[simp] theorem State.pageErr_descs (s : State) (p : Nat) (who : Initiator) (write : Bool) (cause addr : Nat) : (s.pageErr p who write cause addr).descs = s.descs :=
  (congrArg State.descs (State.pageErr_frame s p who write cause addr) :)
@[simp] theorem State.pageErr_cores (s : State) (p : Nat) (who : Initiator) (write : Bool) (cause addr : Nat) : (s.pageErr p who write cause addr).cores = s.cores :=
  (congrArg State.cores (State.pageErr_frame s p who write cause addr) :)
@[simp] theorem State.pageErr_stores (s : State) (p : Nat) (who : Initiator) (write : Bool) (cause addr : Nat) : (s.pageErr p who write cause addr).stores = s.stores :=
  (congrArg State.stores (State.pageErr_frame s p who write cause addr) :)
@[simp] theorem State.pageErr_out (s : State) (p : Nat) (who : Initiator) (write : Bool) (cause addr : Nat) : (s.pageErr p who write cause addr).out = s.out :=
  (congrArg State.out (State.pageErr_frame s p who write cause addr) :)
@[simp] theorem State.pageErr_tick (s : State) (p : Nat) (who : Initiator) (write : Bool) (cause addr : Nat) : (s.pageErr p who write cause addr).tick = s.tick :=
  (congrArg State.tick (State.pageErr_frame s p who write cause addr) :)
@[simp] theorem State.pageErr_fresh (s : State) (p : Nat) (who : Initiator) (write : Bool) (cause addr : Nat) : (s.pageErr p who write cause addr).fresh = s.fresh :=
  (congrArg State.fresh (State.pageErr_frame s p who write cause addr) :)
@[simp] theorem State.pageErr_pending (s : State) (p : Nat) (who : Initiator) (write : Bool) (cause addr : Nat) : (s.pageErr p who write cause addr).pending = s.pending :=
  (congrArg State.pending (State.pageErr_frame s p who write cause addr) :)

/-- All that `statusSet` changes. -/
theorem State.statusSet_frame (s : State) (i v : Nat) :
    { s.statusSet i v with pt := s.pt } = s := by
  rfl

@[simp] theorem State.statusSet_regs (s : State) (i v : Nat) : (s.statusSet i v).regs = s.regs :=
  (congrArg State.regs (State.statusSet_frame s i v) :)
@[simp] theorem State.statusSet_mem (s : State) (i v : Nat) : (s.statusSet i v).mem = s.mem :=
  (congrArg State.mem (State.statusSet_frame s i v) :)
@[simp] theorem State.statusSet_trace (s : State) (i v : Nat) : (s.statusSet i v).trace = s.trace :=
  (congrArg State.trace (State.statusSet_frame s i v) :)
@[simp] theorem State.statusSet_ic (s : State) (i v : Nat) : (s.statusSet i v).ic = s.ic :=
  (congrArg State.ic (State.statusSet_frame s i v) :)
@[simp] theorem State.statusSet_mbx (s : State) (i v : Nat) : (s.statusSet i v).mbx = s.mbx :=
  (congrArg State.mbx (State.statusSet_frame s i v) :)
@[simp] theorem State.statusSet_pour (s : State) (i v : Nat) : (s.statusSet i v).pour = s.pour :=
  (congrArg State.pour (State.statusSet_frame s i v) :)
@[simp] theorem State.statusSet_time (s : State) (i v : Nat) : (s.statusSet i v).time = s.time :=
  (congrArg State.time (State.statusSet_frame s i v) :)
@[simp] theorem State.statusSet_pe (s : State) (i v : Nat) : (s.statusSet i v).pe = s.pe :=
  (congrArg State.pe (State.statusSet_frame s i v) :)
@[simp] theorem State.statusSet_wake (s : State) (i v : Nat) : (s.statusSet i v).wake = s.wake :=
  (congrArg State.wake (State.statusSet_frame s i v) :)
@[simp] theorem State.statusSet_can (s : State) (i v : Nat) : (s.statusSet i v).can = s.can :=
  (congrArg State.can (State.statusSet_frame s i v) :)
@[simp] theorem State.statusSet_eth (s : State) (i v : Nat) : (s.statusSet i v).eth = s.eth :=
  (congrArg State.eth (State.statusSet_frame s i v) :)
@[simp] theorem State.statusSet_ring (s : State) (i v : Nat) : (s.statusSet i v).ring = s.ring :=
  (congrArg State.ring (State.statusSet_frame s i v) :)
@[simp] theorem State.statusSet_sec (s : State) (i v : Nat) : (s.statusSet i v).sec = s.sec :=
  (congrArg State.sec (State.statusSet_frame s i v) :)
@[simp] theorem State.statusSet_host (s : State) (i v : Nat) : (s.statusSet i v).host = s.host :=
  (congrArg State.host (State.statusSet_frame s i v) :)
@[simp] theorem State.statusSet_power (s : State) (i v : Nat) : (s.statusSet i v).power = s.power :=
  (congrArg State.power (State.statusSet_frame s i v) :)
@[simp] theorem State.statusSet_movers (s : State) (i v : Nat) : (s.statusSet i v).movers = s.movers :=
  (congrArg State.movers (State.statusSet_frame s i v) :)
@[simp] theorem State.statusSet_desc (s : State) (i v : Nat) : (s.statusSet i v).desc = s.desc :=
  (congrArg State.desc (State.statusSet_frame s i v) :)
@[simp] theorem State.statusSet_descs (s : State) (i v : Nat) : (s.statusSet i v).descs = s.descs :=
  (congrArg State.descs (State.statusSet_frame s i v) :)
@[simp] theorem State.statusSet_cores (s : State) (i v : Nat) : (s.statusSet i v).cores = s.cores :=
  (congrArg State.cores (State.statusSet_frame s i v) :)
@[simp] theorem State.statusSet_stores (s : State) (i v : Nat) : (s.statusSet i v).stores = s.stores :=
  (congrArg State.stores (State.statusSet_frame s i v) :)
@[simp] theorem State.statusSet_answer (s : State) (i v : Nat) : (s.statusSet i v).answer = s.answer :=
  (congrArg State.answer (State.statusSet_frame s i v) :)
@[simp] theorem State.statusSet_out (s : State) (i v : Nat) : (s.statusSet i v).out = s.out :=
  (congrArg State.out (State.statusSet_frame s i v) :)
@[simp] theorem State.statusSet_tick (s : State) (i v : Nat) : (s.statusSet i v).tick = s.tick :=
  (congrArg State.tick (State.statusSet_frame s i v) :)
@[simp] theorem State.statusSet_fresh (s : State) (i v : Nat) : (s.statusSet i v).fresh = s.fresh :=
  (congrArg State.fresh (State.statusSet_frame s i v) :)
@[simp] theorem State.statusSet_pending (s : State) (i v : Nat) : (s.statusSet i v).pending = s.pending :=
  (congrArg State.pending (State.statusSet_frame s i v) :)

/-- All that `statusCount` changes. -/
theorem State.statusCount_frame (s : State) (i : Nat) :
    { s.statusCount i with pt := s.pt } = s := by
  rfl

@[simp] theorem State.statusCount_regs (s : State) (i : Nat) : (s.statusCount i).regs = s.regs :=
  (congrArg State.regs (State.statusCount_frame s i) :)
@[simp] theorem State.statusCount_mem (s : State) (i : Nat) : (s.statusCount i).mem = s.mem :=
  (congrArg State.mem (State.statusCount_frame s i) :)
@[simp] theorem State.statusCount_trace (s : State) (i : Nat) : (s.statusCount i).trace = s.trace :=
  (congrArg State.trace (State.statusCount_frame s i) :)
@[simp] theorem State.statusCount_ic (s : State) (i : Nat) : (s.statusCount i).ic = s.ic :=
  (congrArg State.ic (State.statusCount_frame s i) :)
@[simp] theorem State.statusCount_mbx (s : State) (i : Nat) : (s.statusCount i).mbx = s.mbx :=
  (congrArg State.mbx (State.statusCount_frame s i) :)
@[simp] theorem State.statusCount_pour (s : State) (i : Nat) : (s.statusCount i).pour = s.pour :=
  (congrArg State.pour (State.statusCount_frame s i) :)
@[simp] theorem State.statusCount_time (s : State) (i : Nat) : (s.statusCount i).time = s.time :=
  (congrArg State.time (State.statusCount_frame s i) :)
@[simp] theorem State.statusCount_pe (s : State) (i : Nat) : (s.statusCount i).pe = s.pe :=
  (congrArg State.pe (State.statusCount_frame s i) :)
@[simp] theorem State.statusCount_wake (s : State) (i : Nat) : (s.statusCount i).wake = s.wake :=
  (congrArg State.wake (State.statusCount_frame s i) :)
@[simp] theorem State.statusCount_can (s : State) (i : Nat) : (s.statusCount i).can = s.can :=
  (congrArg State.can (State.statusCount_frame s i) :)
@[simp] theorem State.statusCount_eth (s : State) (i : Nat) : (s.statusCount i).eth = s.eth :=
  (congrArg State.eth (State.statusCount_frame s i) :)
@[simp] theorem State.statusCount_ring (s : State) (i : Nat) : (s.statusCount i).ring = s.ring :=
  (congrArg State.ring (State.statusCount_frame s i) :)
@[simp] theorem State.statusCount_sec (s : State) (i : Nat) : (s.statusCount i).sec = s.sec :=
  (congrArg State.sec (State.statusCount_frame s i) :)
@[simp] theorem State.statusCount_host (s : State) (i : Nat) : (s.statusCount i).host = s.host :=
  (congrArg State.host (State.statusCount_frame s i) :)
@[simp] theorem State.statusCount_power (s : State) (i : Nat) : (s.statusCount i).power = s.power :=
  (congrArg State.power (State.statusCount_frame s i) :)
@[simp] theorem State.statusCount_movers (s : State) (i : Nat) : (s.statusCount i).movers = s.movers :=
  (congrArg State.movers (State.statusCount_frame s i) :)
@[simp] theorem State.statusCount_desc (s : State) (i : Nat) : (s.statusCount i).desc = s.desc :=
  (congrArg State.desc (State.statusCount_frame s i) :)
@[simp] theorem State.statusCount_descs (s : State) (i : Nat) : (s.statusCount i).descs = s.descs :=
  (congrArg State.descs (State.statusCount_frame s i) :)
@[simp] theorem State.statusCount_cores (s : State) (i : Nat) : (s.statusCount i).cores = s.cores :=
  (congrArg State.cores (State.statusCount_frame s i) :)
@[simp] theorem State.statusCount_stores (s : State) (i : Nat) : (s.statusCount i).stores = s.stores :=
  (congrArg State.stores (State.statusCount_frame s i) :)
@[simp] theorem State.statusCount_answer (s : State) (i : Nat) : (s.statusCount i).answer = s.answer :=
  (congrArg State.answer (State.statusCount_frame s i) :)
@[simp] theorem State.statusCount_out (s : State) (i : Nat) : (s.statusCount i).out = s.out :=
  (congrArg State.out (State.statusCount_frame s i) :)
@[simp] theorem State.statusCount_tick (s : State) (i : Nat) : (s.statusCount i).tick = s.tick :=
  (congrArg State.tick (State.statusCount_frame s i) :)
@[simp] theorem State.statusCount_fresh (s : State) (i : Nat) : (s.statusCount i).fresh = s.fresh :=
  (congrArg State.fresh (State.statusCount_frame s i) :)
@[simp] theorem State.statusCount_pending (s : State) (i : Nat) : (s.statusCount i).pending = s.pending :=
  (congrArg State.pending (State.statusCount_frame s i) :)

/-- All that `traceDrop` changes. -/
theorem State.traceDrop_frame (s : State) (c : TraceClass) :
    { s.traceDrop c with trace := s.trace, regs := s.regs, pt := s.pt } = s := by
  cases c <;> rfl

@[simp] theorem State.traceDrop_mem (s : State) (c : TraceClass) : (s.traceDrop c).mem = s.mem :=
  (congrArg State.mem (State.traceDrop_frame s c) :)
@[simp] theorem State.traceDrop_ic (s : State) (c : TraceClass) : (s.traceDrop c).ic = s.ic :=
  (congrArg State.ic (State.traceDrop_frame s c) :)
@[simp] theorem State.traceDrop_mbx (s : State) (c : TraceClass) : (s.traceDrop c).mbx = s.mbx :=
  (congrArg State.mbx (State.traceDrop_frame s c) :)
@[simp] theorem State.traceDrop_pour (s : State) (c : TraceClass) : (s.traceDrop c).pour = s.pour :=
  (congrArg State.pour (State.traceDrop_frame s c) :)
@[simp] theorem State.traceDrop_time (s : State) (c : TraceClass) : (s.traceDrop c).time = s.time :=
  (congrArg State.time (State.traceDrop_frame s c) :)
@[simp] theorem State.traceDrop_pe (s : State) (c : TraceClass) : (s.traceDrop c).pe = s.pe :=
  (congrArg State.pe (State.traceDrop_frame s c) :)
@[simp] theorem State.traceDrop_wake (s : State) (c : TraceClass) : (s.traceDrop c).wake = s.wake :=
  (congrArg State.wake (State.traceDrop_frame s c) :)
@[simp] theorem State.traceDrop_can (s : State) (c : TraceClass) : (s.traceDrop c).can = s.can :=
  (congrArg State.can (State.traceDrop_frame s c) :)
@[simp] theorem State.traceDrop_eth (s : State) (c : TraceClass) : (s.traceDrop c).eth = s.eth :=
  (congrArg State.eth (State.traceDrop_frame s c) :)
@[simp] theorem State.traceDrop_ring (s : State) (c : TraceClass) : (s.traceDrop c).ring = s.ring :=
  (congrArg State.ring (State.traceDrop_frame s c) :)
@[simp] theorem State.traceDrop_sec (s : State) (c : TraceClass) : (s.traceDrop c).sec = s.sec :=
  (congrArg State.sec (State.traceDrop_frame s c) :)
@[simp] theorem State.traceDrop_host (s : State) (c : TraceClass) : (s.traceDrop c).host = s.host :=
  (congrArg State.host (State.traceDrop_frame s c) :)
@[simp] theorem State.traceDrop_power (s : State) (c : TraceClass) : (s.traceDrop c).power = s.power :=
  (congrArg State.power (State.traceDrop_frame s c) :)
@[simp] theorem State.traceDrop_movers (s : State) (c : TraceClass) : (s.traceDrop c).movers = s.movers :=
  (congrArg State.movers (State.traceDrop_frame s c) :)
@[simp] theorem State.traceDrop_desc (s : State) (c : TraceClass) : (s.traceDrop c).desc = s.desc :=
  (congrArg State.desc (State.traceDrop_frame s c) :)
@[simp] theorem State.traceDrop_descs (s : State) (c : TraceClass) : (s.traceDrop c).descs = s.descs :=
  (congrArg State.descs (State.traceDrop_frame s c) :)
@[simp] theorem State.traceDrop_cores (s : State) (c : TraceClass) : (s.traceDrop c).cores = s.cores :=
  (congrArg State.cores (State.traceDrop_frame s c) :)
@[simp] theorem State.traceDrop_stores (s : State) (c : TraceClass) : (s.traceDrop c).stores = s.stores :=
  (congrArg State.stores (State.traceDrop_frame s c) :)
@[simp] theorem State.traceDrop_answer (s : State) (c : TraceClass) : (s.traceDrop c).answer = s.answer :=
  (congrArg State.answer (State.traceDrop_frame s c) :)
@[simp] theorem State.traceDrop_out (s : State) (c : TraceClass) : (s.traceDrop c).out = s.out :=
  (congrArg State.out (State.traceDrop_frame s c) :)
@[simp] theorem State.traceDrop_tick (s : State) (c : TraceClass) : (s.traceDrop c).tick = s.tick :=
  (congrArg State.tick (State.traceDrop_frame s c) :)
@[simp] theorem State.traceDrop_fresh (s : State) (c : TraceClass) : (s.traceDrop c).fresh = s.fresh :=
  (congrArg State.fresh (State.traceDrop_frame s c) :)
@[simp] theorem State.traceDrop_pending (s : State) (c : TraceClass) : (s.traceDrop c).pending = s.pending :=
  (congrArg State.pending (State.traceDrop_frame s c) :)

/-- All that `queueRec` changes. -/
theorem State.queueRec_frame (s : State) (r : TraceRec) :
    { s.queueRec r with trace := s.trace, regs := s.regs, pt := s.pt } = s := by
  unfold State.queueRec; split
  · rfl
  · exact State.traceDrop_frame s _

@[simp] theorem State.queueRec_mem (s : State) (r : TraceRec) : (s.queueRec r).mem = s.mem :=
  (congrArg State.mem (State.queueRec_frame s r) :)
@[simp] theorem State.queueRec_ic (s : State) (r : TraceRec) : (s.queueRec r).ic = s.ic :=
  (congrArg State.ic (State.queueRec_frame s r) :)
@[simp] theorem State.queueRec_mbx (s : State) (r : TraceRec) : (s.queueRec r).mbx = s.mbx :=
  (congrArg State.mbx (State.queueRec_frame s r) :)
@[simp] theorem State.queueRec_pour (s : State) (r : TraceRec) : (s.queueRec r).pour = s.pour :=
  (congrArg State.pour (State.queueRec_frame s r) :)
@[simp] theorem State.queueRec_time (s : State) (r : TraceRec) : (s.queueRec r).time = s.time :=
  (congrArg State.time (State.queueRec_frame s r) :)
@[simp] theorem State.queueRec_pe (s : State) (r : TraceRec) : (s.queueRec r).pe = s.pe :=
  (congrArg State.pe (State.queueRec_frame s r) :)
@[simp] theorem State.queueRec_wake (s : State) (r : TraceRec) : (s.queueRec r).wake = s.wake :=
  (congrArg State.wake (State.queueRec_frame s r) :)
@[simp] theorem State.queueRec_can (s : State) (r : TraceRec) : (s.queueRec r).can = s.can :=
  (congrArg State.can (State.queueRec_frame s r) :)
@[simp] theorem State.queueRec_eth (s : State) (r : TraceRec) : (s.queueRec r).eth = s.eth :=
  (congrArg State.eth (State.queueRec_frame s r) :)
@[simp] theorem State.queueRec_ring (s : State) (r : TraceRec) : (s.queueRec r).ring = s.ring :=
  (congrArg State.ring (State.queueRec_frame s r) :)
@[simp] theorem State.queueRec_sec (s : State) (r : TraceRec) : (s.queueRec r).sec = s.sec :=
  (congrArg State.sec (State.queueRec_frame s r) :)
@[simp] theorem State.queueRec_host (s : State) (r : TraceRec) : (s.queueRec r).host = s.host :=
  (congrArg State.host (State.queueRec_frame s r) :)
@[simp] theorem State.queueRec_power (s : State) (r : TraceRec) : (s.queueRec r).power = s.power :=
  (congrArg State.power (State.queueRec_frame s r) :)
@[simp] theorem State.queueRec_movers (s : State) (r : TraceRec) : (s.queueRec r).movers = s.movers :=
  (congrArg State.movers (State.queueRec_frame s r) :)
@[simp] theorem State.queueRec_desc (s : State) (r : TraceRec) : (s.queueRec r).desc = s.desc :=
  (congrArg State.desc (State.queueRec_frame s r) :)
@[simp] theorem State.queueRec_descs (s : State) (r : TraceRec) : (s.queueRec r).descs = s.descs :=
  (congrArg State.descs (State.queueRec_frame s r) :)
@[simp] theorem State.queueRec_cores (s : State) (r : TraceRec) : (s.queueRec r).cores = s.cores :=
  (congrArg State.cores (State.queueRec_frame s r) :)
@[simp] theorem State.queueRec_stores (s : State) (r : TraceRec) : (s.queueRec r).stores = s.stores :=
  (congrArg State.stores (State.queueRec_frame s r) :)
@[simp] theorem State.queueRec_answer (s : State) (r : TraceRec) : (s.queueRec r).answer = s.answer :=
  (congrArg State.answer (State.queueRec_frame s r) :)
@[simp] theorem State.queueRec_out (s : State) (r : TraceRec) : (s.queueRec r).out = s.out :=
  (congrArg State.out (State.queueRec_frame s r) :)
@[simp] theorem State.queueRec_tick (s : State) (r : TraceRec) : (s.queueRec r).tick = s.tick :=
  (congrArg State.tick (State.queueRec_frame s r) :)
@[simp] theorem State.queueRec_fresh (s : State) (r : TraceRec) : (s.queueRec r).fresh = s.fresh :=
  (congrArg State.fresh (State.queueRec_frame s r) :)
@[simp] theorem State.queueRec_pending (s : State) (r : TraceRec) : (s.queueRec r).pending = s.pending :=
  (congrArg State.pending (State.queueRec_frame s r) :)

/-- All that `placeOffers` changes. -/
theorem State.placeOffers_frame (s : State) :
    { s.placeOffers with trace := s.trace } = s := by
  rfl

@[simp] theorem State.placeOffers_regs (s : State) : (s.placeOffers).regs = s.regs :=
  (congrArg State.regs (State.placeOffers_frame s) :)
@[simp] theorem State.placeOffers_pt (s : State) : (s.placeOffers).pt = s.pt :=
  (congrArg State.pt (State.placeOffers_frame s) :)
@[simp] theorem State.placeOffers_mem (s : State) : (s.placeOffers).mem = s.mem :=
  (congrArg State.mem (State.placeOffers_frame s) :)
@[simp] theorem State.placeOffers_ic (s : State) : (s.placeOffers).ic = s.ic :=
  (congrArg State.ic (State.placeOffers_frame s) :)
@[simp] theorem State.placeOffers_mbx (s : State) : (s.placeOffers).mbx = s.mbx :=
  (congrArg State.mbx (State.placeOffers_frame s) :)
@[simp] theorem State.placeOffers_pour (s : State) : (s.placeOffers).pour = s.pour :=
  (congrArg State.pour (State.placeOffers_frame s) :)
@[simp] theorem State.placeOffers_time (s : State) : (s.placeOffers).time = s.time :=
  (congrArg State.time (State.placeOffers_frame s) :)
@[simp] theorem State.placeOffers_pe (s : State) : (s.placeOffers).pe = s.pe :=
  (congrArg State.pe (State.placeOffers_frame s) :)
@[simp] theorem State.placeOffers_wake (s : State) : (s.placeOffers).wake = s.wake :=
  (congrArg State.wake (State.placeOffers_frame s) :)
@[simp] theorem State.placeOffers_can (s : State) : (s.placeOffers).can = s.can :=
  (congrArg State.can (State.placeOffers_frame s) :)
@[simp] theorem State.placeOffers_eth (s : State) : (s.placeOffers).eth = s.eth :=
  (congrArg State.eth (State.placeOffers_frame s) :)
@[simp] theorem State.placeOffers_ring (s : State) : (s.placeOffers).ring = s.ring :=
  (congrArg State.ring (State.placeOffers_frame s) :)
@[simp] theorem State.placeOffers_sec (s : State) : (s.placeOffers).sec = s.sec :=
  (congrArg State.sec (State.placeOffers_frame s) :)
@[simp] theorem State.placeOffers_host (s : State) : (s.placeOffers).host = s.host :=
  (congrArg State.host (State.placeOffers_frame s) :)
@[simp] theorem State.placeOffers_power (s : State) : (s.placeOffers).power = s.power :=
  (congrArg State.power (State.placeOffers_frame s) :)
@[simp] theorem State.placeOffers_movers (s : State) : (s.placeOffers).movers = s.movers :=
  (congrArg State.movers (State.placeOffers_frame s) :)
@[simp] theorem State.placeOffers_desc (s : State) : (s.placeOffers).desc = s.desc :=
  (congrArg State.desc (State.placeOffers_frame s) :)
@[simp] theorem State.placeOffers_descs (s : State) : (s.placeOffers).descs = s.descs :=
  (congrArg State.descs (State.placeOffers_frame s) :)
@[simp] theorem State.placeOffers_cores (s : State) : (s.placeOffers).cores = s.cores :=
  (congrArg State.cores (State.placeOffers_frame s) :)
@[simp] theorem State.placeOffers_stores (s : State) : (s.placeOffers).stores = s.stores :=
  (congrArg State.stores (State.placeOffers_frame s) :)
@[simp] theorem State.placeOffers_answer (s : State) : (s.placeOffers).answer = s.answer :=
  (congrArg State.answer (State.placeOffers_frame s) :)
@[simp] theorem State.placeOffers_out (s : State) : (s.placeOffers).out = s.out :=
  (congrArg State.out (State.placeOffers_frame s) :)
@[simp] theorem State.placeOffers_tick (s : State) : (s.placeOffers).tick = s.tick :=
  (congrArg State.tick (State.placeOffers_frame s) :)
@[simp] theorem State.placeOffers_fresh (s : State) : (s.placeOffers).fresh = s.fresh :=
  (congrArg State.fresh (State.placeOffers_frame s) :)
@[simp] theorem State.placeOffers_pending (s : State) : (s.placeOffers).pending = s.pending :=
  (congrArg State.pending (State.placeOffers_frame s) :)

/-- All that `alarmOf` changes. -/
theorem State.alarmOf_frame (s : State) (x : AlarmEntry) :
    { s.alarmOf x with trace := s.trace, regs := s.regs, ic := s.ic } = s := by
  unfold State.alarmOf; (repeat' split) <;> apply State.ext <;> simp

@[simp] theorem State.alarmOf_pt (s : State) (x : AlarmEntry) : (s.alarmOf x).pt = s.pt :=
  (congrArg State.pt (State.alarmOf_frame s x) :)
@[simp] theorem State.alarmOf_mem (s : State) (x : AlarmEntry) : (s.alarmOf x).mem = s.mem :=
  (congrArg State.mem (State.alarmOf_frame s x) :)
@[simp] theorem State.alarmOf_mbx (s : State) (x : AlarmEntry) : (s.alarmOf x).mbx = s.mbx :=
  (congrArg State.mbx (State.alarmOf_frame s x) :)
@[simp] theorem State.alarmOf_pour (s : State) (x : AlarmEntry) : (s.alarmOf x).pour = s.pour :=
  (congrArg State.pour (State.alarmOf_frame s x) :)
@[simp] theorem State.alarmOf_time (s : State) (x : AlarmEntry) : (s.alarmOf x).time = s.time :=
  (congrArg State.time (State.alarmOf_frame s x) :)
@[simp] theorem State.alarmOf_pe (s : State) (x : AlarmEntry) : (s.alarmOf x).pe = s.pe :=
  (congrArg State.pe (State.alarmOf_frame s x) :)
@[simp] theorem State.alarmOf_wake (s : State) (x : AlarmEntry) : (s.alarmOf x).wake = s.wake :=
  (congrArg State.wake (State.alarmOf_frame s x) :)
@[simp] theorem State.alarmOf_can (s : State) (x : AlarmEntry) : (s.alarmOf x).can = s.can :=
  (congrArg State.can (State.alarmOf_frame s x) :)
@[simp] theorem State.alarmOf_eth (s : State) (x : AlarmEntry) : (s.alarmOf x).eth = s.eth :=
  (congrArg State.eth (State.alarmOf_frame s x) :)
@[simp] theorem State.alarmOf_ring (s : State) (x : AlarmEntry) : (s.alarmOf x).ring = s.ring :=
  (congrArg State.ring (State.alarmOf_frame s x) :)
@[simp] theorem State.alarmOf_sec (s : State) (x : AlarmEntry) : (s.alarmOf x).sec = s.sec :=
  (congrArg State.sec (State.alarmOf_frame s x) :)
@[simp] theorem State.alarmOf_host (s : State) (x : AlarmEntry) : (s.alarmOf x).host = s.host :=
  (congrArg State.host (State.alarmOf_frame s x) :)
@[simp] theorem State.alarmOf_power (s : State) (x : AlarmEntry) : (s.alarmOf x).power = s.power :=
  (congrArg State.power (State.alarmOf_frame s x) :)
@[simp] theorem State.alarmOf_movers (s : State) (x : AlarmEntry) : (s.alarmOf x).movers = s.movers :=
  (congrArg State.movers (State.alarmOf_frame s x) :)
@[simp] theorem State.alarmOf_desc (s : State) (x : AlarmEntry) : (s.alarmOf x).desc = s.desc :=
  (congrArg State.desc (State.alarmOf_frame s x) :)
@[simp] theorem State.alarmOf_descs (s : State) (x : AlarmEntry) : (s.alarmOf x).descs = s.descs :=
  (congrArg State.descs (State.alarmOf_frame s x) :)
@[simp] theorem State.alarmOf_cores (s : State) (x : AlarmEntry) : (s.alarmOf x).cores = s.cores :=
  (congrArg State.cores (State.alarmOf_frame s x) :)
@[simp] theorem State.alarmOf_stores (s : State) (x : AlarmEntry) : (s.alarmOf x).stores = s.stores :=
  (congrArg State.stores (State.alarmOf_frame s x) :)
@[simp] theorem State.alarmOf_answer (s : State) (x : AlarmEntry) : (s.alarmOf x).answer = s.answer :=
  (congrArg State.answer (State.alarmOf_frame s x) :)
@[simp] theorem State.alarmOf_out (s : State) (x : AlarmEntry) : (s.alarmOf x).out = s.out :=
  (congrArg State.out (State.alarmOf_frame s x) :)
@[simp] theorem State.alarmOf_tick (s : State) (x : AlarmEntry) : (s.alarmOf x).tick = s.tick :=
  (congrArg State.tick (State.alarmOf_frame s x) :)
@[simp] theorem State.alarmOf_fresh (s : State) (x : AlarmEntry) : (s.alarmOf x).fresh = s.fresh :=
  (congrArg State.fresh (State.alarmOf_frame s x) :)
@[simp] theorem State.alarmOf_pending (s : State) (x : AlarmEntry) : (s.alarmOf x).pending = s.pending :=
  (congrArg State.pending (State.alarmOf_frame s x) :)

/-- All that `alarm` changes. -/
theorem State.alarm_frame (s : State) (p c a d : Nat) :
    { s.alarm p c a d with trace := s.trace, regs := s.regs, ic := s.ic, pt := s.pt } = s := by
  unfold State.alarm; split
  · apply State.ext <;> simp
  · rfl

@[simp] theorem State.alarm_mem (s : State) (p c a d : Nat) : (s.alarm p c a d).mem = s.mem :=
  (congrArg State.mem (State.alarm_frame s p c a d) :)
@[simp] theorem State.alarm_mbx (s : State) (p c a d : Nat) : (s.alarm p c a d).mbx = s.mbx :=
  (congrArg State.mbx (State.alarm_frame s p c a d) :)
@[simp] theorem State.alarm_pour (s : State) (p c a d : Nat) : (s.alarm p c a d).pour = s.pour :=
  (congrArg State.pour (State.alarm_frame s p c a d) :)
@[simp] theorem State.alarm_time (s : State) (p c a d : Nat) : (s.alarm p c a d).time = s.time :=
  (congrArg State.time (State.alarm_frame s p c a d) :)
@[simp] theorem State.alarm_pe (s : State) (p c a d : Nat) : (s.alarm p c a d).pe = s.pe :=
  (congrArg State.pe (State.alarm_frame s p c a d) :)
@[simp] theorem State.alarm_wake (s : State) (p c a d : Nat) : (s.alarm p c a d).wake = s.wake :=
  (congrArg State.wake (State.alarm_frame s p c a d) :)
@[simp] theorem State.alarm_can (s : State) (p c a d : Nat) : (s.alarm p c a d).can = s.can :=
  (congrArg State.can (State.alarm_frame s p c a d) :)
@[simp] theorem State.alarm_eth (s : State) (p c a d : Nat) : (s.alarm p c a d).eth = s.eth :=
  (congrArg State.eth (State.alarm_frame s p c a d) :)
@[simp] theorem State.alarm_ring (s : State) (p c a d : Nat) : (s.alarm p c a d).ring = s.ring :=
  (congrArg State.ring (State.alarm_frame s p c a d) :)
@[simp] theorem State.alarm_sec (s : State) (p c a d : Nat) : (s.alarm p c a d).sec = s.sec :=
  (congrArg State.sec (State.alarm_frame s p c a d) :)
@[simp] theorem State.alarm_host (s : State) (p c a d : Nat) : (s.alarm p c a d).host = s.host :=
  (congrArg State.host (State.alarm_frame s p c a d) :)
@[simp] theorem State.alarm_power (s : State) (p c a d : Nat) : (s.alarm p c a d).power = s.power :=
  (congrArg State.power (State.alarm_frame s p c a d) :)
@[simp] theorem State.alarm_movers (s : State) (p c a d : Nat) : (s.alarm p c a d).movers = s.movers :=
  (congrArg State.movers (State.alarm_frame s p c a d) :)
@[simp] theorem State.alarm_desc (s : State) (p c a d : Nat) : (s.alarm p c a d).desc = s.desc :=
  (congrArg State.desc (State.alarm_frame s p c a d) :)
@[simp] theorem State.alarm_descs (s : State) (p c a d : Nat) : (s.alarm p c a d).descs = s.descs :=
  (congrArg State.descs (State.alarm_frame s p c a d) :)
@[simp] theorem State.alarm_cores (s : State) (p c a d : Nat) : (s.alarm p c a d).cores = s.cores :=
  (congrArg State.cores (State.alarm_frame s p c a d) :)
@[simp] theorem State.alarm_stores (s : State) (p c a d : Nat) : (s.alarm p c a d).stores = s.stores :=
  (congrArg State.stores (State.alarm_frame s p c a d) :)
@[simp] theorem State.alarm_answer (s : State) (p c a d : Nat) : (s.alarm p c a d).answer = s.answer :=
  (congrArg State.answer (State.alarm_frame s p c a d) :)
@[simp] theorem State.alarm_out (s : State) (p c a d : Nat) : (s.alarm p c a d).out = s.out :=
  (congrArg State.out (State.alarm_frame s p c a d) :)
@[simp] theorem State.alarm_tick (s : State) (p c a d : Nat) : (s.alarm p c a d).tick = s.tick :=
  (congrArg State.tick (State.alarm_frame s p c a d) :)
@[simp] theorem State.alarm_fresh (s : State) (p c a d : Nat) : (s.alarm p c a d).fresh = s.fresh :=
  (congrArg State.fresh (State.alarm_frame s p c a d) :)
@[simp] theorem State.alarm_pending (s : State) (p c a d : Nat) : (s.alarm p c a d).pending = s.pending :=
  (congrArg State.pending (State.alarm_frame s p c a d) :)

/-- All that `event` changes. -/
theorem State.event_frame (s : State) (p c a d : Nat) :
    { s.event p c a d with trace := s.trace, regs := s.regs, pt := s.pt } = s := by
  unfold State.event; split
  · apply State.ext <;> simp
  · rfl

@[simp] theorem State.event_mem (s : State) (p c a d : Nat) : (s.event p c a d).mem = s.mem :=
  (congrArg State.mem (State.event_frame s p c a d) :)
@[simp] theorem State.event_ic (s : State) (p c a d : Nat) : (s.event p c a d).ic = s.ic :=
  (congrArg State.ic (State.event_frame s p c a d) :)
@[simp] theorem State.event_mbx (s : State) (p c a d : Nat) : (s.event p c a d).mbx = s.mbx :=
  (congrArg State.mbx (State.event_frame s p c a d) :)
@[simp] theorem State.event_pour (s : State) (p c a d : Nat) : (s.event p c a d).pour = s.pour :=
  (congrArg State.pour (State.event_frame s p c a d) :)
@[simp] theorem State.event_time (s : State) (p c a d : Nat) : (s.event p c a d).time = s.time :=
  (congrArg State.time (State.event_frame s p c a d) :)
@[simp] theorem State.event_pe (s : State) (p c a d : Nat) : (s.event p c a d).pe = s.pe :=
  (congrArg State.pe (State.event_frame s p c a d) :)
@[simp] theorem State.event_wake (s : State) (p c a d : Nat) : (s.event p c a d).wake = s.wake :=
  (congrArg State.wake (State.event_frame s p c a d) :)
@[simp] theorem State.event_can (s : State) (p c a d : Nat) : (s.event p c a d).can = s.can :=
  (congrArg State.can (State.event_frame s p c a d) :)
@[simp] theorem State.event_eth (s : State) (p c a d : Nat) : (s.event p c a d).eth = s.eth :=
  (congrArg State.eth (State.event_frame s p c a d) :)
@[simp] theorem State.event_ring (s : State) (p c a d : Nat) : (s.event p c a d).ring = s.ring :=
  (congrArg State.ring (State.event_frame s p c a d) :)
@[simp] theorem State.event_sec (s : State) (p c a d : Nat) : (s.event p c a d).sec = s.sec :=
  (congrArg State.sec (State.event_frame s p c a d) :)
@[simp] theorem State.event_host (s : State) (p c a d : Nat) : (s.event p c a d).host = s.host :=
  (congrArg State.host (State.event_frame s p c a d) :)
@[simp] theorem State.event_power (s : State) (p c a d : Nat) : (s.event p c a d).power = s.power :=
  (congrArg State.power (State.event_frame s p c a d) :)
@[simp] theorem State.event_movers (s : State) (p c a d : Nat) : (s.event p c a d).movers = s.movers :=
  (congrArg State.movers (State.event_frame s p c a d) :)
@[simp] theorem State.event_desc (s : State) (p c a d : Nat) : (s.event p c a d).desc = s.desc :=
  (congrArg State.desc (State.event_frame s p c a d) :)
@[simp] theorem State.event_descs (s : State) (p c a d : Nat) : (s.event p c a d).descs = s.descs :=
  (congrArg State.descs (State.event_frame s p c a d) :)
@[simp] theorem State.event_cores (s : State) (p c a d : Nat) : (s.event p c a d).cores = s.cores :=
  (congrArg State.cores (State.event_frame s p c a d) :)
@[simp] theorem State.event_stores (s : State) (p c a d : Nat) : (s.event p c a d).stores = s.stores :=
  (congrArg State.stores (State.event_frame s p c a d) :)
@[simp] theorem State.event_answer (s : State) (p c a d : Nat) : (s.event p c a d).answer = s.answer :=
  (congrArg State.answer (State.event_frame s p c a d) :)
@[simp] theorem State.event_out (s : State) (p c a d : Nat) : (s.event p c a d).out = s.out :=
  (congrArg State.out (State.event_frame s p c a d) :)
@[simp] theorem State.event_tick (s : State) (p c a d : Nat) : (s.event p c a d).tick = s.tick :=
  (congrArg State.tick (State.event_frame s p c a d) :)
@[simp] theorem State.event_fresh (s : State) (p c a d : Nat) : (s.event p c a d).fresh = s.fresh :=
  (congrArg State.fresh (State.event_frame s p c a d) :)
@[simp] theorem State.event_pending (s : State) (p c a d : Nat) : (s.event p c a d).pending = s.pending :=
  (congrArg State.pending (State.event_frame s p c a d) :)

/-- All that `post` changes. -/
theorem State.post_frame (s : State) (prod : Producer) (node input : Nat) :
    { s.post prod node input with pour := s.pour } = s := by
  rfl

@[simp] theorem State.post_regs (s : State) (prod : Producer) (node input : Nat) : (s.post prod node input).regs = s.regs :=
  (congrArg State.regs (State.post_frame s prod node input) :)
@[simp] theorem State.post_pt (s : State) (prod : Producer) (node input : Nat) : (s.post prod node input).pt = s.pt :=
  (congrArg State.pt (State.post_frame s prod node input) :)
@[simp] theorem State.post_mem (s : State) (prod : Producer) (node input : Nat) : (s.post prod node input).mem = s.mem :=
  (congrArg State.mem (State.post_frame s prod node input) :)
@[simp] theorem State.post_trace (s : State) (prod : Producer) (node input : Nat) : (s.post prod node input).trace = s.trace :=
  (congrArg State.trace (State.post_frame s prod node input) :)
@[simp] theorem State.post_ic (s : State) (prod : Producer) (node input : Nat) : (s.post prod node input).ic = s.ic :=
  (congrArg State.ic (State.post_frame s prod node input) :)
@[simp] theorem State.post_mbx (s : State) (prod : Producer) (node input : Nat) : (s.post prod node input).mbx = s.mbx :=
  (congrArg State.mbx (State.post_frame s prod node input) :)
@[simp] theorem State.post_time (s : State) (prod : Producer) (node input : Nat) : (s.post prod node input).time = s.time :=
  (congrArg State.time (State.post_frame s prod node input) :)
@[simp] theorem State.post_pe (s : State) (prod : Producer) (node input : Nat) : (s.post prod node input).pe = s.pe :=
  (congrArg State.pe (State.post_frame s prod node input) :)
@[simp] theorem State.post_wake (s : State) (prod : Producer) (node input : Nat) : (s.post prod node input).wake = s.wake :=
  (congrArg State.wake (State.post_frame s prod node input) :)
@[simp] theorem State.post_can (s : State) (prod : Producer) (node input : Nat) : (s.post prod node input).can = s.can :=
  (congrArg State.can (State.post_frame s prod node input) :)
@[simp] theorem State.post_eth (s : State) (prod : Producer) (node input : Nat) : (s.post prod node input).eth = s.eth :=
  (congrArg State.eth (State.post_frame s prod node input) :)
@[simp] theorem State.post_ring (s : State) (prod : Producer) (node input : Nat) : (s.post prod node input).ring = s.ring :=
  (congrArg State.ring (State.post_frame s prod node input) :)
@[simp] theorem State.post_sec (s : State) (prod : Producer) (node input : Nat) : (s.post prod node input).sec = s.sec :=
  (congrArg State.sec (State.post_frame s prod node input) :)
@[simp] theorem State.post_host (s : State) (prod : Producer) (node input : Nat) : (s.post prod node input).host = s.host :=
  (congrArg State.host (State.post_frame s prod node input) :)
@[simp] theorem State.post_power (s : State) (prod : Producer) (node input : Nat) : (s.post prod node input).power = s.power :=
  (congrArg State.power (State.post_frame s prod node input) :)
@[simp] theorem State.post_movers (s : State) (prod : Producer) (node input : Nat) : (s.post prod node input).movers = s.movers :=
  (congrArg State.movers (State.post_frame s prod node input) :)
@[simp] theorem State.post_desc (s : State) (prod : Producer) (node input : Nat) : (s.post prod node input).desc = s.desc :=
  (congrArg State.desc (State.post_frame s prod node input) :)
@[simp] theorem State.post_descs (s : State) (prod : Producer) (node input : Nat) : (s.post prod node input).descs = s.descs :=
  (congrArg State.descs (State.post_frame s prod node input) :)
@[simp] theorem State.post_cores (s : State) (prod : Producer) (node input : Nat) : (s.post prod node input).cores = s.cores :=
  (congrArg State.cores (State.post_frame s prod node input) :)
@[simp] theorem State.post_stores (s : State) (prod : Producer) (node input : Nat) : (s.post prod node input).stores = s.stores :=
  (congrArg State.stores (State.post_frame s prod node input) :)
@[simp] theorem State.post_answer (s : State) (prod : Producer) (node input : Nat) : (s.post prod node input).answer = s.answer :=
  (congrArg State.answer (State.post_frame s prod node input) :)
@[simp] theorem State.post_out (s : State) (prod : Producer) (node input : Nat) : (s.post prod node input).out = s.out :=
  (congrArg State.out (State.post_frame s prod node input) :)
@[simp] theorem State.post_tick (s : State) (prod : Producer) (node input : Nat) : (s.post prod node input).tick = s.tick :=
  (congrArg State.tick (State.post_frame s prod node input) :)
@[simp] theorem State.post_fresh (s : State) (prod : Producer) (node input : Nat) : (s.post prod node input).fresh = s.fresh :=
  (congrArg State.fresh (State.post_frame s prod node input) :)
@[simp] theorem State.post_pending (s : State) (prod : Producer) (node input : Nat) : (s.post prod node input).pending = s.pending :=
  (congrArg State.pending (State.post_frame s prod node input) :)

/-- All that `postAll` changes. -/
theorem State.postAll_frame (s : State) (prod : Producer) (l : List SourceEntry) :
    { s.postAll prod l with pour := s.pour } = s := by
  induction l generalizing s with
  | nil => rfl
  | cons e t ih => exact (congrArg (fun u : State => { u with pour := s.pour }) (ih (s.post prod e.node e.input)) :)

@[simp] theorem State.postAll_regs (s : State) (prod : Producer) (l : List SourceEntry) : (s.postAll prod l).regs = s.regs :=
  (congrArg State.regs (State.postAll_frame s prod l) :)
@[simp] theorem State.postAll_pt (s : State) (prod : Producer) (l : List SourceEntry) : (s.postAll prod l).pt = s.pt :=
  (congrArg State.pt (State.postAll_frame s prod l) :)
@[simp] theorem State.postAll_mem (s : State) (prod : Producer) (l : List SourceEntry) : (s.postAll prod l).mem = s.mem :=
  (congrArg State.mem (State.postAll_frame s prod l) :)
@[simp] theorem State.postAll_trace (s : State) (prod : Producer) (l : List SourceEntry) : (s.postAll prod l).trace = s.trace :=
  (congrArg State.trace (State.postAll_frame s prod l) :)
@[simp] theorem State.postAll_ic (s : State) (prod : Producer) (l : List SourceEntry) : (s.postAll prod l).ic = s.ic :=
  (congrArg State.ic (State.postAll_frame s prod l) :)
@[simp] theorem State.postAll_mbx (s : State) (prod : Producer) (l : List SourceEntry) : (s.postAll prod l).mbx = s.mbx :=
  (congrArg State.mbx (State.postAll_frame s prod l) :)
@[simp] theorem State.postAll_time (s : State) (prod : Producer) (l : List SourceEntry) : (s.postAll prod l).time = s.time :=
  (congrArg State.time (State.postAll_frame s prod l) :)
@[simp] theorem State.postAll_pe (s : State) (prod : Producer) (l : List SourceEntry) : (s.postAll prod l).pe = s.pe :=
  (congrArg State.pe (State.postAll_frame s prod l) :)
@[simp] theorem State.postAll_wake (s : State) (prod : Producer) (l : List SourceEntry) : (s.postAll prod l).wake = s.wake :=
  (congrArg State.wake (State.postAll_frame s prod l) :)
@[simp] theorem State.postAll_can (s : State) (prod : Producer) (l : List SourceEntry) : (s.postAll prod l).can = s.can :=
  (congrArg State.can (State.postAll_frame s prod l) :)
@[simp] theorem State.postAll_eth (s : State) (prod : Producer) (l : List SourceEntry) : (s.postAll prod l).eth = s.eth :=
  (congrArg State.eth (State.postAll_frame s prod l) :)
@[simp] theorem State.postAll_ring (s : State) (prod : Producer) (l : List SourceEntry) : (s.postAll prod l).ring = s.ring :=
  (congrArg State.ring (State.postAll_frame s prod l) :)
@[simp] theorem State.postAll_sec (s : State) (prod : Producer) (l : List SourceEntry) : (s.postAll prod l).sec = s.sec :=
  (congrArg State.sec (State.postAll_frame s prod l) :)
@[simp] theorem State.postAll_host (s : State) (prod : Producer) (l : List SourceEntry) : (s.postAll prod l).host = s.host :=
  (congrArg State.host (State.postAll_frame s prod l) :)
@[simp] theorem State.postAll_power (s : State) (prod : Producer) (l : List SourceEntry) : (s.postAll prod l).power = s.power :=
  (congrArg State.power (State.postAll_frame s prod l) :)
@[simp] theorem State.postAll_movers (s : State) (prod : Producer) (l : List SourceEntry) : (s.postAll prod l).movers = s.movers :=
  (congrArg State.movers (State.postAll_frame s prod l) :)
@[simp] theorem State.postAll_desc (s : State) (prod : Producer) (l : List SourceEntry) : (s.postAll prod l).desc = s.desc :=
  (congrArg State.desc (State.postAll_frame s prod l) :)
@[simp] theorem State.postAll_descs (s : State) (prod : Producer) (l : List SourceEntry) : (s.postAll prod l).descs = s.descs :=
  (congrArg State.descs (State.postAll_frame s prod l) :)
@[simp] theorem State.postAll_cores (s : State) (prod : Producer) (l : List SourceEntry) : (s.postAll prod l).cores = s.cores :=
  (congrArg State.cores (State.postAll_frame s prod l) :)
@[simp] theorem State.postAll_stores (s : State) (prod : Producer) (l : List SourceEntry) : (s.postAll prod l).stores = s.stores :=
  (congrArg State.stores (State.postAll_frame s prod l) :)
@[simp] theorem State.postAll_answer (s : State) (prod : Producer) (l : List SourceEntry) : (s.postAll prod l).answer = s.answer :=
  (congrArg State.answer (State.postAll_frame s prod l) :)
@[simp] theorem State.postAll_out (s : State) (prod : Producer) (l : List SourceEntry) : (s.postAll prod l).out = s.out :=
  (congrArg State.out (State.postAll_frame s prod l) :)
@[simp] theorem State.postAll_tick (s : State) (prod : Producer) (l : List SourceEntry) : (s.postAll prod l).tick = s.tick :=
  (congrArg State.tick (State.postAll_frame s prod l) :)
@[simp] theorem State.postAll_fresh (s : State) (prod : Producer) (l : List SourceEntry) : (s.postAll prod l).fresh = s.fresh :=
  (congrArg State.fresh (State.postAll_frame s prod l) :)
@[simp] theorem State.postAll_pending (s : State) (prod : Producer) (l : List SourceEntry) : (s.postAll prod l).pending = s.pending :=
  (congrArg State.pending (State.postAll_frame s prod l) :)

/-- All that `postSources` changes. -/
theorem State.postSources_frame (s : State) (prod : Producer) (kind sub id : Nat) :
    { s.postSources prod kind sub id with pour := s.pour } = s := by
  exact State.postAll_frame s _ _

@[simp] theorem State.postSources_regs (s : State) (prod : Producer) (kind sub id : Nat) : (s.postSources prod kind sub id).regs = s.regs :=
  (congrArg State.regs (State.postSources_frame s prod kind sub id) :)
@[simp] theorem State.postSources_pt (s : State) (prod : Producer) (kind sub id : Nat) : (s.postSources prod kind sub id).pt = s.pt :=
  (congrArg State.pt (State.postSources_frame s prod kind sub id) :)
@[simp] theorem State.postSources_mem (s : State) (prod : Producer) (kind sub id : Nat) : (s.postSources prod kind sub id).mem = s.mem :=
  (congrArg State.mem (State.postSources_frame s prod kind sub id) :)
@[simp] theorem State.postSources_trace (s : State) (prod : Producer) (kind sub id : Nat) : (s.postSources prod kind sub id).trace = s.trace :=
  (congrArg State.trace (State.postSources_frame s prod kind sub id) :)
@[simp] theorem State.postSources_ic (s : State) (prod : Producer) (kind sub id : Nat) : (s.postSources prod kind sub id).ic = s.ic :=
  (congrArg State.ic (State.postSources_frame s prod kind sub id) :)
@[simp] theorem State.postSources_mbx (s : State) (prod : Producer) (kind sub id : Nat) : (s.postSources prod kind sub id).mbx = s.mbx :=
  (congrArg State.mbx (State.postSources_frame s prod kind sub id) :)
@[simp] theorem State.postSources_time (s : State) (prod : Producer) (kind sub id : Nat) : (s.postSources prod kind sub id).time = s.time :=
  (congrArg State.time (State.postSources_frame s prod kind sub id) :)
@[simp] theorem State.postSources_pe (s : State) (prod : Producer) (kind sub id : Nat) : (s.postSources prod kind sub id).pe = s.pe :=
  (congrArg State.pe (State.postSources_frame s prod kind sub id) :)
@[simp] theorem State.postSources_wake (s : State) (prod : Producer) (kind sub id : Nat) : (s.postSources prod kind sub id).wake = s.wake :=
  (congrArg State.wake (State.postSources_frame s prod kind sub id) :)
@[simp] theorem State.postSources_can (s : State) (prod : Producer) (kind sub id : Nat) : (s.postSources prod kind sub id).can = s.can :=
  (congrArg State.can (State.postSources_frame s prod kind sub id) :)
@[simp] theorem State.postSources_eth (s : State) (prod : Producer) (kind sub id : Nat) : (s.postSources prod kind sub id).eth = s.eth :=
  (congrArg State.eth (State.postSources_frame s prod kind sub id) :)
@[simp] theorem State.postSources_ring (s : State) (prod : Producer) (kind sub id : Nat) : (s.postSources prod kind sub id).ring = s.ring :=
  (congrArg State.ring (State.postSources_frame s prod kind sub id) :)
@[simp] theorem State.postSources_sec (s : State) (prod : Producer) (kind sub id : Nat) : (s.postSources prod kind sub id).sec = s.sec :=
  (congrArg State.sec (State.postSources_frame s prod kind sub id) :)
@[simp] theorem State.postSources_host (s : State) (prod : Producer) (kind sub id : Nat) : (s.postSources prod kind sub id).host = s.host :=
  (congrArg State.host (State.postSources_frame s prod kind sub id) :)
@[simp] theorem State.postSources_power (s : State) (prod : Producer) (kind sub id : Nat) : (s.postSources prod kind sub id).power = s.power :=
  (congrArg State.power (State.postSources_frame s prod kind sub id) :)
@[simp] theorem State.postSources_movers (s : State) (prod : Producer) (kind sub id : Nat) : (s.postSources prod kind sub id).movers = s.movers :=
  (congrArg State.movers (State.postSources_frame s prod kind sub id) :)
@[simp] theorem State.postSources_desc (s : State) (prod : Producer) (kind sub id : Nat) : (s.postSources prod kind sub id).desc = s.desc :=
  (congrArg State.desc (State.postSources_frame s prod kind sub id) :)
@[simp] theorem State.postSources_descs (s : State) (prod : Producer) (kind sub id : Nat) : (s.postSources prod kind sub id).descs = s.descs :=
  (congrArg State.descs (State.postSources_frame s prod kind sub id) :)
@[simp] theorem State.postSources_cores (s : State) (prod : Producer) (kind sub id : Nat) : (s.postSources prod kind sub id).cores = s.cores :=
  (congrArg State.cores (State.postSources_frame s prod kind sub id) :)
@[simp] theorem State.postSources_stores (s : State) (prod : Producer) (kind sub id : Nat) : (s.postSources prod kind sub id).stores = s.stores :=
  (congrArg State.stores (State.postSources_frame s prod kind sub id) :)
@[simp] theorem State.postSources_answer (s : State) (prod : Producer) (kind sub id : Nat) : (s.postSources prod kind sub id).answer = s.answer :=
  (congrArg State.answer (State.postSources_frame s prod kind sub id) :)
@[simp] theorem State.postSources_out (s : State) (prod : Producer) (kind sub id : Nat) : (s.postSources prod kind sub id).out = s.out :=
  (congrArg State.out (State.postSources_frame s prod kind sub id) :)
@[simp] theorem State.postSources_tick (s : State) (prod : Producer) (kind sub id : Nat) : (s.postSources prod kind sub id).tick = s.tick :=
  (congrArg State.tick (State.postSources_frame s prod kind sub id) :)
@[simp] theorem State.postSources_fresh (s : State) (prod : Producer) (kind sub id : Nat) : (s.postSources prod kind sub id).fresh = s.fresh :=
  (congrArg State.fresh (State.postSources_frame s prod kind sub id) :)
@[simp] theorem State.postSources_pending (s : State) (prod : Producer) (kind sub id : Nat) : (s.postSources prod kind sub id).pending = s.pending :=
  (congrArg State.pending (State.postSources_frame s prod kind sub id) :)

/-- All that `postHolds` changes. -/
theorem State.postHolds_frame (s : State) (pts : List Nat) :
    { s.postHolds pts with pour := s.pour } = s := by
  exact State.postAll_frame s _ _

@[simp] theorem State.postHolds_regs (s : State) (pts : List Nat) : (s.postHolds pts).regs = s.regs :=
  (congrArg State.regs (State.postHolds_frame s pts) :)
@[simp] theorem State.postHolds_pt (s : State) (pts : List Nat) : (s.postHolds pts).pt = s.pt :=
  (congrArg State.pt (State.postHolds_frame s pts) :)
@[simp] theorem State.postHolds_mem (s : State) (pts : List Nat) : (s.postHolds pts).mem = s.mem :=
  (congrArg State.mem (State.postHolds_frame s pts) :)
@[simp] theorem State.postHolds_trace (s : State) (pts : List Nat) : (s.postHolds pts).trace = s.trace :=
  (congrArg State.trace (State.postHolds_frame s pts) :)
@[simp] theorem State.postHolds_ic (s : State) (pts : List Nat) : (s.postHolds pts).ic = s.ic :=
  (congrArg State.ic (State.postHolds_frame s pts) :)
@[simp] theorem State.postHolds_mbx (s : State) (pts : List Nat) : (s.postHolds pts).mbx = s.mbx :=
  (congrArg State.mbx (State.postHolds_frame s pts) :)
@[simp] theorem State.postHolds_time (s : State) (pts : List Nat) : (s.postHolds pts).time = s.time :=
  (congrArg State.time (State.postHolds_frame s pts) :)
@[simp] theorem State.postHolds_pe (s : State) (pts : List Nat) : (s.postHolds pts).pe = s.pe :=
  (congrArg State.pe (State.postHolds_frame s pts) :)
@[simp] theorem State.postHolds_wake (s : State) (pts : List Nat) : (s.postHolds pts).wake = s.wake :=
  (congrArg State.wake (State.postHolds_frame s pts) :)
@[simp] theorem State.postHolds_can (s : State) (pts : List Nat) : (s.postHolds pts).can = s.can :=
  (congrArg State.can (State.postHolds_frame s pts) :)
@[simp] theorem State.postHolds_eth (s : State) (pts : List Nat) : (s.postHolds pts).eth = s.eth :=
  (congrArg State.eth (State.postHolds_frame s pts) :)
@[simp] theorem State.postHolds_ring (s : State) (pts : List Nat) : (s.postHolds pts).ring = s.ring :=
  (congrArg State.ring (State.postHolds_frame s pts) :)
@[simp] theorem State.postHolds_sec (s : State) (pts : List Nat) : (s.postHolds pts).sec = s.sec :=
  (congrArg State.sec (State.postHolds_frame s pts) :)
@[simp] theorem State.postHolds_host (s : State) (pts : List Nat) : (s.postHolds pts).host = s.host :=
  (congrArg State.host (State.postHolds_frame s pts) :)
@[simp] theorem State.postHolds_power (s : State) (pts : List Nat) : (s.postHolds pts).power = s.power :=
  (congrArg State.power (State.postHolds_frame s pts) :)
@[simp] theorem State.postHolds_movers (s : State) (pts : List Nat) : (s.postHolds pts).movers = s.movers :=
  (congrArg State.movers (State.postHolds_frame s pts) :)
@[simp] theorem State.postHolds_desc (s : State) (pts : List Nat) : (s.postHolds pts).desc = s.desc :=
  (congrArg State.desc (State.postHolds_frame s pts) :)
@[simp] theorem State.postHolds_descs (s : State) (pts : List Nat) : (s.postHolds pts).descs = s.descs :=
  (congrArg State.descs (State.postHolds_frame s pts) :)
@[simp] theorem State.postHolds_cores (s : State) (pts : List Nat) : (s.postHolds pts).cores = s.cores :=
  (congrArg State.cores (State.postHolds_frame s pts) :)
@[simp] theorem State.postHolds_stores (s : State) (pts : List Nat) : (s.postHolds pts).stores = s.stores :=
  (congrArg State.stores (State.postHolds_frame s pts) :)
@[simp] theorem State.postHolds_answer (s : State) (pts : List Nat) : (s.postHolds pts).answer = s.answer :=
  (congrArg State.answer (State.postHolds_frame s pts) :)
@[simp] theorem State.postHolds_out (s : State) (pts : List Nat) : (s.postHolds pts).out = s.out :=
  (congrArg State.out (State.postHolds_frame s pts) :)
@[simp] theorem State.postHolds_tick (s : State) (pts : List Nat) : (s.postHolds pts).tick = s.tick :=
  (congrArg State.tick (State.postHolds_frame s pts) :)
@[simp] theorem State.postHolds_fresh (s : State) (pts : List Nat) : (s.postHolds pts).fresh = s.fresh :=
  (congrArg State.fresh (State.postHolds_frame s pts) :)
@[simp] theorem State.postHolds_pending (s : State) (pts : List Nat) : (s.postHolds pts).pending = s.pending :=
  (congrArg State.pending (State.postHolds_frame s pts) :)

/-! ### What registers and points read after them -/

@[simp] theorem State.reg_syncPage (s : State) (p a : Nat) : (s.syncPage p).reg a = s.reg a :=
  congrArg (fun m : SMap Word => m.get (regReset a) a) (State.syncPage_regs s p)
@[simp] theorem State.rd_syncPage (s : State) (p : Nat) (f : Fld) (i j : Nat) : (s.syncPage p).rd f i j = s.rd f i j := by
  simp [State.rd]
@[simp] theorem State.stored_syncPage (s : State) (p i : Nat) : (s.syncPage p).stored i = s.stored i := by
  simp [State.stored]

end Sys2Proof.Machine
end

