-- ==== Sys2Proof/Laws/CoreSteps.lean ====
section
/-! SUPPORT. Laws of what every Clalo instruction shares: fetching, retiring, a false condition, loads, stores and
fault entry. The statements about instructions rest on these and need not unfold the operations. -/

namespace Sys2Proof.Machine

@[simp] theorem State.rd_setCore (s : State) (c : Nat) (k : CoreState) (f : Fld) (i j : Nat) :
    (s.setCore c k).rd f i j = s.rd f i j := rfl

@[simp] theorem State.rd_updCore (s : State) (c : Nat) (u : CoreState → CoreState) (f : Fld) (i j : Nat) :
    (s.updCore c u).rd f i j = s.rd f i j := rfl

/-! ### Retiring -/

/-- CC_PC reads the address of the instruction that has completed. -/
theorem State.rd_retireTo (s : State) (c : Nat) (target : Word) :
    (s.retireTo c target).rd R.CC_PC.PC c = (s.core c).pc.toNat := by
  unfold State.retireTo
  rw [State.rd_updCore]
  exact State.rd_wr_same s R.CC_PC.PC _ c 0 (by decide) (by decide) (s.core c).pc.isLt

/-- Retiring changes no register but CC_PC. -/
theorem State.reg_retireTo (s : State) (c a : Nat) (target : Word) (h : a ≠ R.CC_PC.PC.addr c 0) :
    (s.retireTo c target).reg a = s.reg a := by
  unfold State.retireTo
  rw [State.reg_updCore, State.reg_wr_other _ _ _ _ _ _ h]

/-- An instruction that gives its core the registers `f` of what they were, and then retires. -/
theorem State.updCore_retireTo (s : State) (c : Nat) (f : CoreState → CoreState) (target : Word)
    (hpc : (f (s.core c)).pc = (s.core c).pc) :
    s.movedTo ((s.updCore c f).retireTo c target) c (f (s.core c)) target := by
  refine ⟨by simp, fun d hd => ?_, ?_, fun a ha => ?_, rfl⟩
  · rw [State.core_retireTo_other _ _ _ _ hd, State.core_updCore_other _ _ _ _ hd]
  · rw [State.rd_retireTo, State.core_updCore_same, hpc]
  · rw [State.reg_retireTo _ _ _ _ ha, State.reg_updCore]

/-- Retiring alone. -/
theorem State.retireTo_movedTo (s : State) (c : Nat) (target : Word) :
    s.movedTo (s.retireTo c target) c (s.core c) target := by
  refine ⟨by simp, fun d hd => ?_, State.rd_retireTo s c target, fun a ha => State.reg_retireTo s c a target ha, rfl⟩
  rw [State.core_retireTo_other _ _ _ _ hd]

/-! ### Fetching and executing -/

/-- The check of one halfword without an uncorrectable error lets the fetch go on. -/
theorem State.coreCheck_one (s : State) (c k : Nat) (h : s.coreEcc k ≠ .double) : (s.coreCheck c [k]).2 = true := by
  unfold State.coreCheck
  split
  · rfl
  · rfl
  · contradiction

/-- The check of a halfword changes no error mark but its own. -/
theorem State.coreCheck_one_ecc (s : State) (c k j : Nat) (h : s.coreEcc k ≠ .double) (hj : s.coreEcc j ≠ .double) :
    (s.coreCheck c [k]).1.coreEcc j ≠ .double := by
  unfold State.coreCheck
  split
  · exact hj
  · show SMap.get _ _ _ ≠ _
    simp only [State.coreCheck, State.statusCount_mem, State.pulse_mem, State.setCoreEcc]
    rw [SMap.get_set]
    split
    · decide
    · exact hj
  · contradiction

theorem State.coreCheck_one_core (s : State) (c k d : Nat) : (s.coreCheck c [k]).1.core d = s.core d := by
  unfold State.coreCheck
  split
  · rfl
  · simp [State.coreCheck, State.core, State.setCoreEcc]
  · simp [State.core]

/-- A fetch leaves the requests of the bridge and the store buffers as they were. -/
theorem State.coreCheck_one_stores (s : State) (c k : Nat) :
    (s.coreCheck c [k]).1.ring = s.ring ∧ (s.coreCheck c [k]).1.stores = s.stores := by
  unfold State.coreCheck
  split
  · exact ⟨rfl, rfl⟩
  · simp [State.coreCheck, State.setCoreEcc]
  · simp

theorem State.fetch_stores (c : Nat) (l : List Word) :
    ∀ s : State, (s.fetch c l).1.ring = s.ring ∧ (s.fetch c l).1.stores = s.stores := by
  induction l with
  | nil => exact fun _ => ⟨rfl, rfl⟩
  | cons a t ih =>
    intro s
    have hk := State.coreCheck_one_stores s c (coreKey c (a.toNat % 0x10000))
    unfold State.fetch
    split
    · split
      · rename_i e; rw [e] at hk; exact ⟨(ih _).1.trans hk.1, (ih _).2.trans hk.2⟩
      · rename_i e; rw [e] at hk; exact hk
    · exact ⟨rfl, rfl⟩

/-- The fetch changes nothing that decides whether a store waits. -/
theorem State.fetched_waits (s : State) (c len d : Nat) :
    (s.fetched c len).postedOf d = s.postedOf d ∧ (s.fetched c len).storeWaits d = s.storeWaits d := by
  have h := State.fetch_stores c (halvesOf (s.core c).pc len) s
  have hr : (s.fetched c len).ring = s.ring := h.1
  have hs : (s.fetched c len).stores = s.stores := h.2
  simp [State.storeWaits, State.postedOf, State.farStores, State.heldStores, hr, hs]

/-- A fetch of halfwords that the core can fetch meets no fault and leaves every core as it was. -/
theorem State.fetch_open (c : Nat) (l : List Word) :
    ∀ s : State, (∀ a ∈ l, fetchable a = true ∧ s.coreEcc (coreKey c (a.toNat % 0x10000)) ≠ .double) →
      (s.fetch c l).2 = none ∧ ∀ d, (s.fetch c l).1.core d = s.core d := by
  induction l with
  | nil => intro s _; exact ⟨rfl, fun _ => rfl⟩
  | cons a t ih =>
    intro s h
    have ha := h a (by simp)
    have hk := State.coreCheck_one s c _ ha.2
    have hi := ih (s.coreCheck c [coreKey c (a.toNat % 0x10000)]).1 fun b hb =>
      ⟨(h b (by simp [hb])).1, State.coreCheck_one_ecc s c _ _ ha.2 (h b (by simp [hb])).2⟩
    unfold State.fetch
    rw [if_pos ha.1]
    split
    · rename_i e; rw [e] at hi; rw [show s.core = (s.coreCheck c [coreKey c (a.toNat % 0x10000)]).1.core from
        funext fun d => (State.coreCheck_one_core s c _ d).symm, e]; exact hi
    · rename_i e; rw [e] at hk; cases hk

/-- A core that executes an instruction has fetched it, with every core as before the fetch. -/
theorem State.executes_fetched (s : State) (h : Head) (len : Nat) (hx : s.executes h len = true) :
    s.fetch h.core (halvesOf (s.core h.core).pc len) = (s.fetched h.core len, none) ∧
      ∀ d, (s.fetched h.core len).core d = s.core d := by
  have hf : s.fetches h.core len = true := by
    simp only [State.executes, Bool.and_eq_true] at hx; exact hx.1.2
  have ho := State.fetch_open h.core (halvesOf (s.core h.core).pc len) s fun a ha => by
    have := List.all_eq_true.mp hf a ha
    simpa using this
  exact ⟨Prod.ext rfl ho.1, ho.2⟩

/-- Where nothing comes in its place, the instruction is fetched and executed. -/
theorem State.instr_undisturbed (s : State) (h : Head) (len : Nat) (defined : Bool) (f : State → State)
    (ha : s.awake = true) (hr : s.coreReady h.core = true) (hu : s.undisturbed h.core = true) :
    s.instr h len defined f = .next (s.execute h len defined f) := by
  simp only [State.undisturbed, Bool.and_eq_true, Option.isNone_iff_eq_none] at hu
  have he : s.entryEnd h.core = s := by unfold State.entryEnd; rw [hu.1]
  unfold State.instr
  rw [State.powered_awake _ _ ha, if_pos hr]
  simp [he, hu.2]

/-- What an executed instruction comes to: its effect on the unit after the fetch. -/
theorem State.instr_executes (s : State) (h : Head) (len : Nat) (f : State → State) (hx : s.executes h len = true) :
    s.instr h len true f = .next (f (s.fetched h.core len)) := by
  have hf := State.executes_fetched s h len hx
  simp only [State.executes, Bool.and_eq_true] at hx
  rw [State.instr_undisturbed s h len true f hx.1.1.1.1 hx.1.1.1.2 hx.1.1.2, State.execute, hf.1]
  simp [hf.2, hx.2]

/-- An instruction whose condition is false only completes (08 R276). -/
theorem State.instr_skips (s : State) (h : Head) (len : Nat) (f : State → State)
    (hx : s.executes ⟨h.core, 0⟩ len = true) (hc : (s.core h.core).flags.meets h.cond = false) :
    s.instr h len true f = .next ((s.fetched h.core len).retire h.core len) := by
  have hf := State.executes_fetched s ⟨h.core, 0⟩ len hx
  simp only [State.executes, Bool.and_eq_true] at hx
  rw [State.instr_undisturbed s h len true f hx.1.1.1.1 hx.1.1.1.2 hx.1.1.2, State.execute, hf.1]
  have hc' : ((s.fetched h.core len).core h.core).flags.meets h.cond = false := by rw [hf.2]; exact hc
  simp [hc']

/-- An instruction that changes only its core's registers, and not its PC, completes with that change. -/
theorem State.regInstr_completes (i : Instr) (h : Head) (len : Nat) (f : CoreState → CoreState)
    (hpc : ∀ k : CoreState, (f k).pc = k.pc) (hi : ∀ s, exec i s = s.regInstr h len f) : completes i h len f := by
  intro s hx
  have hf := State.executes_fetched s h len hx
  refine ⟨_, (hi s).trans (State.instr_executes s h len _ hx), ?_⟩
  have m := State.updCore_retireTo (s.fetched h.core len) h.core f
    ((s.core h.core).pc + BitVec.ofNat 32 len) (hpc _)
  rw [hf.2] at m
  unfold State.retire
  rw [State.core_updCore_same, hpc, hf.2]
  exact m

/-! ### Loads, stores and faults -/

/-- A load that is aligned, waits for no buffered store and gets data goes on with the data. -/
theorem State.load_data (s u : State) (c a n v : Nat) (align : Bool) (f : State → Nat → State)
    (ha : (if align then a % n != 0 else misaligned a n) = false)
    (hp : s.loadWaits c a n = false) (hb : s.busRead (.core c) a n true = (u, .data v)) :
    s.load c a n align f = f u v := by
  unfold State.load
  rw [ha, if_neg (by decide), if_neg (by simp [hp]), hb]

/-- A store that is aligned, finds room in its core's buffer, stands behind none there and is accepted, its core going
on with the same run, retires. -/
theorem State.store_data (s u : State) (c len a n v d : Nat) (ha : misaligned a n = false)
    (hp : isLocal a = false → s.postedOf c < 4) (hw : isLocal a = true ∨ s.storeWaits c = false)
    (hr : s.sameRun u c = true) (hb : s.busWrite (.core c) a n v = (u, .data d)) :
    s.store c len a n v = u.retire c len := by
  unfold State.store
  rw [ha, if_neg (by decide)]
  cases hl : isLocal a with
  | true => simp [hb, hr]
  | false =>
    have h4 := hp hl
    have hs : s.storeWaits c = false := by simpa [hl] using hw
    rw [if_neg (by simp; omega), if_neg (by simp [hs]), hb]
    simp [hr]

/-- A store behind others that have not left its core's buffer enters the buffer and retires. -/
theorem State.store_held (s : State) (c len a n v : Nat) (ha : misaligned a n = false) (hl : isLocal a = false)
    (hp : s.postedOf c < 4) (hw : s.storeWaits c = true) :
    s.store c len a n v = ({ s with stores := s.stores ++ [⟨c, false, a, n, v⟩] } : State).retire c len := by
  unfold State.store
  rw [ha, if_neg (by decide), if_neg (by simp; omega), if_pos (by simp [hl, hw])]

/-- A fault below FAULT level enters its vector (08 R299). -/
theorem State.fault_enters (s : State) (c v : Nat) (epc : Word) (addr : Option Word) (impr ecc : Bool)
    (h : (s.core c).level ≠ .fault) :
    s.fault c v epc addr impr ecc =
      ((s.updCore c fun (k : CoreState) => k.faultEntry v epc (addr.getD (s.core c).faddr) (faultCause v impr ecc)).bump
        R.CC_STATUS.FAULTS c).statusCount 0x032 := by
  unfold State.fault
  rw [if_neg h]

end Sys2Proof.Machine
end

