-- ==== Sys2Proof/Laws/Keeps.lean ====
section
/-! SUPPORT. What every operation keeps: the canonical form of memory and of the register store, and every OTP
bit that reads 1. One lemma for each operation that writes them; the others follow from their frames. -/

namespace Sys2Proof.Machine

/-! ### The relation -/

theorem State.keeps_refl (s : State) : s.keeps s := ⟨id, id, fun _ _ => id⟩

theorem State.keeps_trans {s t u : State} (h : s.keeps t) (g : t.keeps u) : s.keeps u :=
  ⟨fun x => g.1 (h.1 x), fun x => g.2.1 (h.2.1 x), fun w i x => g.2.2 w i (h.2.2 w i x)⟩

/-- An operation that leaves memory, the register store and the keeper alone keeps all three. -/
theorem State.keeps_of_frame {s t : State} (hm : t.mem = s.mem) (hr : t.regs = s.regs) (hs : t.sec = s.sec) :
    s.keeps t := by
  refine ⟨fun h => ?_, fun h => ?_, fun w i h => ?_⟩
  · rw [hm]; exact h
  · rw [hr]; exact h
  · rw [hs]; exact h

/-- An operation that leaves memory and the keeper alone and keeps the register store. -/
theorem State.keeps_of_regs {s t : State} (hm : t.mem = s.mem) (hs : t.sec = s.sec)
    (hr : regsWf s.regs = true → regsWf t.regs = true) : s.keeps t := by
  refine ⟨fun h => ?_, hr, fun w i h => ?_⟩
  · rw [hm]; exact h
  · rw [hs]; exact h

/-- An operation that leaves registers and the keeper alone and keeps the memories. -/
theorem State.keeps_of_mem {s t : State} (hr : t.regs = s.regs) (hs : t.sec = s.sec)
    (hm : s.mem.wf = true → t.mem.wf = true) : s.keeps t := by
  refine ⟨hm, fun h => ?_, fun w i h => ?_⟩
  · rw [hr]; exact h
  · rw [hs]; exact h

/-- A fold of operations that keep them keeps them. -/
theorem State.keeps_foldl {α : Type} (f : State → α → State) (hf : ∀ (s : State) (x : α), s.keeps (f s x)) (l : List α) :
    ∀ s : State, s.keeps (l.foldl f s) := by
  induction l with
  | nil => exact State.keeps_refl
  | cons x t ih => exact fun s => State.keeps_trans (hf s x) (ih (f s x))

/-! ### Sparse tables -/

/-- Dropping entries keeps the canonical form. -/
theorem SMap.wfFrom_filter {α : Type} [DecidableEq α] (d : Nat → α) (p : Nat × α → Bool) (m : SMap α) :
    ∀ lo, SMap.wfFrom d lo m = true → SMap.wfFrom d lo (m.filter p) = true := by
  induction m with
  | nil => intro lo h; exact h
  | cons e t ih =>
    obtain ⟨k, v⟩ := e
    intro lo h
    rw [SMap.wfFrom_cons] at h
    rw [List.filter_cons]
    split
    · rw [SMap.wfFrom_cons]; exact ⟨h.1, h.2.1, ih _ h.2.2⟩
    · exact ih lo (SMap.wfFrom_weaken d k lo t h.1 h.2.2)

/-- Dropping entries keeps the canonical form. -/
theorem SMap.wf_filter {α : Type} [DecidableEq α] (d : Nat → α) (p : Nat × α → Bool) (m : SMap α)
    (h : SMap.wf d m = true) : SMap.wf d (m.filter p) = true := SMap.wfFrom_filter d p m none h

theorem MemState.wf_iff (m : MemState) :
    m.wf = true ↔ SMap.wf (fun _ => 0) m.bytes = true ∧ SMap.wf (fun _ => 0) m.coreRam = true := by
  simp [MemState.wf]

/-! ### Registers -/

theorem State.keeps_setReg (s : State) (a : Nat) (v : Word) : s.keeps (s.setReg a v) :=
  State.keeps_of_regs (by simp) (by simp) (SMap.wf_set regReset s.regs a v)

theorem State.keeps_wr (s : State) (f : Fld) (v inst idx : Nat) : s.keeps (s.wr f v inst idx) :=
  State.keeps_setReg s _ _

theorem State.keeps_bumpBy (s : State) (f : Fld) (n inst idx : Nat) : s.keeps (s.bumpBy f n inst idx) :=
  State.keeps_wr s f _ inst idx

theorem State.keeps_bump (s : State) (f : Fld) (inst idx : Nat) : s.keeps (s.bump f inst idx) :=
  State.keeps_bumpBy s f 1 inst idx

theorem State.keeps_syncSource (s : State) (key : Nat) : s.keeps (s.syncSource key) :=
  State.keeps_of_frame (by simp) (by simp) (by simp)

theorem State.keeps_syncPage (s : State) (p : Nat) : s.keeps (s.syncPage p) :=
  State.keeps_of_frame (by simp) (by simp) (by simp)

theorem State.keeps_pulse (s : State) (key : Nat) : s.keeps (s.pulse key) :=
  State.keeps_of_frame (by simp) (by simp) (by simp)

theorem State.keeps_raise (s : State) (f : Fld) (inst : Nat) : s.keeps (s.raise f inst) :=
  State.keeps_trans (State.keeps_wr s f _ inst 0) (State.keeps_syncPage _ _)

theorem State.keeps_then_raise {s t : State} (f : Fld) (inst : Nat) (h : s.keeps t) : s.keeps (t.raise f inst) :=
  State.keeps_trans h (State.keeps_raise t f inst)

theorem State.keeps_capture (s : State) (p : Nat) (who : Initiator) (write : Bool) (size cause addr : Nat) :
    s.keeps (s.capture p who write size cause addr) := by
  unfold State.capture
  split
  · exact State.keeps_bump s _ p 0
  · exact State.keeps_trans (State.keeps_setReg s _ _) (State.keeps_trans (State.keeps_setReg _ _ _)
      (State.keeps_syncPage _ p))

theorem State.keeps_statusCount (s : State) (i : Nat) : s.keeps (s.statusCount i) :=
  State.keeps_of_frame (by simp) (by simp) (by simp)

theorem State.keeps_placeOffers (s : State) : s.keeps s.placeOffers := State.keeps_of_frame rfl rfl rfl

theorem State.keeps_alarmOf (s : State) (x : AlarmEntry) : s.keeps (s.alarmOf x) := by
  unfold State.alarmOf
  dsimp only
  refine State.keeps_trans ?_ (State.keeps_placeOffers _)
  (repeat' split) <;> first
    | exact State.keeps_of_frame rfl rfl rfl
    | exact State.keeps_then_raise _ _ (State.keeps_of_frame rfl rfl rfl)

theorem State.keeps_alarm (s : State) (p c a d : Nat) : s.keeps (s.alarm p c a d) := by
  unfold State.alarm
  split
  · exact State.keeps_trans (State.keeps_bump s _ 0 0) (State.keeps_trans (State.keeps_statusCount _ _)
      (State.keeps_alarmOf _ _))
  · exact State.keeps_refl s

/-! ### Memory -/

theorem State.keeps_setByte (s : State) (a : Nat) (v : Byte) : s.keeps (s.setByte a v) := by
  refine State.keeps_of_mem rfl rfl fun h => ?_
  rw [MemState.wf_iff] at h ⊢
  exact ⟨SMap.wf_set (fun _ => 0) s.mem.bytes a v h.1, h.2⟩

theorem State.keeps_memPut (l : List Byte) : ∀ (s : State) (a : Nat), s.keeps (s.memPut a l) := by
  induction l with
  | nil => exact fun s _ => State.keeps_refl s
  | cons b t ih => exact fun s a => State.keeps_trans (State.keeps_setByte s a b) (ih _ _)

theorem State.keeps_memWrite (s : State) (a n v : Nat) : s.keeps (s.memWrite a n v) := State.keeps_memPut _ s a

theorem State.keeps_memClear (s : State) (a n : Nat) : s.keeps (s.memClear a n) := by
  refine State.keeps_of_mem rfl rfl fun h => ?_
  rw [MemState.wf_iff] at h ⊢
  exact ⟨SMap.wf_filter _ _ _ h.1, h.2⟩

theorem State.keeps_setEcc (s : State) (a : Nat) (e : EccMark) : s.keeps (s.setEcc a e) :=
  State.keeps_of_mem rfl rfl fun h => h

theorem State.keeps_sramUncorr (s : State) (h : Nat) : s.keeps (s.sramUncorr h) :=
  State.keeps_trans (State.keeps_bump s _ 0 0) (State.keeps_trans (State.keeps_wr _ _ _ 0 0)
    (State.keeps_trans (State.keeps_raise _ _ 0) (State.keeps_trans (State.keeps_statusCount _ _)
      (State.keeps_alarm _ _ _ _ _))))

theorem State.keeps_sramCorr (s : State) (h : Nat) : s.keeps (s.sramCorr h) :=
  State.keeps_trans (State.keeps_bump s _ 0 0) (State.keeps_trans (State.keeps_raise _ _ 0)
    (State.keeps_trans (State.keeps_statusCount _ _) (State.keeps_of_mem rfl rfl fun g => g)))

theorem State.keeps_sramCheck (l : List Nat) : ∀ s : State, s.keeps (s.sramCheck l).1 := by
  induction l with
  | nil => exact State.keeps_refl
  | cons h t ih =>
    intro s
    unfold State.sramCheck
    split
    · exact ih s
    · exact State.keeps_trans (State.keeps_sramCorr s h) (ih _)
    · exact State.keeps_sramUncorr s h

theorem State.keeps_sramRead (s : State) (a n : Nat) : s.keeps (s.sramRead a n).1 := by
  have h := State.keeps_sramCheck (wordsOf 2 a n) s
  unfold State.sramRead
  split <;> (rename_i e; rw [e] at h; exact h)

theorem State.keeps_sramPutHalf (s : State) (h lo hi : Nat) (v : List Byte) : s.keeps (s.sramPutHalf h lo hi v).1 := by
  unfold State.sramPutHalf
  split
  · exact State.keeps_trans (State.keeps_memPut v s lo) (State.keeps_setEcc _ _ _)
  · split
    · exact State.keeps_memPut v s lo
    · exact State.keeps_trans (State.keeps_sramCorr s h) (State.keeps_trans (State.keeps_memPut v _ lo)
        (State.keeps_setEcc _ _ _))
    · exact State.keeps_sramUncorr s h

theorem State.keeps_sramPutAll (a n v : Nat) (l : List Nat) : ∀ s : State, s.keeps (s.sramPutAll a n v l).1 := by
  induction l with
  | nil => exact State.keeps_refl
  | cons h t ih => exact fun s => State.keeps_trans (State.keeps_sramPutHalf s h _ _ _) (ih _)

theorem State.keeps_sramWrite (s : State) (who : Initiator) (a n v : Nat) : s.keeps (s.sramWrite who a n v) := by
  have h := State.keeps_sramPutAll a n v (wordsOf 2 a n) s
  unfold State.sramWrite
  split <;> (rename_i e; rw [e] at h)
  · exact h
  · exact State.keeps_trans h (State.keeps_capture _ _ _ _ _ _ _)

theorem State.keeps_corePut (l : List Byte) : ∀ (s : State) (k : Nat), s.keeps (s.corePut k l) := by
  induction l with
  | nil => exact fun s _ => State.keeps_refl s
  | cons b t ih =>
    intro s k
    refine State.keeps_trans ?_ (ih _ _)
    refine State.keeps_of_mem rfl rfl fun h => ?_
    rw [MemState.wf_iff] at h ⊢
    exact ⟨h.1, SMap.wf_set (fun _ => 0) s.mem.coreRam k (b ^^^ coreFill k) h.2⟩

theorem State.keeps_coreWrite (s : State) (c off n v : Nat) : s.keeps (s.coreWrite c off n v) :=
  State.keeps_trans (State.keeps_corePut _ s _)
    (State.keeps_foldl (fun (t : State) h => t.setCoreEcc h .clean) (fun _ _ => State.keeps_of_mem rfl rfl fun g => g) _ _)

/-! ### OTP -/

/-- Programming ORs: no bit returns to 0 (18 R596). -/
theorem State.keeps_otpOr (s : State) (w v : Nat) : s.keeps (s.otpOr w v) := by
  refine ⟨fun h => h, fun h => h, fun x i h => ?_⟩
  show ((s.sec.otp.set 0 w (BitVec.ofNat 32 (s.otp w ||| v))).get 0 x).getLsbD i = true
  rw [SMap.get_set]
  split
  · rename_i e
    subst e
    have hi : i < 32 := by
      apply Classical.byContradiction
      intro hn
      rw [BitVec.getLsbD_of_ge _ i (by omega)] at h
      cases h
    rw [BitVec.getLsbD_ofNat, Nat.testBit_or]
    have ht : (s.otp x).testBit i = true := h
    simp [hi, ht]
  · exact h

theorem State.keeps_otpPut (n : Nat) :
    ∀ (l : List Byte), l.length ≤ n → ∀ (s : State) (w : Nat), s.keeps (s.otpPut w l) := by
  induction n with
  | zero =>
    intro l hl s w
    have hz : l = [] := List.length_eq_zero_iff.mp (by omega)
    subst hz; exact State.keeps_refl s
  | succ n ih =>
    intro l hl s w
    unfold State.otpPut
    split
    · simp only [List.length_cons] at hl
      exact State.keeps_trans (State.keeps_otpOr s w _) (ih _ (by omega) _ _)
    · exact State.keeps_refl s

end Sys2Proof.Machine
end

