-- ==== Sys2Proof/Tests/Slice0.lean ====
section
/-! SUPPORT. Tests: ill-formed commands are refused by the check, words of the spec decode, and, for every statement
with hypotheses, a concrete state and operands that meet them all; the statement's name follows `meets_`. -/

namespace Sys2Proof.Machine.Tests

/- One theorem at a time: the checks of the evaluations below would else wait for each other, each on a
thread of its own. -/
set_option Elab.async false

/-! ### Well-formed commands -/

theorem test_wf_initiator : [Instr.hostLinkLoss.wf, (Instr.snapReq (.core 17)).wf, (Instr.snapReq (.core 18)).wf,
    (Instr.snapReq (.mover 4)).wf, (Instr.snapReq (.ringUnit 0)).wf, (Instr.snapReq (.ringUnit 0x7FF)).wf] =
    [true, true, false, false, false, false] := by decide
theorem test_wf_point : [(Instr.holdTimeEnd 4096).wf, (Instr.livePointStale 8388608).wf, (Instr.hostPointHeld 4096).wf,
    (Instr.hostLossTimeout 4096).wf, (Instr.forceSet .pcie 4095 4096).wf, (Instr.forceSet .pcie 4096 0).wf,
    (Instr.forceRelease .pcie 4096).wf, (Instr.snapRel .pcie 65536 true).wf] =
    [false, false, false, false, false, false, false, false] := by decide
theorem test_wf_ring : [(Instr.bridgeTimeout 65536).wf, (Instr.bridgeReissue 65536).wf, (Instr.tsLoad .pcie 8).wf,
    (Instr.tsLoadComplete 8).wf, (Instr.tsDrop .pcie 8).wf, (Instr.mcStart .pcie 8).wf, (Instr.tbCapture .pcie 8).wf] =
    [false, false, false, false, false, false, false] := by decide
theorem test_wf_pour : [(Instr.slotLoaded 21).wf, (Instr.operationTake 21).wf, (Instr.operationComplete 4).wf,
    (Instr.setEn .pcie 4096).wf, (Instr.clrEn .pcie 4096).wf, (Instr.moverPointIssue 4).wf,
    (Instr.moverPointWrite ⟨4, false⟩).wf, (Instr.operationTake 20).wf] =
    [false, false, false, false, false, false, false, true] := by decide
theorem test_wf_head : [(Instr.nop ⟨18, 0⟩ true).wf, (Instr.nop ⟨0, 16⟩ true).wf, (Instr.nop ⟨0, 4⟩ false).wf,
    (Instr.nop ⟨17, 15⟩ true).wf] =
    [false, false, false, true] := by decide
theorem test_wf_alu : [(Instr.add ⟨0, 0⟩ (.short 16 0)).wf, (Instr.add ⟨0, 0⟩ (.long 0 0 16 true)).wf,
    (Instr.addi ⟨0, 0⟩ (.short 0 16)).wf, (Instr.addi ⟨0, 0⟩ (.long 0 0 4096)).wf, (Instr.setl ⟨0, 0⟩ 0 65536).wf,
    (Instr.shi ⟨0, 0⟩ 0 0 4 0 false).wf, (Instr.shi ⟨0, 0⟩ 0 0 0 32 false).wf, (Instr.cmpi ⟨0, 0⟩ false 0 16).wf,
    (Instr.satp ⟨0, 0⟩ (.short 16)).wf, (Instr.pcond ⟨0, 0⟩ 4 0).wf] =
    [false, false, false, false, false, false, false, false, false, false] := by decide
theorem test_wf_memory : [(Instr.ldh ⟨0, 0⟩ (.sp 0 0)).wf, (Instr.ldw ⟨0, 0⟩ (.sp 0 64)).wf,
    (Instr.ldw ⟨0, 0⟩ (.reg 0 16)).wf, (Instr.stw ⟨0, 0⟩ (.long 0 0 4096)).wf, (Instr.ldp ⟨0, 0⟩ (.short 5 0)).wf,
    (Instr.stp ⟨0, 0⟩ (.long 0 0 0 true 0)).wf, (Instr.ldp ⟨0, 0⟩ (.long 0 0 0 true 127)).wf,
    (Instr.ldx ⟨0, 0⟩ false 0 2).wf, (Instr.stx ⟨0, 0⟩ true 0 256).wf, (Instr.call ⟨0, 0⟩ (.long 65536 0)).wf] =
    [false, false, false, false, false, false, true, false, false, false] := by decide
theorem test_wf_control : [(Instr.b ⟨0, 0⟩ false 2048).wf, (Instr.b ⟨0, 0⟩ true 1048576).wf, (Instr.trap ⟨0, 0⟩ true 16).wf,
    (Instr.mfs ⟨0, 0⟩ 0 256).wf, (Instr.done ⟨0, 0⟩ true 4).wf, (Instr.post ⟨0, 0⟩ (.imm 0 4 0)).wf,
    (Instr.post ⟨0, 0⟩ (.imm 0 3 4095)).wf] =
    [false, false, false, false, false, false, true] := by decide
theorem test_wf_units : [(Instr.icSeoi .pcie 1024).wf, (Instr.mbxTxLo .pcie 64 0).wf, (Instr.stop .pcie 64).wf,
    (Instr.inlatch .pcie 8 0).wf, (Instr.canModeInit .pcie 12).wf, (Instr.macEnable .pcie 4).wf, (Instr.pushOut 8).wf,
    (Instr.switchEgress 8).wf, (Instr.fdbRead .pcie 1024).wf, (Instr.carveRelease .pcie 8).wf, (Instr.semPop .pcie 32).wf,
    (Instr.kettleGrant 12).wf, (Instr.macRxrGet .pcie 0 8 0).wf, (Instr.lsoSegmentEnqueue 48).wf] =
    [false, false, false, false, false, false, false, false, false, false, false, false, false, false] := by decide


/-! ### Words of the spec -/

theorem test_decode_worked_example : decodeClalo 0 0xE054 0x8680 = some (.setl ⟨0, 0⟩ 4 0x8680) ∧
    decodeClalo 0 0x6764 0 = some (.ldp ⟨0, 0⟩ (.short 6 4)) ∧ decodeClalo 0 0xC610 0 = some (.ldx ⟨0, 0⟩ false 8 0x40) ∧
    decodeClalo 0 0xE607 0x79F0 = some (.qprec ⟨0, 3⟩ 7 7 9 false) ∧
    decodeClalo 0 0xA710 0 = some (.done ⟨0, 0⟩ false 0) := by decide
theorem test_decode_refuses : decodeClalo 0 0xA7F0 0 = none ∧ decodeClalo 0 0xE136 0x0080 = none := by decide
theorem test_table_rows_give_no_bits : decodeTableWord 16 0 = none ∧ State.reset.withFetchWord 16 0 = State.reset := by
  decide

/-! ### States of the tests -/

-- BEGIN HELP
/-- The state after reset. -/
abbrev z : State := State.reset

/-- The state after a command. -/
def after (c : Instr) (s : State) : State :=
  match exec c s with
  | .next t => t
  | _ => s

/-- Held in reset: the supplies are not valid. -/
abbrev heldState : State := { z with power := { z.power with holds := [.supplies] } }

/-- Local point 0x100 of writer class `c` with `host` HOSTCMD, HOLD 2, LOSS_ACTION substitute; it has a good value. -/
abbrev pointState (c : Nat) (host miss : Nat) : State :=
  { z with pt := { z.pt with attr := [(0x100, BitVec.ofNat 64 (c * 2 ^ 61 + 2 * 2 ^ 40 + 2 ^ 38 + host * 2 ^ 37 + 7))]
                             store := [(0x006, 0x02AF), (0x036, 0x0010), (0x037, 0x0001), (0x100, 0x0123)]
                             miss := [(0x100, miss)] } }

/-- Images are enabled. -/
abbrev rootState : State := z.wr R.CAD_IMG_CTRL.IMG_EN 1
-- END HELP

theorem test_reset_state : z.awake = true ∧ heldState.awake = false ∧ z.core 16 = { run := .run } ∧ z.mem.bytes = [] ∧
    z.pending = [] := by decide

/-! ### Hypotheses of the statements -/

theorem test_meets_StepRunsTheFrontCommand : ({ z with pending := [.msixSend] } : State).pending = .msixSend :: [] := rfl
theorem test_meets_IdleStepIsOneTick : heldState.pending = [] ∧ heldState.awake = false ∧ z.pending = [] ∧
    z.awake = true := by decide
theorem test_meets_EncodedInstructionsDecode : (Instr.nop ⟨17, 15⟩ true).isClalo = true ∧
    (Instr.nop ⟨17, 15⟩ true).wf = true ∧ (Instr.ldx ⟨0, 0⟩ true 15 255).wf = true := by decide
theorem test_meets_DecodedInstructionsEncode : (17 : Nat) < 18 ∧
    decodeClalo 17 0xE054 0x8680 = some (.setl ⟨17, 0⟩ 4 0x8680) ∧
    decodeClalo 0 0x2096 0 = some (.movi ⟨0, 0⟩ 9 6) := by decide

/-- IC_ROUTE0 of the shared interrupt controller, first and last initiators that write it. -/
theorem test_meets_RegisterWritesFollowAccessCodes : z.accepts (.ringUnit 1) 23 0x40 = true ∧
    ∃ row d, pageRow 23 = some row ∧ findReg row.ty 0x40 = some d ∧
      z.writeSpecial (.ringUnit 1) row.ty (23 - row.first) 0x40 d 0 = none := by
  refine ⟨by decide, _, _, rfl, rfl, ?_⟩; decide
theorem test_meets_RegisterReadsFollowAccessCodes : z.answers 16 = true ∧
    (∃ row d, pageRow 16 = some row ∧ findReg row.ty 0x40 = some d ∧
      z.readSpecial .pcie row.ty (16 - row.first) 0x40 d = none) ∧ z.answers 8 = true ∧
    (z.wr R.CAD_SNAP_STATUS.VALID 1).on R.CAD_SNAP_STATUS.VALID = true := by
  refine ⟨by decide, ⟨_, _, rfl, rfl, ?_⟩, by decide, by decide⟩; decide
theorem test_meets_PageControlWrites : z.controls .pcie 0 = true ∧ z.controls .spi 199 = true ∧ srstPage 199 = true ∧
    z.controls (.core 0) 24 = true ∧ srstPage 27 = true ∧ (z.macOf 0).waiting = [] ∧ (z.macOf 3).waiting = [] ∧
    (z.wr R.PAGE_STATUS.HELD 1 12).on R.PAGE_STATUS.HELD 12 = true ∧ z.pageEn 12 = true ∧
    (pageRow 0).isSome = true ∧ (pageRow 199).isSome = true ∧ z.on R.ERR_CAPTURE.VALID 199 = false := by decide
theorem test_meets_PageInterruptWrites : remote .pcie = false ∧ pageRemote 199 = true ∧
    (∃ row, pageRow 199 = some row) ∧ z.on R.ERR_CAPTURE.VALID 0 = false ∧ (pageRow 0).isSome = true := by
  refine ⟨by decide, by decide, ⟨_, rfl⟩, by decide, by decide⟩

theorem test_meets_MissedPointsTakeTheirHoldAction :
    (let s := pointState 1 0 1
     aClass (s.attr 0x100) ≠ 0 ∧ aHostCmd (s.attr 0x100) = false ∧ aHold (s.attr 0x100) ≠ 0 ∧
       s.miss 0x100 + 1 = aHold (s.attr 0x100) ∧ s.pt.upd.get false 0x100 = false ∧ 2 < qPrec (ptQual (s.stored 0x100))) ∧
    (let s := pointState 1 1 0
     aHostCmd (s.attr 0x100) = true ∧ s.miss 0x100 = 0 ∧ s.rd R.RING_PT_CTRL.HOST_LOSS_TIMEOUT ≠ 1 ∧
       2 < qPrec (ptQual (s.stored 0x100))) ∧
    (let s := (pointState 1 1 2).wr R.RING_PT_CTRL.HOST_LOSS_TIMEOUT 3
     aHostCmd (s.attr 0x100) = true ∧ s.miss 0x100 + 1 = s.rd R.RING_PT_CTRL.HOST_LOSS_TIMEOUT) := by decide

/-- A root whose live page of slot 0 holds a point of unit 2, missed once, with HOLD 2. -/
abbrev livePointState : State :=
  { rootState with
    pt := { rootState.pt with livePt := [(16, { backed := true, ppn := 5 })], liveMiss := [(8192, 1)] }
    mem := { rootState.mem with bytes := [(5 * 0x400, 0x23), (5 * 0x400 + 1, 0x01)] }
    ring := { rootState.ring with addr := 1, active := { rootState.ring.active with
      slots := [⟨0, 2, 1, 0, 1, 2⟩], rx := [⟨2, false, 0, 0, 8192⟩] } } }
theorem test_meets_MissedLivePoint : livePointState.awake = true ∧ livePointState.imgEn = true ∧
    8192 / 4096 ≠ livePointState.ring.addr ∧
    livePointState.pt.liveMiss.get 0 8192 + 1 = livePointState.ring.active.liveHold 8192 ∧
    livePointState.ring.active.liveHold 8192 ≤ 255 ∧ livePointState.pt.liveUpd.get false 8192 = false ∧
    (livePointState.live (8192 / 512)).backed = true ∧ (livePointState.live (8192 / 512)).shared = false ∧
    2 < qPrec (ptQual (livePointState.pageRead (livePointState.live (8192 / 512)) 8192)) := by decide

theorem test_meets_HostLossIsDeclaredAndEnds :
    (let s := rootState.wr R.PCIE_STATUS.LINK_UP 1
     s.awake = true ∧ s.imgEn = true ∧ s.on R.PCIE_STATUS.LINK_UP = true ∧ s.on R.RING_PT_CTRL.HOST_LOST = false) ∧
    (rootState.wr R.RING_PT_CTRL.HOST_WD 1).rd R.RING_PT_CTRL.HOST_WD ≠ 0 ∧
    z.takes .pcie R.RING_PT_HOSTBEAT.BEAT = true := by decide

theorem test_meets_ForceAndSnapshotCommands : z.takes .spi R.RING_PT_FORCE.OP = true ∧
    aClass ((pointState 4 0 0).attr 0x100) ≠ 0 ∧ rootState.takes (.ringUnit 3) R.CAD_IMG_CTRL.SNAP_REQ = true ∧
    rootState.on R.CAD_SNAP_STATUS.VALID = false ∧
    (let s := (rootState.wr R.CAD_SNAP_STATUS.VALID 1).wr R.CAD_SNAP_STATUS.SEQ 255
     s.takes .pcie R.CAD_IMG_CTRL.SNAP_REL = true ∧ s.imgEn = true ∧ s.on R.CAD_SNAP_STATUS.VALID = true ∧
       255 = s.rd R.CAD_SNAP_STATUS.SEQ) := by decide

theorem test_meets_MemoryBackgroundWork :
    (let s : State := { z with mem := { z.mem with ecc := [(0x10000000, .single)], writeBack := [0x10000000] } }
     s.awake = true ∧ 0x10000000 ∈ s.mem.writeBack ∧ s.eccAt 0x10000000 = .single) ∧
    (let s := (z.wr R.SRAM_BT_CTRL.EN 1).wr R.SRAM_BT_MASK.BANKS 0x80000000
     s.on R.SRAM_BT_CTRL.EN = true ∧ s.mem.btSaved = none ∧ s.rd R.SRAM_BT_MASK.BANKS ≠ 0) ∧
    (let s : State := { z with mem := { z.mem with btSaved := some 16383 } }
     s.mem.btSaved = some 16383 ∧ s.on R.SRAM_REPAIRb.V0 0 (16383 / 512) = false) ∧
    (let s : State := { z with mem := { z.mem with pages := [(0, { zeroed := false }), (65535, { owner := .carve, zeroed := false })] } }
     (s.page 0).zeroed = false ∧ (s.page 0).owner = .free ∧ (s.page 65535).zeroed = false ∧ (s.page 65535).owner = .carve) ∧
    (let s : State := { z.wr R.CAD_SCRUB.EN 1 with mem := { z.mem with pages := [(65535, { owner := .gen })] } }
     s.on R.CAD_SCRUB.EN = true ∧ (s.page (0x3FFFFFF / 8 * 8 / 0x400)).owner = .gen ∧
       s.eccAt (0x3FFFFFF / 8 * 8) = .clean) := by decide

theorem test_meets_CaddyPagesAndCells_page :
    z.answers 8 = true ∧ z.mayTake .gen = true ∧ z.mayTake .cell = true ∧ z.cellPage = none ∧ z.choosePage = some 0 :=
  ⟨by decide, by decide, by decide, by decide, rfl⟩
theorem test_meets_CaddyPagesAndCells :
    (let s : State := { z with mem := { z.mem with pages := [(3, { owner := .gen }), (9, { owner := .cell, cfree := 12 })] } }
     s.cellPage = some 9 ∧ s.takes .pcie R.CAD_PAGE_FREE.NUM = true ∧ (s.page 3).owner = .gen ∧
       (s.wr R.CAD_FREE.FREE 65535).rd R.CAD_FREE.FREE < 65536 ∧ s.takes .pcie R.CAD_CELL_FREE.NUM = true ∧
       (s.page (36 / 4)).owner = .cell ∧ bit (s.page (36 / 4)).cfree (36 % 4) = false ∧
       (s.page (36 / 4)).cfree + 2 ^ (36 % 4) ≠ 15) ∧
    z.takes .pcie R.CAD_CARVEn_PAGES.PAGES 0 7 = true ∧ z.rd R.CAD_CARVEn_PAGES.PAGES 0 7 = 0 ∧
    z.rd R.CAD_CARVEn_BASE.BASE 0 7 + 65536 ≤ 65536 ∧ (z.page 65535).owner = .free ∧
    (z.wr R.CAD_FREE.FREE 0).rd R.CAD_FREE.FREE + z.rd R.CAD_CARVEn_PAGES.PAGES 0 0 ≤ 65536 := by decide

/-! ### Ring -/

/-- Both ports are UP with known estimates, a cycle runs, and the unit, at address 1, has the active set of one slot. -/
abbrev ringState : State :=
  let a := ((((z.setLink .e 5).setLink .w 5).wr (fldKnown .e) 1).wr (fldKnown .w) 1).wr R.RING_ENUM_STATUS.STATE 5
  let b := (a.wr R.RING_CYC_STATUS.SEG 2).wr R.TB_STATUS.STATE 3
  let x : TableSet := { unit := 1, cycleTicks := 50000, slotTicks := 1000, dynMinislots := 8, units := 2
                        slots := [⟨0, 1, 1, 0, 1, 2⟩, ⟨1, 2, 1, 0, 1, 2⟩], txFrames := [[0x100]] }
  { b with ring := { b.ring with addr := 1, haveActive := true, talking := true, active := x } }

/-- A frame of this KIND and SRC with its CRC; FSEQ 0, CYCLE 0, ACC_DELAY 0. -/
def frameOf (kind src : Nat) (payload : List Byte) : List Byte :=
  sealWith true ([BitVec.ofNat 8 (16 * kind), 0, 5] ++ beBytes 2 src ++ beBytes 2 (20 + payload.length) ++
    List.replicate 9 0 ++ payload)

theorem test_meets_RingLinksTrainAndProbe :
    (let s := (z.wr R.RING_LNK_CTRL.EN 1).putDom 3 3
     s.awake = true ∧ s.link .e = 0 ∧ s.on R.RING_LNK_CTRL.EN = true ∧ s.dom 3 = 3 ∧ s.power.ringClk = true) ∧
    (z.setLink .w 1).link .w = 1 ∧ (z.setLink .e 2).link .e = 2 ∧ (z.setLink .e 3).link .e = 3 ∧
    (z.setLink .e 3).running = false ∧ (z.setLink .w 6).link .w = 6 ∧ (z.setLink .w 4).link .w = 4 ∧
    z.rd R.WK_STATUS.STATE < 2 ∧
    frameGood (frameOf 4 2 (List.replicate 12 0)) = true ∧ fKind (frameOf 4 2 (List.replicate 12 0)) = 4 ∧
    (let s := (z.setLink .w 4).setPort .w { probe := some (7, 100) }
     let l := frameOf 5 2 ([0, 7] ++ List.replicate 22 0)
     4 ≤ s.link .w ∧ (s.port .w).probe = some (7, 100) ∧ frameGood l = true ∧ fKind l = 5 ∧ be l 16 2 = 7 ∧
       s.on (fldKnown .w) = false ∧ (s.port .w).first = none) := by decide +kernel
theorem test_meets_RingLinksFailAndRetrain :
    (let s := (z.setLink .w 6).setPort .w { unknownCycles := 16 }
     3 ≤ s.link .w ∧ s.link .w ≤ 6 ∧ s.on (fldKnown .w) = false ∧ 16 ≤ (s.port .w).unknownCycles) ∧
    (z.wr R.RING_LNK_CTRL.EN 1).takes .pcie R.RING_LNK_CTRL.RETRAIN_E = true ∧
    (z.wr R.RING_LNK_CTRL.EN 1).on R.RING_LNK_CTRL.EN = true := by decide
theorem test_meets_ColdStartAndEnumeration :
    (let s := (ringState.wr R.RING_ENUM_STATUS.STATE 1).wr R.RING_COLD_CTRL.COLD_EN 1
     s.awake = true ∧ s.rd R.RING_ENUM_STATUS.STATE = 1 ∧ s.on R.RING_COLD_CTRL.COLD_EN = true ∧ s.bothKnown = true ∧
       s.ring.higherSeen = false ∧ s.up .e = true ∧ s.up .w = true ∧ s.rd R.WK_STATUS.STATE < 2) ∧
    (let s := (z.setLink .e 5).wr R.RING_ENUM_STATUS.STATE 2
     let hi := frameOf 6 0 ([15] ++ List.replicate 8 0xFF ++ List.replicate 3 0)
     s.running = false ∧ s.rd R.RING_ENUM_STATUS.STATE = 2 ∧ frameGood hi = true ∧ fKind hi = 6 ∧
       s.coldKey < be hi 16 1 % 16 * 2 ^ 64 + be hi 17 8) ∧
    z.ring.fbOrder = false ∧ z.takes .spi R.RING_COLD_CTRL.RESTART = true ∧
    (let s := { (ringState.wr R.RING_ENUM_STATUS.STATE 4) with ring := { ringState.ring with cycleMaster := true, pass := 2, passBack := true } }
     s.ring.cycleMaster = true ∧ s.rd R.RING_ENUM_STATUS.STATE = 4 ∧ s.ring.pass = 2 ∧ s.ring.passBack = true) ∧
    (let s : State := { ringState with ring := { ringState.ring with cycleMaster := true, joinDue := true } }
     s.ring.joinDue = true ∧ s.cycling = true) := by decide +kernel
theorem test_meets_ColdStartAndEnumeration_enum :
    (let l := [BitVec.ofNat 8 0x70, 0, 5, 0, 2, 2, 0x20] ++ List.replicate 9 0 ++ [3] ++ List.replicate 527 0
     l.length = 544 ∧ fLen l = 544 ∧ fKind l = 7 ∧ fReflected l = false ∧ be l 16 1 = 3) := by decide +kernel

/-- The same unit, with window 0 of its ring bridge at unit 2, which is in the ring. -/
abbrev bridgeState : State :=
  let s := (ringState.wr R.BR_WINw.EN 1).wr R.BR_WINw.UNIT 2
  { s with ring := { s.ring with confirmed := [1, 2] } }
/-- A request of core 0 for unit 2. -/
abbrev request : BridgeReq :=
  { tag := 9, who := .core 0, unit := 2, far := 0, near := 0xC0000000, write := false, size := 4, data := 0, reg := false
    age := 65535, retries := 0, backoff := false, sent := false, stall := true }
theorem test_meets_BridgeAccessesEnd : rangeOf 0xC0000000 = some .remote ∧
    bridgeState.bridgeTarget 0xC0000000 = some (2, 0) ∧ bridgeState.cycling = true ∧
    bridgeState.takeDone (.core 0) 0xC0000000 false = none ∧ bridgeState.outstanding (.core 0) 0xC0000000 false = false ∧
    (let s : State := { bridgeState with ring := { bridgeState.ring with bridge := [request] } }
     s.bridgeReq 9 = some request ∧ s.ring.dataIn = [] ∧ s.ring.regIn = [] ∧
       max 1 (s.rd R.BR_CTRL.TIMEOUT) ≤ request.age) ∧
    (let s : State := { bridgeState with ring := { bridgeState.ring with bridge := [{ request with backoff := true }] } }
     (s.bridgeReq 9).map (·.backoff) = some true) := by decide

theorem test_meets_RingFramesAreSentAndAccepted_boundary : ringState.awake = true ∧ ringState.cycling = true ∧
    ringState.up .e = true ∧ ringState.ring.active.auth = false ∧ ringState.ring.cycleMaster = false ∧
    (ringState.ring.accepted.any fun x => x.kind == 1) = false ∧
    (let l := frameOf 1 2 (List.replicate 16 0)
     frameGood l = true ∧ fKind l = 1 ∧ fAuth l = false ∧ fSrc l ≠ ringState.ring.addr) := by decide +kernel
theorem test_meets_RingFramesAreSentAndAccepted_static :
    (ringState.dueSlot 0).isSome = true ∧
    ({ ringState with ring := { ringState.ring with staticRead := some (0, [0]) } } : State).ring.staticRead =
      some (0, [0]) ∧ ringState.up .w = true ∧ ringState.rd R.WK_STATUS.STATE < 2 ∧ ringState.ring.haveActive = true ∧
    (let l := frameOf 2 2 (List.replicate 10 0)
     let n := 10000
     frameGood l = true ∧ fKind l = 2 ∧ fAuth l = false ∧ (ringState.ring.active.ownSlots (fSrc l))[fSeq l]? =
       some ⟨1, 2, 1, 0, 1, 2⟩ ∧ (⟨1, 2, 1, 0, 1, 2⟩ : SlotEntry).active (fCycle l) = true ∧
       ringState.ring.accepted.contains ⟨fSrc l, 2, fSeq l, fCycle l⟩ = false ∧ fCycle l = ringState.rd R.RING_CYC_NUM.CYCLE ∧
       (deviation n (0 + 1 * 1000) (fAcc (ringState.arrived .e l))).natAbs ≤ 32 * 80) := by decide +kernel
theorem test_meets_RingFramesAreSentAndAccepted_dynamic :
    (let s := z.wr R.RING_CYC_STATUS.SEG 1
     s.awake = true ∧ s.rd R.RING_CYC_STATUS.SEG = 1) ∧
    (let s : State := { ringState with ring := { ringState.ring with minislot := some (0, 2), msgs := [⟨1, 0x7FF, List.replicate 8 0, 0, false⟩] } }
     s.ring.minislot = some (0, 2) ∧ s.rd R.RING_CYC_STATUS.SEG = 2 ∧ s.maySend = true ∧ s.ring.dataIn = [] ∧
       s.ring.regIn = [] ∧ (s.frameLoad (s.dynBytes 2)).1 ≠ []) ∧
    (let s : State := { ringState with ring := { ringState.ring with cycleMaster := true } }
     let l := frameOf 3 2 ([0, 1] ++ List.replicate 6 0 ++ [1, 0, 7, 0xFF, 0, 16, 0, 0, 1] ++ List.replicate 7 0)
     s.ring.addr ≠ 0 ∧ frameGood l = true ∧ fKind l = 3 ∧ fAuth l = false ∧ fSrc l ≠ s.ring.addr ∧
       s.dynLate (fSrc l) 0 (fAcc (s.arrived .e l)) = false ∧ s.ring.accepted.contains ⟨fSrc l, 3, fSeq l, fCycle l⟩ = false ∧ fCycle l = s.rd R.RING_CYC_NUM.CYCLE ∧
       parseMsgs (be l 16 2) ((bodyOf l).drop 24) = [⟨1, 0x7FF, 1 :: List.replicate 7 0, 0, false⟩] ∧
       be (1 :: List.replicate 7 0) 0 1 = 1) := by decide +kernel

theorem test_meets_TableSetsLoadAndModesChange : z.takes .pcie R.RING_TS_LOAD.START = true ∧ z.setBusy 0 = false ∧
    z.setBusy 7 = false ∧ (z.putSetState 7 1).setState 7 = 1 ∧
    (let s : State := { z.putSetState 7 2 with ring := { z.ring with cycleMaster := true } }
     s.takes .pcie R.RING_MC_CTRL.START = true ∧ s.ring.cycleMaster = true ∧ s.setState 7 = 2 ∧
       s.ring.mcRunning = false ∧ s.ring.mcStart = false ∧ s.on R.RING_FAULT.ACTIVE = false ∧
       (s.ring.toAnnounce.any fun a => decide (a.op ≤ 2)) = false ∧ s.ring.parked = []) := by decide

theorem test_meets_TimeBaseAndComparators :
    (let s := ringState.wr R.TB_STATUS.SILENT 2
     s.cycling = true ∧ s.rd R.TB_CTRL.REF = 0 ∧ s.ring.timeMaster = false ∧ s.ring.thetaOther = none ∧
       s.time.refSeen = false ∧ s.rd R.TB_STATUS.SILENT = 2 ∧ s.servo = .locked) ∧
    (let s : State := { ((z.wr R.TB_STATUS.STATE 4).wr R.TB_CTRL.HOLD_LIMIT 65535) with time := { z.time with holdover := 65535 } }
     s.servo = .holdover ∧ s.rd R.TB_CTRL.HOLD_LIMIT ≠ 0 ∧ s.rd R.TB_CTRL.HOLD_LIMIT ≤ s.time.holdover ∧
       s.on R.RING_CYC_STATUS.SILENCED = false) ∧
    z.takes .pcie R.TB_CAPTURE.SET = true ∧ z.takes .pcie R.TB_STEP_NS.NS = true ∧
    -999999999 ≤ signed 32 0xC4653601 ∧ signed 32 0x3B9AC9FF ≤ 999999999 ∧ signed 32 0x3B9AC9FF = 999999999 ∧
    z.takes .pcie R.TB_CTRL.REF = true ∧
    (let s := (z.wr R.STP_CTRLn.EN 1 0 63).wr R.STP_CTRLn.ACTION 5 0 63
     s.steepDue 63 = true ∧ (s.on R.STP_CTRLn.SILENT_HOLD 0 63 && s.on R.RING_CYC_STATUS.SILENCED) = false ∧
       s.on R.STP_CTRLn.MODE 0 63 = false ∧ s.rd R.STP_CTRLn.ACTION 0 63 = 5) := by decide

/-! ### Cores -/

/-- Core 16 with registers of its own choice: g14 at the top of its data RAM, g4 an address there. -/
abbrev coreState (k : CoreState) : State := z.setCore 16 { k with run := .run }
/-- Registers of the tests. -/
abbrev someRegs : CoreState := { g := [(4, 0xE0008010), (14, 0xE0010000)] }

theorem test_executes : z.executes ⟨16, 0⟩ 2 = true ∧ z.executes ⟨17, 0⟩ 4 = true ∧
    (coreState someRegs).executes ⟨16, 14⟩ 4 = true ∧ z.executes ⟨0, 0⟩ 2 = false ∧ z.fetches 16 4 = true ∧
    ((z.core 16).flags.meets 3 = false) ∧ decodeClalo 16 0xBF11 0 = some (.done ⟨16, 3⟩ false 1) := by decide
/-- The results of the ClaloAddsAndSubtracts, ClaloLogicAndProducts, ClaloMovesAndPredicates, ClaloShiftsAndRotations and
ClaloSaturationAndPrecedence statements have no other hypothesis than an executable instruction, and shift distances in range. -/
theorem test_meets_ClaloResults : z.executes ⟨16, 0⟩ 2 = true ∧ z.executes ⟨16, 0⟩ 4 = true ∧ (15 : Nat) < 16 ∧ (31 : Nat) < 32 ∧
    (17 : Nat) < 18 := by decide
theorem test_meets_ClaloMovesAndPredicates : decodeClalo 16 0xBF11 0 = some (.done ⟨16, 3⟩ false 1) ∧
    z.executes ⟨16, 0⟩ 2 = true ∧ (z.core 16).flags.meets (0xBF11 / 2048 % 4) = false := by decide
theorem test_meets_ClaloSpecialRegisters : z.executes ⟨16, 0⟩ 4 = true ∧ (z.core 16).level ≠ .fault ∧
    ([(0x00, (0 : Word)), (0x0E, 0)] : List (Nat × Word)).lookup 0x0F = none := by decide
theorem test_meets_ResetLeavesResetValues :
    (R.KET_STATUS.all.addr 0 0 + 0x100) ∉ [R.KET_STATUS.all.addr 0 0, R.KET_DOM.all.addr 0 0, R.CC_CTRL.RUN.addr 16 0,
      R.CC_CTRL.RUN.addr 17 0] := by decide
theorem test_add_wraps :
    (let t := after (.add ⟨16, 0⟩ (.long 5 4 4 true)) (coreState { g := [(4, 0x80000001)] })
     (t.core 16).reg 5 = 2 ∧ (t.core 16).flags = { c := true, v := true } ∧ (t.core 16).pc = 0xE0000004) := by decide
theorem test_lsl_by_32 :
    (let t := after (.lsl ⟨16, 0⟩ (.long 5 4 6 true)) (coreState { g := [(4, 0x80000001), (6, 32)] })
     (t.core 16).reg 5 = 0 ∧ (t.core 16).flags = { c := true, z := true }) := by decide
theorem test_qprec_takes_the_higher_code :
    (let t := after (.qprec ⟨16, 0⟩ 5 4 6 true) (coreState { g := [(4, 4), (6, 8)] })
     (t.core 16).reg 5 = 8 ∧ (t.core 16).flags.z = false) := by decide

theorem test_meets_ClaloBranches_call :
    (let s := coreState someRegs
     s.executes ⟨16, 0⟩ (CallForm.short 3 4).len = true ∧ 0xE0010000 = ((s.core 16).reg 14).toNat ∧
       (s.core 16).splim.toNat + 4 * (2 + (maskRegs (CallForm.long 0x8FF0 4).mask).length) ≤ 0xE0010000) ∧
    (let s : State := { coreState { g := [(14, 0xE0008000)] } with mem := { z.mem with coreRam :=
        [(16 * 0x10000 + 0x8000, 0x11), (16 * 0x10000 + 0x8001, 0xCA), (16 * 0x10000 + 0x8002, 0xFF)] } }
     s.executes ⟨16, 0⟩ 2 = true ∧ 0xE0008000 = ((s.core 16).reg 14).toNat ∧ (s.core 16).splim.toNat ≤ 0xE0008000 ∧
       s.coreBytes (coreKey 16 (0xE0008000 - 0xE0000000)) 4 = 0xFF * 65536 + 0xCA11 ∧
       0xE0008000 + 4 * (2 + (maskRegs 0xFF).length) ≤ 0xE0010000) := by decide
theorem test_clean_ram (c off : Nat) : z.coreEcc (coreKey c off) = .clean := rfl

theorem test_meets_ClaloLoads :
    (let s := coreState someRegs
     s.executes ⟨16, 0⟩ 2 = true ∧ ((s.core 16).reg 4).toNat % 4 = 0 ∧ rangeOf ((s.core 16).reg 4).toNat ≠ some .remote ∧
       ((s.fetched 16 2).busRead (.core 16) ((s.core 16).reg 4).toNat 4 true).2 = .data 0) ∧
    (let s := coreState { g := [(4, 0x10000001)] }
     rangeOf ((s.core 16).reg 4).toNat = some .sram ∧
       ((s.fetched 16 2).busRead (.core 16) ((s.core 16).reg 4).toNat 4 true).2 = .data 0) ∧
    (let s := coreState { g := [(4, 0x60000000)] }
     ((s.fetched 16 4).busRead (.core 16) 0x60000000 4 true).2 = .err ∧ (s.core 16).level ≠ .fault) := by decide
theorem test_meets_ClaloStores :
    (let s := coreState someRegs
     s.executes ⟨16, 0⟩ 4 = true ∧ 0xE0008000 ≤ ((s.core 16).reg 4).toNat ∧ ((s.core 16).reg 4).toNat < 0xE0010000 ∧
       ((s.core 16).reg 4).toNat % 4 = 0) ∧
    (let s := coreState { g := [(4, 0x10000004)] }
     ((s.fetched 16 2).busWrite (.core 16) 0x10000004 4 7).2 = .data 0) ∧
    (let s := coreState { g := [(4, 0x60000000)] }
     ((s.fetched 16 2).busWrite (.core 16) 0x60000000 4 7).2 = .err ∧ isLocal 0x60000000 = false ∧
       (s.core 16).impr = none) := by decide
theorem test_meets_ClaloContextWindow :
    (let s := coreState { inop := true, opNode := 5, opCtx := 255 }
     s.executes ⟨16, 0⟩ 4 = true ∧ ((s.core 16).inop && (s.core 16).opCtx != 0) = true ∧ 0xFC % 4 = 0 ∧
       (!decide (0xFC < 4) && !(decide (0x14 ≤ 0xFC) && decide (0xFC < 0x40))) = true ∧
       (!decide (0x3C < 4) && !(decide (0x14 ≤ 0x3C) && decide (0x3C < 0x40))) = false ∧
       (!decide (0x10 < 4) && !(decide (0x14 ≤ 0x10) && decide (0x10 < 0x40))) = true) ∧
    ((z.core 16).inop && (z.core 16).opCtx != 0) = false ∧ (z.core 16).level ≠ .fault := by decide
theorem test_meets_ClaloTrapsAndReturns :
    (z.core 16).level = .thread ∧ (z.core 16).inop = false ∧
    (z.coreDebugOpen 16 && (z.wr R.CC_CTRL.DBG_EN 1 16).on R.CC_CTRL.DBG_EN 16) = true ∧
    (z.coreDebugOpen 16 && z.on R.CC_CTRL.DBG_EN 16) = false ∧
    ((coreState { level := .urgent }).core 16).level = .urgent ∧ ((coreState { level := .fault }).core 16).level ≠ .thread ∧
    decodeClalo 16 0xA7F0 0 = none ∧ (coreState { level := .fault }).executes ⟨16, 0⟩ 2 = true ∧
    (z.setCore 17 { run := .run, level := .fault }).executes ⟨17, 0⟩ 2 = true ∧
    ((coreState { impr := some 0x60000000 }).core 16).impr = some 0x60000000 ∧
    (coreState { impr := some 0x60000000 }).coreReady 16 = true := by decide

/-! ### Pour unit and movers -/

/-- Node 5: priority 7, enabled, THRESH of input 0 one, SYS as its target, op code 1, one successor; node 6 is the
same for mover 0. -/
abbrev nodeEntry (tkind tnum : Nat) : BitVec 128 :=
  BitVec.ofNat 128 (2 ^ 120 + 7 * 2 ^ 117 + 2 ^ 116 + tkind * 2 ^ 101 + tnum * 2 ^ 96 + 2 ^ 76 + 2 ^ 48)
/-- The Pour unit is enabled with that graph. -/
abbrev pourState : State :=
  { z.wr R.POUR_CTRL.EN 1 with
    cores := [(16, { run := .idle }), (17, { run := .run })]
    pour := { z.pour with nodes := [(5, nodeEntry 2 16), (6, nodeEntry 0 0)], opcodes := [(1, 0x00000040)], succ := [(0, 5)] } }

theorem test_meets_ClaloOperations_take :
    (let s := pourState.setSlot 16 { phase := .loaded, node := 5 }
     s.awake = true ∧ (s.slot 16).phase = .loaded ∧ s.agentIdle 16 = true ∧ s.clocked 16 = true ∧
       s.takenLine 16 = none) := by decide
theorem test_meets_ClaloOperations_end :
    (let s := coreState { inop := true, opNode := 5, opCtx := 3 }
     s.executes ⟨16, 0⟩ 2 = true ∧ (s.core 16).inop = true ∧ (s.core 16).level = .thread ∧ (s.core 16).impr = none ∧
       s.postedOf 16 = 0 ∧ s.pour.posts = []) := by decide
theorem test_meets_ClaloOperations_post :
    (pourState.postRefusal ⟨pourState.tick, .core 16, 5, 0, 0⟩).isNone = true ∧
    (pourState.postRefusal ⟨pourState.tick, .core 16, 4095, 3, 0⟩).isNone = false := by decide
theorem test_meets_ClaloOperations_interrupt :
    (let s := { (((z.wr R.IC_PEN_LO.EN 0xFFFFFFFF 16).wr R.IC_CCTRL.NEN 1 16)) with ic := { z.ic with src := [(16 * 64, .pending)] } }
     s.awake = true ∧ s.atTakePoint 16 = true ∧ s.clocked 16 = true ∧ s.takenLine 16 = some false) := by decide

theorem test_meets_CoreResetAndRamAccess : z.takes .pcie R.CC_CTRL.RUN 17 = true ∧ z.takes .pcie R.CC_CTRL.RUN 0 = true ∧
    z.takes .pcie R.CC_RAM_DATA.DATA 0 = true ∧ z.rd R.CC_CTRL.RUN 0 = 0 ∧ z.lifeCycle = .test ∧
    z.rd R.CC_CTRL.RUN 17 = 1 ∧ z.takes .pcie R.CC_RAM_DATA.DATA 17 = true := by decide

theorem test_meets_TokenPostsAreAppliedOrRefused :
    (let p : Post := ⟨0, .channel 15, 5, 0, 0⟩
     let s : State := { pourState with pour := { pourState.pour with posts := [p] } }
     s.on R.POUR_CTRL.EN = true ∧ (s.dyn 5).count 0 < 15 ∧ nThresh (s.node 5) 0 ≠ 0 ∧ s.fill (nPrio (s.node 5)) < 512 ∧
       (nLoop (s.node 5) && p.input == nLoopIn (s.node 5) && p.prod != .completion) = false ∧ nEn (s.node 5) = true ∧
       (s.dyn 5).state = .idle) ∧
    (let s : State := pourState.setDyn 5 { c0 := 15 }
     (s.dyn 5).count 0 = 15 ∧ bit (s.opcode (nOpcode (s.node 5))) 29 = false) ∧
    (let s : State := { pourState with pour := { pourState.pour with retry := [⟨0, .mac 3, 5, 0, 0⟩] } }
     s.pour.retry[0]? = some ⟨0, .mac 3, 5, 0, 0⟩) ∧
    z.takes .pcie R.POUR_POSTc.NODE 0 15 = true ∧ z.pour.posts = [] := by decide
theorem test_meets_TokenPosts_enough : ∀ i, i < 4 →
    nThresh (pourState.node 5) i ≤ ((pourState.dyn 5).setCount 0 1).count i := by decide

theorem test_meets_OperationsAreDispatchedAndEnded :
    (let levels : List Nat := [7, 6, 5, 4, 3, 2, 1, 0]
     let s := (pourState.setLevel 7 [⟨5, false⟩]).setDyn 5 { state := .ready }
     s.on R.POUR_CTRL.HOLD = false ∧ s.rd R.WK_STATUS.STATE < 2 ∧ s.inflight < 256 ∧
       levels.findSome? (s.choose false) = some (5, 16) ∧ levels.findSome? (s.choose true) = none) ∧
    (let levels : List Nat := [7, 6, 5, 4, 3, 2, 1, 0]
     levels.findSome? ((pourState.setLevel 7 [⟨6, false⟩]).choose true) = some (6, 17)) ∧
    (z.wr R.POUR_CTRL.HOLD 1).on R.POUR_CTRL.HOLD = true ∧
    ((z.setSlot 20 { phase := .filling, ctx := 255 }).slot 20).phase = .filling ∧
    (let s := pourState.setSlot 20 { phase := .loaded, node := 6 }
     (s.slot (17 + 3)).phase = .loaded ∧ s.agentIdle (17 + 3) = true) ∧
    (z.setMov 3 { busy := true, node := 6 }).moverDone 3 = true ∧
    ((pourState.setDyn 5 { state := .detached }).dyn 5).state = .detached ∧
    z.takes .pcie R.POUR_CTRL.HOLD = true ∧ z.takes .pcie R.POUR_NODE_CTRL.SET_EN = true := by decide
theorem test_meets_OperationsAreDispatchedAndEnded_timer :
    (let s : State := { z with pour := { z.pour with ctx := [(255 * 256 + 12, 1), (255 * 256 + 19, 0xC0)] } }
     s.ctxWord 255 (4 + 8 * 1) ≠ 0 ∧ bit (s.ctxWord 255 (8 + 8 * 1)) 31 = true ∧
       bit (s.ctxWord 255 (8 + 8 * 1)) 30 = true) ∧
    (let s : State := { z with pour := { z.pour with ctx := [(256 + 4, 1), (256 + 11, 0x80)] } }
     s.ctxWord 1 4 ≠ 0 ∧ bit (s.ctxWord 1 8) 31 = true ∧ bit (s.ctxWord 1 8) 30 = false) := by decide

/-- A COPY of one point from SRAM 0x1000_0000 to SRAM 0x1000_0100. -/
abbrev copyDesc : List Byte :=
  [0, 0, 0, 0x10, 0, 1, 0, 0x10, 0, 0, 0, 0, 1, 0] ++ List.replicate 18 0
theorem test_meets_MoversReadComputeAndWrite_issue :
    (let s := z.setMov 3 { busy := true, node := 6, op := 1, desc := copyDesc }
     let d := parseMoverDesc copyDesc
     (s.mov 3).busy = true ∧ (s.mov 3).refused = false ∧ (s.mov 3).next < d.count ∧
       ((d.reads 1).drop (s.mov 3).got.length).length = 1 ∧
       (((d.reads 1).head?.map fun r => d.readAt 1 0 [] r).map fun a => (s.busRead (.mover 3) a.1 a.2 true).2) =
         some (.data 0)) ∧
    (let d := parseMoverDesc ([0, 0, 0, 0x60] ++ copyDesc.drop 4)
     ((d.reads 1).head?.map fun r => d.readAt 1 0 [] r).map (fun a => (z.busRead (.mover 3) a.1 a.2 true).2) =
       some .err) := by decide
theorem test_meets_MoversReadComputeAndWrite_write :
    (let p : PipePoint := { node := 6, op := 1, desc := copyDesc, index := 0, vals := [0x0123], err := false }
     let s := z.setMov 3 { busy := true, node := 6, op := 1, desc := copyDesc, next := 1, pipe := [p] }
     (s.mov 3).pipe = [p] ∧ p.wrote = 0 ∧ p.result.writes = [⟨0x10000100, 2, 0x0123, 0⟩] ∧
       (s.busWrite (.mover 3) 0x10000100 2 0x0123 true).2 = .data 0) ∧
    (let p : PipePoint := { node := 6, op := 1, desc := copyDesc, index := 0, vals := [], err := true }
     p.err = true ∧ p.live = true) ∧
    (let d := parseMoverDesc copyDesc
     d.swalk = 0 ∧ d.sfmt = 0 ∧ d.dwalk = 0 ∧ d.dfmt = 0 ∧ d.db = 0) ∧
    z.takes .pcie R.MOV_CTRL.HOLD 3 = true := by decide

/-! ### Interrupts and mailboxes -/

theorem test_meets_InterruptSourcesChangeState :
    (let s : State := { z with ic := { z.ic with src := [(0x1000 + 64, .pending)] } }
     s.src (0x1000 + 64) = .pending) ∧
    eventSource (0x1000 + 128) = true ∧ eventSource (0x1000 + 290) = false ∧
    (z.wr R.INT_ENABLE.BITS 1 12).answers 96 = true ∧
    (let s := ((z.wr R.INT_ENABLE.BITS 1 12).wr R.INT_STATUS.BITS 1 12)
     s.srcLevel (0x1000 + 290) = some true ∧ s.ic.level.get false (0x1000 + 290) = false) ∧
    (let s : State := { z with ic := { z.ic with level := [(0x1000 + 290, true)] } }
     s.srcLevel (0x1000 + 290) = some false ∧ s.ic.level.get false (0x1000 + 290) = true) ∧
    z.answers (96 + 17) = true ∧ z.takes .pcie R.IC_EOI.SRC 17 = true ∧ z.takes .pcie R.IC_SEOI.SRC = true ∧
    z.takes .pcie R.IC_PTRIG.SRC 17 = true ∧ z.takes .pcie R.IC_STRIG.SRC = true ∧
    z.nextSource 16 false = none ∧ z.nextSource 16 true = none ∧ z.ic.src.wf (fun _ => .inactive) = true := by decide
theorem test_meets_InterruptSourcesChangeState_next :
    (let s : State := { z.wr R.IC_PEN_LO.EN 0xFFFFFFFF 16 with ic := { z.ic with src := [(16 * 64, .pending)] } }
     s.nextSource 16 false = some (16 * 64)) := by decide
theorem test_meets_RoutesDoorbellsAndMailboxes :
    z.takes .pcie R.IC_ROUTEn.TARGET 0 0 = true ∧ z.takes .pcie R.IC_ROUTEn.TARGET 0 511 = true ∧
    z.src (0x1000 + 575) = .inactive ∧ z.sharedEn 575 = false ∧
    ({ z with ic := { z.ic with src := [(0x1000 + 64, .active)] } } : State).src (0x1000 + 64) ≠ .inactive ∧
    z.takes .pcie R.IC_DB_SET_LO.SET 17 = true ∧ z.takes .pcie R.IC_DB_SET_HI.SET 17 = true ∧
    z.takes (.ringUnit 5) R.MBX_TX_LOn.PAYLOAD_LO 0 63 = true ∧ z.mbx.staged = [] ∧
    z.takes .pcie R.MBX_TX_HIn.PAYLOAD_HI 0 63 = true ∧ (z.wr R.MBX_CFGn.EN 1 0 0).on R.MBX_CFGn.EN 0 0 = true ∧
    (z.chan 0).length < 4 ∧ z.on R.MBX_CFGn.EN 0 0 = false ∧ z.answers 10 = true ∧
    (let s := (z.wr R.MBX_CFGn.RX_CLASS 1 0 62).setChan 62 [7]
     s.rd R.MBX_CFGn.RX_CLASS 0 62 < 2 ∧ stampOf .pcie = s.rd R.MBX_CFGn.RX_CLASS 0 62 * 4096 + s.rd R.MBX_CFGn.RX_NUM 0 62 ∧
       s.chan 62 = [7]) := by decide

/-! ### Pin engines, CAN, wake, power -/

/-- The state with page p enabled and its domain d powered. -/
abbrev pageOn (p d : Nat) : State := (z.wr R.PAGE_CTRL.EN 1 p).putDom d 3

/-- Engine 63 runs in step 0, whose word is w. -/
abbrev engineState (w : Nat) : State :=
  let s := z.wr R.PE_STATUS.STATE 1 63
  { s with pe := { s.pe with active := [(63 * 128, BitVec.ofNat 64 w)], sticky := [(63, 1)] } }

theorem test_meets_PinEnginesRunTheirPrograms :
    (0 : Nat) < 32 ∧ (0xFFFFFFFF : Nat) < 2 ^ 32 ∧ (0 : Nat) < 2 ^ 1 ∧ z.awake = true ∧
    (z.seePins 7 0).peRunning 63 = false ∧
    (let u := ((engineState 0).wr R.PE_STATUS.HOLD 1 63).seePins 7 0xFFFFFF
     u.peRunning 63 = true ∧ 0 < u.rd R.PE_STATUS.HOLD 63) ∧
    (let u := (engineState (2 ^ 16)).seePins 7 0
     let w := u.peStep 63 (u.rd R.PE_STATUS.STEP 63)
     u.peRunning 63 = true ∧ u.rd R.PE_STATUS.HOLD 63 = 0 ∧ bit w (16 + u.peIndex 63) = true) ∧
    (let u := ((engineState 1).wr R.PE_A_WRAP.END 127 63).seePins 7 0
     let w := u.peStep 63 (u.rd R.PE_STATUS.STEP 63)
     bit w (16 + u.peIndex 63) = false ∧ bit w (u.peIndex 63) = true ∧
       u.rd R.PE_STATUS.STEP 63 ≠ u.rd R.PE_A_WRAP.END 63) ∧
    (let u := ((engineState 1).wr R.PE_A_WRAP.END 0 63).seePins 7 0
     let w := u.peStep 63 (u.rd R.PE_STATUS.STEP 63)
     bit w (16 + u.peIndex 63) = false ∧ bit w (u.peIndex 63) = true ∧
       u.rd R.PE_STATUS.STEP 63 = u.rd R.PE_A_WRAP.END 63) ∧
    (let u := (engineState 0).seePins 7 0
     let w := u.peStep 63 (u.rd R.PE_STATUS.STEP 63)
     bit w (16 + u.peIndex 63) = false ∧ bit w (u.peIndex 63) = false) ∧
    z.pour.sources.all (fun x => !(x.kind == 3 && x.sub == 3 && x.id == 63)) = true ∧ (z.evMbx 63 3).1 = false ∧
    (let s := (z.wr R.PE_EVMBX.EN1 1 0).wr R.MBX_CFGn.EN 1 0 0
     (s.evMbx 0 1).1 = true ∧ s.on R.MBX_CFGn.EN 0 (s.evMbx 0 1).2 = true ∧ (s.chan (s.evMbx 0 1).2).length < 4) := by
  decide
theorem test_meets_PinStartsSwapsLatchesAndFifos :
    z.takes .pcie R.PE_GSTART.MASK 7 = true ∧ z.takes (.core 15) R.PE_GRESTART.MASK 0 = true ∧
    z.takes .spi R.PE_ECTRL.STOP 63 = true ∧ (engineState 0).peRunning 63 = true ∧ z.peRunning 63 = false ∧
    z.takes .pcie R.PE_GCTRL.INLATCH 7 = true ∧ z.takes .pcie R.PE_TX_PUSH.DATA 63 = true ∧ (z.peTx 63).length < 8 ∧
    8 ≤ ((z.setPeTx 63 [1, 2, 3, 4, 5, 6, 7, 8]).peTx 63).length ∧ z.answers (128 + 63) = true ∧ z.peRx 63 = [] ∧
    (z.setPeRx 63 [0xFFF]).peRx 63 = 0xFFF :: [] ∧ z.takes .pcie R.PE_STAGE.VALUE 63 = true := by decide

/-- The bit timing of controller 11 has 80 tq of the nominal bit and 10 of the data bit, and its RAM one TX buffer. -/
abbrev canState : State :=
  let a := ((z.wr R.CAN_NTIME.SEG1 67 11).wr R.CAN_NTIME.SEG2 10 11)
  let b := (a.wr R.CAN_DTIME.SEG1 5 11).wr R.CAN_DTIME.SEG2 2 11
  (b.wr R.CAN_RAM.BASE 0x1000000 11).wr R.CAN_RAMCFG.TXN 1 11
/-- Buffer 0 is pending. -/
abbrev canWaits (mode phase : Nat) : State :=
  (((canState.wr R.CAN_CTRL.MODE mode 11).wr R.CAN_STATUS.STATE mode 11).wr R.CAN_STATUS.PHASE phase 11).wr
    R.CAN_TXREQ.BUF 1 11 |>.setCan 11 { order := [0] }
/-- Buffer 0 is on the bus. -/
abbrev canSends : State :=
  let s := canWaits 1 3
  s.setCan 11 { order := [0], tries := [(0, 1)], onBus := some (s.canElem 11 0) }

theorem test_meets_CanModesAndRequests_mode :
    z.takes .pcie R.CAN_CTRL.MODE 11 = true ∧ z.canOff 11 = false ∧ canState.rd R.CAN_CTRL.MODE 11 = 0 ∧
    canState.timingOk 11 (canState.on R.CAN_CTRL.RSW_EN 11) = true ∧ canState.ramOk 11 = true ∧
    canState.wakeRun ≠ .armed ∧
    (let s := canState.wr R.CAN_CTRL.MODE 4 11
     s.rd R.CAN_CTRL.MODE 11 ≠ 0 ∧ s.rd R.CAN_CTRL.MODE 11 < 5 ∧ s.rd R.CAN_CTRL.MODE 11 ≠ 3) ∧
    (let s := canState.wr R.CAN_NTIME.SEG1 0 11
     s.rd R.CAN_CTRL.MODE 11 = 0 ∧ s.timingOk 11 (s.on R.CAN_CTRL.RSW_EN 11) = false) ∧
    (let s := canWaits 1 1
     s.canOff 11 = false ∧ s.rd R.CAN_CTRL.MODE 11 ≠ 0 ∧ (s.canCtl 11).waiting = [] ∧ s.canPhase 11 ≤ 1 ∧
       ∀ b ∈ (s.canCtl 11).order, b < 32) ∧
    2 ≤ canSends.canPhase 11 ∧ canSends.wakeRun ≠ .armed ∧
    (let s := canState.wr R.CAN_CTRL.MODE 3 11
     s.rd R.CAN_CTRL.MODE 11 ≠ 0 ∧ s.rd R.CAN_CTRL.MODE 11 < 4 ∧ s.rd R.CAN_TXREQ.BUF 11 = 0) ∧
    canSends.rd R.CAN_CTRL.MODE 11 ≠ 4 ∧ canSends.rd R.CAN_TXREQ.BUF 11 ≠ 0 ∧
    (let s := (canWaits 1 1).wr R.CAN_STATUS.ERRST 2 11
     s.canOff 11 = true ∧ s.canMode 11 ≠ 5 ∧ s.rd R.CAN_CTRL.MODE 11 < 4) ∧
    (let s := (canWaits 1 0).wr R.CAN_CTRL.MODE 0 11
     s.rd R.CAN_CTRL.MODE 11 = 0 ∧ s.canMode 11 ≠ 0 ∧ (s.canCtl 11).waiting = [] ∧ s.canPhase 11 = 0) ∧
    (let s := (canWaits 1 1).wr R.CAN_CTRL.MODE 4 11
     s.rd R.CAN_CTRL.MODE 11 = 4 ∧ s.canMode 11 ≠ 4) ∧
    (let s := ((canWaits 1 0).wr R.CAN_STATUS.ERRST 2 11).wr R.CAN_STATUS.STATE 5 11
     s.canMode 11 = 5 ∧ s.canOff 11 = true ∧ s.rd R.CAN_CTRL.MODE 11 ≠ 0) := by decide
theorem test_meets_CanModesAndRequests_send :
    z.takes .pcie R.CAN_TXREQ.BUF 11 = true ∧ z.takes .pcie R.CAN_TXABORT.BUF 11 = true ∧
    0 < canSends.txn 11 ∧ bit (1 : Word).toNat 0 = true ∧ canSends.canPending 11 0 = true ∧
    ((canSends.canCtl 11).onBus.map (·.buf)) = some 0 ∧ (((canWaits 1 1).canCtl 11).onBus.map (·.buf)) ≠ some 0 ∧
    (let s := canWaits 3 1
     (s.canMode 11 = 3) ∧ s.canPhase 11 = 1 ∧ s.canOff 11 = false ∧ (s.canCtl 11).onBus = none) ∧
    (canSends.canElem 11 0).buf < 32 ∧
    (canSends.canCtl 11).waiting = [] ∧ bit (canSends.rd R.CAN_TXABORT.BUF 11) 0 = false ∧
    canSends.rd R.CAN_CTRL.TRIES 11 = 0 ∧
    (let s := canSends.wr R.CAN_CTRL.TRIES 1 11
     s.rd R.CAN_CTRL.TRIES 11 ≠ 0 ∧ s.rd R.CAN_CTRL.TRIES 11 ≤ (s.canCtl 11).tries.get 0 0) ∧
    (canSends.wr R.CAN_CTRL.TRIES 2 11).rd R.CAN_CTRL.TRIES 11 = 2 := by decide

theorem test_meets_CanModesAndRequests_winner :
    (canWaits 3 1).canWinner 11 ((canWaits 3 1).canCtl 11).order = some ((canWaits 3 1).canElem 11 0) ∧
    ((canWaits 3 1).sramCheck (wordsOf 2 ((canWaits 3 1).canBase 11) 80)).1 = canWaits 3 1 ∧
    (canSends.canCtl 11).onBus = some (canSends.canElem 11 0) := by decide +kernel

/-- A classical frame of identifier 5 with one byte. -/
def canFrame : CanFrame := ⟨false, false, false, false, false, 1, 5, [0xAA]⟩
/-- Controller 11 holds the frame and keeps what misses, in FIFO 0 of n elements. -/
abbrev canHolds (fate n : Nat) : State :=
  ((canWaits 1 1).wr R.CAN_RAMCFG.RXF0N n 11).wr R.CAN_FLT_CTRL.MISS_STD fate 11 |>.setCan 11
    { held := some (canFrame, 7, 9) }
theorem test_meets_CanReceivesCountsAndWakes_frame :
    (let s := canWaits 2 1
     1 ≤ s.canMode 11 ∧ s.canMode 11 ≤ 2 ∧ 1 ≤ s.canPhase 11 ∧ s.canOff 11 = false ∧ (s.canCtl 11).onBus = none ∧
       (s.canCtl 11).held = none ∧ canFrame.fdf = false ∧ s.rd R.CAN_ERRCNT.REC 11 ≤ 127 ∧
       127 < (s.wr R.CAN_ERRCNT.REC 128 11).rd R.CAN_ERRCNT.REC 11) ∧
    (canState.wr R.CAN_STATUS.STATE 4 11).canMode 11 = 4 ∧ canFrame.rtr = false ∧
    (let s := canHolds 4 1
     (s.canCtl 11).held = some (canFrame, 7, 9) ∧ (s.fate 11 canFrame).keep = true ∧ (s.fate 11 canFrame).fifo = false ∧
       s.rd (fifoFlds false).fill 11 < s.rxn 11 false ∧ s.rxn 11 false ≤ 64 ∧ s.boundCtx 2 11 = none ∧
       s.pour.sources.all (fun e => !(e.kind == 7 && e.sub == 0 && e.id == 11)) = true) ∧
    (let s := canHolds 0 1
     (s.fate 11 canFrame).keep = false ∧ (s.fate 11 canFrame).prio = false) ∧
    (let s := (canHolds 4 64).wr R.CAN_RXF0.FILL 64 11
     (s.fate 11 canFrame).keep = true ∧ s.rxn 11 false ≤ s.rd (fifoFlds false).fill 11 ∧
       s.on (fifoFlds false).ovw 11 = false) := by decide
/-- No word of the message RAM has an error. -/
theorem test_meets_CanReceivesCountsAndWakes_clean (a : Nat) : (canHolds 4 1).eccAt a = .clean := rfl
theorem test_meets_CanReceivesCountsAndWakes_rest :
    (let s := (canHolds 4 64).wr R.CAN_RXF0.FILL 64 11
     s.takes .pcie R.CAN_RXF0_ACK.GET 11 = true ∧ s.rd (fifoFlds false).get 11 < s.rxn 11 false ∧ 63 < s.rxn 11 false ∧
       (63 + s.rxn 11 false - s.rd (fifoFlds false).get 11) % s.rxn 11 false ≤ s.rd (fifoFlds false).fill 11 ∧
       s.rxn 11 false ≤ 64 ∧ s.boundCtx 2 11 = none) ∧ z.takes .pcie R.CAN_RXF1_ACK.GET 11 = true ∧
    (let s := (canWaits 1 1).wr R.CAN_ERRCNT.TEC 120 11
     1 ≤ s.canMode 11 ∧ s.canMode 11 ≤ 3 ∧ s.canOff 11 = false ∧ (s.canCtl 11).waiting = [] ∧
       s.boundCtx 2 11 = none ∧ s.rd R.CAN_STATUS.ERRST 11 = 0 ∧ 128 ≤ s.rd R.CAN_ERRCNT.TEC 11 + 8 ∧
       s.rd R.CAN_ERRCNT.TEC 11 + 8 ≤ 255) := by decide +kernel
theorem test_meets_CanReceivesCountsAndWakes_wake :
    255 < (canSends.wr R.CAN_ERRCNT.TEC 248 11).rd R.CAN_ERRCNT.TEC 11 + 8 ∧
    canSends.rd R.CAN_ERRCNT.TEC 11 + 8 < 96 ∧ canSends.rd R.CAN_ERRCNT.REC 11 + 0 < 96 ∧
    (let s := ((canWaits 4 1).wr R.CAN_WK_CFG.EDGE_EN 1 11).wr R.CAN_WK_CFG.FRAME_EN 1 11
     s.canAsleep 11 = true ∧ s.on R.CAN_WK_CFG.EDGE_EN 11 = true ∧ s.wakeFrame 11 canFrame = true) ∧
    (let s := ((canWaits 4 1).wr R.CAN_WK_CFG.ERR_EN 1 11).wr R.CAN_WK_STATUS.FEC 32 11
     s.canAsleep 11 = true ∧ (s.on R.CAN_WK_CFG.ERR_EN 11 && s.rd R.CAN_WK_STATUS.FEC 11 == 32) = true) ∧
    ((canWaits 4 1).on R.CAN_WK_CFG.EDGE_EN 11) = false ∧ z.takes .pcie R.CAN_LOOP.RESTART 11 = true ∧
    z.takes .pcie R.STR_DATA_LO.DATA = true ∧ (z.wr R.STR_ADDR.INC 1).on R.STR_ADDR.INC = true := by decide +kernel

/-- The wake unit is in run state n; every source is enabled. -/
abbrev wakeState (n : Nat) : State := (z.wr R.WK_STATUS.STATE n).wr R.WK_EN.all 0x1FFFFF
theorem test_meets_WakeSourcesAndVetoes_sources :
    bit ((wakeState 4).rd R.WK_EN.all) (wakeBit 1 0) = true ∧ bit ((wakeState 4).rd R.WK_EN.all) (wakeBit 2 3) = true ∧
    bit ((wakeState 4).rd R.WK_EN.all) (wakeBit 7 2) = true ∧ bit ((wakeState 4).rd R.WK_EN.all) (wakeBit 6 1) = true ∧
    bit ((wakeState 4).rd R.WK_EN.all) (wakeBit 8 0) = true ∧ (wakeState 4).wake.driving = false ∧
    ((wakeState 4).wr R.WK_TIMER.PERIODS 1).rd R.WK_TIMER.PERIODS ≠ 0 ∧ (wakeState 4).wakeRun = .asleep ∧
    (wakeState 3).wakeRun = .dwell ∧ (wakeState 1).wakeRun = .armed ∧ (wakeState 2).wakeRun = .committed ∧
    (wakeState 5).wakeRun = .exiting ∧ bit (z.rd R.WK_EN.all) (wakeBit 2 0) = false ∧
    (wakeState 3).wake.late = none ∧ (wakeState 3).wake.dwell = [] ∧
    (let s : State := { wakeState 3 with wake := { late := some (15, 15) } }
     s.wakeRun = .dwell ∧ s.wake.late = some (15, 15)) ∧
    (let s : State := { wakeState 3 with wake := { dwell := [(7, 2), (2, 3), (2, 1)] } }
     s.wakeRun = .dwell ∧ s.wake.late = none ∧ (2, 1) ∈ s.wake.dwell ∧
       ∀ x ∈ s.wake.dwell, 2 < x.1 ∨ (2 = x.1 ∧ 1 ≤ x.2)) := by decide
theorem test_meets_WakeSourcesAndVetoes_vetoes :
    (let s := (z.wr R.WK_MAXAWAKE.SECONDS 1).wr R.WK_CTRL.MODE 1
     s.rd R.WK_MAXAWAKE.SECONDS ≠ 0 ∧ s.on R.WK_MAXAWAKE.EXPIRED = false ∧ s.wakeMode ≠ 0 ∧ s.canBusy = false ∧
       s.on R.TRC_CTRL.EN = true ∧ (s.wr R.TRC_CTRL.EN 0).on R.TRC_CTRL.EN = false) ∧
    (let s := z.wr R.WK_CTRL.MODE 1
     s.wakeMode = 1 ∧ s.veto = false ∧ (s.wr R.WK_STAY.REQ 1).veto = true ∧ s.coord = false ∧
       (s.wr R.WK_CTRL.COORD 1).coord = true ∧ (s.wr R.WK_CTRL.COORD 1).rd R.WK_KA_SET.BITS = 0 ∧
       (s.wr R.WK_CTRL.COORD 1).wake.kaIdle + 1 = max 1 ((s.wr R.WK_CTRL.KA_DWELL 1).rd R.WK_CTRL.KA_DWELL) ∧
       s.wakeRun = .awake) ∧
    (z.wr R.RING_CYC_STATUS.SEG 2).cycling = true ∧ z.takes (.ringUnit 4) R.WK_KA_SET.BITS = true ∧
    z.takes (.ringUnit 4) R.WK_TOKEN.COMMIT = true ∧
    (0x80000007 : Word).toNat.testBit 31 = true ∧ (0x80000007 : Word).toNat.testBit 30 = false ∧
    (let s := (z.wr R.WK_CTRL.MODE 2).wr R.WK_CTRL.COORD 1
     s.coord = true ∧ s.wakeMode = 2 ∧ remote (.ringUnit 4) = true ∧ s.veto = false ∧ s.wakeRun = .awake ∧
       (7 : Word).toNat.testBit 31 = false) ∧
    ({ z with wake := { kaWrites := [2] } } : State).wake.kaWrites = 2 :: [] ∧
    ({ z with wake := { tokenDue := some 7 } } : State).wake.tokenDue = some 7 := by decide

theorem test_meets_PowerDownAndResume :
    (wakeState 1).awake = true ∧ (wakeState 1).wakeRun = .armed ∧
    (wakeState 1).rd R.WK_STATUS.CCYCLE = (wakeState 1).rd R.RING_CYC_NUM.CYCLE % 65536 ∧
    ((wakeState 1).wr R.WK_STATUS.CCYCLE 65535).rd R.WK_STATUS.CCYCLE ≠ (wakeState 1).rd R.RING_CYC_NUM.CYCLE % 65536 ∧
    z.takes .pcie R.KET_STATE_REQ.ENTER = true ∧ z.canBusy = false ∧ z.wakeRun = .awake ∧ (canWaits 1 1).canBusy = true ∧
    (wakeState 2).awake = true ∧ (wakeState 2).wakeRun = .committed ∧
    ((wakeState 2).core 15).run = .reset ∧ (wakeState 2).cores = State.reset.cores ∧
    (let s := (wakeState 5).wr R.KET_STATUS.STATE 2
     s.rd R.WK_STATUS.STATE = 5 ∧ s.rd R.KET_STATUS.STATE = 2 ∧ s.power.holds = [] ∧ s.rd R.TB_CTRL.REF = 0) ∧
    (let s := (wakeState 5).wr R.KET_STATUS.STATE 3
     s.rd R.WK_STATUS.STATE = 5 ∧ s.rd R.KET_STATUS.STATE = 3 ∧ s.power.holds = [] ∧ s.wipes = false) ∧
    z.wakeRun ≠ .exiting := by decide

/-! ### Resets, Kettle, switch core, MACs -/

theorem test_meets_ResetsHoldAndStart :
    (ResetHold.thermal ∈ ({ z with power := { z.power with holds := [.thermal, .resetN] } } : State).power.holds) ∧
    z.rd R.KET_STATUS.STATE ≠ 3 ∧ heldState.power.holds.contains .supplies = true ∧
    heldState.power.holds.contains .resetN = false ∧ (∀ x ∈ heldState.power.holds, x = .supplies) ∧
    z.power.holds = [] ∧ z.lifeCycle ≠ .scrap ∧
    ({ z with sec := { z.sec with otp := [(2, 0xFF000000)] } } : State).lifeCycle = .scrap ∧ z.awake = true ∧
    z.on R.KET_WDOG.EN = false ∧ (z.wr R.KET_WDOG.EN 1).on R.KET_WDOG.EN = true ∧
    z.takes (.core 16) R.KET_RST.KEY = true ∧ (0x1C5 : Nat) % 256 = 0xC5 ∧ z.takes .pcie R.KET_WDOG.KICK = true ∧
    heldState.awake = false ∧ (z.wr R.MAC_CTRL.IF 1 3).on R.MAC_CTRL.IF 3 = true ∧ z.on R.MAC_CTRL.IF 0 = false := by
  decide
/-- The start-up of the machine in reset is the reset state, but for the reset cause (17 R586, R587). -/
theorem test_start_is_reset : (z.startHardware false).cores = z.cores ∧
    (z.startHardware false).rd R.KET_DOM.STATE = z.rd R.KET_DOM.STATE ∧ (z.startHardware false).mem.bytes = [] ∧
    (z.startHardware false).power.requests = z.power.requests := by decide +kernel

/-- A request of domain 11, no domain ramps. -/
abbrev grantState : State :=
  let s := z.putDom 3 3
  { s with power := { s.power with requests := [11, 5] } }
theorem test_meets_KettleGrantsDomains :
    grantState.rd R.KET_STATUS.DUTY ≤ 16 ∧ grantState.awake = true ∧ grantState.power.requests = 11 :: [5] ∧
    (∀ k, k < 12 → grantState.dom k ≠ 1) ∧ grantState.power.requests.head? ≠ some 5 ∧ z.dom 3 = 1 ∧ z.dom 11 ≠ 1 ∧
    z.mayDoze 0 = false ∧
    (let s := (z.putDom 11 2).wr R.KET_GATE.OFF_EN 8
     bit (s.rd R.KET_GATE.OFF_EN) 3 = true ∧ s.dom 11 = 2) ∧ bit (z.rd R.KET_GATE.OFF_EN) 3 = false ∧
    (10 : Nat) < (z.rd R.KET_THERM.WARN + 64) * 16 ∧ (z.stored 0x005).toNat % 4096 < (z.rd R.KET_THERM.WARN + 64) * 16 ∧
    (z.rd R.KET_THERM.WARN + 64) * 16 ≤ 4095 := by decide
/-- Cluster 3 runs and its cores are idle without a presented source. -/
theorem test_meets_KettleGrantsDomains_doze :
    (({ z.putDom 11 3 with cores := [(12, { run := .idle }), (13, { run := .idle }), (14, { run := .idle }), (15, { run := .idle })] } : State).wr
      R.CC_CTRL.RUN 1 12).mayDoze 11 = true := by decide

/-- A broadcast frame of 60 bytes from station 2. -/
def ethData : List Byte := [0xFF, 0xFF, 0xFF, 0xFF, 0xFF, 0xFF, 2, 0, 0, 0, 0, 2, 0x88, 0xB5] ++ List.replicate 46 0
/-- Frame 0 is x. -/
abbrev frameState (x : EthFrame) : State :=
  { z with eth := { z.eth with next := 1, frames := [(0, some x)] } }
/-- Frame 0, queued at egress port p. -/
abbrev queuedState (p : Nat) : State :=
  { z with eth := { z.eth with next := 1, queues := [(8 * p + 7, [⟨0, false⟩])],
                               frames := [(0, some { data := ethData, port := 3, cls := 7, refs := 1, looked := true,
                                                     mask := 2 ^ p, unit := 5, queued := true, ended := true })] } }
theorem test_meets_SwitchForwardsFrames_frame :
    (frameState { data := ethData, port := 3, cls := 7 }).frame 0 = some { data := ethData, port := 3, cls := 7 } ∧
    (let s := (frameState { data := ethData, port := 3, cls := 7 }).wr R.SW_CTRL.MCAST 0xFF
     s.fdbFind (dstOf ethData) (vidOf ethData) = none ∧ groupAddr (dstOf ethData) = true ∧
       bit (s.rd R.SW_CTRL.MCAST) 7 = true) ∧
    (∀ p, p < 8 → p ≠ 3 → bit ((z.wr R.SW_CTRL.MCAST 8).rd R.SW_CTRL.MCAST) p = false) ∧
    wireLen ethData ≤ 1564 ∧ bit 0x20 5 = true ∧ (7 : Nat) < 8 ∧
    0 < z.cellsFree ∧ (0 : Nat) < ({ data := ethData, port := 3, cls := 7 } : EthFrame).need ∧
    (let s := (frameState { data := ethData, port := 3, cls := 7 }).wr R.SW_CELLS.FREE 0
     s.cellsFree = 0 ∧ s.pushChoice 7 = none) ∧
    (z.wr R.SW_CELLS.FREE 8190).cellsFree + 1 < 8192 ∧ z.cellsFree ≠ 0 := by decide +kernel
theorem test_meets_SwitchForwardsFrames_queue :
    (let s := (queuedState 6).wr R.SW_CELLS.FREE 0
     s.frame 0 = some { data := ethData, port := 3, cls := 7, refs := 1, looked := true, mask := 64, unit := 5, queued := true, ended := true } ∧
       s.cellsFree = 0 ∧ (s.queue 6 7).getLast? = some ⟨0, false⟩) ∧
    (let s := queuedState 4
     s.sending 4 = none ∧ s.pickQueue 4 [7, 6, 5, 4, 3, 2, 1, 0] = some (7, ⟨0, false⟩, [])) ∧
    z.pickQueue 7 [7, 6, 5, 4, 3, 2, 1, 0] = none ∧
    (({ queuedState 6 with eth := { (queuedState 6).eth with sending := [(6, some ⟨0, 7, false, 0⟩)] } } : State).sending 6 =
      some ⟨0, 7, false, 0⟩) ∧
    (let s := (queuedState 5).wr R.SW_RP_CTRL.BYTES 1564
     s.pickQueue 5 [7, 6, 5, 4, 3, 2, 1, 0] = some (7, ⟨0, false⟩, []) ∧
       s.frameCopies 1564 = [(7, ⟨0, false⟩)]) ∧
    (let s := (queuedState 5).wr R.SW_RP_CTRL.BYTES 10
     s.frameCopies 1564 = [] ∧ s.ringCopies = [(7, ⟨0, false⟩)]) ∧
    z.rxSize 47 ≤ 1024 := by decide +kernel
/-- A copy of class 3 may be pushed out for a frame of class 7. -/
theorem test_meets_SwitchForwardsFrames_pushOut :
    (({ z with eth := { z.eth with
        queues := [(8 * 6 + 3, [⟨0, false⟩])]
        frames := [(0, some { data := ethData, port := 3, cls := 3, cells := 1, refs := 1, looked := true, mask := 64,
                              queued := true, checked := true, ended := true })] } } : State).wr R.SW_CELLS.FREE 0).pushChoice 7 =
      some (6, 3) := by decide +kernel
theorem test_meets_SwitchForwardsFrames_table :
    z.takes .pcie R.SW_FDB_SEL.OP = true ∧ (z.fdb 1023).mac < 2 ^ 48 ∧ z.on R.SW_FDB_DATA2.VALID = false ∧
    (let s := ({ z with eth := { z.eth with fdb := [(1, { mac := 0, valid := true })] } } : State).wr R.SW_FDB_DATA2.VALID 1
     s.on R.SW_FDB_DATA2.VALID = true ∧ (s.eth.fdb.any fun x => x.1 != 0 && x.2.valid && x.2.mac == s.rd R.SW_FDB_DATA0.MAC_LO &&
       x.2.vid == s.rd R.SW_FDB_DATA1.VID) = true) ∧
    (z.on R.SW_PCFGp.LEARN 0 3 = true ∨ (z.wr R.SW_PCFGp.LEARN 1 0 3).on R.SW_PCFGp.LEARN 0 3 = true) ∧
    groupAddr (srcOf ethData) = false ∧ z.fdbFind (srcOf ethData) (vidOf ethData) = none ∧ (z.fdb 0).valid = false ∧
    z.takes .pcie R.SW_TXRq_PTR.TAIL 0 7 = true ∧ z.takes .pcie R.PCIE_HTXRq_PTR.TAIL_or_GET 0 7 = true ∧
    (let s := (z.wr R.SW_TXRq_SIZE.SIZE 4 0 7).wr R.PCIE_HTXRq_SIZE.SIZE 4 0 7
     2 ≤ s.txSize 39 ∧ 3 < s.txSize 39 ∧ 2 ≤ s.txSize 47) ∧ z.txSize 39 < 2 := by decide +kernel

/-- MAC 3 is enabled and its link is up. -/
abbrev macUp : State := (z.wr R.MAC_CTRL.EN 1 3).wr R.MAC_STATUS.LINK 1 3
theorem test_meets_MacsReceiveAndSend_frame :
    macUp.awake = true ∧ macUp.on R.MAC_CTRL.EN 3 = true ∧ macUp.on R.MAC_STATUS.LINK 3 = true ∧
    (∃ e, macUp.filterPass 3 0xFFFFFFFFFFFF = some e) ∧
    (macUp.wr R.MAC_FILT.MODE 1 3).rd R.MAC_FILT.MODE 3 ≠ 0 ∧
    (macUp.wr R.MAC_FILT.MODE 1 3).filterPass 3 0x020000000002 = none ∧
    (let s := ((((macUp.wr R.MAC_FILT.MODE 1 3).wr R.MAC_ADDRn_HI.EN 1 3 15).wr R.MAC_ADDRn_LO.ADDR_LO 2 3 15).wr
       R.MAC_ADDRn_HI.ADDR_HI 0x200 3 15)
     s.filterPass 3 0x020000000002 = some 15) ∧ (macUp.wr R.SW_CTRL.EN 1).on R.SW_CTRL.EN = true ∧
    (∃ c, z.rxCause 3 ethData true false = some c) ∧ z.rxCause 3 ethData false false = none ∧
    ((z.wr R.MAC_CTRL.EN 1 0).on R.MAC_CTRL.EN 0 = true ∧ z.boundCtx 1 3 = none) := by
  refine ⟨by decide, by decide, by decide, ⟨_, rfl⟩, by decide, by decide, by decide, by decide, ⟨_, rfl⟩, by decide, by decide⟩
/-- Ring 7 of MAC 3 has 4 descriptors at 0x10000000; the first sends 60 bytes of 0x10000100, of which 46 are zero. -/
abbrev ringWaits (len : Nat) : State :=
  let s := ((macUp.wr R.MAC_TXRq_BASE.BASE 0x800000 3 7).wr R.MAC_TXRq_SIZE.SIZE 4 3 7).wr R.MAC_TXRq_PTR.TAIL 1 3 7
  { s with mem := { s.mem with bytes := [(0x10000001, 1), (0x10000003, 0x10), (0x10000004, BitVec.ofNat 8 len)] } }
theorem test_meets_MacsReceiveAndSend_rings :
    (let s := ringWaits 60
     s.awake = true ∧ s.nextDesc 31 = some (0, 0) ∧ s.on R.MAC_CTRL.EN 3 = true ∧ 2 ≤ s.txSize 31 ∧ 0 < s.cellsFree ∧
       s.txBase 31 = 0x10000000 ∧ s.ringProg 31 = [] ∧ s.txSize 31 ≤ 1024 ∧ (s.macOf 3).owned = [] ∧ s.boundCtx 1 3 = none ∧
       s.tailOk 31 3 = true ∧ s.tailOk 31 4 = false ∧ s.getOk 31 0 = false) ∧
    (let s := (z.wr R.MAC_RXRq_SIZE.SIZE 4 3 7).wr R.MAC_RXRq_PTR.PUT 2 3 7
     s.getOk 31 2 = true ∧ s.getOk 31 3 = false) ∧ z.takes .pcie R.MAC_RXRq_PTR.GET 3 7 = true ∧
    z.takes .pcie R.MAC_TXRq_PTR.TAIL 3 7 = true := by decide +kernel
theorem test_meets_MacsReceiveAndSend_descriptor :
    (let s := ringWaits 60
     let d := parseDesc (s.memBytes (s.txBase 31) 32)
     (s.sramBytes (s.txBase 31) 32).1 = s ∧ (s.engineGet d.addr d.len).1 = s ∧
       d.ok 31 (s.maxLen 31) (s.engineGet d.addr d.len).2 = true) ∧
    (let s := ringWaits 13
     let d := parseDesc (s.memBytes (s.txBase 31) 32)
     (s.sramBytes (s.txBase 31) 32).1 = s ∧ (s.engineGet d.addr d.len).1 = s ∧
       d.ok 31 (s.maxLen 31) (s.engineGet d.addr d.len).2 = false) := by decide +kernel
theorem test_meets_GateListsGovernTransmission_gates :
    (let s : State := { macUp with eth := { macUp.eth with queues := (queuedState 3).eth.queues, frames := (queuedState 3).eth.frames } }
     s.sending 3 = none ∧ s.on R.MAC_GCL_CTRL.EN 3 = false ∧
       s.pickQueue 3 (s.openQueues 3) = some (7, ⟨0, false⟩, []) ∧ s.staysOpen 3 7 (wireTime 2 84) = true) ∧
    (({ macUp with eth := { macUp.eth with sending := [(3, some ⟨0, 7, false, 0⟩)], frames := (queuedState 3).eth.frames } } :
      State).sending 3 = some ⟨0, 7, false, 0⟩) ∧
    (let s : State := { macUp.wr R.MAC_GCL_CTRL.EN 1 3 with
       eth := { z.eth with macs := [(3, { gclCfg := 2, gclCycle := 2000, gcl := [(0, 1000), (1, 0x80), (2, 1000)] })] } }
     s.gated 3 = true ∧ (s.gclActive 3).ring = false ∧ 1 < (s.gclActive 3).count ∧
       s.staysOpen 3 7 100000 = false) ∧
    z.gated 3 = false ∧ z.on R.MAC_GCL_CTRL.ARM 3 = false ∧ z.answers 27 = true ∧
    (macUp.wr R.MAC_GCL_CTRL.ARM 1 3).on R.MAC_GCL_CTRL.ARM 3 = true ∧ z.takes .pcie R.MAC_GCL_CTRL.ARM 3 = true ∧
    z.takes .pcie R.MAC_CTRL.EN 3 = true ∧ z.dom 4 = 0 ∧ z.linkFromPhy 3 = false ∧
    (z.wr R.MAC_CTRL.IF 1 3).linkFromPhy 3 = true := by decide +kernel
theorem test_meets_GateListsGovernTransmission_fit : macUp.dropAllUnfit 3 = macUp := by decide +kernel

/-! ### Host ports, keeper, trace, invariants -/

/-- The link is up and the endpoint may send MSI-X; shared source 64 is pending, enabled, and routed to vector 0. -/
abbrev hostState : State :=
  let a := ((z.wr R.PCIE_STATUS.LINK_UP 1).wr R.PCIE_STATUS.MSIX_EN 1).wr R.PCIE_STATUS.BME 1
  let b := (a.wr R.MSIX_CTRLv.MASK 0 0 0).wr R.IC_SENk.EN 1 0 0
  let r := (b.wr R.IC_ROUTEn.HOST 1 0 0).wr R.IC_ROUTEn.TARGET 0 0 0
  { r with ic := { r.ic with src := [(0x1000 + 64, .pending)] } }
theorem test_meets_HostPortsServeTheHost_pcie :
    hostState.awake = true ∧ hostState.pcieOpen = true ∧ hostState.barHit 0 0x40 4 = true ∧
    barMap 0 0x40 = some 0xF0000040 ∧ hostState.regWaits 0xF0000040 = false ∧ hostState.bar4Held = false ∧
    hostState.barHit 2 0 8 = true ∧ hostState.barHit 4 0 1 = true ∧ hostState.barHit 0 (2 ^ 40) 4 = false ∧
    (hostState.busRead .pcie 0x10000000 8).2 = .data 0 ∧ (hostState.busRead .pcie 0x10000000 8).1.host.reads = [] ∧
    (hostState.busRead .pcie 0xF00FF000 4).2 = .err ∧ z.host.perst = false ∧ z.on R.PCIE_STATUS.LINK_UP = false ∧
    ({ z with host := { z.host with perst := true } } : State).host.perst = true ∧
    (hostState.hostSources.find? fun e => hostState.vectorOpen e.2) = some (0x1040, 0) ∧
    (z.hostSources.find? fun e => z.vectorOpen e.2) = none ∧ z.answers 6 = true ∧ z.nextHost = none ∧
    hostState.nextHost = some (0x1040, 0) := by decide +kernel
theorem test_meets_HostPortsServeTheHost_spi :
    (z.wr R.LB_CTRL.SPI_EN 1).awake = true ∧ (z.wr R.LB_CTRL.SPI_EN 1).spiReady = true ∧ z.regWaits 0x10000007 = false ∧
    (z.wr R.LB_CTRL.SPI_EN 1).spiWaits 0x10000001 2 3 = false ∧ 0x10000001 % 2 ^ 1 ≠ 0 ∧
    0x10000008 % 2 ^ 3 = 0 ∧ isReg 0x10000008 = false ∧ isReg 0xF0000040 = true ∧
    ((z.wr R.LB_CTRL.SPI_EN 1).spiBegin.busRead .spi 0x10000008 8).2 = .data 0 ∧
    ((z.wr R.LB_CTRL.SPI_EN 1).spiBegin.busRead .spi 0x10000008 8).1.host.reads = [] := by decide +kernel

theorem test_meets_LocalBusFlashAndSemaphores :
    (let s := z.wr R.LB_CTRL.LB_EN 1
     s.awake = true ∧ s.on R.LB_CTRL.LB_EN = true ∧ s.gwBusy = false ∧ s.eccAt (0x103F0000 + 0xFFFE) = .clean ∧
       ((s.wakeSeen 7 2 0).busRead .localBus s.host.gwAddr 4).1.host.reads = [] ∧
       (let u : State := { s with host := { s.host with gwAddr := 0x10000000, gwInc := true } }
        ((u.wakeSeen 7 2 0).busRead .localBus u.host.gwAddr 4).2 = .data 0)) ∧
    z.takes (.core 16) R.LB_FL_CMD.START = true ∧ flashUser (.core 17) = true ∧ flashUser (.core 15) = false ∧
    z.on R.LB_FL_CMD.BUSY = false ∧ (z.wr R.LB_FL_CMD.BUSY 1).on R.LB_FL_CMD.BUSY = true ∧ z.answers 18 = true ∧
    stampOf (.ringUnit 5) ≠ 0xF000 ∧ stampOf (.mover 1) = 0xF000 ∧ z.semHeld 31 = false ∧
    z.takes .spi R.BR_SEM_PEEKn.REL 0 31 = true ∧
    (let s := (z.wr R.BR_SEM_PEEKn.HELD 1 0 31).wr R.BR_SEM_PEEKn.OWNER 0x1001 0 31
     s.semHeld 31 = true ∧ s.semOwner 31 = stampOf .spi ∧ s.semOwner 31 ≠ stampOf .pcie) := by decide +kernel

/-- Channel 63 holds a request for service svc of this stamp, answered in channel 62, and OTP is this. -/
abbrev asksFor (svc stamp arg : Nat) (otp : SMap Word := []) : State :=
  let s := z.setChan 63 [BitVec.ofNat 64 (stamp * 2 ^ 48 + svc * 2 ^ 40 + 62 * 2 ^ 32 + arg)]
  { s with sec := { s.sec with otp := otp } }
/-- The keeper has taken the request. -/
abbrev taken (s : State) : State := (s.mbxPop (.core 17) 63).s.selfTestsEnd
theorem test_meets_KeeperServesItsChannel_request :
    (asksFor 1 0x1001 0x10000040).awake = true ∧ (asksFor 1 0x1001 0x10000040).keeperUp = true ∧
    (asksFor 1 0x1001 0x10000040).keeperHead = some (1, 0x1001, 62, 0x10000040) ∧
    (taken (asksFor 1 0x1001 0x10000040)).lifeCycle ≠ .scrap ∧
    (taken (asksFor 1 0x1001 0x10000040)).on R.SEC_STATUS.ST_FAIL = false ∧
    (taken (asksFor 1 0x1001 0x10000040)).on R.SEC_STATUS.RBG_FAIL = false ∧
    (taken (asksFor 1 1 0 [(2, 0x1F000000)])).lifeCycle = .scrap ∧
    (taken ((asksFor 1 1 0).wr R.SEC_STATUS.ST_FAIL 1)).on R.SEC_STATUS.ST_FAIL = true ∧
    (taken ((asksFor 1 1 0).wr R.SEC_STATUS.RBG_FAIL 1)).on R.SEC_STATUS.RBG_FAIL = true ∧
    ((asksFor 1 1 0).wr R.MBX_CFGn.EN 1 0 62).on R.MBX_CFGn.EN 0 62 = true := by decide +kernel
theorem test_meets_KeeperServesItsChannel_states :
    (taken (asksFor 2 1 0 [(2, 0x1F0000)])).lifeCycle = .back ∧ (taken (asksFor 2 1 0)).lifeCycle = .test ∧
    (taken (asksFor 2 1 0 [(2, 0x1F)])).lifeCycle = .provision ∧ (taken (asksFor 2 1 0 [(2, 0x1F00)])).lifeCycle = .field ∧
    (taken (asksFor 3 16 65535 [(0x9C, 1)])).otp 0x9C ≠ 0 ∧ otpAllowed .test 0 = true ∧ otpAllowed .test 2 = false ∧
    (let u := taken ((asksFor 7 16 64 [(6, 1)]).wr R.SEC_STATUS.SVN 64)
     u.rollback < 64 ∧ 64 ≤ u.rd R.SEC_STATUS.SVN ∧ 1 ≤ u.rollback) ∧ (taken (asksFor 7 16 1)).rd R.SEC_STATUS.SVN < 1 ∧
    (let u := taken (asksFor 4 16 1 [(0, 1), (0x48, 1)])
     u.otpSet 0 2 = true ∧ u.otpSet 0x48 12 = true ∧ u.lifeCycle = .test) ∧
    (let u := taken (asksFor 4 16 2 [(2, 0x1F), (5, 0x20), (0x54, 1), (0x85, 1)])
     u.otpSet 0x54 12 = true ∧ (u.otp 5).testBit 5 = true ∧ u.otpSet 0x85 8 = true ∧ u.lifeCycle = .provision) ∧
    z.takes .pcie R.SEC_HOST_IMG.ADDR = true ∧ z.sec.waitHost = false ∧ z.awake = true ∧ z.on R.TRC_CTRL.EN = true := by
  decide +kernel
/-- A certificate whose first word is wrong is not good. -/
theorem test_meets_KeeperServesItsChannel_bad :
    (taken (asksFor 5 16 0x10000000 [(2, 0x1F00)])).certOk ((taken (asksFor 5 16 0x10000000 [(2, 0x1F00)])).sramBytes 0x10000000 216).2 = false := by
  decide +kernel

/-- An alarm entry of page 4 and code 1 with `placed` occurrences reported. -/
abbrev entryOf (placed : Nat) : AlarmEntry :=
  { unit := 1, page := 4, code := 1, aux := 0, first := {}, last := {}, sync := true, count := 3, placed := placed, data := 0,
    openOut := true, closing := false }
/-- A record of class EVENT. -/
abbrev recOf : TraceRec :=
  { cls := .event, kind := 0, page := 4, code := 1, aux := 0, sync := false, close := false, unit := 1, seq := 0, first := {},
    delta := 0, count := 0, data := 5 }
theorem test_meets_TraceWindowsGapsAndBuffer_windows :
    (let s : State := { z with trace := { z.trace with entries := [{ entryOf 1 with code := 2 }, entryOf 3, { entryOf 1 with code := 4 }] } }
     s.awake = true ∧ s.trace.overflow = none ∧ (entryOf 3).openOut = true ∧ (entryOf 3).closing = false ∧
       (entryOf 3).gap = false ∧ (entryOf 3).count = (entryOf 3).placed ∧ (entryOf 1).count ≠ (entryOf 1).placed ∧
       s.trace.queue.length < 256 ∧ s.trace.lost = []) ∧
    256 ≤ ({ z with trace := { z.trace with queue := List.replicate 256 recOf } } : State).trace.queue.length ∧
    (let t0 := ({ z with trace := { z.trace with dropDebug := 1, queue := List.replicate 95 recOf } } : State).trace
     max t0.dropEvent (max t0.dropTrace t0.dropDebug) ≠ 0 ∧ t0.queue.length < 96) := by decide +kernel
theorem test_meets_TraceWindowsGapsAndBuffer_buffer :
    (let b := (z.wr R.TRC_BUF_SIZE.SIZE 16).wr R.TRC_CTRL.BUF_EN 1
     let s : State := { b.wr R.TRC_BUF_BASE.BASE 0x800000 with trace := { z.trace with queue := [recOf] } }
     s.trace.queue = recOf :: [] ∧ s.on R.TRC_CTRL.EN = true ∧ s.on R.TRC_CTRL.BUF_EN = true ∧ 16 ≤ s.rd R.TRC_BUF_SIZE.SIZE ∧
       s.rd R.TRC_BUF_SIZE.SIZE ≤ 262144 ∧ (s.rd R.TRC_BUF_PUT.INDEX + 1) % 16 ≠ s.rd R.TRC_BUF_GET.INDEX ∧
       ((s.wr R.TRC_BUF_PUT.INDEX 15).rd R.TRC_BUF_PUT.INDEX + 1) % 16 = s.rd R.TRC_BUF_GET.INDEX ∧
       s.trace.entries = [] ∧ 0x10000000 ≤ s.rd R.TRC_BUF_BASE.BASE * 32 ∧ z.on R.TRC_CTRL.BUF_EN = false) ∧
    z.takes (.core 3) R.TRC_SW_COMMIT.CLASS = true ∧ 0x2000 ≤ stampOf (.ringUnit 1) ∧ stampOf .localBus < 0x2000 ∧
    ({ z with sec := { z.sec with otp := [(2, 0x1F00)] } } : State).traceDebugOpen = false ∧ z.traceDebugOpen = true ∧
    (z.wr R.TRC_CTRL.EN 0).on R.TRC_CTRL.EN = false ∧ (z.wr R.TRC_CLASS_EN.DEBUG 0).on R.TRC_CLASS_EN.DEBUG = false ∧
    (z.wr R.TRC_CLASS_EN.DEBUG 1).on R.TRC_CLASS_EN.DEBUG = true ∧ z.takes .spi R.TRC_SW_DATAk.DATA 0 3 = true := by
  decide +kernel
/-- No error mark is set after reset. -/
theorem test_meets_TraceWindowsGapsAndBuffer_clean (h : Nat) : z.eccAt h = .clean := rfl

theorem test_meets_EveryStepKeepsTheCanonicalForm : z.mem.wf = true ∧ regsWf z.regs = true ∧
    ∃ t, step { z with pending := [.pcieRequest .io] } = .next t := ⟨by decide, by decide, _, rfl⟩
theorem test_meets_OtpBitsNeverReturnToZero :
    (∃ t, step { asksFor 0 0 0 [(2, 0x1F)] with pending := [.powerOnReset] } = .next t) ∧
    ((asksFor 0 0 0 [(2, 0x1F)]).sec.otp.get 0 2).getLsbD 4 = true ∧
    (asksFor 0 0 0 [(2, 0x1F000000)]).lifeCycle = .scrap := ⟨⟨_, rfl⟩, by decide, by decide⟩

/-! ### Worked examples of the spec -/

/-- FILTER of 1,100 with ALPHA 32 over an accumulator of 256,000 (spec/07, R249, worked example). -/
theorem test_filter_worked_example :
    (let d : Desc := { parseMoverDesc copyDesc with p0 := 32, aux := 0x10000200 }
     d.filterAcc (2 ^ 31 + 256000) 1100 = 259200 ∧ roundDiv 259200 256 = 1013) := by decide
/-- SCALE with GAIN 192, OFFSET 512, SHIFT 8, limits 512 and 3,500 (spec/07, worked example of axis 21). -/
theorem test_scale_worked_example :
    (let d : Desc := { parseMoverDesc ([0, 0, 0, 0, 0x80, 6, 0, 0x50, 0, 0, 0, 0, 1, 0, 5, 0, 0xC0, 0, 0, 2, 8] ++
       List.replicate 11 0) with db := 2, limLo := 512, limHi := 3500 }
     [3001, 3010, 4095].map d.scale = [(2763, false), (2770, false), (3500, true)]) := by decide
/-- The list of CAN3 on unit 30 (spec/11, R398 to R400, worked example). -/
theorem test_strainer_worked_example :
    (let s : State := (({ z with can := { z.can with elems := [(0x100, BitVec.ofNat 64 0xE0000040000007F0),
       (0x101, BitVec.ofNat 64 0xB8000040A0000300), (0x102, BitVec.ofNat 64 0x700000800000047F)] } } : State).wr
       R.CAN_FLT_STD.BASE 0x100 3).wr R.CAN_FLT_STD.COUNT 3 3
     let f (id : Nat) (rtr : Bool) : Fate := s.fate 3 { canFrame with id := id, rtr := rtr }
     [0x205, 0x300, 0x450].map (fun i => ((f i false).keep, (f i false).fifo, (f i false).prio, (f i false).fidx)) =
       [(true, false, false, 0x100), (true, true, true, 0x101), (true, true, false, 0x102)] ∧
       (f 0x600 false).keep = false ∧ (f 0x205 true).keep = false) := by decide +kernel
/-- CAN_NTIME 0x0F0F3E00 and CAN_DTIME 0x01010600: 80 and 10 kernel cycles a bit, offset 8 (spec/11, worked example). -/
theorem test_can_timing_worked_example :
    (let s := (((z.setReg (R.CAN_NTIME.all.addr 3 0) 0x0F0F3E00).setReg (R.CAN_DTIME.all.addr 3 0) 0x01010600).wr
       R.CAN_LOOPC.AUTO 1 3).wr R.CAN_LOOPC.EN 1 3
     s.nomBit 3 = (80, 80) ∧ s.dataBit 3 = (10, 10) ∧ s.sspOffset 3 = 8 ∧ s.timingOk 3 true = true) := by decide
/-- The frame of a CALL with MASK 0x8030 at 0xE0000420 (spec/08, worked example). -/
theorem test_call_worked_example :
    (let s := coreState { g := [(4, 0x44), (5, 0x55), (6, 0xE0001200), (14, 0xE000FF00), (15, 0xFF)], pc := 0xE0000420 }
     let t := after (.call ⟨16, 0⟩ (.long 0x8030 6)) s
     let w (a : Nat) : Nat := t.coreBytes (coreKey 16 a) 4
     ((t.core 16).reg 14, (t.core 16).pc) = (0xE000FEEC, 0xE0001200) ∧
       [w 0xFEEC, w 0xFEF0, w 0xFEF4, w 0xFEF8, w 0xFEFC] = [0x8030CA11, 0xE0000424, 0x44, 0x55, 0xFF] ∧
       (let u := after (.ret ⟨16, 0⟩ false) t
        ((u.core 16).reg 14, (u.core 16).pc, (u.core 16).reg 15) = (0xE000FF00, 0xE0000424, 0xFF))) := by decide +kernel
/-- Three segments of 1,460, 1,460 and 80 bytes behind a 54-byte header (spec/13, worked example). -/
theorem test_lso_worked_example :
    (let d : SendDesc := ⟨0, 3054, 54, true, false, 0, 1460, 14, 34, [⟨1, 16, 40⟩, ⟨2, 18, 1⟩, ⟨3, 38, 0⟩, ⟨4, 47, 9⟩]⟩
     let data : List Byte := List.replicate 47 0 ++ [0x19] ++ List.replicate 3006 0
     let seg (k : Nat) : List Byte := (z.segment d k data).2
     d.segs = 3 ∧ [seg 0, seg 1, seg 2].map (fun l => (l.length + 4, be l 16 2, be l 18 2, be l 38 4, be l 47 1)) =
       [(1518, 1500, 0, 0, 0x10), (1518, 1500, 1, 1460, 0x10), (138, 120, 2, 2920, 0x19)]) := by decide +kernel
/-- A Sync from ETH1 to ETH2 with ASYM 24 and 3,217.25 ns of residence (spec/05, worked example). -/
theorem test_correction_worked_example :
    ((((z.wr R.TB_ASYMp.EN 1 0 1).wr R.TB_ASYMp.ASYM 24 0 1).correction 0x100000 12869 0 1 2) = (0x0CA2C000, false)) := by
  decide +kernel
/-- θ = 2.5 ns in a cycle of 125,000 ns with KP_SHIFT 1 and KI_SHIFT 4 (spec/05, worked example). -/
theorem test_servo_worked_example : perCycle (2 * 163840) (5 * 50000 * 2 ^ 1) = -10995116 ∧
    perCycle (2 * 163840) (5 * 50000 * 2 ^ 4) = -1374390 := by decide +kernel
/-- Point 37.0x2A0 has fabric address 0x252A0, page slot 297 and live-image address 0x4004A540 (spec/00, spec/02). -/
theorem test_image_address_worked_example : rangeOf 0x4004A540 = some .live ∧ (0x4004A540 - 0x40000000) / 2 = 0x252A0 ∧
    0x252A0 / 512 = 297 ∧ rangeOf 0x50000680 = some .points ∧ rangeOf 0x41018680 = some .snap := by decide

/-! ### Further hypotheses of the statements: the common layout, points, memory -/

theorem test_meets_IdleStepIsOneTick_clocks : z.stores = [] ∧ ∀ c, c < 16 → (z.clocked c = true ∨ z.anyPresented c = false) := by
  decide +kernel
theorem test_meets_PageControlWrites_mac :
    (let s : State := { z.wr R.PAGE_CTRL.EN 1 27 with eth := { z.eth with macs := [(3, { waiting := [(4095, 1)] })] } }
     s.controls .pcie 27 = true ∧ s.pageEn 27 = true ∧ (s.macOf (27 - 24)).waiting ≠ []) ∧
    z.controls .pcie 23 = true ∧ srstPage 23 = false ∧ remote .pcie = false ∧
    (z.wr R.PAGE_CTRL.LOCK 1 27).on R.PAGE_CTRL.LOCK 27 = true := by decide
theorem test_meets_MissedPointsTakeTheirHoldAction_once :
    (let s := (pointState 1 1 0).wr R.RING_PT_CTRL.HOST_LOSS_TIMEOUT 1
     s.miss 0x100 = 0 ∧ s.miss 0x100 + 1 = s.rd R.RING_PT_CTRL.HOST_LOSS_TIMEOUT ∧ s.pt.upd.get false 0x100 = false) ∧
    (let s : State := { livePointState with pt := { livePointState.pt with livePt := [(16, { backed := true, shared := true, ppn := 5 })] } }
     (s.live (8192 / 512)).backed = true ∧ (s.live (8192 / 512)).shared = true ∧
       ptQual (s.pageRead (s.live (8192 / 512)) 8192) ≠ 0xF) := by decide
theorem test_meets_HostLossIsDeclaredAndEnds_watchdog :
    (let s : State := { rootState.wr R.RING_PT_CTRL.HOST_WD 3 with pt := { rootState.pt with beatCount := 2 } }
     s.awake = true ∧ s.imgEn = true ∧ s.pt.beaten = false ∧ s.rd R.RING_PT_CTRL.HOST_WD ≤ s.pt.beatCount + 1 ∧
       s.on R.RING_PT_CTRL.HOST_LOST = false) ∧ (1 : Word).getLsbD 0 = true ∧
    (z.wr R.PCIE_STATUS.LINK_UP 1).hostLinkUp = true := by decide
theorem test_meets_ForceAndSnapshotCommands_refused :
    z.imgEn = false ∧ z.on R.ERR_CAPTURE.VALID 8 = false ∧ z.takes .pcie R.CAD_IMG_CTRL.SNAP_REQ = true ∧
    (rootState.wr R.CAD_SNAP_STATUS.VALID 1).on R.CAD_SNAP_STATUS.VALID = true ∧
    255 ≠ (rootState.wr R.CAD_SNAP_STATUS.VALID 1).rd R.CAD_SNAP_STATUS.SEQ ∧ aClass (z.attr 0xFFF) = 0 := by decide
theorem test_meets_MemoryBackgroundWork_repairs :
    (let s : State := { z.wr R.SRAM_REPAIRb.V0 1 0 31 with mem := { z.mem with btSaved := some 16383 } }
     s.mem.btSaved = some 16383 ∧ s.on R.SRAM_REPAIRb.V0 0 (16383 / 512) = true ∧
       s.on R.SRAM_REPAIRb.V1 0 (16383 / 512) = false ∧
       (s.wr R.SRAM_REPAIRb.V1 1 0 31).on R.SRAM_REPAIRb.V1 0 (16383 / 512) = true) ∧
    (let s : State := { z with mem := { z.mem with ecc := [(0x103FFFFE, .single)], writeBack := [0x103FFFFE] } }
     0x103FFFFE ∈ s.mem.writeBack ∧ s.eccAt 0x103FFFFE = .single) ∧
    (let s : State := { z.wr R.CAD_SCRUB.EN 1 with mem := { z.mem with pages := [(65535, { owner := .snap })] } }
     s.on R.CAD_SCRUB.EN = true ∧ (s.page (0x3FFFFFF / 8 * 8 / 0x400)).owner = .snap) := by decide
theorem test_meets_CaddyPagesAndCells_refused :
    (let s := z.wr R.CAD_FREE.FREE 0
     s.mayTake .gen = false ∧ s.mayTake .cell = false ∧ s.cellPage = none) ∧
    (let s : State := { (z.wr R.CAD_FREE.FREE 65535).wr Pool.cell.used 1 with mem := { z.mem with pages := [(9, { owner := .cell, cfree := 14 })] } }
     (s.page (36 / 4)).cfree + 2 ^ (36 % 4) = 15 ∧ s.rd R.CAD_POOLp.MIN 0 3 < s.rd Pool.cell.used ∧ s.rd R.CAD_FREE.FREE < 65536) := by
  decide

/-! ### Further hypotheses: the ring -/

theorem test_meets_RingLinksTrainAndProbe_attempts :
    (let s := (z.setLink .w 1).wr R.RING_LNK_CTRL.FB_EN 1
     s.link .w = 1 ∧ (s.port .w).fbAttempt = false ∧ s.on R.RING_LNK_CTRL.FB_EN = true) ∧
    (((z.setLink .e 1).setPort .e { fbAttempt := true }).port .e).fbAttempt = true ∧
    (⟨.w, 5, true, true, false⟩ : Hello).port ≠ .e ∧ (⟨.e, 5, true, true, false⟩ : Hello).port = .e ∧
    frameGood ([0x40] ++ List.replicate 31 0) = false ∧
    (let s := ringState
     s.up .e = true ∧ s.cycling = true ∧ s.awake = true) := by decide +kernel
/-- A later response on an UP port with a known estimate: its departure times are 0, so t4 alone gives the measurement. -/
theorem test_meets_RingLinksTrainAndProbe_later :
    (let s := ringState.setPort .w { probe := some (7, 0), est := 1000 }
     let l := frameOf 5 2 ([0, 7] ++ List.replicate 30 0)
     5 ≤ s.link .w ∧ (s.port .w).probe = some (7, 0) ∧ frameGood l = true ∧ fKind l = 5 ∧ be l 16 2 = 7 ∧
       s.on (fldKnown .w) = true ∧
       ((8 * (roundDiv ((((250 : Int) - 0) * 4096) - ((originAt l 32 : Int) - originAt l 18)) 8192).toNat : Int) -
         (s.port .w).est).natAbs ≤ 256 ∧
       256 < ((8 * (roundDiv ((((500 : Int) - 0) * 4096) - ((originAt l 32 : Int) - originAt l 18)) 8192).toNat : Int) -
         (s.port .w).est).natAbs) := by decide +kernel
theorem test_meets_RingLinksFailAndRetrain_cut :
    (let s : State := (ringState.setPort .e { fwd := [(.w, 100, 544)] })
     (s.port .e).fwd = [(.w, 100, 544)] ∧ s.tick < 100 ∧ 3 ≤ s.link .e ∧ s.link .e ≤ 6) ∧
    (ringState.port .e).fwd = [] ∧ (ringState.port .w).fwd = [] ∧
    (z.wr R.RING_LNK_CTRL.DETACH 1).on R.RING_LNK_CTRL.DETACH = true ∧ z.on R.RING_LNK_CTRL.DETACH = false := by decide
/-- An ENUM frame of pass n. -/
def enumOfPass (n : Nat) : List Byte := frameOf 7 0 (BitVec.ofNat 8 n :: List.replicate 523 0)
/-- A frame of at least 20 bytes whose LENGTH and KIND agree is good with the CRC that `sealWith` gives it. -/
theorem sealed_good (b : List Byte) (h : 16 ≤ b.length) (hl : fLen (sealWith true b) = b.length + 4)
    (hk : 1 ≤ fKind (sealWith true b) ∧ fKind (sealWith true b) ≤ 7) : frameGood (sealWith true b) = true := by
  have e : sealWith true b = b ++ crcOf b := by simp [sealWith]
  have n : (crcOf b).length = 4 := rfl
  rw [e] at hl hk ⊢
  simp [frameGood, bodyOf, n, hl, hk]
  omega
theorem test_meets_ColdStartAndEnumeration_passes : ∀ n ∈ [1, 2, 4],
    (enumGood (enumOfPass n) = true ∧ fReflected (enumOfPass n) = false ∧ be (enumOfPass n) 16 1 = n) := by
  intro n hn
  have g : frameGood (enumOfPass n) = true := by
    simp only [List.mem_cons, List.not_mem_nil, or_false] at hn
    rcases hn with rfl | rfl | rfl <;> exact sealed_good _ (by decide +kernel) (by decide +kernel) (by decide +kernel)
  simp only [enumGood, g, Bool.true_and]
  simp only [List.mem_cons, List.not_mem_nil, or_false] at hn
  rcases hn with rfl | rfl | rfl <;> decide +kernel
theorem test_meets_ColdStartAndEnumeration_master :
    (let s : State := { ringState.wr R.RING_ENUM_STATUS.STATE 4 with ring := { ringState.ring with cycleMaster := true } }
     s.ring.pass = 0 ∧ s.up .e = true ∧ s.up .w = true) ∧
    (let s : State := { ringState.wr R.RING_ENUM_STATUS.STATE 4 with ring := { ringState.ring with cycleMaster := true, pass := 3 } }
     s.ring.pass ≠ 0 ∧ s.ring.passBack = false) ∧
    (let s : State := { ringState with ring := { ringState.ring with cycleMaster := true, pass := 4 } }
     s.ring.cycleMaster = true ∧ be (enumOfPass 4) 16 1 = s.ring.pass) ∧
    (let s : State := { (z.setLink .e 5).wr R.RING_ENUM_STATUS.STATE 2 with ring := { z.ring with ownBack := 2 } }
     let own := frameOf 6 0 (beBytes 1 (s.coldKey / 2 ^ 64) ++ beBytes 8 s.coldKey ++ List.replicate 3 0)
     frameGood own = true ∧ be own 16 1 % 16 * 2 ^ 64 + be own 17 8 = s.coldKey ∧ (s.ring.ownBack ||| 2 ^ fDir own) = 3) ∧
    (let s := (z.wr R.RING_STICKY.ADDR 2046)
     1 ≤ s.rd R.RING_STICKY.ADDR ∧ s.rd R.RING_STICKY.ADDR ≤ 2046 ∧ s.ring.addr = 0) := by decide +kernel
theorem test_meets_BridgeAccessesEnd_stopped :
    z.cycling = false ∧ z.bridgeTarget 0xC0000000 = none ∧ z.takeDone (.core 0) 0xC0000000 true = none ∧
    z.outstanding (.core 0) 0xC0000000 true = false ∧ errPage (.core 0) 18 = 18 ∧ z.on R.ERR_CAPTURE.VALID 18 = false ∧
    waits .pcie = false ∧ bridgeState.bridgeTarget 0xC7FFFFFF = none ∧
    (let s : State := { z with ring := { z.ring with bridge := [{ request with age := 0 }] } }
     s.bridgeReq 9 = some { request with age := 0 } ∧ (s.wr R.BR_CTRL.TIMEOUT 65535).cycling = false ∧
       ({ request with age := 0 } : BridgeReq).age + 1 < max 1 ((s.wr R.BR_CTRL.TIMEOUT 65535).rd R.BR_CTRL.TIMEOUT)) := by decide
theorem test_meets_RingFramesAreSentAndAccepted_again :
    ringState.reached ringState.time.cycNext = true ∧
    (let l := frameOf 1 2 (List.replicate 16 0)
     let s : State := { ringState with ring := { ringState.ring with accepted := [⟨2, 1, 0, 0⟩] } }
     ringState.authentic l = true ∧ ringState.ring.accepted.contains ⟨fSrc l, 1, fSeq l, fCycle l⟩ = false ∧
       s.ring.accepted.contains ⟨fSrc l, 1, fSeq l, fCycle l⟩ = true) := by decide +kernel
theorem test_meets_RingFramesAreSentAndAccepted_late :
    (let l := frameOf 2 2 (List.replicate 10 0)
     ringState.authentic l = true ∧
       ringState.ring.active.guardTicks * 80 <
         (deviation 1000000 (ringState.ring.active.thTicks + 1 * ringState.ring.active.slotTicks)
           (fAcc (ringState.arrived .e l))).natAbs) ∧
    (let l := frameOf 3 2 ([0, 0] ++ List.replicate 6 0)
     let s : State := { ringState with ring := { ringState.ring with alloc := [(2, 0, 2)] } }
     s.authentic l = true ∧ fCycle l = s.rd R.RING_CYC_NUM.CYCLE ∧
       s.dynLate (fSrc l) 1000000 (fAcc (s.arrived .e l)) = true) := by decide +kernel
theorem test_meets_TableSetsLoadAndModesChange_refused :
    (let s : State := { ringState with ring := { ringState.ring with cycleMaster := true, mcRunning := true } }
     s.ring.cycleMaster = true ∧ s.setState 7 ≠ 2 ∧ (s.putSetState 7 2).setState 7 = 2 ∧ s.ring.mcRunning = true) ∧
    (z.wr R.RING_FAULT.ACTIVE 1).on R.RING_FAULT.ACTIVE = true ∧ z.ring.cycleMaster = false ∧
    (z.putSetState 7 4).setBusy 7 = true ∧ (z.putSetState 7 1).setState 7 = 1 := by decide

/-! ### Further hypotheses: cores, Pour unit, movers, interrupts -/

theorem test_meets_ClaloLoads_refused :
    (let s := coreState { g := [(4, 0x60000000)] }
     s.executes ⟨16, 0⟩ 4 = true ∧ (s.fetched 16 4).loadWaits 16 0x60000000 4 = false ∧
       (((s.fetched 16 4).busRead (.core 16) 0x60000000 4 true).1.core 16).level ≠ .fault) := by decide
theorem test_meets_ClaloOperations_detach :
    (let s : State := { coreState { inop := true, opNode := 5, opCtx := 3 } with
       pour := { z.pour with binds := [(3, 1, 2)] }, eth := { z.eth with macs := [(2, { owned := [(3, 7, 1)] })] } }
     s.executes ⟨16, 0⟩ 2 = true ∧ (s.core 16).opCtx ≠ 0 ∧ (s.bindOf 3).1 = 1 ∧ (∀ w ∈ (s.macOf (s.bindOf 3).2).waiting ++ [(5, 3)], ∃ o ∈ (s.macOf (s.bindOf 3).2).owned, o.1 = w.2)) ∧
    (let s : State := { coreState { inop := true, opNode := 5, opCtx := 255 } with
       pour := { z.pour with binds := [(255, 2, 11)] }, can := { z.can with ctl := [(11, { owned := [(255, 31)] })] } }
     (s.core 16).opCtx ≠ 0 ∧ (s.bindOf 255).1 = 2 ∧ (∀ w ∈ (s.canCtl (s.bindOf 255).2).waiting ++ [(5, 255)], ∃ o ∈ (s.canCtl (s.bindOf 255).2).owned, o.1 = w.2)) ∧
    z.bindOf 3 = (0, 0) := by decide
theorem test_meets_ClaloOperations_vector :
    (let s := { (((z.wr R.IC_PEN_LO.EN 0xFFFFFFFF 16).wr R.IC_CCTRL.NEN 1 16)) with ic := { z.ic with src := [(16 * 64, .pending)] } }
     (s.entryEnd 16).storeErrorDue 16 = false ∧ (s.entryEnd 16).takenLine 16 = some false) ∧
    (let v := (z.core 16).vbase + 0x48
     (halvesOf v 4).all (fun a => fetchable a && z.coreEcc (coreKey 16 (a.toNat % 0x10000)) == .clean) = true) ∧
    fetchable ((0x10000000 : Word) + 0x50) = false := by decide
theorem test_meets_ClaloOperations_spurious :
    (let s := coreState { level := .urgent, entering := some (true, 5) }
     s.awake = true ∧ s.atTakePoint 16 = true ∧ s.clocked 16 = true ∧ (s.core 16).entering = some (true, 5) ∧
       (s.nextSource 16 true).isSome = false ∧ s.takenLine 16 = none) := by decide
theorem test_meets_CoreResetAndRamAccess_closed :
    (let s : State := { z with sec := { z.sec with otp := [(2, 0x1F00)] } }
     s.coreDebugOpen 0 = false ∧ s.coreDebugOpen 17 = false ∧ s.lifeCycle ≠ .test ∧ s.takes .pcie R.CC_CTRL.RUN 17 = true) ∧
    (coreState { inop := true }).cores ≠ [] ∧ z.coreDebugOpen 17 = true := by decide
theorem test_meets_TokenPostsAreAppliedOrRefused_later :
    (let s : State := { pourState with pour := { pourState.pour with posts := [⟨1, .core 3, 5, 0, 0⟩] } }
     s.pour.posts = ⟨1, .core 3, 5, 0, 0⟩ :: [] ∧ s.tick < 1) ∧
    (let p : Post := ⟨0, .can 11, 5, 0, 1⟩
     let s : State := { pourState.setDyn 5 { c0 := 15 } with
       pour := { (pourState.setDyn 5 { c0 := 15 }).pour with posts := [p], opcodes := [(1, 0x34000040)] } }
     let o := s.opcode (nOpcode (s.node p.node))
     s.postRefusal p = some .countMax ∧ bit o 29 = true ∧ 0 < p.tries ∧
       p.tries < (if bitsOf o 28 25 = 0 then 1 else bitsOf o 28 25)) ∧
    pourState.postRefusal ⟨0, .channel 15, 4095, 3, 0⟩ = some .misroute := by decide
theorem test_meets_OperationsAreDispatchedAndEnded_both :
    (let levels : List Nat := [7, 6, 5, 4, 3, 2, 1, 0]
     let s := (((pourState.setLevel 7 [⟨6, false⟩, ⟨5, false⟩]).setDyn 5 { state := .ready }).setDyn 6 { state := .ready })
     levels.findSome? (s.choose true) = some (6, 17) ∧ levels.findSome? ((s.place 6 17).choose false) = some (5, 16) ∧
       (s.place 6 17).inflight < 256) ∧
    (let levels : List Nat := [7, 6, 5, 4, 3, 2, 1, 0]
     let s := ((pourState.setLevel 7 [⟨5, false⟩]).setDyn 5 { state := .ready }).setInflight 256
     256 ≤ s.inflight ∧ (levels.findSome? (s.choose false)).isSome = true) ∧
    (pourState.setDyn 5 { state := .detached }).transferOver 5 = true ∧
    ∀ e ∈ z.pour.slots, e.2.busy = true → e.2.node ≠ 5 := by decide +kernel
theorem test_meets_MoversReadComputeAndWrite_waits :
    (let p : PipePoint := { node := 6, op := 1, desc := copyDesc, index := 0, vals := [0x0123], err := false }
     let s := z.setMov 3 { busy := true, node := 6, op := 1, desc := copyDesc, pipe := [p] }
     s.pendingHit (s.mov 3).pipe 0x10000101 2 = true ∧ s.pendingHit (s.mov 3).pipe 0x10000102 2 = false ∧ p.missing = [] ∧
       p.result.writes.drop p.wrote = [⟨0x10000100, 2, 0x0123, 0⟩] ∧
       ((s.setMov 3 { s.mov 3 with node := p.node }).busWrite (.mover 3) 0x10000100 2 0x0123 true).2 = .data 0 ∧
       inSram 0x10000100 2 = true) ∧
    (let d := parseMoverDesc copyDesc
     let s : State := (z.wr R.SRAM_PFA_LO.PF 1).setMov 3 { busy := true, node := 6, op := 1, desc := copyDesc, ahead := [(0x10000000, 0), (0x10000001, 0)] }
     ((d.reads 1).head?.map fun r => s.sourceAhead 3 r (d.readAt 1 0 [] r).1 (d.readAt 1 0 [] r).2) = some (some 0)) ∧
    ((((parseMoverDesc copyDesc).reads 1).head?.map fun r => z.sourceAhead 3 r 0x10000000 2) = some none) := by decide
theorem test_meets_MoversReadComputeAndWrite_refused :
    (let p : PipePoint := { node := 6, op := 1, desc := copyDesc.take 4 ++ [0, 0, 0, 0x60] ++ copyDesc.drop 8, index := 0
                            vals := [0x0123], err := false }
     let s := z.setMov 0 { pipe := [p] }
     p.result.writes.drop p.wrote = [⟨0x60000000, 2, 0x0123, 0⟩] ∧ p.missing = [] ∧
       ((s.setMov 0 { s.mov 0 with node := p.node }).busWrite (.mover 0) 0x60000000 2 0x0123 true).2 = .err) ∧
    (let p : PipePoint := { node := 6, op := 1, desc := copyDesc, index := 0, vals := [0xF123], err := false }
     p.result.writes = [] ∧ p.result.skip = true ∧ p.missing = []) := by decide

/-! ### Known answers of the named standards -/

/-- SHA-384 of "abc" (FIPS 180-4, example). -/
theorem test_sha384_abc : beNat (sha384Bytes [0x61, 0x62, 0x63]) =
    0xcb00753f45a35e8bb5a03d699ac65007272c32ab0eded1631a8b605a43ff5bed8086072ba1e7cc2358baeca134c825a7 := by
  decide +kernel

/-! ### Further hypotheses: interrupts, mailboxes, pin engines -/

theorem test_meets_InterruptSourcesChangeState_edges :
    hardwareEvent (17 * 64 + 16) = true ∧ hardwareEvent (0x1000 + 209) = true ∧
    (eventSource (0x1000 + 575) = true ∧ hardwareEvent (0x1000 + 575) = false) ∧
    (eventSource 8 = true ∧ hardwareEvent 8 = false) ∧ z.srcLevel (0x1000 + 575) ≠ some false ∧
    (575 : Nat) < 576 ∧ (576 : Nat) < 1024 ∧ (63 : Nat) < 64 := by decide
theorem test_meets_RoutesDoorbellsAndMailboxes_full :
    (z.wr R.IC_SENk.EN 0x80000000 0 15).sharedEn 575 = true ∧
    (let s : State := { z with mbx := { z.mbx with staged := [(0x2001, some 1), (0x2002, some 2), (0x2003, some 3), (0x27FE, some 4)] } }
     stampOf (.ringUnit 0x7FD) / 4096 = 2 ∧
       4 ≤ (s.mbx.staged.filter fun e => e.1 / 4096 == 2 && e.1 != stampOf (.ringUnit 0x7FD)).length ∧
       (s.mbx.staged.filter fun e => e.1 / 4096 == 2 && e.1 != stampOf (.ringUnit 1)).length < 4) ∧
    4 ≤ ((z.setChan 63 [1, 2, 3, 4]).chan 63).length ∧ (63 : Nat) < 64 ∧
    (z.wr R.MBX_CFGn.RX_CLASS 2 0 63).rd R.MBX_CFGn.RX_CLASS 0 63 = 2 ∧
    stampOf .spi ≠ z.rd R.MBX_CFGn.RX_CLASS 0 63 * 4096 + z.rd R.MBX_CFGn.RX_NUM 0 63 ∧ z.chan 63 = [] ∧
    stampOf (.core 17) = z.rd R.MBX_CFGn.RX_CLASS 0 63 * 4096 + z.rd R.MBX_CFGn.RX_NUM 0 63 := by decide
theorem test_meets_PinEnginesRunTheirPrograms_due :
    (let s : State := { engineState 0 with tick := 5 }
     let u0 := s.seePins 7 0
     let d := u0.pe.ticks.get (0, 0) 63
     d.2 < u0.tick ∧ u0.pe.t0.get 0 63 + (d.1 + 1) * max 256 (u0.pe.div.get 0 63).toNat / 256 ≤ u0.tick) ∧
    (let u0 := (engineState 0).seePins 7 0
     ¬ (u0.pe.ticks.get (0, 0) 63).2 < u0.tick) ∧
    (let u := (((engineState 1).wr R.PE_A_WRAP.END 0 63).wr R.PE_ECTRL.ARM 1 63).seePins 7 0
     u.armed 63 = true ∧ u.rd R.PE_STATUS.STEP 63 = u.rd R.PE_A_WRAP.END 63) := by decide
theorem test_meets_PinStartsSwapsLatchesAndFifos_once :
    (let s : State := { z with pe := { z.pe with started := [(63, some 0)] } }
     s.pe.started.get none 63 = some s.tick) ∧ z.pe.started.get none 63 ≠ some z.tick ∧
    ((engineState 0).wr R.PE_CFG.OSRC 1 63).on R.PE_CFG.OSRC 63 = true ∧ (0xFFF : Nat) < 4096 := by decide

/-! ### Further hypotheses: CAN -/

theorem test_meets_CanModesAndRequests_off :
    canState.canOn = true ∧ ({ z with power := { z.power with holds := [.thermal] } } : State).canOn = false ∧
    (z.wr R.KET_STATUS.STATE 3).canOn = false ∧
    (let s := ((canWaits 1 1).wr R.CAN_STATUS.ERRST 2 11)
     s.rd R.CAN_CTRL.MODE 11 ≠ 0 ∧ s.canOff 11 = true) ∧
    (canWaits 2 1).rd R.CAN_CTRL.MODE 11 = 2 ∧
    (let s := canState.wr R.CAN_RAM.BASE 0 11
     s.timingOk 11 (s.on R.CAN_CTRL.RSW_EN 11) = true ∧ s.rd R.CAN_CTRL.MODE 11 = 0 ∧ s.rd R.CAN_TXREQ.BUF 11 = 0) ∧
    (let s := (((canWaits 1 0).wr R.CAN_CTRL.MODE 0 11).wr R.CAN_STATUS.ERRST 2 11).wr R.CAN_STATUS.STATE 5 11
     s.canMode 11 = 5 ∧ s.canOff 11 = true ∧ s.rd R.CAN_CTRL.MODE 11 = 0) ∧
    (let s := (canWaits 1 2).wr R.CAN_CTRL.MODE 4 11
     s.rd R.CAN_CTRL.MODE 11 = 4 ∧ 1 < s.canPhase 11) ∧
    (let s := canSends.setCan 11 { canSends.canCtl 11 with waiting := [(5, 3)] }
     (s.canCtl 11).waiting = [(5, 3)]) ∧
    (canWaits 1 1).txn 11 ≤ 1 := by decide
theorem test_meets_CanTransmissionsEnd_loop :
    (let x : CanOnBus := { canSends.canElem 11 0 with frame := { (canSends.canElem 11 0).frame with fdf := true, brs := true } }
     let s := ((canSends.wr R.CAN_LOOPC.EN 1 11).wr R.CAN_LOOPC.MIN_GAP 127 11).setCan 11 { canSends.canCtl 11 with onBus := some x }
     s.canOn = true ∧ (s.canCtl 11).onBus = some x ∧ x.buf < 32 ∧
       (s.on R.CAN_LOOPC.EN 11 && x.frame.fdf && x.frame.brs && decide (s.rd R.CAN_LOOPC.MIN_GAP 11 ≤ 127)) = true ∧
       (s.on R.CAN_LOOPC.EN 11 && x.frame.fdf && x.frame.brs && decide (s.rd R.CAN_LOOPC.MIN_GAP 11 ≤ 126)) = false ∧
       decide (255 < 256) = true) ∧
    (canWaits 3 1).canWinner 11 ((canWaits 3 1).canCtl 11).order ≠ none ∧
    (let s := ((canWaits 2 1).setCan 11 {})
     s.canMode 11 = 2 ∧ s.canPhase 11 = 1 ∧ (s.canCtl 11).onBus = none ∧ (s.canCtl 11).order = []) ∧
    (let s := ((canWaits 3 1).setCan 11 {})
     s.canMode 11 = 3 ∧ (s.canCtl 11).order = []) ∧
    bit ((canSends.wr R.CAN_TXABORT.BUF 1 11).rd R.CAN_TXABORT.BUF 11) 0 = true ∧
    (let s := canSends.setCan 11 { canSends.canCtl 11 with waiting := [(5, 3)], owned := [(3, 0)], failed := [3] }
     let own := (s.canCtl 11).owned.filter (·.2 != 0)
     own = [] ∧ ((s.canCtl 11).waiting.filter fun w => !(own.any fun o => o.1 == w.2)) = [(5, 3)]) ∧
    0x10000000 ≤ canSends.canBase 11 ∧ canSends.canBase 11 + 80 ≤ 0x10400000 := by decide +kernel
theorem test_meets_CanReceivesCountsAndWakes_turns :
    (let s := canHolds 4 1
     s.nextSearch = some 11 ∧ s.canOn = true ∧ (s.canCtl 11).held.isSome = true) ∧ z.nextSearch ≠ some 11 ∧
    (let s := canWaits 2 1
     s.on R.CAN_CTRL.FD_EN 11 = false ∧ ({ canFrame with fdf := true } : CanFrame).fdf = true) ∧
    (canState.wr R.CAN_STATUS.STATE 4 11).canMode 11 = 4 ∧ canState.canMode 11 = 0 ∧
    (let s : State := { z with pour := { z.pour with binds := [(255, 2, 11)] } }
     s.boundCtx 2 11 = some 255) ∧
    (let s := ((canHolds 4 64).wr R.CAN_RXF0.FILL 64 11).wr R.CAN_RXF0.OVW 1 11
     s.rxn 11 false ≤ s.rd (fifoFlds false).fill 11 ∧ s.rxn 11 false ≠ 0 ∧ s.on (fifoFlds false).ovw 11 = true) ∧
    (let s := (canHolds 4 64).wr R.CAN_RXF0.FILL 64 11
     s.rxn 11 false ≤ 127 ∧ 127 < 128) ∧
    (z.canAsleep 11 = false) := by decide +kernel
theorem test_meets_CanReceivesCountsAndWakes_busOff :
    (let s := (canWaits 1 1).wr R.CAN_ERRCNT.TEC 255 11
     s.canOn = true ∧ 1 ≤ s.canMode 11 ∧ s.canMode 11 ≤ 3 ∧ s.canOff 11 = false ∧ 255 < s.rd R.CAN_ERRCNT.TEC 11 + 1 ∧
       (s.canCtl 11).waiting = []) ∧
    (let s := (canWaits 1 1).wr R.CAN_STATUS.ERRST 2 11
     s.canMode 11 ≠ 4 ∧ s.canOff 11 = true) ∧
    (let a := (canHolds 4 1).rxAddr 11 false ((canHolds 4 1).rd (fifoFlds false).put 11)
     0x10000000 ≤ a ∧ a + 80 ≤ 0x10400000) ∧
    (let s := (canWaits 4 1).wr R.CAN_WK_CFG.EDGE_EN 1 11
     s.canOn = true ∧ s.canAsleep 11 = true) ∧ canFrame.id < 2 ^ 29 ∧ canFrame.dlc < 16 ∧
    (z.wr R.STR_ADDR.INDEX 2047).rd R.STR_ADDR.INDEX = 2047 := by decide +kernel

/-! ### Further hypotheses: wake, power, switch core, MACs -/

theorem test_meets_WakeSourcesAndVetoes_tokens :
    (let s := (z.wr R.WK_CTRL.MODE 2).wr R.WK_CTRL.COORD 1
     s.coord = true ∧ s.wakeMode = 2 ∧ remote .pcie = false ∧
       (0xC0000000 : Word).toNat.testBit 31 = true ∧ ((0xC0000000 : Word).toNat.testBit 30 || s.veto) = true ∧
       (0x80000000 : Word).toNat.testBit 31 = !((0x80000000 : Word).toNat.testBit 30 || s.veto) ∧
       (0x40000000 : Word).toNat.testBit 31 = !((0x40000000 : Word).toNat.testBit 30 || s.veto)) ∧
    z.coord = false ∧ (wakeState 2).wakeRun ≠ .awake ∧ (wakeState 2).wakeRun ≠ .armed ∧
    ((z.wr R.WK_CTRL.MODE 2).wr R.WK_STAY.REQ 1).veto = true ∧ z.wakeMode ≠ 1 ∧
    (let s := ((z.wr R.WK_CTRL.MODE 1).wr R.WK_CTRL.COORD 1).wr R.WK_KA_SET.BITS 1
     s.coord = true ∧ s.wakeMode = 1 ∧ 0 ≠ max 1 (s.rd R.WK_CTRL.KA_DWELL)) ∧
    (z.wr R.WK_MAXAWAKE.EXPIRED 1).on R.WK_MAXAWAKE.EXPIRED = true ∧ z.rd R.WK_MAXAWAKE.SECONDS = 0 ∧
    bit ((wakeState 4).rd R.WK_EN.all) 17 = true ∧ z.wake.kaWrites = [] ∧ z.wake.tokenDue = none ∧
    ({ z with wake := { driving := true } } : State).wake.driving = true := by decide
theorem test_meets_PowerDownAndResume_held :
    (let s : State := { wakeState 5 with power := { z.power with holds := [.refclk] } }
     s.power.holds ≠ []) ∧ (wakeState 3).rd R.WK_STATUS.STATE ≠ 0 ∧
    (let s : State := { (wakeState 5).wr R.KET_STATUS.STATE 3 with sec := { z.sec with otp := [(2, 0xFF000000)] } }
     s.lifeCycle = .scrap ∧ s.power.holds = []) ∧
    ((wakeState 2).core 16).run ≠ .reset ∧
    (∀ e ∈ (wakeState 2).cores, e.1 = 15 → e.2.inop = false) := by decide
theorem test_meets_ResetsHoldAndStart_watchdog :
    (let s : State := { (z.wr R.KET_WDOG.EN 1).wr R.KET_WDOG.TIMEOUT 1 with tick := 400000 }
     s.on R.KET_WDOG.EN = true ∧ s.power.wdogAt + max 1 (s.rd R.KET_WDOG.TIMEOUT) * 400000 ≤ s.tick) ∧
    (let s : State := { (z.wr R.KET_WDOG.EN 1).wr R.KET_WDOG.TIMEOUT 1 with tick := 399999 }
     ¬ s.power.wdogAt + max 1 (s.rd R.KET_WDOG.TIMEOUT) * 400000 ≤ s.tick) ∧
    (let s : State := { z.wr R.KET_STATUS.STATE 3 with wake := { inh := false } }
     s.rd R.KET_STATUS.STATE = 3 ∧ s.wake.inh = false) ∧
    (let s : State := { z with power := { z.power with holds := [.supplies, .thermal] } }
     s.power.holds.contains .thermal = true ∧ ∃ x ∈ s.power.holds, x ≠ .thermal) ∧
    (0x7FFFFFFF : Word).toNat.testBit 31 = false ∧ z.queue 3 7 = [] := by
  refine ⟨by decide, by decide, by decide, ⟨by decide, .supplies, by decide, by decide⟩, by decide, by decide⟩
theorem test_meets_KettleGrantsDomains_edges :
    z.mayDoze 7 = false ∧ z.mayDoze 6 = false ∧ (11 : Nat) < 12 ∧
    (let s := (z.putDom 8 2).wr R.KET_GATE.OFF_EN 1
     bit (s.rd R.KET_GATE.OFF_EN) 0 = true ∧ s.dom 8 = 2) := by decide +kernel
theorem test_meets_SwitchForwardsFrames_early :
    (let x : EthFrame := { data := ethData.take 59, port := 3, cls := 7 }
     ¬ (4 ≤ x.port ∨ x.ring.isSome = true ∨ 64 ≤ wireLen x.data)) ∧
    (let x : EthFrame := { data := ethData, port := 3, cls := 7 }
     64 ≤ wireLen x.data) ∧
    (let x : EthFrame := { data := List.replicate 1561 0, port := 3, cls := 7, looked := true, mask := 0x20 }
     (frameState x).frame 0 = some x ∧ (bit x.mask 5 && decide (1564 < wireLen x.data)) = true) ∧
    (let x : EthFrame := { data := ethData, port := 3, cls := 7, looked := true, mask := 0x80 }
     x.queued = false ∧ x.dropped = false ∧ ∃ p, p < 8 ∧ (bit x.mask p && !(p == 5 && false)) = true) ∧
    z.frame 0 = none := by
  refine ⟨by decide, by decide, by decide +kernel, ⟨by decide, by decide, 7, by decide, by decide⟩, by decide⟩
theorem test_meets_SwitchForwardsFrames_ends :
    (let x : EthFrame := { data := ethData, port := 5, cls := 7, fcsBad := true }
     x.port = 5 ∧ x.fcsBad = true ∧ x.ring = none ∧ x.dropped = false ∧ x.ended = false) ∧
    (let x : EthFrame := { data := ethData, port := 3, cls := 7, checked := true }
     (x.port ≠ 5 ∨ x.fcsBad = false) ∧ (4 ≤ x.port ∨ x.checked = true) ∧ x.dropped = false ∧ x.ended = false) ∧
    (let x : EthFrame := { data := ethData, port := 4, cls := 7, ring := some (47, 1) }
     (frameState x).frame 0 = some x ∧ x.ring = some (47, 1)) ∧
    (let s : State := { queuedState 6 with eth := { (queuedState 6).eth with sending := [(6, some ⟨9, 7, false, 0⟩)] } }
     s.sending 6 = some ⟨9, 7, false, 0⟩ ∧ s.frame 9 = none ∧ (s.sending 6).isSome = true) ∧
    (let s : State := { z with eth := { z.eth with fdb := [(3, { mac := srcOf ethData, vid := vidOf ethData, valid := true, static := true })] } }
     (s.fdbFind (srcOf ethData) (vidOf ethData)).isSome = true) := by decide +kernel
theorem test_meets_MacsReceiveAndSend_nothing :
    z.on R.MAC_CTRL.EN 3 = false ∧ z.frame 7 = none ∧ z.sending 3 = none ∧ z.boundCtx 1 3 = none ∧
    (let s : State := { z with pour := { z.pour with binds := [(1, 1, 3)] } }
     s.boundCtx 1 3 = some 1) ∧
    (let x : EthFrame := { data := ethData, port := 3, cls := 7 }
     x.port < 4 ∧ x.ring = none ∧ x.checked = false) ∧
    (let s := ringWaits 60
     (s.wr R.SW_CELLS.FREE 0).cellsFree = 0 ∧ z.nextDesc 31 = none ∧ z.nextDesc 47 = none) ∧
    (let s : State := { macUp with eth := { macUp.eth with macs := [(3, { owned := [(9, 7, 1)], waiting := [(5, 9)] })] } }
     ((s.macOf (31 / 8)).owned.any fun o => o.2 == (31 % 8, 1)) = true) ∧
    (let s : State := { macUp with eth := { macUp.eth with sending := [(3, some ⟨0, 7, false, 0⟩)] } }
     s.sending 3 = some ⟨0, 7, false, 0⟩ ∧ s.frame 0 = none) ∧
    (let d := parseDesc [0, 1, 0, 0x10, 0, 4, 0, 0]
     d.lso = false) ∧ (∀ x ∈ (z.macOf 3).stamps, x.q < 8) ∧ z.answers 27 = true := by decide +kernel
theorem test_meets_GateListsGovernTransmission_lists :
    (macUp.wr R.MAC_STATUS.LINK 0 3).on R.MAC_STATUS.LINK 3 = false ∧
    (let s : State := { (macUp.wr R.MAC_GCL_CTRL.EN 1 3) with
       time := { z.time with ns := 1500 }
       eth := { z.eth with macs := [(3, { gclCfg := 2, gclCycle := 2000, gcl := [(0, 1000), (1, 0x80), (2, 1000)] })] } }
     let b := s.gclActive 3
     s.gated 3 = true ∧ b.ring = false ∧ s.gclNow 3 = 1 ∧ s.lastStart b = some 0 ∧ (s.macOf 3).gclFrom ≤ 0) ∧
    (let s : State := { (macUp.wr R.MAC_GCL_CTRL.EN 1 3).wr R.RING_CYC_STATUS.SEG 4 with
       eth := { z.eth with macs := [(3, { gclCfg := 0x80000001, gclCycle := 2000, gcl := [(0, 1000), (1, 0x80)] })] } }
     s.lastStart (s.gclActive 3) = none ∧ (s.gclActive 3).ring = true) ∧
    walkOpen 7 [(1000, 0x80), (1000, 0)] 0 1000 = some 0 ∧ walkOpen 7 [(1000, 0x80), (1000, 0)] 1 1000 = none ∧
    entryAt [1000, 500] 1000 = 1 := by decide +kernel

/-! ### Further hypotheses: host ports, keeper, trace -/

theorem test_meets_HostPortsServeTheHost_runs :
    (let s : State := { (hostState.wr R.PCIE_CTRL.RA_EN 1).wr R.SRAM_PFA_LO.PF 1 with host := { hostState.host with runs := [[(0x10000008, 0), (0x10000009, 0)]] } }
     s.runServes 0x10000008 [true, true] = some [0, 0] ∧ s.runServes 0x10000009 [true, true] = none) ∧
    hostState.runServes 0x10000008 [true] = none ∧ (hostState.wr R.PCIE_CTRL.RA_EN 0).on R.PCIE_CTRL.RA_EN = false ∧
    (let s := (hostState.wr R.PCIE_CTRL.RA_EN 1).wr R.SRAM_PFA_LO.PF 1
     s.on R.PCIE_CTRL.RA_EN = true ∧ s.aheadByte 0x10000008 = some 0) ∧ z.pcieOpen = false ∧
    (barMap 2 0).isSome = true ∧ (∀ r ∈ hostState.host.reads, r.parts.all HostPart.ended = false) ∧
    ({ hostState with host := { hostState.host with perst := true } } : State).pcieOpen = false ∧
    (heldState.awake = false) ∧ (z.wr R.PCIE_STATUS.LINK_UP 1).on R.PCIE_STATUS.LINK_UP = true := by decide +kernel
/-- A read across the ring waits for its answer. -/
theorem test_meets_HostPortsServeTheHost_waits :
    (let s : State := { (bridgeState.wr R.PCIE_STATUS.LINK_UP 1).wr R.LB_CTRL.SPI_EN 1 with fresh := 7 }
     (match (s.busRead .pcie 0xC0000000 4).2 with | .wait _ => true | _ => false) = true) ∧
    (z.wr R.LB_CTRL.SPI_EN 0).spiReady = false ∧ isReg 0xF0000040 = true ∧ (0xF0000040 : Nat) % 2 ^ 1 = 0 ∧
    (3 : Nat) ≠ 2 ∧ (z.wr R.LB_CTRL.SPI_EN 1).spiWaits 0x10000000 8 0 = false ∧
    ([0xAA] : List Byte).length < 2 ^ 1 := by decide +kernel
theorem test_meets_LocalBusFlashAndSemaphores_gateway :
    (let s := (z.wr R.LB_CTRL.LB_EN 1).wr R.SRAM_BANK_COLLIDE.MODE 0x80000000
     s.rd R.SRAM_BANK_COLLIDE.MODE / 2 ^ 31 % 2 = 1) ∧ ¬ z.rd R.SRAM_BANK_COLLIDE.MODE / 2 ^ 31 % 2 = 1 ∧
    (z.wr R.LB_CTRL.LB_EN 0).on R.LB_CTRL.LB_EN = false ∧
    (let s : State := { z.wr R.LB_CTRL.LB_EN 1 with host := { z.host with reads := [{ port := .localBus, parts := [.wait 7 4], fail := false }] } }
     s.gwBusy = true) ∧
    (let u := (z.wr R.LB_CTRL.LB_EN 1).wakeSeen 7 2 0
     (u.sramRead 0x103FFFFE 2).2 = some 0) ∧
    (let s : State := { z.wr R.LB_CTRL.LB_EN 1 with mem := { z.mem with ecc := [(0x103FFFFE, .double)] } }
     ((s.wakeSeen 7 2 0).sramRead 0x103FFFFE 2).2 = none ∧ s.eccAt 0x103FFFFE ≠ .clean) ∧
    (let s : State := { z.wr R.LB_CTRL.LB_EN 1 with host := { z.host with gwAddr := 0x60000000 } }
     ((s.wakeSeen 7 2 0).busRead .localBus s.host.gwAddr 4).2 = .err) ∧
    (let s := (z.wr R.BR_SEM_PEEKn.HELD 1 0 31).wr R.BR_SEM_PEEKn.OWNER 0x1001 0 31
     s.semHeld 31 = true ∧ s.semOwner 31 = stampOf .spi ∧ stampOf .spi ≠ 0xF000 ∧ stampOf .spi < 65536) ∧
    (z.wr R.LB_FL_CMD.WRITE 1).on R.LB_FL_CMD.WRITE = true ∧ (31 : Nat) < min 32 63 := by decide +kernel
theorem test_meets_KeeperServesItsChannel_asks :
    ({ asksFor 8 1 5 with cores := [(17, {})] } : State).keeperUp = false ∧ z.keeperHead = none ∧
    (asksFor 9 1 5).keeperHead = some (9, 1, 62, 5) ∧ (asksFor 0 1 5).keeperHead = some (0, 1, 62, 5) ∧
    (let s := asksFor 4 16 4 [(2, 0x1F0000)]
     s.keeperHead = some (4, 16, 62, 4) ∧ ((taken s).tokenRead 4).lifeCycle = .back ∧
       ((taken s).tokenRead 4).on R.SEC_STATUS.ST_FAIL = false) ∧
    (let s := asksFor 4 0x1001 0x10000000 [(2, 0x1F00)]
     let u := (taken s).tokenRead 0x10000000
     u.lifeCycle = .field ∧ 0x10000000 + 216 ≤ 0x10400000) ∧
    (let u := taken (asksFor 4 16 1)
     u.lifeCycle = .test ∧ u.otpSet 0 2 = false) ∧
    (let u := taken ((asksFor 4 16 1).wr R.SEC_STATUS.RBG_FAIL 1)
     u.on R.SEC_STATUS.RBG_FAIL = true) ∧
    (let u := taken (asksFor 4 16 2 [(2, 0x1F)])
     u.lifeCycle = .provision ∧ u.otpSet 0x54 12 = false) ∧
    (let s : State := { z with sec := { z.sec with waitHost := true } }
     s.sec.waitHost = true ∧ s.selfTestsEnd.imageError (parseImage []) ≠ 0) ∧
    (taken (asksFor 3 16 65535)).otp 0x95 = 0 ∧ (65536 : Nat) > 65535 ∧ (64 : Nat) < 65 ∧
    (asksFor 1 1 0).on R.MBX_CFGn.EN 0 62 = false ∧ 4 ≤ ((z.setChan 62 [1, 2, 3, 4]).chan 62).length := by decide +kernel
/-- An OTP list of one pair for word 0, and one for the life-cycle word. -/
theorem test_meets_KeeperServesItsChannel_list :
    (let u : State := { taken (asksFor 6 16 0x10000000) with mem := { z.mem with bytes := [(0x10000000, 1), (0x10000008, 0xFF)] } }
     le (u.sramBytes 0x10000000 4).2 0 4 = 1 ∧
       (let l := ((u.sramBytes 0x10000000 4).1.sramBytes 0x10000004 8).2
        le l 0 4 = 0 ∧ le l 4 4 = 0xFF ∧ otpAllowed u.lifeCycle 0 = true)) ∧
    (let u : State := { taken (asksFor 6 16 0x10000000) with mem := { z.mem with bytes := [(0x10000000, 1), (0x10000004, 2)] } }
     le ((u.sramBytes 0x10000000 4).1.sramBytes 0x10000004 8).2 0 4 = 2 ∧ otpAllowed u.lifeCycle 2 = false) := by
  decide +kernel
theorem test_meets_TraceWindowsGapsAndBuffer_over :
    (let e := entryOf 3
     let s : State := { z with trace := { z.trace with entries := [e] }, time := { z.time with sec := 9 } }
     s.windowOver e = true ∧ max 1 (s.rd R.TRC_CTRL.WINDOW) * 1000 ≤
       ((s.stamp.sec * 1000000000 + s.stamp.ns) - (e.first.sec * 1000000000 + e.first.ns)) / 1000) ∧
    z.windowOver (entryOf 3) = false ∧
    (let s : State := { z with trace := { z.trace with overflow := some (entryOf 3) }, time := { z.time with sec := 9 } }
     s.trace.entries = [] ∧ s.windowOver (entryOf 3) = true) ∧
    (let t0 := ({ z with trace := { z.trace with dropEvent := 65535, queue := List.replicate 255 recOf } } : State).trace
     max t0.dropEvent (max t0.dropTrace t0.dropDebug) = 65535 ∧ t0.queue.length < 256) ∧
    (let s : State := { z with trace := { z.trace with lost := [(5, { n := 1 })], queue := List.replicate 95 recOf } }
     s.trace.lost = [(5, { n := 1 })] ∧ s.trace.queue.length < 96 ∧ s.trace.dropEvent = 0 ∧ s.trace.dropTrace = 0 ∧
       s.trace.dropDebug = 0) ∧
    (let s : State := { z.wr R.TRC_CLASS_EN.EVENT 1 with trace := { z.trace with queue := List.replicate 224 recOf } }
     s.on R.TRC_CLASS_EN.EVENT = true ∧ 224 ≤ s.trace.queue.length) ∧
    (z.wr R.TRC_BUF_SIZE.SIZE 15).rd R.TRC_BUF_SIZE.SIZE < 16 ∧ 262144 < (z.wr R.TRC_BUF_SIZE.SIZE 262145).rd R.TRC_BUF_SIZE.SIZE := by
  decide +kernel
theorem test_meets_SwitchForwardsFrames_rings :
    (let x : EthFrame := { data := ethData, port := 4, cls := 7, ring := some (39, 1), cells := 1 }
     x.ofMacRing = false ∧ x.need ≤ x.cells ∧ x.ended = false ∧ (4 ≤ x.port ∨ x.checked = true)) ∧
    (let x : EthFrame := { data := ethData, port := 3, cls := 7, ring := some (31, 1) }
     x.ofMacRing = true ∧ x.cells + 1 = x.need) ∧
    (let x : EthFrame := { data := ethData, port := 3, cls := 7, dropped := true, cells := 2 }
     x.port < 4 ∧ x.ring = none ∧ x.checked = false ∧ x.refs = 0 ∧ (z.wr R.SW_CELLS.FREE 8189).cellsFree + x.cells < 8192) ∧
    (let s : State := macUp.wr R.SW_CTRL.EN 0
     s.on R.SW_CTRL.EN = false ∧ s.on R.MAC_CTRL.EN 3 = true ∧ s.on R.MAC_STATUS.LINK 3 = true) := by decide +kernel

/-! ### More hypotheses: the common layout, points, memory -/

theorem test_meets_IdleStepIsOneTick_waits : z.host.waits = [] ∧ z.stores = [] ∧
    ∀ c, c < 18 → (z.clocked c = true ∨ z.anyPresented c = false) := by
  refine ⟨by decide, by decide, ?_⟩; decide +kernel
/-- EN = 1 of MAC_CTRL of MAC 3, with domain ETH off: the write waits. -/
theorem test_meets_RegisterWritesFollowAccessCodes_waits :
    z.regWaits (R.MAC_CTRL.EN.addr 3 0) = false ∧ z.ethWaits .pcie (R.MAC_CTRL.EN.addr 3 0) 4 (0x80000000 : Word).toNat = true ∧
    z.ethWaits .pcie (R.MAC_CTRL.EN.addr 3 0) 4 (0x7FFFFFFF : Word).toNat = false ∧
    (z.wr R.PAGE_STATUS.HELD 1 27).resetting 27 = true ∧ rangeOf 0x60000000 = none := by decide
theorem test_meets_RegisterWritesFollowAccessCodes_refused :
    (z.wr R.PAGE_CTRL.LOCK 1 23).on R.PAGE_CTRL.LOCK 23 = true ∧ z.resetting 23 = false ∧
    (∃ row d, pageRow 23 = some row ∧ findReg row.ty 0x40 = some d ∧ d.hasRw = true) ∧
    (∃ row d, pageRow 1 = some row ∧ findReg row.ty 0x40 = some d ∧ row.remote = false ∧ remote (.ringUnit 1) = true) ∧
    errPage (.ringUnit 1) 8 = 8 ∧ stampOf (.ringUnit 1) < 0x10000 := by
  refine ⟨by decide, by decide, ⟨_, _, rfl, rfl, ?_⟩, ⟨_, _, rfl, rfl, ?_, ?_⟩, by decide, by decide⟩ <;> decide
theorem test_meets_RegisterWritesFollowAccessCodes_special :
    ∃ row d r, pageRow 11 = some row ∧ findReg row.ty (R.IC_SEOI.SRC.addr 0 0 % 0x1000) = some d ∧
      z.writeSpecial .pcie row.ty (11 - row.first) (R.IC_SEOI.SRC.addr 0 0 % 0x1000) d 575 = some r ∧
      z.ethWaits .pcie (regAt 11 (R.IC_SEOI.SRC.addr 0 0 % 0x1000)) 4 575 = false := by
  refine ⟨_, _, _, rfl, rfl, rfl, ?_⟩; decide
theorem test_meets_RegisterReadsFollowAccessCodes_rest :
    z.answers 10 = true ∧ z.answers 22 = true ∧ z.answers (64 + 17) = true ∧ (63 : Nat) < 64 ∧ (17 : Nat) < 18 ∧
    z.on R.CAD_SNAP_STATUS.VALID = false ∧ z.awake = true ∧ (z.wr R.PAGE_STATUS.HELD 1 27).resetting 27 = true ∧
    (∃ row d v, pageRow 12 = some row ∧ findReg row.ty 0x000 = some d ∧ z.readCommon 12 row 0x000 = some v) := by
  refine ⟨by decide, by decide, by decide, by decide, by decide, by decide, by decide, by decide, _, _, _, rfl, rfl, rfl⟩
theorem test_meets_MissedLivePoint_clean : livePointState.cleanAt (livePointState.live (8192 / 512)) 8192 = true := by decide
theorem test_meets_HostLossIsDeclaredAndEnds_link :
    (z.wr R.PCIE_STATUS.LINK_UP 1).hostLinkUp = true ∧
    (let s := (z.wr R.PCIE_STATUS.LINK_UP 1)
     ({ s with host := { s.host with lowPower := true } } : State).hostLinkUp = false) := by decide
/-- The first and the last local point, each upset in one bit and waiting for its write-back. -/
theorem test_meets_MemoryBackgroundWork_points :
    (let s : State := { z with pt := { z.pt with ecc := [(0, .single), (4095, .single)] }
                               mem := { z.mem with writeBack := [0x50000000, 0x50001FFE] } }
     0x50000000 ∈ s.mem.writeBack ∧ 0x50001FFE ∈ s.mem.writeBack ∧ localAddr 0x50000000 = true ∧
       localAddr 0x50001FFE = true ∧ s.ptEcc (pointIndex 0x50000000) = .single ∧
       s.ptEcc (pointIndex 0x50001FFE) = .single) ∧ localAddr 0x10000000 = false := by decide
theorem test_meets_MemoryBackgroundWork_spares :
    (let s : State := { z with mem := { z.mem with btSaved := some 0 } }
     s.on R.SRAM_REPAIRb.V0 0 (0 / 512) = false ∧ s.spareGood (0 / 512) 0 = true ∧ s.spareGood (16383 / 512) 1 = true) ∧
    (let s : State := { z with power := { z.power with board := { z.power.board with badSpares := [62, 63] } } }
     s.spareGood (16383 / 512) 0 = false ∧ s.spareGood (16383 / 512) 1 = false) ∧
    (let s : State := { z with mem := { z.mem with filled := 9, pages := [(9, { zeroed := false })] } }
     (s.page 9).zeroed = false ∧ (s.page 9).owner = .free ∧ 9 ≤ s.mem.filled) ∧
    (let s : State := { z.wr R.CAD_SCRUB.EN 1 with mem := { z.mem with pages := [(0, { owner := .image })] } }
     (s.page (0 / 8 * 8 / 0x400)).owner = .image ∧ s.on R.CAD_SCRUB.EN = true) := by decide

/-! ### More hypotheses: the ring -/

theorem test_meets_RingLinksTrainAndProbe_heard :
    (z.setLink .w 5).link .w ≠ 6 ∧ 4 ≤ (z.setLink .w 5).link .w ∧ 4 ≤ (z.setLink .w 6).link .w ∧
    (let s := (z.setLink .w 4).wr R.RING_LNK_CTRL.ERR_MAX 3
     s.rd R.RING_LNK_CTRL.ERR_MAX ≠ 0 ∧ s.rd R.RING_LNK_CTRL.ERR_MAX ≤ ((s.setPort .w { badCrc := 2 }).port .w).badCrc + 1 ∧
       ((s.setPort .w { badCrc := 1 }).port .w).badCrc + 1 < s.rd R.RING_LNK_CTRL.ERR_MAX) ∧
    (z.wr R.RING_LNK_CTRL.ERR_MAX 0).rd R.RING_LNK_CTRL.ERR_MAX = 0 ∧
    (let s := ((z.setLink .w 4).setPort .w { probe := some (65535, 0), first := some 40 })
     s.on (fldKnown .w) = false ∧ (s.port .w).first = some 40 ∧ s.link .w = 4) := by decide
theorem test_meets_RingLinksTrainAndProbe_parked :
    (let s := z.setLink .e 6
     (s.running || false || s.on (fldMismatch .e)) = false ∧ s.link .e = 6 ∧ s.rd R.WK_STATUS.STATE < 2) ∧
    ((ringState.setLink .e 6).running = true) ∧ ((z.wr (fldMismatch .w) 1).on (fldMismatch .w) = true) ∧
    (z.setLink .w 3).link .w = 3 := by decide
/-- A copy that arrived on RING_E still leaves by RING_W when RING_W, or RING_E, goes DOWN. -/
theorem test_meets_RingLinksFailAndRetrain_both :
    (let s := ringState.setPort .e { fwd := [(.w, 100, 544), (.w, 90, 40)] }
     (.w, 100, 544) ∈ (s.port (other .w)).fwd ∧ (.w, 90, 40) ∈ (s.port .e).fwd ∧ s.tick < 90 ∧
       3 ≤ s.link .w ∧ s.link .w ≤ 6) ∧
    (let s := (ringState.setPort .w { unknownCycles := 16 }).wr (fldKnown .w) 0
     s.on (fldKnown .w) = false ∧ 16 ≤ (s.port .w).unknownCycles) := by decide
theorem test_meets_ColdStartAndEnumeration_unknown :
    (let s : State := { (z.setLink .e 5).wr R.RING_ENUM_STATUS.STATE 2 with ring := { z.ring with ownBack := 2 } }
     s.bothKnown = false ∧ (let u := (s.wr (fldKnown .e) 1).wr (fldKnown .w) 1
       u.bothKnown = true ∧ u.coldKey = s.coldKey)) ∧
    (let s := (z.setLink .e 5).wr R.RING_ENUM_STATUS.STATE 2
     let s := s.wr R.RING_COLD_CTRL.PRIO 1
     let lo := frameOf 6 0 (List.replicate 12 0)
     be lo 16 1 % 16 * 2 ^ 64 + be lo 17 8 < s.coldKey ∧ frameGood lo = true) ∧
    (∀ n ∈ [1, 2], let s : State := { ringState with ring := { ringState.ring with pass := n, passBack := true } }
      (s.ring.pass = 1 ∨ s.ring.pass = 2) ∧ s.ring.passBack = true) ∧
    z.rd R.RING_STICKY.ADDR = 0 ∧ ¬ (z.wr R.RING_STICKY.ADDR 2047).rd R.RING_STICKY.ADDR ≤ 2046 ∧
    ((z.wr R.RING_STICKY.ADDR 1).ring.addr = 0 ∧ 1 ≤ (z.wr R.RING_STICKY.ADDR 1).rd R.RING_STICKY.ADDR) := by
  decide +kernel
/-- The vacant set of a join pass holds address 5; the confirmed one too. -/
theorem test_meets_ColdStartAndEnumeration_vacant :
    (let maps := (List.replicate 523 (0 : Byte)).set 11 0x20 |>.set 267 0x20
     let l := frameOf 7 0 (4 :: maps)
     (bitmapAt l 28).contains 5 = true ∧ (bitmapAt l 284).contains 5 = true ∧ be l 16 1 = 4 ∧
       (bitmapAt (enumOfPass 4) 28).contains 5 = false ∧ (z.wr R.RING_STICKY.ADDR 5).ring.addr = 0) := by decide +kernel
theorem test_meets_BridgeAccessesEnd_pcie :
    (let s : State := { z with ring := { z.ring with bridge := [{ request with who := .pcie, backoff := true, age := 65534 }] } }
     let u := s.wr R.BR_CTRL.TIMEOUT 65535
     u.bridgeReq 9 = some { request with who := .pcie, backoff := true, age := 65534 } ∧ u.cycling = false ∧
       max 1 (u.rd R.BR_CTRL.TIMEOUT) ≤ 65534 + 1) ∧
    ({ request with stall := true } : BridgeReq).stall = true := by decide

/-- A frame of KIND 1 of this unit. -/
abbrev thruOf (src : Nat) : List Byte := frameOf 1 src (List.replicate 16 0)
theorem test_meets_RingFramesAreSentAndAccepted_boundaries :
    (let s : State := { ringState with time := { ringState.time with cycNext := 2 ^ 60 } }
     s.cycling = true ∧ s.reached s.time.cycNext = false) ∧
    (let s : State := { (z.wr R.RING_ENUM_STATUS.STATE 5) with ring := { z.ring with cycleMaster := true } }
     s.cycling = false ∧ s.ring.cycleMaster = true ∧ s.rd R.RING_ENUM_STATUS.STATE = 5 ∧ s.ring.detachAt = none) ∧
    z.cycling = false ∧ z.ring.cycleMaster = false ∧ z.rd R.RING_ENUM_STATUS.STATE ≠ 5 := by decide +kernel
theorem test_meets_RingFramesAreSentAndAccepted_launchers :
    frameGood (thruOf 1) = true ∧ fKind (thruOf 1) = 1 ∧ ringState.authentic (thruOf 1) = true ∧
    fSrc (thruOf 1) = ringState.ring.addr ∧ ringState.ring.addr ≠ 0 ∧
    frameGood ((thruOf 2).set 20 1) = false ∧ fSrc ((thruOf 2).set 20 1) ≠ ringState.ring.addr ∧
    (let s : State := { ringState.wr R.TRC_CTRL.EN 1 with ring := { ringState.ring with cycleMaster := true } }
     let b : State := { s with ring := { s.ring with active := { s.ring.active with master := 2, backups := [1] } } }
     fSrc (thruOf 2) ≠ s.ring.addr ∧ s.ring.cycleMaster = true ∧ s.on R.TRC_CTRL.EN = true ∧
       s.ring.active.rank s.ring.addr ≤ s.ring.active.rank (fSrc (thruOf 2)) ∧
       b.ring.active.rank (fSrc (thruOf 2)) < b.ring.active.rank b.ring.addr) := by decide +kernel
theorem test_meets_RingFramesAreSentAndAccepted_ports :
    (∀ n, n < 5 → (z.setLink .w n).link .w ≠ 5 ∧ (z.setLink .w n).link .w ≠ 6) ∧
    (let s := (z.setLink .w 6).wr (fldKnown .w) 1
     s.link .w = 6 ∧ s.on (fldKnown .w) = true ∧ s.on (fldMismatch .w) = false ∧ s.cycling = false ∧
       s.orphan = false ∧ s.ring.cycleMaster = false ∧ s.authentic (thruOf 2) = true ∧ fSrc (thruOf 2) ≠ s.ring.addr) := by
  decide +kernel
theorem test_meets_RingFramesAreSentAndAccepted_slots :
    (ringState.dueSlot 0).isSome = true ∧ ringState.dueSlot 1 = none ∧ ringState.ring.staticRead = none ∧
    (∀ a ∈ (ringState.ring.active.txFrames.getD 0 []) ++ ringState.mirrorList, ringState.outCheck a = (ringState, true)) ∧
    (let l := frameOf 2 1 (List.replicate 10 0)
     frameGood l = true ∧ fSrc l = ringState.ring.addr ∧ ringState.authentic l = true) ∧
    (let l := frameOf 2 9 (List.replicate 10 0)
     fSrc l ≠ ringState.ring.addr ∧ (ringState.ring.active.ownSlots (fSrc l))[fSeq l]? = none) := by decide +kernel
theorem test_meets_RingFramesAreSentAndAccepted_twice :
    (let s : State := { ringState with ring := { ringState.ring with accepted := [⟨2, 2, 0, 0⟩, ⟨2, 3, 0, 0⟩] } }
     let l := frameOf 2 2 (List.replicate 10 0)
     let d := frameOf 3 2 (List.replicate 8 0)
     s.ring.accepted.contains ⟨fSrc l, 2, fSeq l, fCycle l⟩ = true ∧
       s.ring.accepted.contains ⟨fSrc d, 3, fSeq d, fCycle d⟩ = true ∧ s.authentic d = true ∧
       s.dynLate (fSrc d) 0 (fAcc (s.arrived .e d)) = false ∧ frameGood d = true) ∧
    z.ring.minislot = none := by decide +kernel
theorem test_meets_TimeBaseAndComparators_due :
    (let s := ringState.wr R.RING_CYC_STATUS.SEG 0
     s.rd R.RING_CYC_STATUS.SEG = 0 ∧ s.reached (s.cycleTime s.ring.active.thTicks) = true ∧
       ({ s with ring := { s.ring with timeMaster := true } } : State).ring.thetaOther = none ∧
       ({ s with time := { s.time with refSeen := true } } : State).time.refSeen = true ∧
       (s.wr R.TB_CTRL.REF 1).rd R.TB_CTRL.REF ≠ 0) ∧
    ringState.rd R.RING_CYC_STATUS.SEG ≠ 0 ∧
    (let s : State := { ringState.wr R.RING_CYC_STATUS.SEG 0 with time := { ringState.time with cycStart := 2 ^ 60 } }
     s.reached (s.cycleTime s.ring.active.thTicks) = false) := by decide +kernel
theorem test_meets_TimeBaseAndComparators_rest :
    (z.eth.macs.all fun e => !z.on R.MAC_GCL_CTRL.ARM e.1 || z.on R.MAC_GCL_CFG.MODE e.1) = true ∧
    ({ ringState with ring := { ringState.ring with cycleMaster := true } } : State).cycling = true ∧
    signed 32 (0xC4653600 : Word).toNat < -999999999 ∧ 999999999 < signed 32 (0x3B9ACA00 : Word).toNat ∧
    getBits (0 : Word) 1 0 = 0 ∧ (z.wr R.TB_STATUS.STATE 1).servo = .free ∧ getBits (3 : Word) 1 0 ≠ 0 ∧
    (let s := ((z.wr R.STP_CTRLn.EN 1 0 63).wr R.STP_CTRLn.SILENT_HOLD 1 0 63).wr
       R.RING_CYC_STATUS.SILENCED 1
     s.steepDue 63 = true ∧ s.steepView.on R.STP_CTRLn.SILENT_HOLD 0 63 = true ∧
       s.on R.RING_CYC_STATUS.SILENCED = true ∧ s.steepView.on R.STP_CTRLn.MODE 0 63 = false) ∧
    (let s := (((ringState.wr R.STP_CTRLn.EN 1 0 63).wr R.STP_CTRLn.SILENT_HOLD 1 0 63).wr R.STP_CTRLn.MODE 1 0 63).wr
       R.RING_CYC_STATUS.SILENCED 1
     s.steepDue 63 = true ∧ s.steepView.on R.STP_CTRLn.MODE 0 63 = true) ∧
    z.steepDue 63 = false ∧ true ≠ z.steepLate 0 := by decide +kernel

/-! ### More hypotheses: cores, Pour unit, movers, mailboxes -/

/-- A store of core 16 waits in its buffer for the target that the load reads. -/
theorem test_meets_ClaloLoads_waits :
    (let s : State := { coreState { g := [(4, 0x10000004)] } with stores := [⟨16, false, 0x10000004, 4, 7⟩] }
     s.executes ⟨16, 0⟩ 4 = true ∧ (s.core 16).level ≠ .fault ∧ 0x10000004 % 4 = 0 ∧
       (s.fetched 16 4).loadWaits 16 0x10000004 4 = true) ∧
    (let s := coreState { g := [(4, 0xE0008002)] }
     ((s.core 16).reg 4).toNat % 4 ≠ 0 ∧ rangeOf ((s.core 16).reg 4).toNat ≠ some .sram) := by decide
theorem test_meets_ClaloOperations_waiting :
    (let s : State := { coreState { inop := true, opNode := 5 } with stores := [⟨16, false, 0x10000004, 4, 7⟩] }
     s.executes ⟨16, 0⟩ 2 = true ∧ s.postedOf 16 ≠ 0 ∧ (s.core 16).inop = true ∧ (s.core 16).level = .thread) ∧
    z.executes ⟨16, 0⟩ 4 = true ∧ z.postedOf 16 = 0 ∧ (z.core 16).impr = none := by decide
theorem test_meets_ClaloOperations_released :
    (let s : State := { coreState { inop := true, opNode := 5, opCtx := 3 } with
       pour := { z.pour with binds := [(3, 1, 2)] }, eth := { z.eth with macs := [(2, { failed := [3], owned := [(9, 7, 1)] })] } }
     (s.core 16).opCtx ≠ 0 ∧ (s.bindOf 3).1 = 1 ∧ (s.macOf (s.bindOf 3).2).waiting = [] ∧
       ∀ o ∈ (s.macOf (s.bindOf 3).2).owned, o.1 ≠ 3) ∧
    (let s := coreState { inop := true, opNode := 5, opCtx := 3 }
     (s.bindOf 3).1 ≠ 1 ∧ (s.bindOf 3).1 ≠ 2) ∧ (coreState { inop := true, opNode := 5 }).postedOf 16 = 0 := by decide
theorem test_meets_ClaloTrapsAndReturns_stored :
    (let s := coreState { impr := some 0x60000000 }
     s.awake = true ∧ s.coreReady 16 = true ∧ s.atTakePoint 16 = true ∧ (s.core 16).level ≠ .fault) ∧
    (coreState { begun := true }).atTakePoint 16 = false := by decide
theorem test_meets_ClaloOperations_entryFault :
    (let s := { ((((z.wr R.IC_PEN_LO.EN 0xFFFFFFFF 16).wr R.IC_CCTRL.NEN 1 16)).setCore 16
        { run := .run, vbase := 0x10000000 }) with ic := { z.ic with src := [(16 * 64, .pending)] } }
     s.awake = true ∧ s.atTakePoint 16 = true ∧ s.clocked 16 = true ∧ (s.entryEnd 16).storeErrorDue 16 = false ∧
       (s.entryEnd 16).takenLine 16 = some false ∧ fetchable ((s.core 16).vbase + 0x48) = false) ∧
    (let s := coreState { level := .normal, entering := some (false, 5) }
     (s.core 16).entering = some (false, 5) ∧ (s.nextSource 16 false).isSome = false ∧ s.takenLine 16 = none ∧
       s.atTakePoint 16 = true) := by decide
theorem test_meets_CoreResetAndRamAccess_rest :
    (let s := coreState { inop := true, opNode := 5 }
     (s.core 16).run ≠ .reset ∧ (s.core 16).inop = true ∧ s.takes (.core 16) R.CC_CTRL.RUN 16 = true) ∧
    (z.core 15).run = .reset ∧ Initiator.pcie ≠ .core 16 ∧ z.takes .pcie R.CC_CTRL.RUN 15 = true ∧
    (let s := (z.wr R.CC_RAM_ADDR.INC 1 15).wr R.CC_RAM_ADDR.OFFSET 0x1FFF 15
     s.rd R.CC_CTRL.RUN 15 = 0 ∧ s.on R.CC_RAM_ADDR.INC 15 = true ∧
       (s.rd R.CC_RAM_ADDR.OFFSET 15 + 1) % 0x2000 = 0 ∧ s.takes .pcie R.CC_RAM_DATA.DATA 15 = true) := by decide
theorem test_meets_TokenPostsAreAppliedOrRefused_first :
    (let p : Post := ⟨0, .mac 3, 5, 0, 0⟩
     let s : State := { pourState.setDyn 5 { c0 := 15 } with
       pour := { (pourState.setDyn 5 { c0 := 15 }).pour with posts := [p], opcodes := [(1, 0x20000040)] } }
     s.pour.posts = p :: [] ∧ p.arr ≤ s.tick ∧ (s.dyn 5).count 0 = 15 ∧ bit (s.opcode (nOpcode (s.node 5))) 29 = true ∧
       p.tries = 0 ∧ s.pour.retry = [] ∧ s.on R.POUR_CTRL.EN = true ∧ p.input < 4) ∧
    (let s := pourState.setDyn 5 { state := .running }
     (s.dyn 5).state ≠ .idle ∧ (s.dyn 5).count 0 < 15) ∧
    (pourState.postRefusal ⟨0, .core 3, 5, 0, 0⟩) = none := by decide
theorem test_meets_OperationsAreDispatchedAndEnded_over :
    (let s : State := { pourState.setDyn 5 { state := .detached } with
       pour := { (pourState.setDyn 5 { state := .detached }).pour with detached := [(5, 3)], binds := [(3, 1, 2)] }
       eth := { z.eth with macs := [(2, { owned := [(3, 7, 1)], waiting := [(5, 3)] })] } }
     (s.dyn 5).state = .detached ∧ s.transferOver 5 = false) ∧
    (pourState.dyn 5).state ≠ .detached ∧
    (let s : State := { z with pour := { z.pour with ctx := [(255 * 256 + 12, 2), (255 * 256 + 19, 0xC0)] } }
     s.ctxWord 255 (4 + 8 * 1) ≠ 1) ∧
    (let s : State := { z with pour := { z.pour with ctx := [(256 + 4, 1)] } }
     bit (s.ctxWord 1 8) 31 = false) ∧
    (let s : State := { z with pour := { z.pour with ctx := [(256 + 4, 1), (256 + 11, 0x80), (255 * 256 + 12, 1), (255 * 256 + 19, 0xC0)] } }
     s.ctxWord 1 4 = 1 ∧ bit (s.ctxWord 1 8) 31 = true ∧ s.ctxWord 255 12 = 1 ∧ bit (s.ctxWord 255 16) 30 = true) := by
  decide
/-- A COPY whose source lies in a remote-unit window. -/
theorem test_meets_MoversReadComputeAndWrite_far :
    (let d : List Byte := [0, 0, 0, 0xC0] ++ copyDesc.drop 4
     let s := bridgeState.setMov 3 { busy := true, node := 6, op := 1, desc := d }
     (((parseMoverDesc d).reads 1).head?.map fun r => (parseMoverDesc d).readAt 1 0 [] r) = some (0xC0000000, 2) ∧
       (match (s.busRead (.mover 3) 0xC0000000 2 true).2 with | .wait _ => true | _ => false) = true ∧
       s.pendingHit (s.mov 3).pipe 0xC0000000 2 = false) := by decide +kernel
theorem test_meets_RoutesDoorbellsAndMailboxes_keeper :
    (let s := (z.wr R.MBX_CFGn.EN 1 0 63).putDom 7 2
     s.takes (.core 16) R.MBX_TX_HIn.PAYLOAD_HI 0 63 = true ∧ s.on R.MBX_CFGn.EN 0 63 = true ∧ (s.chan 63).length < 4 ∧
       s.dom (domOf 17) = 2) ∧ z.dom (domOf 17) = 3 ∧
    2 ≤ (z.wr R.MBX_CFGn.RX_CLASS 3 0 63).rd R.MBX_CFGn.RX_CLASS 0 63 ∧ (0x7FF : Nat) < 2048 := by decide

/-! ### More hypotheses: CAN, wake, power -/

theorem test_meets_CanModesAndRequests_same :
    (let s := canState.wr R.CAN_CTRL.MODE 4 11
     s.rd R.CAN_CTRL.MODE 11 = 4 ∧ s.rd R.CAN_TXREQ.BUF 11 = 0 ∧ s.canOff 11 = false ∧ s.canOn = true ∧
       s.canPhase 11 ≤ 1 ∧ s.canMode 11 ≠ 4) ∧
    (let s := (canWaits 1 1).wr R.CAN_CTRL.MODE 4 11
     s.rd R.CAN_CTRL.MODE 11 = 4 ∧ s.rd R.CAN_TXREQ.BUF 11 ≠ 0 ∧ s.rd R.CAN_CTRL.MODE 11 < 5) ∧
    (let s := canState.wr R.CAN_RAMCFG.TXN 63 11
     s.rd R.CAN_CTRL.MODE 11 = 0 ∧ s.timingOk 11 (s.on R.CAN_CTRL.RSW_EN 11) = true ∧ s.ramOk 11 = false) ∧
    (canWaits 3 1).rd R.CAN_CTRL.MODE 11 = 3 ∧ (canWaits 1 0).canMode 11 ≠ 0 ∧ (canWaits 1 0).canPhase 11 = 0 := by decide
/-- A buffer that the context 3 owns is on the bus, and an operation waits for it. -/
theorem test_meets_CanTransmissionsEnd_owned :
    (let s := canSends.setCan 11 { canSends.canCtl 11 with waiting := [(5, 3)], owned := [(3, 0), (3, 1), (4, 2)] }
     let own := (s.canCtl 11).owned.filter (·.2 != 0)
     own = [(3, 1), (4, 2)] ∧ ((s.canCtl 11).waiting.filter fun w => !(own.any fun o => o.1 == w.2)) = []) ∧
    (canSends.wr R.CAN_CTRL.TRIES 1 11).rd R.CAN_CTRL.TRIES 11 ≤ (canSends.canCtl 11).tries.get 0 0 ∧
    (let s := ((canWaits 1 1).setCan 11 {})
     s.canMode 11 = 1 ∧ (s.canCtl 11).order = [] ∧ s.canPhase 11 = 1) ∧ (256 : Nat) > 255 := by decide
theorem test_meets_CanReceivesCountsAndWakes_window :
    (let s := (canHolds 4 1)
     (s.canCtl 11).held = some (canFrame, 7, 9) ∧ s.nextSearch = some 11 ∧ (s.fate 11 canFrame).prio = false ∧
       1 ≤ s.rxn 11 false) ∧
    (let s := ((canWaits 4 1).wr R.CAN_WK_STATUS.WOKE 1 11).setCan 11 { woken := true }
     s.canAsleep 11 = false) ∧
    (let s := (canWaits 1 1).wr R.CAN_ERRCNT.REC 127 11
     128 ≤ s.rd R.CAN_ERRCNT.REC 11 + 1 ∧ s.rd R.CAN_STATUS.ERRST 11 = 0 ∧ s.rd R.CAN_ERRCNT.TEC 11 + 0 ≤ 255) ∧
    (canWaits 4 1).canMode 11 = 4 ∧ (canWaits 4 1).canOn = true := by decide +kernel

theorem test_meets_WakeSourcesAndVetoes_sample :
    (let s := ((wakeState 5).wr R.WK_REC_TIME.PERIODS 9).wr R.WK_REC.KIND 7
     s.wakeRun = .exiting ∧ s.rd R.WK_REC_TIME.PERIODS = 9 ∧ s.rd R.WK_REC.KIND = 7 ∧ s.wake.driving = false ∧
       bit (s.rd R.WK_EN.all) (wakeBit 2 3) = true ∧ (wakeState 5).rd R.WK_REC_TIME.PERIODS ≠ 9) ∧
    ((wakeState 5).wr R.WK_REC.KIND 9).rd R.WK_REC.KIND = 9 := by decide
theorem test_meets_WakeSourcesAndVetoes_starts :
    (let s := ((z.wr R.WK_CTRL.MODE 1).wr R.WK_CTRL.COORD 1).wr R.WK_CTRL.KA_DWELL 1
     s.coord = true ∧ s.wakeMode = 1 ∧ s.wake.kaWrites = [] ∧ s.wakeRun = .awake ∧ s.rd R.WK_KA_SET.BITS = 0 ∧
       max 1 (s.rd R.WK_CTRL.KA_DWELL) ≤ s.wake.kaIdle + 1 ∧ s.veto = false ∧
       (s.ring.active.dynOrder.map (·.unit)).filter (· != s.ring.addr) = [] ∧ (s.wr R.WK_STAY.REQ 1).veto = true) ∧
    (let s := ((z.wr R.WK_CTRL.MODE 1).wr R.WK_CTRL.COORD 1).wr R.WK_CTRL.KA_DWELL 2
     ¬ max 1 (s.rd R.WK_CTRL.KA_DWELL) ≤ s.wake.kaIdle + 1) := by decide
theorem test_meets_WakeSourcesAndVetoes_forward :
    (let s : State := { (ringState.setReg R.WK_TOKEN.all.at 0x80000007) with wake := { kaWrites := [2] } }
     let v := s.reg R.WK_TOKEN.all.at
     let w := ({ s with wake := { s.wake with kaWrites := [] } } : State).farWrite 2 R.WK_TOKEN.all.at v
     s.wake.kaWrites = 2 :: [] ∧ v.toNat.testBit 31 = true ∧ v.toNat.testBit 30 = false ∧ w.veto = true ∧
       (w.wakeRun = .awake)) ∧
    (let s : State := { ((ringState.wr R.WK_CTRL.MODE 1).setReg R.WK_TOKEN.all.at 0x80000007) with wake := { kaWrites := [2] } }
     let v := s.reg R.WK_TOKEN.all.at
     let w := ({ s with wake := { s.wake with kaWrites := [] } } : State).farWrite 2 R.WK_TOKEN.all.at v
     v.toNat.testBit 31 = true ∧ v.toNat.testBit 30 = false ∧ w.veto = false ∧ w.wakeRun = .awake) ∧
    ({ z with wake := { kaWrites := [], tokenDue := some 7 } } : State).wake.tokenDue = some 7 := by decide +kernel
theorem test_meets_WakeSourcesAndVetoes_off :
    (let s := z.wr R.WK_CTRL.COORD 1
     s.coord = true ∧ s.wakeMode ≠ 1 ∧ remote (.ringUnit 4) = true ∧ remote (.core 16) = false ∧
       ((0x40000000 : Word).toNat.testBit 30 || s.veto) = true ∧
       (0x40000000 : Word).toNat.testBit 31 = !((0x40000000 : Word).toNat.testBit 30 || s.veto)) ∧
    z.coord = false ∧ (wakeState 1).wakeRun = .armed ∧ (wakeState 0).wakeRun = .awake ∧ (wakeState 4).wakeRun ≠ .awake := by
  decide
theorem test_meets_PowerDownAndResume_deep :
    (let s := (wakeState 5).wr R.KET_STATUS.STATE 3
     s.rd R.WK_STATUS.STATE = 5 ∧ s.rd R.KET_STATUS.STATE = 3 ∧ s.power.holds = [] ∧ s.lifeCycle ≠ .scrap ∧
       s.rd R.TB_CTRL.REF = 0) ∧
    (∀ m q, m < 4 → z.queue m q = []) ∧ ({ z with power := { z.power with deep := true } } : State).power.deep = true := by
  refine ⟨by decide, fun _ _ _ => rfl, by decide⟩
theorem test_meets_ResetsHoldAndStart_ring :
    (let s := (z.wr R.MAC_CTRL.IF 1 3).wr R.MAC_STATUS.LINK 1 3
     s.awake = true ∧ s.on R.MAC_CTRL.IF 3 = true ∧ s.on R.MAC_CTRL.IF 2 = false) ∧ heldState.awake = false ∧
    (∀ m q, m < 4 → z.queue m q = []) := by refine ⟨by decide, by decide, fun _ _ _ => rfl⟩
theorem test_meets_KettleGrantsDomains_eth :
    (let s := (macUp.putDom 4 1)
     s.dom 4 = 1 ∧ s.on R.MAC_CTRL.EN 3 = true ∧ s.on R.MAC_CTRL.IF 3 = false ∧ s.on R.MAC_CTRL.INBAND 3 = false) ∧
    (z.putDom 7 3).dom 7 ≠ 1 ∧ (∀ k, k < 12 → grantState.dom k ≠ 1) ∧ grantState.awake = true := by decide

/-! ### More hypotheses: switch core, MACs, gate lists -/

theorem test_meets_SwitchForwardsFrames_overtakes :
    (let a : EthFrame := { data := ethData, port := 3, cls := 7 }
     let b : EthFrame := { data := ethData, port := 3, cls := 7, looked := true, mask := 64 }
     let s : State := { z with eth := { z.eth with next := 2, frames := [(0, some a), (1, some b)] } }
     s.frame 1 = some b ∧ b.looked = true ∧ b.queued = false ∧ s.overtakes 1 b = true ∧
       (frameState b).overtakes 0 b = false) ∧
    (let x : EthFrame := { data := ethData, port := 3, cls := 7, looked := true, mask := 0x20 }
     x.dropped = false ∧ x.cls < 8 ∧ bit x.mask 5 = true ∧ wireLen x.data ≤ 1564) := by decide +kernel
/-- A frame that was dropped ends all the same: it may still be counted and learned. -/
theorem test_meets_SwitchForwardsFrames_gone :
    (let x : EthFrame := { data := ethData, port := 5, cls := 7, fcsBad := true, dropped := true }
     (frameState x).frame 0 = some x ∧ x.ended = false ∧ x.ofMacRing = false ∧ 4 ≤ x.port ∧ x.refs = 0 ∧ x.cells = 0 ∧
       x.ring = none) ∧
    (let x : EthFrame := { data := ethData, port := 3, cls := 7, checked := true, dropped := true, cells := 1 }
     (frameState x).frame 0 = some x ∧ x.fcsBad = false ∧ ¬ x.cells = 0 ∧
       ((frameState x).wr R.SW_PCFGp.LEARN 1 0 3).on R.SW_PCFGp.LEARN 0 3 = true ∧ groupAddr (srcOf x.data) = false ∧
       (frameState x).fdbFind (srcOf x.data) (vidOf x.data) = none ∧ ((frameState x).fdb 0).valid = false) ∧
    (let x : EthFrame := { data := ethData, port := 3, cls := 7, checked := true, cells := 1 }
     x.dropped = false ∧ x.need ≤ x.cells) := by decide +kernel
theorem test_meets_SwitchForwardsFrames_candidates :
    (let s := (({ z with eth := { z.eth with
        next := 2
        queues := [(8 * 6 + 3, [⟨0, false⟩, ⟨1, false⟩])]
        frames := [(0, some { data := ethData, port := 3, cls := 3, cells := 1, refs := 1, looked := true, mask := 64,
                              queued := true, checked := true, ended := true }),
                   (1, some { data := ethData, port := 3, cls := 3, cells := 1, refs := 1, looked := true, mask := 64,
                              queued := true })] } } : State).wr R.SW_CELLS.FREE 0)
     s.pushChoice 7 = some (6, 3) ∧ s.lastCandidate 6 3 = some ⟨0, false⟩ ∧ s.cellsFree = 0 ∧
       s.queueCells 6 3 = 2 ∧ s.pushChoice 3 = none) := by decide +kernel
theorem test_meets_SwitchForwardsFrames_wait :
    (let x : EthFrame := { data := ethData, port := 4, cls := 7, ring := some (47, 1) }
     let s := (frameState x).wr R.SW_CELLS.FREE 0
     s.frame 0 = some x ∧ s.cellsFree = 0 ∧ s.pushChoice x.cls = none ∧ x.ring.isSome = true) ∧
    (let x : EthFrame := { data := ethData, port := 3, cls := 7, refs := 1 }
     x.refs ≠ 0 ∧ x.queued = false) ∧ z.rd R.SW_AGE.TIME ≠ 0 ∧ (z.wr R.SW_AGE.TIME 0).rd R.SW_AGE.TIME = 0 ∧
    (let s := (queuedState 5).wr R.SW_RP_CTRL.BYTES 1564
     (queuedState 5).frame 0 ≠ none ∧ (s.ringCopies.map (·.1)) = [7]) := by decide +kernel

/-- Domain ETH is powered. -/
abbrev macRuns : State := macUp.putDom 4 3
theorem test_meets_MacsReceiveAndSend_powered :
    macRuns.dom 4 = 3 ∧ macRuns.on R.MAC_CTRL.EN 3 = true ∧ macRuns.on R.MAC_STATUS.LINK 3 = true ∧ macUp.dom 4 ≠ 3 ∧
    macRuns.takes .pcie R.MAC_CTRL.EN 3 = true ∧ macRuns.linkFromPhy 3 = false ∧
    (macRuns.filterPass 3 0xFFFFFFFFFFFF).isSome = true ∧ (macRuns.wr R.SW_CTRL.EN 0).on R.SW_CTRL.EN = false ∧
    (let s := macRuns.wr R.MAC_CTRL.IF 1 3
     s.linkFromPhy 3 = true ∧ s.on R.MAC_CTRL.IF 3 = true ∧ s.power.ringClk = true ∧
       ({ s with power := { s.power with ringClk := false } } : State).power.ringClk = false) := by decide +kernel
theorem test_meets_MacsReceiveAndSend_stamps :
    (let x : EthFrame := { data := ethData, port := 3, cls := 7, ring := some (31, 0), stamp := some 0, looked := true }
     let s : State := { macRuns with eth := { macRuns.eth with next := 1, frames := [(0, some x)], sending := [(3, some ⟨0, 7, false, 5⟩)] } }
     s.sending 3 = some ⟨0, 7, false, 5⟩ ∧ s.frame 0 = some x ∧ (s.macOf 3).stamps.length < 16 ∧ s.awake = true) ∧
    (let k : MacState := { stamps := List.replicate 16 ⟨1, 2, 3⟩ }
     16 ≤ k.stamps.length) := by decide +kernel
theorem test_meets_MacsReceiveAndSend_send :
    (let s := (ringWaits 60).putDom 4 3
     (s.on R.MAC_CTRL.EN (31 / 8) && s.dom 4 == 3 && !s.storing 31) = true ∧ s.nextDesc 31 = some (0, 0) ∧
       2 ≤ s.txSize 31 ∧ 0 < s.cellsFree ∧ s.awake = true) ∧
    (let x : EthFrame := { data := ethData, port := 3, cls := 7, ring := some (31, 0) }
     (frameState x).storing 31 = true) ∧
    (let s : State := { macUp with eth := { macUp.eth with macs := [(3, { owned := [(9, 7, 1)], waiting := [(5, 9)], failed := [9] })] } }
     (s.macOf (31 / 8)).owned.find? (fun o => o.2 == (31 % 8, 1)) = some (9, 7, 1) ∧
       (∀ o ∈ (s.macOf (31 / 8)).owned, o.2 ≠ (31 % 8, 2))) := by decide +kernel
theorem test_meets_GateListsGovernTransmission_starts :
    (let s : State := { macRuns with eth := { macRuns.eth with queues := (queuedState 3).eth.queues, frames := (queuedState 3).eth.frames } }
     s.dom 4 = 3 ∧ s.on R.MAC_STATUS.LINK 3 = true ∧ s.on R.MAC_CTRL.EN 3 = true ∧ s.sending 3 = none ∧
       s.on R.MAC_GCL_CTRL.EN 3 = false ∧ s.pickQueue 3 (s.openQueues 3) = some (7, ⟨0, false⟩, [])) ∧
    macRuns.pickQueue 3 (macRuns.openQueues 3) = none ∧ macUp.dom 4 ≠ 3 := by decide +kernel
theorem test_meets_GateListsGovernTransmission_positions :
    (let s : State := { (macUp.wr R.MAC_GCL_CTRL.EN 1 3).wr R.RING_CYC_STATUS.SEG 2 with
       eth := { z.eth with macs := [(3, { gclCfg := 0x80000001, gclCycle := 2000, gcl := [(0, 1000), (1, 0x80)] })] } }
     (s.gclActive 3).ring = true ∧ s.lastStart (s.gclActive 3) = some s.time.cycStart ∧ s.gated 3 = true ∧
       (s.gclActive 3).ring = true ∧ s.rd R.RING_CYC_STATUS.SEG ≠ 4) ∧
    (let s : State := { (macUp.wr R.MAC_GCL_CTRL.EN 1 3) with
       time := { z.time with ns := 1500 }
       eth := { z.eth with macs := [(3, { gclCfg := 2, gclCycle := 2000, gclFrom := 7, gcl := [(0, 1000), (1, 0x80), (2, 1000)] })] } }
     s.swapDue 3 = none ∧ s.lastStart (s.gclActive 3) = some 0 ∧ (s.macOf 3).gclFrom ≠ 0) := by decide +kernel

/-! ### More hypotheses: host ports, keeper -/

theorem test_meets_HostPortsServeTheHost_queued :
    hostState.host.waits = [] ∧ hostState.creditsLeft = true ∧ (z.wr R.LB_CTRL.SPI_EN 0).spiReady = false ∧
    (let s : State := { hostState with host := { hostState.host with waits := [.pcie .io] } }
     s.host.waits = .pcie .io :: [] ∧ s.pcieOpen = true ∧ s.awake = true) ∧
    (let s := hostState.wr R.PAGE_STATUS.HELD 1 12
     let q : PcieReq := .read 0 (0xC040) [true, true, true, true]
     barMap 0 0xC040 = some 0xF000C040 ∧ s.regWaits 0xF000C040 = true ∧
       ({ s with host := { s.host with waits := [.pcie q] } } : State).pcieReady q = false) ∧
    ({ hostState with host := { hostState.host with waits := [.pcie (.write 0 0x18040 [some 0, some 0, some 0, some 0x80])] } } : State).ethWaits
      .pcie 0xF0018040 4 0x80000000 = true ∧ barMap 0 0x18040 = some 0xF0018040 := by decide +kernel
theorem test_meets_HostPortsServeTheHost_elements :
    (let s := (z.wr R.LB_CTRL.SPI_EN 1)
     s.spiReady = true ∧ s.spiWaits 0x10000008 8 3 = false ∧ 0x10000008 % 2 ^ 3 = 0 ∧ s.host.waits = []) ∧
    (let s := ((z.wr R.LB_CTRL.SPI_EN 1).wr R.PAGE_STATUS.HELD 1 12)
     let b : State := { s.spiBegin with host := { s.spiBegin.host with waits := [.spiWrite 0xF000C040 4 [[1, 2, 3, 4]]] } }
     s.spiWaits 0xF000C040 4 1 = true ∧ b.hostHeld (.spiWrite 0xF000C040 4 (entriesOf 4 [1, 2, 3, 4])) = false) := by
  decide +kernel
theorem test_meets_HostPortsServeTheHost_perst :
    (let s := wakeState 4
     s.wakeRun = .asleep) ∧ (wakeState 5).wakeRun = .exiting ∧ z.host.perst = false ∧ z.wakeRun ≠ .asleep ∧
    PcieLink.l0s ≠ .detect ∧ (3 : Nat) < 4 := by decide
theorem test_meets_LocalBusFlashAndSemaphores_holds :
    (let s : State := { z.wr R.LB_CTRL.LB_EN 1 with host := { z.host with reads := [⟨.localBus, [.wait 7 4], false, 0, []⟩] } }
     s.awake = true ∧ s.on R.LB_CTRL.LB_EN = true ∧ s.gwBusy = true ∧ s.host.waits = []) ∧
    (let s := z.wr R.LB_CTRL.LB_EN 1
     s.gwBusy = false ∧ s.host.waits = [] ∧ s.regWaits s.host.gwAddr = false) ∧ (5 : Nat) ≠ 4 ∧
    heldState.awake = false ∧ (z.wr R.LB_CTRL.LB_EN 0).on R.LB_CTRL.LB_EN = false ∧
    (z.wr R.LB_FL_CFG.ADDR4 0).on R.LB_FL_CFG.ADDR4 = false ∧ flashUser .pcie = false := by decide +kernel
theorem test_meets_KeeperServesItsChannel_classes :
    (asksFor 9 0x3001 0).keeperHead = some (9, 0x3001, 62, 0) ∧ (0x3001 / 4096 ≠ 2) ∧
    (asksFor 9 0x2001 0).keeperHead = some (9, 0x2001, 62, 0) ∧ ¬ (0x2001 / 4096 ≠ 2) ∧
    (asksFor 1 1 0).keeperUp = true ∧ ((asksFor 1 1 0).putDom 7 2).keeperUp = false ∧
    (taken (asksFor 7 16 65)).rd R.SEC_STATUS.SVN < 65 ∧
    (let u := taken (asksFor 3 16 1 [(0x95, 1)])
     u.lifeCycle ≠ .back ∧ u.otp (0x95 + 0) ≠ 0) ∧ (taken (asksFor 3 16 1 [(2, 0x1F0000)])).lifeCycle = .back ∧
    (taken (asksFor 5 16 0)).lifeCycle = .test ∧ (taken (asksFor 5 16 0 [(2, 0x1F00)])).lifeCycle ≠ .test := by
  decide +kernel

end Sys2Proof.Machine.Tests
end

section
/-! PROOFS. Every command keeps the canonical form of the memories and of the register store, and every OTP bit that
reads 1: one lemma for each operation of the model says that it passes `State.keeps` on, and its proof names the
operations that it is made of, in their order. -/

namespace Sys2Proof.Machine

/-! ### How operations pass it on -/

/-- Every answer of an access that may have none: `π` gives the unit that the answer leaves. -/
def State.keepsSome {α : Type} (s : State) (π : α → State) (o : Option α) : Prop := ∀ r, o = some r → s.keeps (π r)

/-- The next state of a command, where it has one. -/
def State.keepsNext (s : State) (o : Host.Outcome State Fault Refusal) : Prop := ∀ u, o = .next u → s.keeps u

section
variable {α : Type} {c : Prop} {dec : Decidable c} {s t u : State}

theorem State.keeps.trans (h : s.keeps t) (g : t.keeps u) : s.keeps u := State.keeps_trans h g

theorem State.keeps.ite (h : s.keeps t) (g : s.keeps u) : s.keeps (if c then t else u) := by split <;> assumption

theorem State.keeps.iteFst {p q : State × α} (h : s.keeps p.1) (g : s.keeps q.1) : s.keeps (if c then p else q).1 := by
  split <;> assumption

theorem State.keeps.iteRes {p q : RegRes} (h : s.keeps p.s) (g : s.keeps q.s) : s.keeps (if c then p else q).s := by
  split <;> assumption

theorem State.keeps.iteRep {p q : Reply} (h : s.keeps p.s) (g : s.keeps q.s) : s.keeps (if c then p else q).s := by
  split <;> assumption

theorem State.keeps.ofFst {p : State × α} {a : α} (h : s.keeps p.1) (e : p = (u, a)) : s.keeps u := by
  subst e; exact h

theorem State.keeps.ofSnd {p : α × State} {a : α} (h : s.keeps p.2) (e : p = (a, u)) : s.keeps u := by
  subst e; exact h

theorem State.keeps.foldl {f : State → α → State} {l : List α} (h : s.keeps t)
    (hf : ∀ u x, s.keeps u → s.keeps (f u x)) : s.keeps (l.foldl f t) := by
  induction l generalizing t with
  | nil => exact h
  | cons x l ih => exact ih (hf t x h)

theorem State.keepsSome.none {π : α → State} : s.keepsSome π none := nofun

theorem State.keepsSome.some {π : α → State} {r : α} (h : s.keeps (π r)) : s.keepsSome π (some r) := by
  rintro _ ⟨⟩; exact h

theorem State.keepsSome.ite {π : α → State} {o o' : Option α} (h : s.keepsSome π o) (g : s.keepsSome π o') :
    s.keepsSome π (if c then o else o') := by
  split <;> assumption

theorem State.keepsSome.of {π : α → State} {o : Option α} {r : α} (h : s.keepsSome π o) (e : o = Option.some r) :
    s.keeps (π r) := h r e

theorem State.keepsSome.ofId {o : Option State} (h : s.keepsSome id o) (e : o = Option.some u) : s.keeps u := h u e

theorem State.keepsSome.ofFst {o : Option (State × α)} {a : α} (h : s.keepsSome Prod.fst o)
    (e : o = Option.some (u, a)) : s.keeps u := h (u, a) e

theorem State.keepsSome.ofSnd {o : Option (α × State)} {a : α} (h : s.keepsSome Prod.snd o)
    (e : o = Option.some (a, u)) : s.keeps u := h (a, u) e

theorem State.keepsSome.getD {o : Option State} (h : s.keepsSome id o) (g : s.keeps u) : s.keeps (o.getD u) := by
  cases o with
  | none => exact g
  | some t => exact h t rfl

theorem State.keepsNext.next (h : s.keeps t) : s.keepsNext (.next t) := by
  rintro _ ⟨⟩; exact h

theorem State.keepsNext.ite {o o' : Host.Outcome State Fault Refusal} (h : s.keepsNext o) (g : s.keepsNext o') :
    s.keepsNext (if c then o else o') := by
  split <;> assumption

end

section
variable {s t u : State}

/-- An update of the parts of the unit that no clause of `State.keeps` speaks of. -/
theorem State.keeps.frame {pt trace ic mbx pour time pe wake can eth ring host power movers desc descs cores stores
    answer out tick fresh pending} (h : s.keeps t) :
    s.keeps { t with pt := pt, trace := trace, ic := ic, mbx := mbx, pour := pour, time := time, pe := pe, wake := wake,
                     can := can, eth := eth, ring := ring, host := host, power := power, movers := movers, desc := desc,
                     descs := descs, cores := cores, stores := stores, answer := answer, out := out, tick := tick,
                     fresh := fresh, pending := pending } := h

/-- The same of the memories' bookkeeping. -/
theorem State.keeps.memFrame {ecc writeBack pages filled btSaved scrubNext} (h : s.keeps t) :
    s.keeps { t with mem := ⟨t.mem.bytes, t.mem.coreRam, ecc, writeBack, pages, filled, btSaved, scrubNext⟩ } := h

/-- The same of the keeper's state beside the OTP. -/
theorem State.keeps.secFrame {blocks nonce selfTest waitHost} (h : s.keeps t) :
    s.keeps { t with sec := ⟨t.sec.otp, blocks, nonce, selfTest, waitHost⟩ } := h

/-! ### Ops -/

/-- An update of the register store alone. -/
theorem State.keeps.withRegs {regs : SMap Word} (h : s.keeps t) (g : regsWf t.regs = true → regsWf regs = true) :
    s.keeps { t with regs := regs } := h.trans (State.keeps_of_regs rfl rfl g)

theorem State.keeps.setReg {a : Nat} {v : Word} (h : s.keeps t) : s.keeps (t.setReg a v) :=
  h.trans (State.keeps_setReg ..)

theorem State.keeps.wr {f : Fld} {v inst idx : Nat} (h : s.keeps t) : s.keeps (t.wr f v inst idx) :=
  h.trans (State.keeps_wr ..)

theorem State.keeps.bumpBy {f : Fld} {n inst idx : Nat} (h : s.keeps t) : s.keeps (t.bumpBy f n inst idx) :=
  h.trans (State.keeps_bumpBy ..)

theorem State.keeps.bump {f : Fld} {inst idx : Nat} (h : s.keeps t) : s.keeps (t.bump f inst idx) :=
  h.trans (State.keeps_bump ..)

theorem State.keeps.ok {d : Nat} (h : s.keeps t) : s.keeps (t.ok d) := h.frame

theorem State.keeps.err (h : s.keeps t) : s.keeps t.err := h.frame

theorem State.keeps.free (h : s.keeps t) : s.keeps (t.free).2 := h.frame

theorem State.keeps.emit {e : Emission} (h : s.keeps t) : s.keeps (t.emit e) := h.frame

theorem State.keeps.setSrc {key : Nat} {st : SrcState} (h : s.keeps t) : s.keeps (t.setSrc key st) := h.frame

theorem State.keeps.pulse {key : Nat} (h : s.keeps t) : s.keeps (t.pulse key) := h.trans (State.keeps_pulse ..)

theorem State.keeps.syncSource {key : Nat} (h : s.keeps t) : s.keeps (t.syncSource key) :=
  h.trans (State.keeps_syncSource ..)

theorem State.keeps.syncPage {p : Nat} (h : s.keeps t) : s.keeps (t.syncPage p) := h.trans (State.keeps_syncPage ..)

theorem State.keeps.raise {f : Fld} {inst : Nat} (h : s.keeps t) : s.keeps (t.raise f inst) :=
  h.trans (State.keeps_raise ..)

theorem State.keeps.capture {p : Nat} {who : Initiator} {write : Bool} {size cause addr : Nat} (h : s.keeps t) :
    s.keeps (t.capture p who write size cause addr) := h.trans (State.keeps_capture ..)

theorem State.keeps.setStored {i : Nat} {v : Half} (h : s.keeps t) : s.keeps (t.setStored i v) := h.frame

theorem State.keeps.statusSet {i v : Nat} (h : s.keeps t) : s.keeps (t.statusSet i v) := h.setStored

theorem State.keeps.statusCount {i : Nat} (h : s.keeps t) : s.keeps (t.statusCount i) :=
  h.trans (State.keeps_statusCount ..)

theorem State.keeps.traceDrop {c : TraceClass} (h : s.keeps t) : s.keeps (t.traceDrop c) := by
  refine State.keeps.statusCount ?_
  split
  · exact h.frame.bump
  · exact h.frame.bump
  · exact h.frame.bump
  · exact h

theorem State.keeps.queueRec {r : TraceRec} (h : s.keeps t) : s.keeps (t.queueRec r) := h.frame.ite h.traceDrop

theorem State.keeps.placeOffers (h : s.keeps t) : s.keeps t.placeOffers := h.trans (State.keeps_placeOffers ..)

theorem State.keeps.alarmOf {x : AlarmEntry} (h : s.keeps t) : s.keeps (t.alarmOf x) :=
  h.trans (State.keeps_alarmOf ..)

theorem State.keeps.alarm {page code aux data : Nat} (h : s.keeps t) : s.keeps (t.alarm page code aux data) :=
  h.trans (State.keeps_alarm ..)

theorem State.keeps.event {page code aux data : Nat} (h : s.keeps t) : s.keeps (t.event page code aux data) :=
  h.queueRec.ite h

/-! ### Kettle -/

theorem State.keeps.putDom {d v : Nat} (h : s.keeps t) : s.keeps (t.putDom d v) := h.wr

theorem State.keeps.throttle (h : s.keeps t) : s.keeps t.throttle := (h.foldl fun _ _ g => g.pulse.ite g).raise

theorem State.keeps.putDuty {k : Nat} (h : s.keeps t) : s.keeps (t.putDuty k) := h.wr.wr.throttle.ite h.wr.wr

theorem State.keeps.putOver {k : Nat} (h : s.keeps t) : s.keeps (t.putOver k) := (h.ite h.wr.raise.alarm).ite h.wr

theorem State.keeps.syncKettle (h : s.keeps t) : s.keeps t.syncKettle := h.statusSet.statusSet

theorem State.keeps.regrant {evaluate : Bool} (h : s.keeps t) : s.keeps (t.regrant evaluate) :=
  h.putDuty.putOver.syncKettle

theorem State.keeps.syncDoze (h : s.keeps t) : s.keeps t.syncDoze := h.wr.ite h

theorem State.keeps.setDom {d v : Nat} (h : s.keeps t) : s.keeps (t.setDom d v) := h.putDom.regrant.syncDoze

theorem State.keeps.requestDom {d : Nat} (h : s.keeps t) : s.keeps (t.requestDom d) := h.frame.ite h

theorem State.keeps.wakeCore {c : Nat} (h : s.keeps t) : s.keeps (t.wakeCore c) := by
  unfold State.wakeCore
  split
  · exact h.requestDom
  · exact h.setDom
  · exact h

theorem State.keeps.frameTick (h : s.keeps t) : s.keeps t.frameTick := h.frame.ite h

theorem State.keeps.powered (h : s.keeps t) (hu : s.keeps u) : s.keepsNext (t.powered u) := .next (hu.ite h)

/-! ### Time -/

theorem State.keeps.setNow {k : Int} (h : s.keeps t) : s.keeps (t.setNow k) := h.frame

theorem State.keeps.setRate {r : Int} (h : s.keeps t) : s.keeps (t.setRate r) := h.wr

theorem State.keeps.timeTick (h : s.keeps t) : s.keeps t.timeTick := h.setNow.frame

theorem State.keeps.capturedTime {k : Nat} (h : s.keeps t) : s.keeps (t.capturedTime k) := h.wr.wr.wr.wr.wr

theorem State.keeps.shiftArms {d : Int} (h : s.keeps t) : s.keeps (t.shiftArms d) := h.frame

theorem State.keeps.stepTime {d : Int} (h : s.keeps t) : s.keeps (t.stepTime d) := h.setNow.shiftArms.wr.bump

theorem State.keeps.stepWrite {v : Word} (h : s.keeps t) : s.keeps (t.stepWrite v).1 :=
  h.iteFst (h.bump.iteFst h.stepTime)

theorem State.keeps.steepKeep {n : Nat} (h : s.keeps t) : s.keeps (t.steepKeep n) := h.frame

theorem State.keeps.syncTb (h : s.keeps t) : s.keeps t.syncTb := h.statusSet

theorem State.keeps.setServo {v : Servo} (h : s.keeps t) : s.keeps (t.setServo v) := h.wr.syncTb.frame

theorem State.keeps.idleTick (h : s.keeps t) : s.keeps t.idleTick := h.wr.ite h

theorem State.keeps.putOffset {q : Int} (h : s.keeps t) : s.keeps (t.putOffset q) := h.statusSet

theorem State.keeps.enterSilence {why : Nat} (h : s.keeps t) : s.keeps (t.enterSilence why) := h.ite h.wr.alarm.frame

theorem State.keeps.endSlew (h : s.keeps t) : s.keeps t.endSlew := h.frame

theorem State.keeps.servoStep {q : Int} (h : s.keeps t) : s.keeps (t.servoStep q) :=
  (h.alarm.ite h).endSlew.stepTime.setServo

theorem State.keeps.servoRate {q : Int} (h : s.keeps t) : s.keeps (t.servoRate q) := h.setRate.frame

theorem State.keeps.servoGood {q : Int} (h : s.keeps t) : s.keeps (t.servoGood q) :=
  (h.setServo.ite h).ite (h.setServo.ite h.frame)

theorem State.keeps.servoSlew {q : Int} (h : s.keeps t) : s.keeps (t.servoSlew q) :=
  (h.setServo.ite h).servoRate.servoGood

theorem State.keeps.measure {q : Int} (h : s.keeps t) : s.keeps (t.measure q) :=
  h.ite (h.putOffset.servoStep.ite h.putOffset.servoSlew)

theorem State.keeps.sawReference (h : s.keeps t) : s.keeps t.sawReference := (h.setServo.ite h).frame

theorem State.keeps.measureOther (h : s.keeps t) : s.keeps t.measureOther := by
  unfold State.measureOther
  split
  · exact h.frame.measure
  · exact h

theorem State.keeps.referenceCheck (h : s.keeps t) : s.keeps t.referenceCheck :=
  h.frame.ite (h.frame.wr.ite (h.frame.wr.setServo.endSlew.frame.ite h.frame.wr))

theorem State.keeps.tbCtrlWrite {v : Word} (h : s.keeps t) : s.keeps (t.tbCtrlWrite v) :=
  h.wr.wr.setServo.endSlew.ite (h.wr.wr.setServo.wr.ite h.wr.wr)

theorem State.keeps.becomeTimeMaster (h : s.keeps t) : s.keeps t.becomeTimeMaster := h.setServo.endSlew.frame

theorem State.keeps.endTimeMaster (h : s.keeps t) : s.keeps t.endTimeMaster := h.setServo.wr.frame.ite h

theorem State.keeps.countHoldover (h : s.keeps t) : s.keeps t.countHoldover := h.frame.ite h

/-! ### Packet -/

theorem State.keeps.ptpCorrect {l : List Byte} {ing eg tin teg : Nat} (h : s.keeps t) :
    s.keeps (t.ptpCorrect l ing eg tin teg).1 := by
  unfold State.ptpCorrect
  split
  · exact h
  · exact h.iteFst (h.bump.iteFst (h.bump.bump.ite h.bump))

/-! ### Memory -/

theorem State.keeps.memPut {a : Nat} {l : List Byte} (h : s.keeps t) : s.keeps (t.memPut a l) :=
  h.trans (State.keeps_memPut ..)

theorem State.keeps.memWrite {a n v : Nat} (h : s.keeps t) : s.keeps (t.memWrite a n v) :=
  h.trans (State.keeps_memWrite ..)

theorem State.keeps.memClear {a n : Nat} (h : s.keeps t) : s.keeps (t.memClear a n) :=
  h.trans (State.keeps_memClear ..)

theorem State.keeps.setEcc {a : Nat} {e : EccMark} (h : s.keeps t) : s.keeps (t.setEcc a e) :=
  h.trans (State.keeps_setEcc ..)

theorem State.keeps.sramUncorr {n : Nat} (h : s.keeps t) : s.keeps (t.sramUncorr n) :=
  h.trans (State.keeps_sramUncorr ..)

theorem State.keeps.sramCorr {n : Nat} (h : s.keeps t) : s.keeps (t.sramCorr n) := h.trans (State.keeps_sramCorr ..)

theorem State.keeps.setPtEcc {i : Nat} {e : EccMark} (h : s.keeps t) : s.keeps (t.setPtEcc i e) := h.frame

theorem State.keeps.ptCheck {i : Nat} (h : s.keeps t) : s.keeps (t.ptCheck i).1 := by
  unfold State.ptCheck
  split
  · exact h
  · exact h.sramCorr
  · exact h.sramUncorr

theorem State.keeps.sramCheck {a : List Nat} (h : s.keeps t) : s.keeps (t.sramCheck a).1 :=
  h.trans (State.keeps_sramCheck ..)

theorem State.keeps.sramRead {a n : Nat} (h : s.keeps t) : s.keeps (t.sramRead a n).1 :=
  h.trans (State.keeps_sramRead ..)

theorem State.keeps.sramWrite {who : Initiator} {a n v : Nat} (h : s.keeps t) : s.keeps (t.sramWrite who a n v) :=
  h.trans (State.keeps_sramWrite ..)

theorem State.keeps.setPage {p : Nat} {a : PageAttr} (h : s.keeps t) : s.keeps (t.setPage p a) := h.memFrame

theorem State.keeps.zeroPage {n : Nat} (h : s.keeps t) : s.keeps (t.zeroPage n) := h.memClear.memFrame

theorem State.keeps.usedUp {p : Pool} (h : s.keeps t) : s.keeps (t.usedUp p) := h.wr

theorem State.keeps.usedDown {p : Pool} (h : s.keeps t) : s.keeps (t.usedDown p) := h.wr

theorem State.keeps.takePage {p : Pool} (h : s.keeps t) : s.keepsSome Prod.snd (t.takePage p) := by
  refine .ite ?_ .none
  split
  · exact .none
  · exact .some h.frame.zeroPage.setPage.wr.usedUp

theorem State.keeps.allocFail {p : Pool} (h : s.keeps t) : s.keeps (t.allocFail p) := h.bump.raise

theorem State.keeps.freePage {p : Pool} {n : Nat} (h : s.keeps t) : s.keeps (t.freePage p n) := h.setPage.wr.usedDown

theorem State.keeps.popPage (h : s.keeps t) : s.keeps (t.popPage).2 := by
  unfold State.popPage
  split
  · exact h.takePage.ofSnd ‹_›
  · exact h.allocFail (p := .gen)

theorem State.keeps.takeCell {n : Nat} (h : s.keeps t) : s.keeps (t.takeCell n).2 := h.setPage

theorem State.keeps.popCell (h : s.keeps t) : s.keeps (t.popCell).2 := by
  unfold State.popCell
  split
  · exact h.takeCell
  · split
    · exact (h.takePage.ofSnd ‹_›).takeCell
    · exact h.allocFail (p := .cell)

theorem State.keeps.genFree {n : Nat} (h : s.keeps t) : s.keeps (t.genFree n).1 := h.freePage.iteFst h

theorem State.keeps.cellFree {c : Nat} (h : s.keeps t) : s.keeps (t.cellFree c).1 :=
  (h.freePage.iteFst h.setPage).iteFst h

theorem State.keeps.setRun {f : PageAttr → PageAttr} {base n : Nat} (h : s.keeps t) : s.keeps (t.setRun f base n) := by
  induction n generalizing t base with
  | zero => exact h
  | succ n ih => exact ih h.setPage

theorem State.keeps.carveCreate {n pages : Nat} (h : s.keeps t) : s.keeps (t.carveCreate n pages).1 :=
  h.setRun.wr.wr.iteFst h

theorem State.keeps.carveRelease {n : Nat} (h : s.keeps t) : s.keeps (t.carveRelease n) := h.setRun.wr.wr

theorem State.keeps.carveAttr {n : Nat} (h : s.keeps t) : s.keeps (t.carveAttr n) := h.setRun

theorem State.keeps.cadCorr {a : Nat} (h : s.keeps t) : s.keeps (t.cadCorr a) := h.bump.raise.statusCount.setEcc

theorem State.keeps.cadUncorr {a : Nat} (h : s.keeps t) : s.keeps (t.cadUncorr a) :=
  h.bump.raise.statusCount.setPage.alarm

theorem State.keeps.poisonSlots {n : Nat} (h : s.keeps t) : s.keeps (t.poisonSlots n) := h.frame

theorem State.keeps.cadCheck {w : Nat} (h : s.keeps t) : s.keeps (t.cadCheck w).1 := by
  unfold State.cadCheck
  split
  · exact h
  · exact h.cadCorr
  · exact h.poisonSlots.raise.alarm.iteFst h.cadUncorr

theorem State.keeps.rawRead {a n : Nat} (h : s.keeps t) : s.keeps (t.rawRead a n).1 := by
  unfold State.rawRead
  split <;> exact h.cadCheck.ofFst ‹_›

theorem State.keeps.rawWrite {a n v : Nat} (h : s.keeps t) : s.keeps (t.rawWrite a n v) :=
  h.memWrite.setEcc.ite h.cadCheck.memWrite

theorem State.keeps.eccWriteback {a : Nat} {collide : Bool} (h : s.keeps t) : s.keeps (t.eccWriteback a collide) :=
  ((h.memFrame.setPtEcc.ite h.memFrame).ite ((h.memFrame.bump.ite h.memFrame).setEcc.ite h.memFrame)).ite h

theorem State.keeps.btStart (h : s.keeps t) : s.keeps t.btStart := h.memFrame.wr.ite h

theorem State.keeps.btFailed {r : Nat} (h : s.keeps t) : s.keeps (t.btFailed r) :=
  have k := h.bump.wr.raise
  k.wr.wr.ite (k.wr.wr.ite k.raise.alarm)

theorem State.keeps.btRestore {fail : Bool} (h : s.keeps t) : s.keeps (t.btRestore fail) := by
  unfold State.btRestore
  split
  · exact h
  · extract_lets _ u v
    have k : s.keeps u := h.memFrame
    have kv : s.keeps v := k.btFailed.ite k
    split
    exact kv.wr.bump.ite kv.wr

theorem State.keeps.fillPage {n : Nat} (h : s.keeps t) : s.keeps (t.fillPage n) := h.zeroPage.setPage.ite h

theorem State.keeps.zeroFill {n : Nat} (h : s.keeps t) : s.keeps (t.zeroFill n) :=
  (h.fillPage.memFrame.ite h.fillPage).ite h

theorem State.keeps.scrub {a : Nat} {k : Upset} (h : s.keeps t) : s.keeps (t.scrub a k) := by
  refine (State.keeps.cadCheck ?_).memFrame.ite h
  split
  · exact h
  · exact h.setEcc
  · exact h.setEcc

/-! ### Post -/

theorem State.keeps.post {prod : Producer} {node input : Nat} (h : s.keeps t) : s.keeps (t.post prod node input) :=
  h.frame

theorem State.keeps.postAll {prod : Producer} {l : List SourceEntry} (h : s.keeps t) : s.keeps (t.postAll prod l) := by
  induction l generalizing t with
  | nil => exact h
  | cons e l ih => exact ih h.post

theorem State.keeps.postSources {prod : Producer} {kind sub id : Nat} (h : s.keeps t) :
    s.keeps (t.postSources prod kind sub id) := h.postAll

theorem State.keeps.postHolds {pts : List Nat} (h : s.keeps t) : s.keeps (t.postHolds pts) := h.postAll

/-! ### Sem -/

theorem State.keeps.semClear {n : Nat} (h : s.keeps t) : s.keeps (t.semClear n) := h.wr.wr

theorem State.keeps.semPop {who : Initiator} {n : Nat} (h : s.keeps t) : s.keepsSome Prod.fst (t.semPop who n) :=
  .ite .none (.ite (.some h) (.some h.wr.wr))

theorem State.keeps.semRelease {who : Initiator} {n : Nat} (h : s.keeps t) : s.keepsSome id (t.semRelease who n) :=
  .ite (.some h.semClear) .none

theorem State.keeps.semFree {owner : Nat} (h : s.keeps t) : s.keeps (t.semFree owner) :=
  h.foldl fun _ _ g => g.semClear.event.ite g

/-! ### Points -/

theorem State.keeps.setAttr {i v : Nat} (h : s.keeps t) : s.keeps (t.setAttr i v) := h.frame

theorem State.keeps.setMiss {i n : Nat} (h : s.keeps t) : s.keeps (t.setMiss i n) := h.frame

theorem State.keeps.markUpd {i : Nat} (h : s.keeps t) : s.keeps (t.markUpd i) := h.frame

theorem State.keeps.markWsrc {i : Nat} (h : s.keeps t) : s.keeps (t.markWsrc i) := h.frame

theorem State.keeps.storePt {i : Nat} {p : Half} {detected : Nat} (h : s.keeps t) :
    s.keeps (t.storePt i p detected) := (h.statusCount.ite h).setStored

theorem State.keeps.acceptPt {w : Writer} {i : Nat} {p : Half} {detected : Nat} (h : s.keeps t) :
    s.keeps (t.acceptPt w i p detected) :=
  (h.ite ((h.storePt.ite h).ite (have k := h.storePt.setMiss.markUpd
k.ite k.markWsrc))).ite h.storePt.setMiss.markUpd

theorem State.keeps.rejectPt (h : s.keeps t) : s.keeps t.rejectPt := h.statusCount

theorem State.keeps.writeLocal {w : Writer} {i : Nat} {p : Half} {detected : Nat} (h : s.keeps t) :
    s.keeps (t.writeLocal w i p detected).1 := h.acceptPt.iteFst h.rejectPt

theorem State.keeps.setLive {slot : Nat} {e : Pte} (h : s.keeps t) : s.keeps (t.setLive slot e) := h.frame

theorem State.keeps.initSlot {slot ppn : Nat} (h : s.keeps t) : s.keeps (t.initSlot slot ppn) :=
  h.foldl fun _ _ g => g.memWrite

theorem State.keeps.backSlot {slot : Nat} (h : s.keeps t) : s.keepsSome id (t.backSlot slot) := by
  unfold State.backSlot
  split
  · exact .none
  · exact .some (h.takePage.ofSnd ‹_›).initSlot.setLive

theorem State.keeps.backFail {a : Nat} (h : s.keeps t) : s.keeps (t.backFail a) := h.allocFail.statusCount.alarm

theorem State.keeps.copyPage {src dst : Nat} (h : s.keeps t) : s.keeps (t.copyPage src dst) :=
  h.memPut.foldl fun _ _ g => g.setEcc

theorem State.keeps.imgCheck {e : Pte} {a : Nat} (h : s.keeps t) : s.keeps (t.imgCheck e a) := h.cadCheck.ite h

theorem State.keeps.localCheck {i n : Nat} (h : s.keeps t) : s.keeps (t.localCheck i n).1 := by
  induction n generalizing t i with
  | zero => exact h
  | succ n ih =>
    unfold State.localCheck
    split
    · exact ih (h.ptCheck.ofFst ‹_›)
    · exact h.ptCheck.ofFst ‹_›

theorem State.keeps.liveCheck {a n : Nat} (h : s.keeps t) : s.keeps (t.liveCheck a n).1 :=
  h.iteFst (h.localCheck.iteFst h.imgCheck)

theorem State.keeps.snapCheck {a : Nat} (h : s.keeps t) : s.keeps (t.snapCheck a) := h.imgCheck.ite h

theorem State.keeps.dropSnap (h : s.keeps t) : s.keeps t.dropSnap := (h.foldl fun _ _ g => g.freePage.ite g).frame

theorem State.keeps.abortSnap (h : s.keeps t) : s.keeps t.abortSnap := h.allocFail.dropSnap.wr.wr.raise.alarm

theorem State.keeps.copyOnWrite {slot : Nat} (h : s.keeps t) : s.keeps (t.copyOnWrite slot) := by
  refine State.keeps.ite ?_ h
  split
  · exact h.abortSnap
  · exact (h.takePage.ofSnd ‹_›).copyPage.setPage.setPage.setLive

theorem State.keeps.unpoison {slot : Nat} (h : s.keeps t) : s.keeps (t.unpoison slot) :=
  (h.foldl fun _ _ g => g.setEcc).initSlot.setLive.ite h

theorem State.keeps.storeLive {a : Nat} {p : Half} {detected : Nat} (h : s.keeps t) :
    s.keeps (t.storeLive a p detected) :=
  have k := h.copyOnWrite.imgCheck.unpoison
  (k.statusCount.ite k).memWrite

theorem State.keeps.markLive {a : Nat} (h : s.keeps t) : s.keeps (t.markLive a) := h.frame

theorem State.keeps.writeLive {w : Writer} {a : Nat} {p : Half} {detected : Nat} (h : s.keeps t) :
    s.keeps (t.writeLive w a p detected).1 := by
  refine h.iteFst (State.keeps.iteFst ?_ (h.iteFst (h.rejectPt.iteFst (h.storeLive.markLive.iteFst ?_))))
  · split <;> exact h.writeLocal.ofFst ‹_›
  · split
    · exact (h.backSlot.ofId ‹_›).storeLive.markLive
    · exact h.backFail

theorem State.keeps.snapRequest (h : s.keeps t) : s.keeps (t.snapRequest).1 := h.iteFst (h.iteFst h.frame)

theorem State.keeps.snapRelease {ack : Nat} (h : s.keeps t) : s.keeps (t.snapRelease ack) :=
  h.dropSnap.wr.wr.wr.wr.frame.ite h

theorem State.keeps.imgCtrlWrite {rel req : Bool} {ack : Nat} (h : s.keeps t) :
    s.keeps (t.imgCtrlWrite rel req ack).1 :=
  have k := h.snapRelease.ite h
  (k.iteFst (k.iteFst k.snapRequest)).iteFst k

theorem State.keeps.takeSnapPages {n : Nat} (h : s.keeps t) : s.keepsSome Prod.snd (t.takeSnapPages n) := by
  induction n generalizing t with
  | zero => exact .some h
  | succ n ih =>
    unfold State.takeSnapPages
    split
    · exact .none
    · split
      · exact .none
      · exact .some ((ih (h.takePage.ofSnd ‹_›)).ofSnd ‹_›)

theorem State.keeps.putOwn {slot : Nat} {l : List Nat} (h : s.keeps t) : s.keeps (t.putOwn slot l) := by
  induction l generalizing t slot with
  | nil => exact h
  | cons p l ih =>
    unfold State.putOwn
    exact ih (h.foldl fun _ _ g => g.memWrite).frame

theorem State.keeps.snapFreeze {c : Nat} (h : s.keeps t) : s.keeps (t.snapFreeze c) := by
  refine State.keeps.ite ?_ h
  dsimp only
  split
  · exact h.frame.wr.wr.wr.frame.abortSnap
  · exact (h.frame.wr.wr.wr.frame.takeSnapPages.ofSnd ‹_›).putOwn.wr.wr

theorem State.keeps.holdCount {k : Nat} {p n : Half} (h : s.keeps t) : s.keeps (t.holdCount k p n) :=
  h.ite h.statusCount

theorem State.keeps.holdLocal {i q : Nat} {v : Option Nat} (h : s.keeps t) : s.keeps (t.holdLocal i q v) :=
  h.setStored.holdCount

theorem State.keeps.holdEnd {i : Nat} (h : s.keeps t) : s.keeps (t.holdEnd i) := h.holdLocal.ite h.holdLocal

theorem State.keeps.hostSubst {i : Nat} (h : s.keeps t) : s.keeps (t.hostSubst i) := h.holdLocal.holdCount

theorem State.keeps.holdStep {i : Nat} (h : s.keeps t) : s.keeps (t.holdStep i) :=
  h.ite (h.setMiss.ite ((have k := h.setMiss.holdLocal.ite h.setMiss
k.hostSubst.ite k).ite (h.ite (h.setMiss.holdEnd.ite h.setMiss))))

theorem State.keeps.liveStep {a : Nat} (h : s.keeps t) : s.keeps (t.liveStep a) :=
  h.ite (h.ite ((h.frame.imgCheck.ite h.frame.imgCheck.copyOnWrite.memWrite.holdCount).ite h.frame))

theorem State.keeps.holdPoints {loc img : List Nat} (h : s.keeps t) : s.keeps (t.holdPoints loc img) :=
  ((h.foldl fun _ _ g => g.holdStep).foldl fun _ _ g => g.liveStep).postHolds

theorem State.keeps.holdAll (h : s.keeps t) : s.keeps t.holdAll := h.holdPoints.frame

theorem State.keeps.holdOne {i : Nat} (h : s.keeps t) : s.keeps (t.holdOne i) := h.holdPoints

theorem State.keeps.liveOne {a : Nat} (h : s.keeps t) : s.keeps (t.liveOne a) := h.holdPoints

theorem State.keeps.declareHostLoss (h : s.keeps t) : s.keeps t.declareHostLoss := h.wr.statusCount.semFree.ite h

theorem State.keeps.heartbeat (h : s.keeps t) : s.keeps t.heartbeat := h.frame.wr.ite h.frame

theorem State.keeps.beatCycle (h : s.keeps t) : s.keeps t.beatCycle :=
  h.frame.ite (h.frame.declareHostLoss.ite h.frame)

theorem State.keeps.forceWrite {op v i : Nat} (h : s.keeps t) : s.keeps (t.forceWrite op v i) :=
  h.ite (h.statusCount.ite (h.setAttr.ite h.setAttr))

/-! ### Frame -/

theorem State.keeps.fetchKeys {e : Nat} (h : s.keeps t) : s.keeps (t.fetchKeys e) := h.ite h.frame

theorem State.keeps.askKeys {e : Nat} (h : s.keeps t) : s.keeps (t.askKeys e) := h.ite h.fetchKeys

theorem State.keeps.setLink {p : RingPort} {v : Nat} (h : s.keeps t) : s.keeps (t.setLink p v) := h.wr

theorem State.keeps.setPort {p : RingPort} {v : PortState} (h : s.keeps t) : s.keeps (t.setPort p v) := by
  unfold State.setPort
  split <;> exact h.frame

theorem State.keeps.transmit {e : Emission} (h : s.keeps t) : s.keeps (t.transmit e) := h.emit.ite h

theorem State.keeps.forwarding {p out : RingPort} {n : Nat} (h : s.keeps t) : s.keeps (t.forwarding p out n) :=
  h.setPort

theorem State.keeps.forward {p : RingPort} {l : List Byte} (h : s.keeps t) : s.keeps (t.forward p l) :=
  h.ite h.transmit.forwarding

theorem State.keeps.cutCopies {p out : RingPort} (h : s.keeps t) : s.keeps (t.cutCopies p out) :=
  h.setPort.foldl fun _ _ g => g.emit

theorem State.keeps.cutPort {p : RingPort} (h : s.keeps t) : s.keeps (t.cutPort p) := h.cutCopies.cutCopies.cutCopies

theorem State.keeps.elapse {n : Nat} (h : s.keeps t) : s.keeps (t.elapse n) := h.setPort.setPort

theorem State.keeps.passOn {p : RingPort} {l : List Byte} (h : s.keeps t) : s.keeps (t.passOn p l) :=
  h.ite (h.transmit.forwarding.ite (h.ite h.transmit.forwarding))

theorem State.keeps.sendBoth {f : Nat → List Byte} (h : s.keeps t) : s.keeps (t.sendBoth f) :=
  have k := h.transmit.ite h
  k.transmit.ite k

theorem State.keeps.statusNew {i v : Nat} (h : s.keeps t) : s.keeps (t.statusNew i v) := h.ite h.statusSet

theorem State.keeps.syncRing (h : s.keeps t) : s.keeps t.syncRing := h.statusNew.statusNew.statusNew.statusNew

/-! ### HostPort -/

theorem State.keeps.hostError {who : Initiator} {write : Bool} (h : s.keeps t) :
    s.keeps (t.hostError who write) := by
  unfold State.hostError
  split
  · exact h.bump.ite h
  · exact h.bump.raise.frame.ite h.bump.raise
  · exact h.bump.raise.frame
  · exact h

theorem State.keeps.accessError {who : Initiator} {dflt : Nat} {write : Bool} {size cause addr : Nat}
    (h : s.keeps t) :
    s.keeps (t.accessError who dflt write size cause addr) := h.capture.hostError

theorem State.keeps.hostAnswer {r : HostRead} (h : s.keeps t) : s.keeps (t.hostAnswer r) := by
  unfold State.hostAnswer
  split
  · exact h.bump.emit.ite (h.foldl fun _ _ g => g.emit)
  · exact h.emit
  · exact h.frame.emit
  · exact h

theorem State.keeps.hostFlush (h : s.keeps t) : s.keeps t.hostFlush := h.frame.foldl fun _ _ g => g.hostAnswer

theorem State.keeps.dropReads {who : Initiator} (h : s.keeps t) : s.keeps (t.dropReads who) := h.frame

theorem State.keeps.dropWaits {p : HostReq → Bool} (h : s.keeps t) : s.keeps (t.dropWaits p) := h.frame

theorem State.keeps.linkUp {up : Bool} (h : s.keeps t) : s.keeps (t.linkUp up) := h.ite h.wr.raise

theorem State.keeps.linkLost (h : s.keeps t) : s.keeps t.linkLost :=
  have k := h.linkUp.dropReads.dropWaits
  k.frame.declareHostLoss.ite k.frame

theorem State.keeps.hostFill {n : Nat} {data : Option Nat} (h : s.keeps t) : s.keeps (t.hostFill n data) :=
  h.frame.hostFlush

/-! ### RingLink -/

theorem State.keeps.putVacant {l : List Nat} (h : s.keeps t) : s.keeps (t.putVacant l) :=
  h.frame.foldl fun _ _ g => g.semFree

theorem State.keeps.vacate {us : List Nat} (h : s.keeps t) : s.keeps (t.vacate us) := h.frame.putVacant

theorem State.keeps.queueMsg {m : DynMsg} (h : s.keeps t) : s.keeps (t.queueMsg m) := h.frame

theorem State.keeps.announce {a : Announce} (h : s.keeps t) : s.keeps (t.announce a) := h.frame

theorem State.keeps.faultReport {n : Nat} {east : Bool} (h : s.keeps t) : s.keeps (t.faultReport n east) :=
  h.frame.frame.ite (h.frame.announce.ite h.frame.announce)

theorem State.keeps.secondFault (h : s.keeps t) : s.keeps t.secondFault := h.wr.ite h

theorem State.keeps.hearReport {n code : Nat} (h : s.keeps t) : s.keeps (t.hearReport n code) := by
  unfold State.hearReport
  dsimp only
  split
  · exact h.frame
  · exact h.frame.faultReport.secondFault
  · exact h.frame.faultReport.secondFault
  · exact h.frame
  · exact h.announce.ite h

theorem State.keeps.report {code peer : Nat} (h : s.keeps t) : s.keeps (t.report code peer) :=
  h.ite h.queueMsg.hearReport

theorem State.keeps.portDown {p : RingPort} (h : s.keeps t) : s.keeps (t.portDown p) :=
  have k := h.cutPort.setLink.setPort
  (k.report.ite k).syncRing

theorem State.keeps.portFail {p : RingPort} (h : s.keeps t) : s.keeps (t.portFail p) :=
  h.bump.statusCount.portDown.ite h

theorem State.keeps.signalDetect {p : RingPort} (h : s.keeps t) : s.keeps (t.signalDetect p) :=
  h.setLink.wr.setPort.ite h

theorem State.keeps.sendHello {p : RingPort} (h : s.keeps t) : s.keeps (t.sendHello p) := h.transmit

theorem State.keeps.linkLock {p : RingPort} (h : s.keeps t) : s.keeps (t.linkLock p) :=
  h.setLink.wr.sendHello.syncRing.ite h

theorem State.keeps.attemptTimeout {p : RingPort} (h : s.keeps t) : s.keeps (t.attemptTimeout p) :=
  (h.setPort.ite h.setLink).ite h

theorem State.keeps.unpark {p : RingPort} (h : s.keeps t) : s.keeps (t.unpark p) := h.setLink.ite h

theorem State.keeps.parkedStep {p : RingPort} (h : s.keeps t) : s.keeps (t.parkedStep p) := by
  refine h.ite ?_
  split
  · exact h.setPort.report
  · exact h.setPort.alarm
  · exact h.setPort.alarm.report
  · exact h.setPort.sendHello.unpark
  · exact h.setPort

theorem State.keeps.helloDone {p : RingPort} {k : Hello} (h : s.keeps t) : s.keeps (t.helloDone p k) :=
  h.setPort.unpark.parkedStep.syncRing.ite (h.ite (h.wr.setLink.alarm.ite h.wr.setPort.wr.setLink))

theorem State.keeps.probesDone {p : RingPort} (h : s.keeps t) : s.keeps (t.probesDone p) :=
  (h.setLink.ite h.setLink.parkedStep).ite h

theorem State.keeps.badFrame {p : RingPort} {l : List Byte} (h : s.keeps t) : s.keeps (t.badFrame p l) :=
  h.setPort.elapse.portFail.ite h.setPort

theorem State.keeps.cutIfDown {p : RingPort} {l : List Byte} (h : s.keeps t) : s.keeps (t.cutIfDown p l) :=
  h.ite h.elapse.cutPort

theorem State.keeps.probeSend {p : RingPort} {t1 : Nat} (h : s.keeps t) : s.keeps (t.probeSend p t1) :=
  (have k := h.transmit.setPort
k.wr.ite k).ite h

theorem State.keeps.probeAnswer {p : RingPort} {l : List Byte} {t2 t3 : Nat} (h : s.keeps t) :
    s.keeps (t.probeAnswer p l t2 t3) := h.ite (h.badFrame.ite h.setPort.transmit.parkedStep)

theorem State.keeps.setEstimate {p : RingPort} {e : Nat} (h : s.keeps t) : s.keeps (t.setEstimate p e) :=
  h.wr.wr.setPort

theorem State.keeps.beginListen {was : Bool} (h : s.keeps t) : s.keeps (t.beginListen was) := h.wr.frame.ite h

theorem State.keeps.firstProbes {p : RingPort} {m : Nat} (h : s.keeps t) : s.keeps (t.firstProbes p m) := by
  unfold State.firstProbes
  split
  · exact h.wr.setPort
  · exact h.wr.wr.setEstimate.probesDone.parkedStep.beginListen.syncRing

theorem State.keeps.laterProbe {p : RingPort} {m : Nat} (h : s.keeps t) : s.keeps (t.laterProbe p m) :=
  (h.wr.wr.wr.setPort.syncRing.ite h.wr).ite h.setEstimate.wr.wr

theorem State.keeps.probeBack {p : RingPort} {l : List Byte} {t4 : Nat} (h : s.keeps t) :
    s.keeps (t.probeBack p l t4) := by
  refine h.ite (h.badFrame.ite ?_)
  split
  · exact h
  · exact (h.setPort.firstProbes.ite h.setPort.laterProbe).ite h

theorem State.keeps.unknownLimit {p : RingPort} (h : s.keeps t) : s.keeps (t.unknownLimit p) :=
  h.setPort.portFail.ite h

theorem State.keeps.requestDetach (h : s.keeps t) : s.keeps t.requestDetach := h.ite h.wr.report

theorem State.keeps.lnkCtrl {v : Word} (h : s.keeps t) : s.keeps (t.lnkCtrl v) :=
  have k := h.wr.wr.wr.wr.portDown.ite h.wr.wr.wr.wr
  have k1 := k.portDown.ite k
  k1.requestDetach.ite k1

theorem State.keeps.coldSend (h : s.keeps t) : s.keeps t.coldSend := h.frame.sendBoth

theorem State.keeps.listenEnd (h : s.keeps t) : s.keeps t.listenEnd := h.wr.coldSend.ite h

theorem State.keeps.orderFallback (h : s.keeps t) : s.keeps t.orderFallback :=
  h.ite (have k := h.frame.transmit.ite h.frame
(k.transmit.ite k).portDown.portDown)

theorem State.keeps.becomeMaster (h : s.keeps t) : s.keeps t.becomeMaster :=
  have k := h.wr.frame.becomeTimeMaster
  (k.orderFallback.ite k).syncRing

theorem State.keeps.coldBack {l : List Byte} (h : s.keeps t) : s.keeps (t.coldBack l) :=
  (h.frame.becomeMaster.ite h.frame).ite h

theorem State.keeps.coldArrive {p : RingPort} {l : List Byte} (h : s.keeps t) : s.keeps (t.coldArrive p l) :=
  h.badFrame.ite (h.ite (h.coldBack.ite ((h.frame.ite h).passOn.ite ((h.frame.ite h).wr.passOn.ite (h.frame.ite h)))))

theorem State.keeps.coldRestart (h : s.keeps t) : s.keeps t.coldRestart :=
  have k := h.endTimeMaster.frame
  ((k.wr.wr.wr.wr.wr.wr.wr.sendHello.unpark.ite k.wr.wr.wr.wr.wr.wr.wr).sendHello.unpark.ite
      (k.wr.wr.wr.wr.wr.wr.wr.sendHello.unpark.ite k.wr.wr.wr.wr.wr.wr.wr)).syncRing

theorem State.keeps.coldCtrl {v : Word} (h : s.keeps t) : s.keeps (t.coldCtrl v) :=
  h.wr.wr.wr.wr.coldRestart.ite h.wr.wr.wr.wr

theorem State.keeps.takeAddr {a : Nat} {sticky : Bool} (h : s.keeps t) : s.keeps (t.takeAddr a sticky) := h.frame

theorem State.keeps.lostSticky (h : s.keeps t) : s.keeps t.lostSticky := by
  unfold State.lostSticky
  split
  · exact h
  · exact h.frame.alarm

theorem State.keeps.enumClaim {d : EnumData} (h : s.keeps t) : s.keeps (t.enumClaim d).1 :=
  (h.takeAddr.wr.wr.frame.iteFst h.takeAddr.wr.takeAddr).iteFst h.takeAddr.wr

theorem State.keeps.enumAssign {d : EnumData} (h : s.keeps t) : s.keeps (t.enumAssign d).1 :=
  h.takeAddr.lostSticky.iteFst h.lostSticky

theorem State.keeps.enumRecord {d : EnumData} (h : s.keeps t) : s.keeps (t.enumRecord d).1 :=
  (h.wr.wr.wr.wr.ite h.wr.wr.wr).frame.putVacant

theorem State.keeps.enumJoin {d : EnumData} (h : s.keeps t) : s.keeps (t.enumJoin d).1 :=
  h.takeAddr.enumRecord.iteFst h.enumRecord

theorem State.keeps.enumVisit {d : EnumData} (h : s.keeps t) : s.keeps (t.enumVisit d).1 := by
  refine State.keeps.syncRing ?_
  split
  · exact h.enumClaim
  · exact h.enumAssign
  · exact h.enumRecord
  · exact h.enumJoin
  · exact h

theorem State.keeps.enumSend {n : Nat} {claim vacant : List Nat} (h : s.keeps t) :
    s.keeps (t.enumSend n claim vacant) :=
  have k := h.enumVisit.frame.putVacant
  k.transmit.ite (k.transmit.ite k)

theorem State.keeps.enumNext (h : s.keeps t) : s.keeps t.enumNext := (h.enumSend.ite (h.enumSend.ite h)).ite h

theorem State.keeps.enumBack {d : EnumData} (h : s.keeps t) : s.keeps (t.enumBack d) :=
  have k := h.frame.putVacant
  k.wr.frame.syncRing.ite (k.frame.ite k.frame)

theorem State.keeps.enumReturned {l : List Byte} (h : s.keeps t) : s.keeps (t.enumReturned l) := h.enumBack.ite h

theorem State.keeps.enumArrive {p : RingPort} {l : List Byte} (h : s.keeps t) : s.keeps (t.enumArrive p l) := by
  unfold State.enumArrive
  extract_lets u m
  have k : s.keeps u := h.ite h.badFrame
  refine (k.passOn.ite (k.enumReturned.ite k)).ite (k.passOn.cutIfDown.ite ?_)
  split
  next e => exact (k.enumVisit.ofFst e).passOn.cutIfDown

theorem State.keeps.enumTimeout (h : s.keeps t) : s.keeps t.enumTimeout := h.event.enumSend.ite h

theorem State.keeps.joinSend (h : s.keeps t) : s.keeps t.joinSend := h.frame.wr.enumSend.ite h

/-! ### Bridge -/

theorem State.keeps.setBridge {l : List BridgeReq} (h : s.keeps t) : s.keeps (t.setBridge l) := h.frame

theorem State.keeps.bridgeSend (h : s.keeps t) : s.keeps t.bridgeSend := h.frame

theorem State.keeps.bridgeOpen {who : Initiator} {n far a size data : Nat} {write stall : Bool} (h : s.keeps t) :
    s.keeps (t.bridgeOpen who n far a size data write stall).1 := h.accessError.iteFst h.frame.bridgeSend

theorem State.keeps.bridgeIssue {who : Initiator} {a size data : Nat} {write stall : Bool} (h : s.keeps t) :
    s.keeps (t.bridgeIssue who a size data write stall).1 := by
  unfold State.bridgeIssue
  split
  · exact h.accessError
  · exact h.bridgeOpen

theorem State.keeps.storeFailed {c a : Nat} (h : s.keeps t) : s.keeps (t.storeFailed c a) := h.ite h.frame

theorem State.keeps.farStoreFailed {r : BridgeReq} (h : s.keeps t) : s.keeps (t.farStoreFailed r) := by
  unfold State.farStoreFailed
  split
  · exact h.ite h.storeFailed
  · exact h

theorem State.keeps.bridgeDeliver {r : BridgeReq} {data : Option Nat} (h : s.keeps t) :
    s.keeps (t.bridgeDeliver r data) := h.frame.frame.ite ((h.frame.farStoreFailed.ite h.frame).ite h.frame.hostFill)

theorem State.keeps.unqueueReq {r : BridgeReq} (h : s.keeps t) : s.keeps (t.unqueueReq r) := h.frame

theorem State.keeps.bridgeEnd {r : BridgeReq} {data : Option Nat} (h : s.keeps t) : s.keeps (t.bridgeEnd r data) :=
  h.unqueueReq.setBridge.bridgeDeliver.bridgeSend

theorem State.keeps.bridgeFail {r : BridgeReq} {cause : Nat} (h : s.keeps t) : s.keeps (t.bridgeFail r cause) :=
  h.accessError.bridgeEnd

theorem State.keeps.bridgeErrors {f : Fld} (h : s.keeps t) : s.keeps (t.bridgeErrors f) := h.bump.statusCount

theorem State.keeps.updReq {tag : Nat} {f : BridgeReq → BridgeReq} (h : s.keeps t) : s.keeps (t.updReq tag f) :=
  h.setBridge

theorem State.keeps.bridgeRetry {r : BridgeReq} (h : s.keeps t) : s.keeps (t.bridgeRetry r) :=
  h.bump.bridgeErrors.bridgeFail.ite (h.bump.updReq.ite h.bump.unqueueReq.updReq.bridgeSend)

theorem State.keeps.bridgeCpl {src : Nat} {body : List Byte} (h : s.keeps t) : s.keeps (t.bridgeCpl src body) := by
  unfold State.bridgeCpl
  split
  · exact h
  · refine h.ite ?_
    split
    · exact h.bridgeEnd
    · exact h.bridgeErrors.bridgeFail
    · exact h.bridgeRetry

theorem State.keeps.withdraw {r : BridgeReq} (h : s.keeps t) : s.keeps (t.withdraw r) := h.bump.unqueueReq.updReq

theorem State.keeps.bridgeTimeout {tag : Nat} (h : s.keeps t) : s.keeps (t.bridgeTimeout tag) := by
  unfold State.bridgeTimeout
  split
  · exact h
  · exact h.bridgeErrors.bridgeFail.ite h.updReq

theorem State.keeps.bridgeReissue {tag : Nat} (h : s.keeps t) : s.keeps (t.bridgeReissue tag) := by
  unfold State.bridgeReissue
  split
  · exact h
  · exact h.updReq.bridgeSend.ite h

theorem State.keeps.takeDone {who : Initiator} {a : Nat} {write : Bool} (h : s.keeps t) :
    s.keepsSome Prod.snd (t.takeDone who a write) := by
  unfold State.takeDone
  split
  · exact .none
  · exact .some h.frame

theorem State.keeps.remoteWait {who : Initiator} {a size data : Nat} {write : Bool} (h : s.keeps t) :
    s.keeps (t.remoteWait who a size data write).1 := by
  unfold State.remoteWait
  split
  · exact h.takeDone.ofSnd ‹_›
  · exact h.iteFst h.bridgeIssue

theorem State.keeps.farWrite {n a : Nat} {v : Word} (h : s.keeps t) : s.keeps (t.farWrite n a v) := h.bridgeOpen

/-! ### Interrupts -/

theorem State.keeps.icPop {c : Nat} {urgent : Bool} (h : s.keeps t) : s.keeps (t.icPop c urgent).s := by
  unfold State.icPop
  split
  · exact h.setSrc
  · exact h

theorem State.keeps.complete {key : Nat} (h : s.keeps t) : s.keeps (t.complete key) := h.setSrc

theorem State.keeps.icEoi {c n : Nat} (h : s.keeps t) : s.keeps (t.icEoi c n) := h.complete.ite h

theorem State.keeps.icSeoi {n : Nat} (h : s.keeps t) : s.keeps (t.icSeoi n) := h.complete.ite h

theorem State.keeps.trigger {key : Nat} {clr : Bool} (h : s.keeps t) : s.keeps (t.trigger key clr) :=
  h.ite (h.setSrc.ite h.setSrc)

theorem State.keeps.icPtrig {c n : Nat} {clr : Bool} (h : s.keeps t) : s.keeps (t.icPtrig c n clr) := h.trigger

theorem State.keeps.icStrig {n : Nat} {clr : Bool} (h : s.keeps t) : s.keeps (t.icStrig n clr) := h.trigger.ite h

theorem State.keeps.icRoute {n : Nat} {v : Word} (h : s.keeps t) : s.keeps (t.icRoute n v).s := h.wr.wr.wr.wr.iteRes h

theorem State.keeps.syncDoorbells {c : Nat} (h : s.keeps t) : s.keeps (t.syncDoorbells c) :=
  h.foldl fun _ _ g => g.syncSource

theorem State.keeps.dbSet {c : Nat} {hi : Bool} {v : Nat} (h : s.keeps t) : s.keeps (t.dbSet c hi v) :=
  h.wr.syncDoorbells

theorem State.keeps.dbClear {c : Nat} {hi : Bool} {v : Nat} (h : s.keeps t) : s.keeps (t.dbClear c hi v) :=
  h.wr.syncDoorbells

theorem State.keeps.icCoreReset {c : Nat} (h : s.keeps t) : s.keeps (t.icCoreReset c) :=
  ((h.frame.foldl fun _ _ g => g.complete.ite g).foldl fun _ _ g1 => g1.setReg).frame

theorem State.keeps.setChan {n : Nat} {l : List DWord} (h : s.keeps t) : s.keeps (t.setChan n l) := h.frame.syncSource

theorem State.keeps.setStagedLo {st : Nat} {v : Option Word} (h : s.keeps t) : s.keeps (t.setStagedLo st v) := h.frame

theorem State.keeps.mbxLo {who : Initiator} {v : Word} (h : s.keeps t) : s.keeps (t.mbxLo who v).s :=
  h.bump.iteRes h.setStagedLo

theorem State.keeps.keepCall {n : Nat} (h : s.keeps t) : s.keeps (t.keepCall n) := h.wakeCore.ite h

theorem State.keeps.mbxHi {who : Initiator} {n : Nat} {v : Word} (h : s.keeps t) : s.keeps (t.mbxHi who n v).s :=
  h.setStagedLo.bump.iteRes h.setStagedLo.setChan.keepCall

theorem State.keeps.mbxCommit {stamp n payload : Nat} (h : s.keeps t) : s.keeps (t.mbxCommit stamp n payload) :=
  h.bump.ite h.setChan.keepCall

theorem State.keeps.mbxEmpty {n : Nat} {m : DWord} (h : s.keeps t) : s.keeps (t.mbxEmpty n m) :=
  (h.pulse.ite (h.bump.ite h.frame.pulse)).ite h.pulse

theorem State.keeps.mbxPop {who : Initiator} {n : Nat} (h : s.keeps t) : s.keeps (t.mbxPop who n).s := by
  refine h.iteRes ?_
  split
  · exact h.bump
  · exact h.setChan.mbxEmpty.ite h.setChan

/-! ### Pour -/

theorem State.keeps.setDyn {n : Nat} {d : NodeDyn} (h : s.keeps t) : s.keeps (t.setDyn n d) := h.frame

theorem State.keeps.setNodeState {n : Nat} {st : NodeState} (h : s.keeps t) : s.keeps (t.setNodeState n st) :=
  h.setDyn

theorem State.keeps.setLevel {l : Nat} {es : List ReadyEntry} (h : s.keeps t) : s.keeps (t.setLevel l es) := h.frame

theorem State.keeps.setSlot {k : Nat} {v : Slot} (h : s.keeps t) : s.keeps (t.setSlot k v) := h.frame

theorem State.keeps.fire {n : Nat} (h : s.keeps t) : s.keeps (t.fire n) := h.setDyn.setLevel.ite h.setDyn

theorem State.keeps.evaluate {n : Nat} (h : s.keeps t) : s.keeps (t.evaluate n) := h.fire.ite h

theorem State.keeps.placeDeferred {l : Nat} (h : s.keeps t) : s.keeps (t.placeDeferred l) := by
  refine State.keeps.ite ?_ h
  split
  · exact h.setNodeState.setLevel
  · exact h

theorem State.keeps.acceptPost {p : Post} (h : s.keeps t) : s.keeps (t.acceptPost p) := h.setDyn.evaluate

theorem State.keeps.countRefusal {a : PostRefusal} (h : s.keeps t) : s.keeps (t.countRefusal a) := by
  unfold State.countRefusal
  split
  · exact h
  · exact h.bump.statusCount
  · exact h.bump.statusCount
  · exact h.bump

theorem State.keeps.dropPost (h : s.keeps t) : s.keeps t.dropPost := h.bump.statusCount

theorem State.keeps.refusedPost {p : Post} (h : s.keeps t) : s.keeps (t.refusedPost p) :=
  h.dropPost.ite (h.dropPost.ite (h.dropPost.event.ite h.frame))

theorem State.keeps.applyPost {p : Post} (h : s.keeps t) : s.keeps (t.applyPost p).1 := by
  unfold State.applyPost
  split
  · dsimp only
    split
    · exact h.acceptPost.wr
    · exact h.acceptPost
  · dsimp only
    split
    · exact h.countRefusal.wr
    · exact h.countRefusal
    · exact h.countRefusal.bump.event
    · exact h.countRefusal.refusedPost

theorem State.keeps.applyFirst (h : s.keeps t) : s.keeps t.applyFirst := by
  unfold State.applyFirst
  split
  · exact h
  · exact h.frame.applyPost.ite h

theorem State.keeps.applyUpTo {q : Post} {n : Nat} (h : s.keeps t) : s.keeps (t.applyUpTo q n).1 := by
  induction n generalizing t with
  | zero => exact h
  | succ n ih =>
    unfold State.applyUpTo
    split
    · exact h
    · exact h.frame.applyPost.iteFst (ih h.frame.applyPost)

theorem State.keeps.postAndWait {prod : Producer} {node input : Nat} (h : s.keeps t) :
    s.keeps (t.postAndWait prod node input).1 := h.post.applyUpTo

theorem State.keeps.setInflight {n : Nat} (h : s.keeps t) : s.keeps (t.setInflight n) := h.wr

theorem State.keeps.setCore {c : Nat} {k : CoreState} (h : s.keeps t) : s.keeps (t.setCore c k) := h.frame

theorem State.keeps.setMov {m : Nat} {v : MoverState} (h : s.keeps t) : s.keeps (t.setMov m v) := h.frame

theorem State.keeps.movStop {m : Nat} (h : s.keeps t) : s.keeps (t.movStop m) := h.setMov

theorem State.keeps.place {n k : Nat} (h : s.keeps t) : s.keeps (t.place n k) :=
  (h.wakeCore.ite h).setLevel.setNodeState.setSlot.setInflight.frame

theorem State.keeps.dispatchPort {mover : Bool} (h : s.keeps t) : s.keeps (t.dispatchPort mover).1 := by
  unfold State.dispatchPort
  split
  · exact h
  · exact h.place.iteFst h

theorem State.keeps.dispatch (h : s.keeps t) : s.keeps t.dispatch :=
  h.ite (h.dispatchPort.dispatchPort.bump.ite h.dispatchPort.dispatchPort)

theorem State.keeps.discard {k : Nat} (h : s.keeps t) : s.keeps (t.discard k) :=
  h.setSlot.setNodeState.setLevel.setInflight.bump.statusCount.ite h

theorem State.keeps.discardAll (h : s.keeps t) : s.keeps t.discardAll := h.foldl fun _ _ g => g.discard

theorem State.keeps.takeSlot {k : Nat} (h : s.keeps t) : s.keeps (t.takeSlot k) :=
  h.setSlot.setNodeState.placeDeferred

theorem State.keeps.postSucc {k : Nat} {l : List Nat} (h : s.keeps t) : s.keeps (t.postSucc k l) := by
  induction l generalizing t k with
  | nil => exact h
  | cons e l ih => exact ih h.frame

theorem State.keeps.leaveFlight {n : Nat} (h : s.keeps t) : s.keeps (t.leaveFlight n) := h.frame.setInflight

theorem State.keeps.toIdle {n : Nat} (h : s.keeps t) : s.keeps (t.toIdle n) := h.setNodeState.evaluate

theorem State.keeps.idleNode {n : Nat} (h : s.keeps t) : s.keeps (t.idleNode n) := h.leaveFlight.toIdle

theorem State.keeps.endAfter {n k : Nat} (h : s.keeps t) : s.keeps (t.endAfter n k) :=
  h.leaveFlight.setNodeState.frame

theorem State.keeps.completeNode {n sel : Nat} (h : s.keeps t) : s.keeps (t.completeNode n sel) :=
  h.postSucc.idleNode.ite h.postSucc.endAfter

theorem State.keeps.endingsTick (h : s.keeps t) : s.keeps t.endingsTick := h.frame.foldl fun _ _ g => g.toIdle

theorem State.keeps.abortNode {n : Nat} (h : s.keeps t) : s.keeps (t.abortNode n) := h.bump.statusCount.idleNode

theorem State.keeps.setCtxByte {x b : Nat} {v : Byte} (h : s.keeps t) : s.keeps (t.setCtxByte x b v) := h.frame

theorem State.keeps.setCtxWord {x b v : Nat} (h : s.keeps t) : s.keeps (t.setCtxWord x b v) :=
  h.foldl fun _ _ g => g.setCtxByte

theorem State.keeps.noteTimer {x b v : Nat} (h : s.keeps t) : s.keeps (t.noteTimer x b v) := h.frame.ite h

theorem State.keeps.ctxWinWrite {off v : Nat} (h : s.keeps t) : s.keepsSome id (t.ctxWinWrite off v) :=
  .ite .none (.ite (.some h) (.some h.setCtxWord.noteTimer))

theorem State.keeps.writeBack {x : Nat} {k : CoreState} (h : s.keeps t) : s.keeps (t.writeBack x k) :=
  (h.foldl fun _ _ g => g.setCtxByte.ite g).foldl fun _ _ g1 => g1.noteTimer.ite g1

theorem State.keeps.timerExpire {x n : Nat} (h : s.keeps t) : s.keeps (t.timerExpire x n) :=
  h.post.setCtxWord.ite h.post.setCtxWord.setCtxWord

theorem State.keeps.timerTick {x n : Nat} (h : s.keeps t) : s.keeps (t.timerTick x n) :=
  (h.timerExpire.ite h.setCtxWord).ite h

theorem State.keeps.timersTick (h : s.keeps t) : s.keeps t.timersTick := h.foldl fun _ _ g => g.timerTick.timerTick

theorem State.keeps.boundaryClear (h : s.keeps t) : s.keeps t.boundaryClear :=
  h.foldl fun _ _ g => (g.bump.ite g).setDyn.ite g

theorem State.keeps.setNodeEn {n : Nat} {en : Bool} (h : s.keeps t) : s.keeps (t.setNodeEn n en) := h.frame

theorem State.keeps.nodeEnable {n : Nat} (h : s.keeps t) : s.keeps (t.nodeEnable n) := h.ite h.setNodeEn.evaluate

theorem State.keeps.nodeDisable {n : Nat} (h : s.keeps t) : s.keeps (t.nodeDisable n) := by
  unfold State.nodeDisable
  dsimp only
  split
  · exact h.setNodeEn.discard
  · exact h.setNodeEn

theorem State.keeps.nodeCtrl {setEn clrEn : Bool} {n : Nat} (h : s.keeps t) : s.keeps (t.nodeCtrl setEn clrEn n) :=
  h.ite (h.nodeEnable.ite (h.nodeDisable.ite h))

theorem State.keeps.pourCtrl {hold en : Bool} (h : s.keeps t) : s.keeps (t.pourCtrl hold en) :=
  h.wr.wr.discardAll.ite h.wr.wr

theorem State.keeps.resetNode {n e : Nat} (h : s.keeps t) : s.keeps (t.resetNode n e) := by
  unfold State.resetNode
  extract_lets d u v st
  have k : s.keeps u := h.foldl fun _ _ g => g.setLevel.ite g
  refine State.keeps.setDyn ?_
  unfold v
  split
  · exact k.setSlot.setInflight
  · exact k

theorem State.keeps.activateGraph {sec : List Byte} (h : s.keeps t) : s.keeps (t.activateGraph sec) :=
  ((h.foldl fun _ _ g => g.resetNode).frame.foldl fun _ _ g1 => g1.placeDeferred).foldl fun _ _ g2 => g2.evaluate

theorem State.keeps.activateBindings {sec : List Byte} (h : s.keeps t) : s.keeps (t.activateBindings sec) :=
  h.frame.foldl fun _ _ g => g.ite g.frame.setCtxWord.setCtxWord.setCtxWord

theorem State.keeps.commitSleep {forced deep : Bool} (h : s.keeps t) : s.keeps (t.commitSleep forced deep) :=
  h.frame.wr.discardAll

theorem State.keeps.commitPoint (h : s.keeps t) : s.keeps t.commitPoint := h.commitSleep.ite h

theorem State.keeps.execPostRetry {n : Nat} (h : s.keeps t) : s.keepsNext (execPostRetry n t) := by
  unfold Machine.execPostRetry
  split
  · exact .next h
  · exact h.powered h.frame.bump

theorem State.keeps.stopWaiting {n : Nat} (h : s.keeps t) : s.keeps (t.stopWaiting n) := h.frame

/-! ### CoreCtl -/

theorem State.keeps.setCoreEcc {k : Nat} {e : EccMark} (h : s.keeps t) : s.keeps (t.setCoreEcc k e) := h.memFrame

theorem State.keeps.coreCheck {c : Nat} {l : List Nat} (h : s.keeps t) : s.keeps (t.coreCheck c l).1 := by
  induction l generalizing t with
  | nil => exact h
  | cons k l ih =>
    unfold State.coreCheck
    split
    · exact ih h
    · exact ih h.setCoreEcc.pulse.statusCount
    · exact h.statusCount

theorem State.keeps.coreRead {c off n : Nat} (h : s.keeps t) : s.keeps (t.coreRead c off n).1 := by
  unfold State.coreRead
  split <;> exact h.coreCheck.ofFst ‹_›

theorem State.keeps.coreWrite {c off n v : Nat} (h : s.keeps t) : s.keeps (t.coreWrite c off n v) :=
  h.trans (State.keeps_coreWrite ..)

theorem State.keeps.dropLoads {c : Nat} (h : s.keeps t) : s.keeps (t.dropLoads c) := h.frame

theorem State.keeps.coreStop {c : Nat} (h : s.keeps t) : s.keeps (t.coreStop c) :=
  h.ite (have k := h.setCore.abortNode.ite h.setCore
(k.discard.ite k).wr.semFree.dropLoads)

theorem State.keeps.coreStart {c : Nat} (h : s.keeps t) : s.keeps (t.coreStart c) :=
  h.setCore.icCoreReset.wakeCore.ite h

theorem State.keeps.coreCtrl {who : Initiator} {c : Nat} {run dbg : Bool} (h : s.keeps t) :
    s.keeps (t.coreCtrl who c run dbg).1 := h.iteFst (h.wr.wr.coreStop.ite (h.wr.wr.coreStart.ite h.wr))

theorem State.keeps.coreRamNext {c : Nat} (h : s.keeps t) : s.keeps (t.coreRamNext c) := h.wr.ite h

theorem State.keeps.coreRam {c : Nat} {v : Option Word} (h : s.keeps t) : s.keeps (t.coreRam c v).s := by
  refine State.keeps.iteRes ?_ h
  split
  · exact h.coreWrite.coreRamNext
  · split <;> exact (h.coreRead.ofFst ‹_›).coreRamNext

/-! ### Descriptors -/

theorem State.keeps.activateDescs {l : List Byte} (h : s.keeps t) : s.keeps (t.activateDescs l) := h.frame

/-! ### Pins -/

theorem State.keeps.raiseBits {p bits : Nat} (h : s.keeps t) : s.keeps (t.raiseBits p bits) := h.wr.syncPage

theorem State.keeps.setPeTx {e : Nat} {l : List Nat} (h : s.keeps t) : s.keeps (t.setPeTx e l) := h.frame.wr

theorem State.keeps.setPeRx {e : Nat} {l : List Nat} (h : s.keeps t) : s.keeps (t.setPeRx e l) := h.frame.wr

theorem State.keeps.seePins {g v : Nat} (h : s.keeps t) : s.keeps (t.seePins g v) := h.frame

theorem State.keeps.flagsTick (h : s.keeps t) : s.keeps t.flagsTick := h.frame

theorem State.keeps.keepZero {e : Nat} (h : s.keeps t) : s.keeps (t.keepZero e) := h.ite h.frame

theorem State.keeps.setSticky {e v : Nat} (h : s.keeps t) : s.keeps (t.setSticky e v) := h.frame

theorem State.keeps.steepLine {n : Nat} (h : s.keeps t) : s.keeps (t.steepLine n) := h.foldl fun _ _ g => g.setSticky

theorem State.keeps.steepLines (h : s.keeps t) : s.keeps t.steepLines := h.ite (h.foldl fun _ _ g => g.steepLine)

theorem State.keeps.peCount {e code : Nat} (h : s.keeps t) : s.keeps (t.peCount e code) := by
  unfold State.peCount
  dsimp only
  split
  · exact h.keepZero.wr
  · exact h.keepZero.wr
  · exact h.keepZero.wr
  · exact h

theorem State.keeps.peShift {e code : Nat} {sin : Bool} (h : s.keeps t) : s.keeps (t.peShift e code sin) :=
  h.ite h.wr.wr.wr

theorem State.keeps.pePush {e : Nat} (h : s.keeps t) : s.keeps (t.pePush e) := (h.bump.raise.ite h.setPeRx).wr.wr

theorem State.keeps.pePop {e : Nat} (h : s.keeps t) : s.keeps (t.pePop e) := by
  refine (State.keeps.wr ?_).wr
  split
  · exact h.setPeTx.wr
  · exact h.wr.bump.raise

theorem State.keeps.peFifo {e code : Nat} (h : s.keeps t) : s.keeps (t.peFifo e code) := by
  unfold State.peFifo
  split
  · exact h.pePop
  · exact h.pePush
  · exact h.pePush.pePop
  · exact h

theorem State.keeps.peEvent {e k : Nat} (h : s.keeps t) : s.keeps (t.peEvent e k) :=
  h.ite (have k := h.raiseBits.postSources
k.mbxCommit.ite k)

theorem State.keeps.peActions {e w : Nat} {sin : Bool} (h : s.keeps t) : s.keeps (t.peActions e w sin) :=
  have k := h.peCount.peShift.peFifo
  (k.ite k.frame).peEvent

theorem State.keeps.peEnter {e n : Nat} {sin : Bool} (h : s.keeps t) : s.keeps (t.peEnter e n sin) :=
  h.wr.peActions.wr

theorem State.keeps.putShadow {e : Nat} {w : Nat → Nat} (h : s.keeps t) : s.keeps (t.putShadow e w) :=
  h.foldl fun _ _ g => g.wr.wr

theorem State.keeps.exchange {a b : Nat} (h : s.keeps t) : s.keeps (t.exchange a b) := h.setReg.setReg

theorem State.keeps.clampScnt {e : Nat} (h : s.keeps t) : s.keeps (t.clampScnt e) := h.wr.wr.ite (h.wr.ite h)

theorem State.keeps.setArm {e : Nat} {b : Bool} (h : s.keeps t) : s.keeps (t.setArm e b) := h.wr.wr

theorem State.keeps.peSwap {e : Nat} (h : s.keeps t) : s.keeps (t.peSwap e) :=
  h.putShadow.frame.exchange.exchange.exchange.wr.setArm.clampScnt.raise

theorem State.keeps.peEvaluate {e : Nat} (h : s.keeps t) : s.keeps (t.peEvaluate e) :=
  h.setSticky.peEnter.ite (((h.setSticky.peSwap.ite h.setSticky).peEnter.ite h.setSticky.peEnter).ite h.setSticky)

theorem State.keeps.peTick {e : Nat} (h : s.keeps t) : s.keeps (t.peTick e) := (h.wr.ite h.peEvaluate).ite h

theorem State.keeps.peClock {e : Nat} (h : s.keeps t) : s.keeps (t.peClock e) := h.frame

theorem State.keeps.peDivided {e : Nat} (h : s.keeps t) : s.keeps (t.peDivided e) := h.frame.peTick.ite h

theorem State.keeps.peBegin {e : Nat} (h : s.keeps t) : s.keeps (t.peBegin e) :=
  have k := h.peSwap.ite h
  (k.raise.ite k).wr.wr.wr.frame.setSticky.peClock.wr.peEnter

theorem State.keeps.peStart {e : Nat} (h : s.keeps t) : s.keeps (t.peStart e) := h.ite h.peBegin

theorem State.keeps.peRestart {e : Nat} (h : s.keeps t) : s.keeps (t.peRestart e) := h.ite h.peClock

theorem State.keeps.groupStart {g mask : Nat} (h : s.keeps t) : s.keeps (t.groupStart g mask) :=
  h.foldl fun _ _ g => g.peStart

theorem State.keeps.groupRestart {g mask : Nat} (h : s.keeps t) : s.keeps (t.groupRestart g mask) :=
  h.foldl fun _ _ g => g.peRestart

theorem State.keeps.peStop {e : Nat} (h : s.keeps t) : s.keeps (t.peStop e) := h.ite h.frame.wr

theorem State.keeps.peArm {e : Nat} (h : s.keeps t) : s.keeps (t.peArm e) := h.setArm.ite h.peSwap

theorem State.keeps.peDisarm {e : Nat} (h : s.keeps t) : s.keeps (t.peDisarm e) := h.setArm

theorem State.keeps.ectrl {e : Nat} {stop disarm arm : Bool} (h : s.keeps t) :
    s.keeps (t.ectrl e stop disarm arm) :=
  have k := h.peStop.ite h
  have k1 := k.peDisarm.ite k
  k1.peArm.ite k1

theorem State.keeps.peTxPush {e : Nat} {v : Word} (h : s.keeps t) : s.keeps (t.peTxPush e v).s :=
  h.bump.raise.iteRes h.setPeTx

theorem State.keeps.peRxPop {e : Nat} (h : s.keeps t) : s.keeps (t.peRxPop e).s := by
  unfold State.peRxPop
  split
  · exact h.setPeRx
  · exact h.bump

theorem State.keeps.peStage {e : Nat} {v : Word} (h : s.keeps t) : s.keeps (t.peStage e v) := h.wr

theorem State.keeps.stageSubst {e : Nat} (h : s.keeps t) : s.keeps (t.stageSubst e) := h.wr.ite h

theorem State.keeps.stagesSubst (h : s.keeps t) : s.keeps t.stagesSubst := h.foldl fun _ _ g => g.stageSubst

theorem State.keeps.outLatch {g : Nat} (h : s.keeps t) : s.keeps (t.outLatch g) := h.frame

theorem State.keeps.inLatch {g : Nat} (h : s.keeps t) : s.keeps (t.inLatch g) := h.wr.foldl fun _ _ g => g.wr

theorem State.keeps.loadGroup {x : List Byte} (h : s.keeps t) : s.keeps (t.loadGroup x) :=
  h.setReg.setReg.foldl fun _ _ g => g.setReg

theorem State.keeps.loadEngineRegs {x : EngineEntry} (h : s.keeps t) : s.keeps (t.loadEngineRegs x) :=
  h.setReg.setReg.setReg.setReg.setReg.setReg.setReg.setReg

theorem State.keeps.loadEngine {x : EngineEntry} (h : s.keeps t) : s.keeps (t.loadEngine x) := by
  unfold State.loadEngine
  dsimp only
  split
  · exact h.loadEngineRegs.setArm.putShadow.peArm
  · exact h.loadEngineRegs.setArm.putShadow.setArm.peStart
  · exact h.loadEngineRegs.setArm.putShadow.peStop.peArm

theorem State.keeps.activatePe {l : List Byte} (h : s.keeps t) : s.keeps (t.activatePe l) :=
  (h.foldl fun _ _ g => g.loadGroup).foldl fun _ _ g => g.loadEngine

/-! ### Wake -/

theorem State.keeps.setWakeRun {w : WakeRun} (h : s.keeps t) : s.keeps (t.setWakeRun w) := h.wr

theorem State.keeps.driveWake (h : s.keeps t) : s.keeps t.driveWake := h.frame

theorem State.keeps.disarm {line : Bool} (h : s.keeps t) : s.keeps (t.disarm line) :=
  have k := h.frame.setWakeRun.bump.raise
  k.ite k.driveWake

theorem State.keeps.vetoCheck (h : s.keeps t) : s.keeps t.vetoCheck := h.disarm.ite h

theorem State.keeps.wakeDecide {kind detail late periods : Nat} (h : s.keeps t) :
    s.keeps (t.wakeDecide kind detail late periods) := h.wr.wr.wr.wr.wr.setWakeRun.frame.raise

theorem State.keeps.sameSample {kind detail : Nat} (h : s.keeps t) : s.keeps (t.sameSample kind detail) :=
  h.wr.wr.wr.ite h.wr

theorem State.keeps.wakeSeen {kind detail periods : Nat} (h : s.keeps t) :
    s.keeps (t.wakeSeen kind detail periods) := by
  refine State.keeps.ite ?_ h
  split
  · exact h
  · exact h.sameSample.ite h
  · exact h.disarm
  · exact h.wr.frame.ite h.wr
  · exact h.wr.frame
  · exact h.wr.wakeDecide

theorem State.keeps.dwellOver {periods : Nat} (h : s.keeps t) : s.keeps (t.dwellOver periods) := by
  unfold State.dwellOver
  split
  · exact h.bump.wakeDecide
  · split
    · exact h.wakeDecide
    · exact h.setWakeRun

theorem State.keeps.armBy {k : Word} (h : s.keeps t) : s.keeps (t.armBy k) := h.setWakeRun.wr.ite h

theorem State.keeps.forwardNext {k : Word} (h : s.keeps t) : s.keeps (t.forwardNext k) := h.frame

theorem State.keeps.tokenBack {k : Word} (h : s.keeps t) : s.keeps (t.tokenBack k) :=
  h.raise.setReg.forwardNext.armBy.ite ((h.raise.disarm.ite h.raise).driveWake.ite h.raise)

theorem State.keeps.tokenWrite {who : Initiator} {v : Word} (h : s.keeps t) : s.keeps (t.tokenWrite who v) :=
  h.setReg.tokenBack.ite (h.setReg.ite h.setReg.forwardNext).armBy

theorem State.keeps.tokenForward (h : s.keeps t) : s.keeps t.tokenForward := by
  unfold State.tokenForward
  split
  · exact h.frame.farWrite.armBy.ite h.frame.farWrite
  · exact h.frame.tokenBack.ite h.frame.farWrite
  · exact h

theorem State.keeps.kaOr {v : Nat} (h : s.keeps t) : s.keeps (t.kaOr v) := h.wr

theorem State.keeps.kaSendStep (h : s.keeps t) : s.keeps t.kaSendStep := (h.kaOr.ite h.farWrite).ite h

theorem State.keeps.kaCommit (h : s.keeps t) : s.keeps t.kaCommit :=
  have k := h.raise.setReg
  k.frame.armBy.ite k.frame

theorem State.keeps.kaInterval (h : s.keeps t) : s.keeps t.kaInterval :=
  (h.wr.wr.frame.kaCommit.ite h.wr.wr.frame).ite h

/-! ### Can -/

theorem State.keeps.setCan {c : Nat} {k : CanState} (h : s.keeps t) : s.keeps (t.setCan c k) := h.frame

theorem State.keeps.engineErr {write : Bool} {cause a : Nat} (h : s.keeps t) :
    s.keeps (t.engineErr write cause a) := h.capture

theorem State.keeps.wordsGet {get : State → Nat → Nat → State × Option (List Byte)} {a n : Nat} {l : List Nat}
    (h : s.keeps t) (hget : ∀ u a b, s.keeps u → s.keeps (get u a b).1) : s.keeps (t.wordsGet get a n l).1 := by
  induction l generalizing t with
  | nil => exact h
  | cons w l ih =>
    refine ih ?_
    split
    · exact hget _ _ _ h
    · exact (hget _ _ _ h).engineErr

theorem State.keeps.sramBytes {a n : Nat} (h : s.keeps t) : s.keeps (t.sramBytes a n).1 :=
  (h.wordsGet (fun _ _ _ g => g.sramCheck)).iteFst h.engineErr

theorem State.keeps.sramPut {a : Nat} {l : List Byte} (h : s.keeps t) : s.keeps (t.sramPut a l) :=
  h.sramWrite.ite h.engineErr

theorem State.keeps.engineGet {a n : Nat} (h : s.keeps t) : s.keeps (t.engineGet a n).1 := by
  refine h.sramBytes.iteFst ?_
  split
  · exact h.engineErr
  · exact h.wordsGet (fun _ _ _ g => g.cadCheck)

theorem State.keeps.enginePut {a : Nat} {l : List Byte} (h : s.keeps t) : s.keeps (t.enginePut a l) := by
  refine h.sramPut.ite ?_
  split
  · exact h.engineErr
  · exact (h.foldl fun _ _ g => g.setEcc.ite g.cadCheck).memPut

theorem State.keeps.ctxCount {kind target off : Nat} (h : s.keeps t) : s.keeps (t.ctxCount kind target off) := by
  unfold State.ctxCount
  split
  · exact h.setCtxWord
  · exact h

theorem State.keeps.ctxPut {kind target off v : Nat} (h : s.keeps t) : s.keeps (t.ctxPut kind target off v) := by
  unfold State.ctxPut
  split
  · exact h.setCtxWord
  · exact h

theorem State.keeps.canPointers {c : Nat} (h : s.keeps t) : s.keeps (t.canPointers c) := h.ctxPut.ctxPut

theorem State.keeps.canDetachEnd {c : Nat} (h : s.keeps t) : s.keeps (t.canDetachEnd c) :=
  h.setCan.foldl fun _ _ g => g.completeNode

theorem State.keeps.putBit {f : Fld} {inst b : Nat} {v : Bool} (h : s.keeps t) : s.keeps (t.putBit f inst b v) := h.wr

theorem State.keeps.canEnd {c b r : Nat} {ts : Option (Nat × Nat)} (h : s.keeps t) :
    s.keeps (t.canEnd c b r ts) := by
  refine have k := (State.keeps.putBit ?_).putBit.setCan; (k.putBit.raise.ite k.putBit.raise).canDetachEnd
  split
  · exact h.sramPut.sramPut
  · exact h.sramPut

theorem State.keeps.canEndAll {c r : Nat} (h : s.keeps t) : s.keeps (t.canEndAll c r) := h.foldl fun _ _ g => g.canEnd

theorem State.keeps.canRequest {who : Initiator} {c bits : Nat} (h : s.keeps t) :
    s.keeps (t.canRequest who c bits) := h.wr.setCan

theorem State.keeps.canAbort {c bits : Nat} (h : s.keeps t) : s.keeps (t.canAbort c bits) :=
  h.foldl fun _ _ g => (g.putBit.ite g.canEnd).ite g

theorem State.keeps.canArbitrate {c : Nat} (h : s.keeps t) : s.keeps (t.canArbitrate c) := by
  refine State.keeps.ite ?_ h
  split
  · exact h.ite h.wr
  · exact h.sramBytes.wr.setCan

theorem State.keeps.canFailed {c b r : Nat} (h : s.keeps t) : s.keeps (t.canFailed c b r) :=
  h.setCan.canEnd.ite (h.setCan.canEnd.ite h.setCan)

theorem State.keeps.canLoop {c d : Nat} (h : s.keeps t) : s.keeps (t.canLoop c d) := h.wr.wr.wr

theorem State.keeps.putErr {c tec rec : Nat} (h : s.keeps t) : s.keeps (t.putErr c tec rec) := h.wr.wr

theorem State.keeps.canRelax {c : Nat} (h : s.keeps t) : s.keeps (t.canRelax c) := h.wr.wr.ite h

theorem State.keeps.canOwnFrame {c : Nat} {f : CanFrame} {sec ns : Nat} (h : s.keeps t) :
    s.keeps (t.canOwnFrame c f sec ns) := h.setCan.ite h

theorem State.keeps.canMeasured {c : Nat} {f : CanFrame} {a : Option Nat} (h : s.keeps t) :
    s.keeps (t.canMeasured c f a) := by
  unfold State.canMeasured
  split
  · exact h.canLoop.setCan.ite h
  · exact h

theorem State.keeps.tecGood {c : Nat} (h : s.keeps t) : s.keeps (t.tecGood c) := h.putErr.canRelax

theorem State.keeps.canSent {c : Nat} {x : CanOnBus} {sec ns : Nat} (h : s.keeps t) :
    s.keeps (t.canSent c x sec ns) := h.tecGood.canOwnFrame.canEnd.ctxCount

theorem State.keeps.canInit {c : Nat} (h : s.keeps t) : s.keeps (t.canInit c) := h.wr.wr.setCan.canEndAll

theorem State.keeps.canEnter {c m : Nat} {fromInit : Bool} (h : s.keeps t) : s.keeps (t.canEnter c m fromInit) :=
  have k := h.requestDom.wr.ite h
  k.ite k.wr

theorem State.keeps.canRecover {c : Nat} (h : s.keeps t) : s.keeps (t.canRecover c) := h.wr.ite h

theorem State.keeps.canCtrl {c : Nat} {v : Word} (h : s.keeps t) : s.keeps (t.canCtrl c v).1 :=
  h.iteFst (h.iteFst (h.wr.iteFst (h.wr.iteFst (have k := (h.wr.ite h).wr.wr.wr.wr
have k1 := k.canRecover.ite k
(k1.ite ((k1.canInit.ite k1).ite k1.canEnter)).vetoCheck))))

theorem State.keeps.rxStore {c : Nat} {f : CanFrame} {x : Fate} {sec ns : Nat} (h : s.keeps t) :
    s.keeps (t.rxStore c f x sec ns) := h.sramPut.wr.wr.raise.postSources.ctxCount.canPointers

theorem State.keeps.rxLoss {c : Nat} {f : Bool} (h : s.keeps t) : s.keeps (t.rxLoss c f) := h.bump.raise

theorem State.keeps.rxKeep {c : Nat} {f : CanFrame} {x : Fate} {sec ns : Nat} (h : s.keeps t) :
    s.keeps (t.rxKeep c f x sec ns) := h.rxStore.ite (h.rxLoss.wr.rxStore.ite h.rxLoss)

theorem State.keeps.strSearch {c wait : Nat} (h : s.keeps t) : s.keeps (t.strSearch c wait) := by
  unfold State.strSearch
  split
  · exact h
  · exact have k := h.setCan.wr.raise.ite h.setCan.wr; k.rxKeep.ite k.bump

theorem State.keeps.rxAck {c : Nat} {f : Bool} {get : Nat} (h : s.keeps t) : s.keeps (t.rxAck c f get).1 :=
  h.wr.wr.canPointers.iteFst h

theorem State.keeps.busOff {c : Nat} (h : s.keeps t) : s.keeps (t.busOff c) :=
  h.wr.wr.setCan.canEndAll.raise.bump.alarm

theorem State.keeps.canWoke {c kind periods : Nat} (h : s.keeps t) : s.keeps (t.canWoke c kind periods) :=
  h.wr.wr.setCan.raise.wakeSeen

theorem State.keeps.canWakeEvent {c : Nat} {w : CanWake} {periods : Nat} (h : s.keeps t) :
    s.keeps (t.canWakeEvent c w periods) := by
  refine State.keeps.ite ?_ h
  split
  · exact h.canWoke.ite h
  · exact h.wr.wr.canWoke.ite h
  · exact h.canWoke.ite h

theorem State.keeps.recGood {c : Nat} (h : s.keeps t) : s.keeps (t.recGood c) := h.free.putErr.ite h.putErr

theorem State.keeps.canThresholds {c oldT oldR : Nat} (h : s.keeps t) : s.keeps (t.canThresholds c oldT oldR) :=
  have k := (h.raise.ite h).wr.wr.raise.event.ite (h.raise.ite h)
  k.busOff.ite k

theorem State.keeps.canError {c kind : Nat} {dataPhase : Bool} {tec rec : Nat} (h : s.keeps t) :
    s.keeps (t.canError c kind dataPhase tec rec) :=
  h.wr.ite ((have k := h.wr.bump.raise.ctxCount.putErr
(k.wr.ite k).canThresholds).ite h)

theorem State.keeps.canValid {c : Nat} {f : CanFrame} {sec ns : Nat} (h : s.keeps t) :
    s.keeps (t.canValid c f sec ns) := (h.ite h.wr).ite ((h.wr.canError.ite h.recGood.canRelax.wr.setCan).ite h)

theorem State.keeps.canTxEnd {c : Nat} {e : CanEnd} (h : s.keeps t) : s.keeps (t.canTxEnd c e) := by
  unfold State.canTxEnd
  split
  · exact h
  · dsimp only
    split
    · exact (have k := h.canMeasured.bump.canError; k.ite k.wr.canFailed).ite h.canMeasured.wr.canSent
    · exact h.wr.bump.canFailed
    · exact (have k := h.canMeasured.bump.canError; k.ite k.wr.canFailed).ite h.canMeasured.wr.bump.canFailed

theorem State.keeps.strNext (h : s.keeps t) : s.keeps t.strNext := h.wr.ite h

theorem State.keeps.setElem {i v : Nat} (h : s.keeps t) : s.keeps (t.setElem i v) := h.frame

theorem State.keeps.strLo {v : Word} (h : s.keeps t) : s.keeps (t.strLo v) := h.frame

theorem State.keeps.strHi {v : Word} (h : s.keeps t) : s.keeps (t.strHi v) := h.setElem.strNext

theorem State.keeps.loadFilter {e : List Byte} (h : s.keeps t) : s.keeps (t.loadFilter e) := h.wr.wr.wr.wr.wr.wr.wr

theorem State.keeps.activateFilters {l : List Byte} (h : s.keeps t) : s.keeps (t.activateFilters l) :=
  (h.foldl fun _ _ g => g.loadFilter).foldl fun _ _ g => g.setElem

theorem State.keeps.canRow (h : s.keeps t) (hu : s.keeps u) : s.keepsNext (t.canRow u) := .next (hu.ite h)

theorem State.keeps.execCanRecoveryEnd {c : Nat} (h : s.keeps t) : s.keepsNext (execCanRecoveryEnd c t) :=
  h.canRow ((have k := h.putErr.wr.wr.wr
(k.canInit.ite k.wr).vetoCheck).ite h)

/-! ### Switch -/

theorem State.keeps.ringWr {mac sw host : Fld} {r v : Nat} (h : s.keeps t) : s.keeps (t.ringWr mac sw host r v) :=
  h.wr.ite (h.wr.ite h.wr)

theorem State.keeps.setMac {m : Nat} {v : MacState} (h : s.keeps t) : s.keeps (t.setMac m v) := h.frame

theorem State.keeps.macPointers {m : Nat} (h : s.keeps t) : s.keeps (t.macPointers m) := h.ctxPut.ctxPut

theorem State.keeps.macDetachEnd {m : Nat} (h : s.keeps t) : s.keeps (t.macDetachEnd m) :=
  h.setMac.foldl fun _ _ g => g.completeNode

theorem State.keeps.macDescEnd {r idx res : Nat} (h : s.keeps t) : s.keeps (t.macDescEnd r idx res) := by
  unfold State.macDescEnd
  dsimp only
  split
  · exact h.macPointers
  · exact (h.setMac.ctxCount.ite h.setMac).macPointers.macDetachEnd

theorem State.keeps.txError {r : Nat} (h : s.keeps t) : s.keeps (t.txError r) := h.raise.ite (h.raise.ite h.raise)

theorem State.keeps.descEnd {r : Nat} {d : DescProg} {res : Nat} (h : s.keeps t) : s.keeps (t.descEnd r d res) :=
  have k := h.sramPut.ringWr.ite h.sramPut.ringWr.txError
  k.macDescEnd.ite k

theorem State.keeps.setRing {r : Nat} {l : List DescProg} (h : s.keeps t) : s.keeps (t.setRing r l) := h.frame

theorem State.keeps.endHeads {r : Nat} {l : List DescProg} (h : s.keeps t) : s.keeps (t.endHeads r l) := by
  induction l generalizing t with
  | nil => exact h.setRing
  | cons d l ih =>
    unfold State.endHeads
    split
    · exact ih h.descEnd
    · exact h.setRing

theorem State.keeps.descUpdate {r idx : Nat} {f : DescProg → DescProg} (h : s.keeps t) :
    s.keeps (t.descUpdate r idx f) := h.endHeads

theorem State.keeps.setFrame {f : Nat} {x : Option EthFrame} (h : s.keeps t) : s.keeps (t.setFrame f x) := h.frame

theorem State.keeps.setQueue {p c : Nat} {l : List QEntry} (h : s.keeps t) : s.keeps (t.setQueue p c l) := h.frame

theorem State.keeps.setSending {p : Nat} {x : Option Sending} (h : s.keeps t) : s.keeps (t.setSending p x) := h.frame

theorem State.keeps.newFrame {x : EthFrame} (h : s.keeps t) : s.keeps (t.newFrame x) := h.setFrame.frame

theorem State.keeps.ingress {x : EthFrame} (h : s.keeps t) : s.keeps (t.ingress x) := h.bump.newFrame.ite h

theorem State.keeps.dropSegments {r i : Nat} (h : s.keeps t) : s.keeps (t.dropSegments r i) := h.frame

theorem State.keeps.untie {r i : Nat} (h : s.keeps t) : s.keeps (t.untie r i) := h.frame

theorem State.keeps.descLost {r i res : Nat} (h : s.keeps t) : s.keeps (t.descLost r i res) :=
  (h.dropSegments.ite h).untie.descUpdate

theorem State.keeps.copyDone {f : Nat} {sent : Bool} (h : s.keeps t) : s.keeps (t.copyDone f sent) := by
  unfold State.copyDone
  split
  · exact h
  · dsimp only
    split
    · exact h.setFrame
    · exact h.setFrame.ite (h.setFrame.descLost.ite (h.setFrame.descUpdate.ite h.setFrame))

theorem State.keeps.unqueue {f : Nat} (h : s.keeps t) : s.keeps (t.unqueue f) :=
  h.foldl fun _ _ g => g.frame.copyDone.ite g

theorem State.keeps.dropFrame {f : Nat} (h : s.keeps t) : s.keeps (t.dropFrame f) := by
  unfold State.dropFrame
  split
  · exact h
  · dsimp only
    split
    · exact h.setFrame.unqueue.ite h.setFrame.unqueue.descLost
    · exact h.setFrame.unqueue

theorem State.keeps.setFdb {i : Nat} {e : FdbEntry} (h : s.keeps t) : s.keeps (t.setFdb i e) := h.frame

theorem State.keeps.lookup {f : Nat} (h : s.keeps t) : s.keeps (t.lookup f) := by
  unfold State.lookup
  split
  · exact h
  · exact h.ite (h.setFrame.bump.dropFrame.ite h.setFrame)

theorem State.keeps.learn {x : EthFrame} (h : s.keeps t) : s.keeps (t.learn x) := by
  refine State.keeps.ite ?_ h
  split
  · exact h.ite h.setFdb
  · split
    · exact h.setFdb
    · exact h.bump.raise

theorem State.keeps.ageStep (h : s.keeps t) : s.keeps t.ageStep := h.ite h.frame

theorem State.keeps.fdbReadOp {i : Nat} (h : s.keeps t) : s.keeps (t.fdbReadOp i) := h.wr.wr.wr.wr.wr.wr.wr.wr

theorem State.keeps.fdbWriteOp {i : Nat} (h : s.keeps t) : s.keeps (t.fdbWriteOp i).1 := h.iteFst h.setFdb

theorem State.keeps.fdbFlushOp (h : s.keeps t) : s.keeps t.fdbFlushOp := h.frame

theorem State.keeps.fdbSel {op i : Nat} (h : s.keeps t) : s.keeps (t.fdbSel op i).1 := by
  unfold State.fdbSel
  dsimp only
  split
  · exact h.wr.fdbReadOp
  · split
    · exact h.wr.fdbWriteOp
    · exact h
  · exact h.wr.fdbFlushOp
  · exact h.wr

theorem State.keeps.enqueue {f p c : Nat} {l : List Byte} (h : s.keeps t) : s.keeps (t.enqueue f p c l) := by
  unfold State.enqueue
  dsimp only
  split
  · exact (h.bump.ite (h.bump.ite h)).setQueue.setFrame
  · exact (h.bump.ite (h.bump.ite h)).setQueue

theorem State.keeps.enqueueAll {f : Nat} (h : s.keeps t) : s.keeps (t.enqueueAll f) := by
  unfold State.enqueueAll
  split
  · exact h
  · refine State.keeps.ite ?_ h
    dsimp only
    split
    · exact (((h.foldl fun _ _ g => g.enqueue).bump.ite (h.foldl fun _ _ g => g.enqueue)).dropFrame.ite ((h.foldl fun
        _ _ g => g.enqueue).bump.ite (h.foldl fun _ _ g => g.enqueue))).descLost
    · exact (((h.foldl fun _ _ g => g.enqueue).bump.ite (h.foldl fun _ _ g => g.enqueue)).dropFrame.ite ((h.foldl fun
        _ _ g => g.enqueue).bump.ite (h.foldl fun _ _ g => g.enqueue)))

theorem State.keeps.pushStep {cls : Nat} (h : s.keeps t) : s.keeps (t.pushStep cls) := by
  refine State.keeps.ite ?_ h
  split
  · exact h
  · split
    · exact h
    · exact h.setQueue.bump.copyDone

theorem State.keeps.allocCell {f : Nat} (h : s.keeps t) : s.keeps (t.allocCell f) := by
  unfold State.allocCell
  split
  · exact h
  · exact h.ite (h.wr.setFrame.ite (h.ite h.bump.raise.dropFrame))

theorem State.keeps.freeCells {f : Nat} (h : s.keeps t) : s.keeps (t.freeCells f) := by
  unfold State.freeCells
  split
  · exact h
  · exact h.wr.setFrame.ite h

theorem State.keeps.frameEnd {f : Nat} (h : s.keeps t) : s.keeps (t.frameEnd f) := by
  unfold State.frameEnd
  split
  · exact h
  · exact h.ite (h.setFrame.learn.ite (h.setFrame.bump.ite h.setFrame).dropFrame)

theorem State.keeps.putTail {who : Initiator} {r tail : Nat} (h : s.keeps t) : s.keeps (t.putTail who r tail) :=
  h.ringWr.setMac.macPointers.ite (h.ringWr.frame.ite h.ringWr)

theorem State.keeps.segment {d : SendDesc} {k : Nat} {data : List Byte} (h : s.keeps t) :
    s.keeps (t.segment d k data).1 := h.iteFst h.free

theorem State.keeps.startDesc {r idx segs : Nat} {ok : Bool} (h : s.keeps t) :
    s.keeps (t.startDesc r idx segs ok) := h.setRing

theorem State.keeps.segFrame {r idx : Nat} {l : List Byte} {stamp : Option Nat} (h : s.keeps t) :
    s.keeps (t.segFrame r idx l stamp) :=
  have k := (h.wr.setFrame.frame.ite h.wr.setFrame.frame.bump).descUpdate
  k.enqueue.ite k

theorem State.keeps.segStep {r : Nat} (h : s.keeps t) : s.keeps (t.segStep r) := by
  unfold State.segStep
  dsimp only
  split
  · exact h
  · exact (have k := h.sramBytes.engineGet.startDesc.ite h.sramBytes.engineGet; k.segment.segFrame.ite
      k.descUpdate).ite h

theorem State.keeps.putGet {r get : Nat} (h : s.keeps t) : s.keeps (t.putGet r get) :=
  h.ringWr.macPointers.ite h.ringWr

theorem State.keeps.rxRefused {r : Nat} {big : Bool} (h : s.keeps t) : s.keeps (t.rxRefused r big) :=
  (h.bump.raise.ctxCount.ite h.bump.raise).ite (h.bump.raise.ite h.raise)

theorem State.keeps.rxAnnounce {r : Nat} (h : s.keeps t) : s.keeps (t.rxAnnounce r) :=
  (have k := h.raise.postSources
(k.ctxCount.ite k).macPointers).ite (h.raise.postSources.ite h.raise)

theorem State.keeps.rxDeliver {r : Nat} {x : EthFrame} {data : List Byte} (h : s.keeps t) :
    s.keeps (t.rxDeliver r x data).1 :=
  h.rxRefused.iteFst (h.sramBytes.rxRefused.iteFst h.sramBytes.enginePut.sramPut.ringWr.rxAnnounce)

theorem State.keeps.takeCopies {l : List (Nat × QEntry)} (h : s.keeps t) : s.keeps (t.takeCopies l) :=
  h.foldl fun _ _ g => g.setQueue

theorem State.keeps.sentCopies {l : List (Nat × QEntry)} (h : s.keeps t) : s.keeps (t.sentCopies l) :=
  h.takeCopies.foldl fun _ _ g => g.bump.copyDone

theorem State.keeps.egress {p : Nat} (h : s.keeps t) : s.keeps (t.egress p) := by
  refine h.ite ?_
  split
  · exact h
  · exact h.setQueue.setSending

theorem State.keeps.deliver {p : Nat} (h : s.keeps t) : s.keeps (t.deliver p) := by
  refine State.keeps.ite ?_ h
  split
  · exact h
  · dsimp only
    split
    · exact h.setSending
    · split
      · exact (h.setSending.rxDeliver.ofFst ‹_›).bump.copyDone
      · exact (h.setSending.rxDeliver.ofFst ‹_›).copyDone

/-! ### Mac -/

theorem State.keeps.rxFilter {m : Nat} {data : List Byte} {n : Nat} (h : s.keeps t) :
    s.keeps (t.rxFilter m data n) := by
  refine State.keeps.ite ?_ h
  split
  · exact h.bump
  · exact h.ingress.ite h.newFrame

theorem State.keeps.rxEnd {f : Nat} {symbol fcsBad : Bool} (h : s.keeps t) : s.keeps (t.rxEnd f symbol fcsBad) := by
  unfold State.rxEnd
  split
  · exact h
  · refine State.keeps.ite ?_ h
    split
    · exact h.setFrame.bump.dropFrame
    · exact h.setFrame.bump

theorem State.keeps.dropDown {m : Nat} (h : s.keeps t) : s.keeps (t.dropDown m) :=
  h.foldl fun _ _ g => g.foldl fun _ _ g1 => g1.setQueue.bump.copyDone

theorem State.keeps.putLink {m : Nat} {up : Bool} (h : s.keeps t) : s.keeps (t.putLink m up) :=
  h.ite (h.wr.raise.ite h.wr.raise.dropDown)

theorem State.keeps.linkChange {m : Nat} {up : Bool} {speed : Nat} {half sync : Bool} (h : s.keeps t) :
    s.keeps (t.linkChange m up speed half sync) := h.wr.wr.wr.putLink.ite h

theorem State.keeps.linkByCtrl {m : Nat} (h : s.keeps t) : s.keeps (t.linkByCtrl m) :=
  h.putLink.ite (h.ite h.wr.putLink)

theorem State.keeps.dropUnfit {m q n : Nat} (h : s.keeps t) : s.keeps (t.dropUnfit m q n) := by
  induction n generalizing t with
  | zero => exact h
  | succ n ih =>
    unfold State.dropUnfit
    split
    · exact h
    · split
      · exact h
      · exact (ih h.setQueue.bump.copyDone).ite h

theorem State.keeps.dropAllUnfit {m : Nat} (h : s.keeps t) : s.keeps (t.dropAllUnfit m) :=
  h.foldl fun _ _ g => g.dropUnfit

theorem State.keeps.gclShow {m : Nat} (h : s.keeps t) : s.keeps (t.gclShow m) := h.wr.wr.ite (h.wr.ite h.wr.wr)

theorem State.keeps.gclEntry {m k : Nat} (h : s.keeps t) : s.keeps (t.gclEntry m k) := h.ite h.gclShow

theorem State.keeps.putShadowGcl {m : Nat} {b : GateBank} (h : s.keeps t) : s.keeps (t.putShadowGcl m b) :=
  h.setReg.setReg.setReg.setReg.foldl fun _ _ g => g.setReg

theorem State.keeps.gclSwap {m : Nat} (h : s.keeps t) : s.keeps (t.gclSwap m) :=
  h.putShadowGcl.setMac.wr.wr.raise.dropAllUnfit

theorem State.keeps.gclBegin {m n : Nat} (h : s.keeps t) : s.keeps (t.gclBegin m n) := h.setMac.gclShow

theorem State.keeps.gclStart {m : Nat} (h : s.keeps t) : s.keeps (t.gclStart m) := by
  unfold State.gclStart
  split
  · exact h.gclSwap.gclBegin
  · split
    · exact h.gclBegin.ite h
    · exact h.gclShow

theorem State.keeps.gclBoundary (h : s.keeps t) : s.keeps t.gclBoundary := h.foldl fun _ _ g => g.gclStart

theorem State.keeps.gclCtrl {m : Nat} {v : Word} (h : s.keeps t) : s.keeps (t.gclCtrl m v) :=
  have k := h.wr.wr.wr.ite h.wr.wr
  (k.wr.setMac.ite k).gclShow

theorem State.keeps.txStart {m queue n : Nat} (h : s.keeps t) : s.keeps (t.txStart m queue n) := by
  refine h.dropDown.ite (h.ite ?_)
  dsimp only
  split
  · exact h.dropAllUnfit
  · split
    · exact h.dropAllUnfit
    · exact h.dropAllUnfit.setQueue.setSending.ite h.dropAllUnfit

theorem State.keeps.storeStamp {m : Nat} {x : TxStamp} (h : s.keeps t) : s.keeps (t.storeStamp m x) :=
  h.bump.ite h.setMac.raise

theorem State.keeps.stampFor {m : Nat} {x : EthFrame} {time : Nat} (h : s.keeps t) :
    s.keeps (t.stampFor m x time) := by
  unfold State.stampFor
  split
  · exact h.storeStamp
  · exact h

theorem State.keeps.wireBytes {m : Nat} {g : Sending} {x : EthFrame} (h : s.keeps t) :
    s.keeps (t.wireBytes m g x).1 := h.ptpCorrect.iteFst h

theorem State.keeps.txEnd {m : Nat} (h : s.keeps t) : s.keeps (t.txEnd m) := by
  unfold State.txEnd
  split
  · exact h
  · dsimp only
    split
    · exact h.setSending
    · exact h.setSending.wireBytes.stampFor.emit.bump.bump.copyDone

theorem State.keeps.txtsPop {m : Nat} (h : s.keeps t) : s.keeps (t.txtsPop m).s := h.setMac

theorem State.keeps.loadGcl {x : List Byte × List (Nat × Nat)} (h : s.keeps t) : s.keeps (t.loadGcl x) :=
  have k := h.wr.putShadowGcl.wr.wr.wr
  k.setMac.gclSwap.gclBegin.ite k.setMac.gclShow

theorem State.keeps.activateGcl {l : List Byte} (h : s.keeps t) : s.keeps (t.activateGcl l) :=
  h.foldl fun _ _ g => g.loadGcl

/-! ### TableSet -/

theorem State.keeps.putSetState {n v : Nat} (h : s.keeps t) : s.keeps (t.putSetState n v) := h.setReg

theorem State.keeps.loadError {n err sec : Nat} (h : s.keeps t) : s.keeps (t.loadError n err sec) := h.wr.wr.wr

theorem State.keeps.copySet (h : s.keeps t) : s.keeps (t.copySet).1 := by
  unfold State.copySet
  dsimp only
  split
  · exact h.engineGet
  · exact h.engineGet.iteFst h.engineErr

theorem State.keeps.tsLoad {n : Nat} (h : s.keeps t) : s.keeps (t.tsLoad n) :=
  h.wr.loadError.ite h.copySet.wr.frame.putSetState

theorem State.keeps.tsDrop {n : Nat} (h : s.keeps t) : s.keeps (t.tsDrop n) := h.wr.ite h.wr.frame.putSetState

theorem State.keeps.tsWrite {v : Word} (h : s.keeps t) : s.keeps (t.tsWrite v) := h.tsLoad.ite (h.tsDrop.ite h.wr)

theorem State.keeps.tsComplete {n : Nat} (h : s.keeps t) : s.keeps (t.tsComplete n) := by
  refine State.keeps.ite ?_ h
  split
  · exact h.putSetState.askKeys.ite h.putSetState
  · exact h.putSetState.loadError

/-! ### Keeper -/

theorem State.keeps.randomBytes {n : Nat} (h : s.keeps t) : s.keeps (t.randomBytes n).2 := h.secFrame

theorem State.keeps.newNonce (h : s.keeps t) : s.keeps t.newNonce := h.secFrame

theorem State.keeps.selfTestFail {bitmap : Nat} (h : s.keeps t) : s.keeps (t.selfTestFail bitmap) := h.wr.raise.alarm

theorem State.keeps.selfTestsEnd (h : s.keeps t) : s.keeps t.selfTestsEnd := h.ite (h.wr.ite h.wr.selfTestFail)

theorem State.keeps.otpOr {w v : Nat} (h : s.keeps t) : s.keeps (t.otpOr w v) := h.trans (State.keeps_otpOr ..)

theorem State.keeps.otpPut {w : Nat} {l : List Byte} (h : s.keeps t) : s.keeps (t.otpPut w l) :=
  h.trans (State.keeps_otpPut _ l (Nat.le_refl _) t w)

theorem State.keeps.putSection {x : ImgSection} {l : List Byte} (h : s.keeps t) : s.keeps (t.putSection x l) := by
  unfold State.putSection
  split
  · exact h.coreWrite
  · exact h.coreWrite
  · exact h.enginePut

theorem State.keeps.loadSections {payload : List Byte} {xs : List ImgSection} (h : s.keeps t) :
    s.keeps (t.loadSections payload xs) := h.foldl fun _ _ g => g.putSection

theorem State.keeps.wipeSections {i : Image} (h : s.keeps t) : s.keeps (t.wipeSections i) :=
  (h.foldl fun _ _ g => g.putSection.ite g).ite h

theorem State.keeps.loadSetOf {x : ImgSection} (h : s.keeps t) : s.keeps (t.loadSetOf x) := h.wr.tsLoad.ite h

theorem State.keeps.runImage {i : Image} (h : s.keeps t) : s.keeps (t.runImage i) :=
  ((h.loadSections.wr.wr.foldl fun _ _ g => g.loadSetOf).foldl fun _ _ g1 => g1.wr.coreStart.ite g1).setCore.secFrame

theorem State.keeps.imageFailed {i : Image} {code : Nat} {b : Bool} (h : s.keeps t) :
    s.keeps (t.imageFailed i code b) := h.wr.raise.wipeSections

theorem State.keeps.flashRead {op a n : Nat} (h : s.keeps t) : s.keeps (t.flashRead op a n) := h.emit

theorem State.keeps.trySlot {op : Nat} {l : List Byte} {b : Bool} (h : s.keeps t) :
    s.keeps (t.trySlot op l b).1 := by
  unfold State.trySlot
  dsimp only
  split
  · exact h.flashRead.wr.runImage
  · exact h.flashRead.imageFailed

theorem State.keeps.bootSlots {op : Nat} {slotA slotB : List Byte} (h : s.keeps t) :
    s.keeps (t.bootSlots op slotA slotB) := by
  unfold State.bootSlots
  extract_lets u first pick
  have k : s.keeps u := h.flashRead.flashRead
  split
  · next e => exact k.trySlot.ofFst e
  · next e =>
    have k1 := k.trySlot.ofFst e
    split
    · next e1 => exact k1.trySlot.ofFst e1
    · next e1 => exact (k1.trySlot.ofFst e1).alarm.secFrame

theorem State.keeps.hostImage (h : s.keeps t) : s.keeps t.hostImage := by
  refine h.ite ?_
  split
  · exact (h.selfTestsEnd.sramBytes.iteFst h.selfTestsEnd).wr.runImage
  · exact (h.selfTestsEnd.sramBytes.iteFst h.selfTestsEnd).imageFailed

theorem State.keeps.tokenRead {a : Nat} (h : s.keeps t) : s.keeps (t.tokenRead a) := h.sramBytes.ite h

theorem State.keeps.svcRandom {_stamp a : Nat} (h : s.keeps t) : s.keeps (t.svcRandom _stamp a).s :=
  h.iteRep (h.randomBytes.sramPut.iteRep h)

theorem State.keeps.svcDerive {stamp a : Nat} (h : s.keeps t) : s.keeps (t.svcDerive stamp a).s :=
  h.iteRep (h.sramBytes.sramPut.iteRep h)

theorem State.keeps.svcRingKeys {_stamp e : Nat} (h : s.keeps t) : s.keeps (t.svcRingKeys _stamp e).s :=
  h.iteRep (h.iteRep (h.fetchKeys.iteRep h))

theorem State.keeps.lcProgram {byte : Nat} (h : s.keeps t) : s.keeps (t.lcProgram byte) :=
  State.keeps.otpOr (h.randomBytes (n := 32) |>.otpPut.ite h)

theorem State.keeps.svcDebugOpen {_stamp a : Nat} (h : s.keeps t) : s.keeps (t.svcDebugOpen _stamp a).s :=
  h.iteRep (h.iteRep ((h.sramBytes.wr.wr.raise.newNonce.iteRep h.sramBytes).iteRep h))

theorem State.keeps.svcOtpProgram {_stamp a : Nat} (h : s.keeps t) : s.keeps (t.svcOtpProgram _stamp a).s :=
  (((h.sramBytes.sramBytes.foldl fun _ _ g => g.otpOr).iteRep h.sramBytes.sramBytes).iteRep h.sramBytes).iteRep h

theorem State.keeps.svcSvnCommit {_stamp n : Nat} (h : s.keeps t) : s.keeps (t.svcSvnCommit _stamp n).s :=
  h.iteRep (h.iteRep (h.iteRep h.otpOr.otpOr))

theorem State.keeps.svcSelfTest {bitmap _stamp _arg : Nat} (h : s.keeps t) :
    s.keeps (State.svcSelfTest bitmap t _stamp _arg).s := h.iteRep h.selfTestFail

theorem State.keeps.keeperReply {r : Reply} {svc chan : Nat} (hr : s.keeps r.s) :
    s.keeps (State.keeperReply r svc chan) := by
  unfold State.keeperReply
  dsimp only
  split
  · exact (hr.bump.ite hr.bump).mbxCommit
  · exact (hr.bump.ite hr.bump).free.mbxCommit

theorem State.keeps.keeperServe {p : Nat → Bool} {f : State → Nat → Nat → Reply}
    (h : s.keeps t) (hf : ∀ u a b, s.keeps u → s.keeps (f u a b).s) :
    s.keeps (t.keeperServe p f) := by
  unfold State.keeperServe
  split
  · refine State.keeps.ite ?_ h
    dsimp only
    split
    · exact h.mbxPop.selfTestsEnd.keeperReply
    · exact (hf _ _ _ h.mbxPop.selfTestsEnd).keeperReply
  · exact h

/-! ### Power -/

theorem State.keeps.cause {b : Nat} (h : s.keeps t) : s.keeps (t.cause b) := h.wr

/-- A start keeps the always-on registers and the OTP; the memories that it keeps lose entries only. -/
theorem State.keeps.cleared {banks : Bool} (h : s.keeps t) : s.keeps (t.cleared banks) := by
  unfold State.cleared
  refine State.keeps.wr (h.trans ⟨fun hm => ?_, SMap.wf_filter _ _ _, fun _ _ => id⟩)
  cases banks with
  | false => rfl
  | true =>
    rw [MemState.wf_iff] at hm ⊢
    exact ⟨SMap.wf_filter _ _ _ hm.1, rfl⟩

theorem State.keeps.abortSleep (h : s.keeps t) : s.keeps t.abortSleep := h.setWakeRun.ite h

theorem State.keeps.enterReset {k : ResetHold} (h : s.keeps t) : s.keeps (t.enterReset k) :=
  h.abortSleep.cleared.frame

theorem State.keeps.factoryRepairs (h : s.keeps t) : s.keeps t.factoryRepairs :=
  h.foldl fun _ _ g => (g.wr.wr.ite g.wr.wr).ite g

theorem State.keeps.wipeOtp (h : s.keeps t) : s.keeps t.wipeOtp := h.foldl fun _ _ g => g.otpOr

theorem State.keeps.releaseCore {c : Nat} (h : s.keeps t) : s.keeps (t.releaseCore c) := h.wr.setCore

theorem State.keeps.startDomains (h : s.keeps t) : s.keeps t.startDomains :=
  h.putDom.putDom.putDom.putDom.putDom.frame.regrant

theorem State.keeps.reachRun (h : s.keeps t) : s.keeps t.reachRun := h.setWakeRun.statusSet.ite h

theorem State.keeps.startHardware {banks : Bool} (h : s.keeps t) : s.keeps (t.startHardware banks) :=
  (h.cleared.wipeOtp.ite
      h.cleared).factoryRepairs.setRate.startDomains.releaseCore.releaseCore.newNonce.statusSet.reachRun

theorem State.keeps.flashParams {b : List Byte} (h : s.keeps t) : s.keeps (t.flashParams b) :=
  h.flashRead.wr.wr.wr.wr.ite h.flashRead

theorem State.keeps.coldFromOtp (h : s.keeps t) : s.keeps t.coldFromOtp := h.wr.wr.ite h

theorem State.keeps.bootRom {b : Board} (h : s.keeps t) : s.keeps (t.bootRom b) :=
  h.ite h.coldFromOtp.flashParams.selfTestsEnd.bootSlots

theorem State.keeps.startUp {b : Board} {banks : Bool} (h : s.keeps t) : s.keeps (t.startUp b banks) :=
  h.frame.startHardware.secFrame.bootRom

theorem State.keeps.resetNow {bitNo : Nat} {b : Board} (h : s.keeps t) : s.keeps (t.resetNow bitNo b) :=
  h.cause.abortSleep.startUp

theorem State.keeps.releaseHold {k : ResetHold} {b : Board} (h : s.keeps t) : s.keeps (t.releaseHold k b) :=
  (h.frame.startUp.ite h.frame).ite h

theorem State.keeps.abortOps (h : s.keeps t) : s.keeps t.abortOps :=
  (h.foldl fun _ _ g => g.setCore.abortNode.ite g).foldl fun _ _ g1 => g1.movStop.abortNode.ite g1

theorem State.keeps.linksOff (h : s.keeps t) : s.keeps t.linksOff :=
  h.setLink.setLink.linkLost.foldl fun _ _ g => g.putLink

theorem State.keeps.domainsOff {deep : Bool} (h : s.keeps t) : s.keeps (t.domainsOff deep) :=
  h.wr.putDom.frame.regrant

theorem State.keeps.gateCores {cs : List Nat} (h : s.keeps t) : s.keeps (t.gateCores cs) :=
  h.foldl fun _ _ g => g.setCore.ite g.setCore

theorem State.keeps.powerDownEnd (h : s.keeps t) : s.keeps t.powerDownEnd :=
  have k := h.abortOps.gateCores.linksOff.domainsOff.wr.setWakeRun.bump
  k.frame.ite k

theorem State.keeps.ringResume (h : s.keeps t) : s.keeps t.ringResume := h.coldRestart.wr.frame

theorem State.keeps.timeResume {from_ periods : Nat} (h : s.keeps t) : s.keeps (t.timeResume from_ periods) :=
  h.setNow.setServo.endSlew.frame.ite h.setNow

theorem State.keeps.countsResume (h : s.keeps t) : s.keeps t.countsResume := h.frame

theorem State.keeps.resumeDomains (h : s.keeps t) : s.keeps t.resumeDomains :=
  h.wr.putDom.putDom.putDom.putDom.putDom.putDom.frame.regrant

theorem State.keeps.restartCore {c : Nat} (h : s.keeps t) : s.keeps (t.restartCore c) := h.setCore.ite h

theorem State.keeps.napExit {periods : Nat} (h : s.keeps t) : s.keeps (t.napExit periods) :=
  h.ringResume.timeResume.countsResume.wr.wr.resumeDomains.restartCore.restartCore.reachRun.syncRing

theorem State.keeps.newTemp {temp : Nat} (h : s.keeps t) : s.keeps (t.newTemp temp) :=
  h.statusSet.raise.alarm.ite h.statusSet

theorem State.keeps.grant {d : Nat} (h : s.keeps t) : s.keeps (t.grant d) := by
  unfold State.grant
  split
  · exact h
  · exact h.frame.setDom.ite h

theorem State.keeps.gateCluster {c : Nat} (h : s.keeps t) : s.keeps (t.gateCluster c) := h.setDom.gateCores.ite h

theorem State.keeps.stateReq {deep : Bool} (h : s.keeps t) : s.keeps (t.stateReq deep).1 := h.iteFst h.commitSleep

theorem State.keeps.ketRst {key : Nat} {b : Board} (h : s.keeps t) : s.keeps (t.ketRst key b) := h.resetNow.ok.ite h

theorem State.keeps.wdogRestart (h : s.keeps t) : s.keeps t.wdogRestart := h.frame

theorem State.keeps.wdogWrite {v : Word} (h : s.keeps t) : s.keeps (t.wdogWrite v) :=
  (h.wdogRestart.ite h).ite (h.wr.wr.wdogRestart.ite h.wr)

theorem State.keeps.ketCtrl {v : Word} (h : s.keeps t) : s.keeps (t.ketCtrl v).1 := h.iteFst h.wr.wr.regrant

theorem State.keeps.execPowerOnReset (h : s.keeps t) : s.keepsNext (execPowerOnReset t) :=
  have k : s.keeps { t with regs := [] } := h.withRegs fun _ => rfl
  .next k.frame.cleared.frame

theorem State.keeps.execRingRefclkLoss (h : s.keeps t) : s.keepsNext (execRingRefclkLoss t) :=
  .next ((h.frame.portDown.portDown.foldl fun _ _ g => g.wr.putLink.ite g).alarm.ite h.frame)

theorem State.keeps.rampEnd {d : Nat} (h : s.keeps t) : s.keeps (t.rampEnd d) :=
  (h.setDom.foldl fun _ _ g => g.linkByCtrl).ite h.setDom

theorem State.keeps.execLcRequest {b : Board} (h : s.keeps t) : s.keepsNext (execLcRequest b t) := by
  refine h.powered ?_
  split
  · refine State.keeps.ite ?_ h
    extract_lets u
    have k : s.keeps u := h.mbxPop.selfTestsEnd.tokenRead
    split
    · exact k.keeperReply
    · exact k.keeperReply
    · exact k.lcProgram.resetNow
  · exact h

/-! ### Ring -/

theorem State.keeps.activateAttrs {l : List Byte} (h : s.keeps t) : s.keeps (t.activateAttrs l) :=
  h.frame.foldl fun _ _ g => g.ite g.setStored.setMiss

theorem State.keeps.dropImages (h : s.keeps t) : s.keeps t.dropImages :=
  (h.dropSnap.foldl fun _ _ g => g.freePage.ite g).frame.wr.wr.wr.wr

theorem State.keeps.backNamed (h : s.keeps t) : s.keeps t.backNamed := by
  refine h.foldl fun _ _ g => g.ite ?_
  split
  · exact g.backSlot.ofId ‹_›
  · exact g.allocFail

theorem State.keeps.imageRole (h : s.keeps t) : s.keeps t.imageRole := h.wr.backNamed.ite (h.dropImages.ite h)

theorem State.keeps.putEntry {a n v : Nat} (h : s.keeps t) : s.keeps (t.putEntry a n v) := by
  unfold State.putEntry
  split
  · exact h.foldl fun _ _ g => g.setStored
  · exact h.bridgeIssue
  · exact h.enginePut
  · exact h.enginePut
  · exact h.engineErr

theorem State.keeps.fillArray {d : Desc} {op : Nat} (h : s.keeps t) : s.keeps (t.fillArray d op) :=
  (h.foldl fun _ _ g => g.putEntry).ite h

theorem State.keeps.fillArrays (h : s.keeps t) : s.keeps t.fillArrays := by
  refine h.foldl fun _ _ g => ?_
  split
  · exact g.fillArray
  · exact g

theorem State.keeps.activateSteep {l : List Byte} (h : s.keeps t) : s.keeps (t.activateSteep l) :=
  h.foldl fun _ _ g => g.steepKeep.setReg.setReg.setReg

theorem State.keeps.roleBySet {adopt : Bool} (h : s.keeps t) : s.keeps (t.roleBySet adopt) :=
  h.endTimeMaster.ite (h.ite h.becomeTimeMaster)

theorem State.keeps.activateSet {n : Nat} {adopt : Bool} (h : s.keeps t) : s.keeps (t.activateSet n adopt) :=
  have k := (h.putSetState.ite
      h).putSetState.wr.wr.frame.activateAttrs.imageRole.activateGraph.activateDescs.fillArrays.activateBindings
  have k1 := (k.activatePe.ite k).activateSteep.stagesSubst
  have k2 := k1.activateFilters.ite k1
  (k2.activateGcl.ite k2).roleBySet.parkedStep.parkedStep

theorem State.keeps.tagFail {l : List Byte} (h : s.keeps t) : s.keeps (t.tagFail l) := h.bump.statusCount.alarm

theorem State.keeps.askFor {l : List Byte} (h : s.keeps t) : s.keeps (t.askFor l) := h.askKeys.ite h

theorem State.keeps.checkCopy {p : RingPort} {kind : Nat} {l : List Byte} (h : s.keeps t) :
    s.keeps (t.checkCopy p kind l).1 := h.badFrame.iteFst (h.iteFst h.tagFail)

theorem State.keeps.actFault {e w : Nat} (h : s.keeps t) : s.keeps (t.actFault e w) :=
  have k := h.wr.wr.ite h.wr.wr.wr
  (k.ite k.wr).frame.secondFault.vacate

theorem State.keeps.heard {op a b : Nat} (h : s.keeps t) : s.keeps (t.heard op a b) := h.ite h.frame

theorem State.keeps.actOn {op a b cyc : Nat} (h : s.keeps t) : s.keeps (t.actOn op a b cyc) := by
  refine h.ite ?_
  split
  · exact h.frame.heard.frame
  · exact h.frame.heard.frame
  · exact h.frame.heard.actFault
  · exact h.frame.heard.wr.wr.wr.wr

theorem State.keeps.carried {x y : Announce} (h : s.keeps t) : s.keeps (t.carried x y) := h.frame

theorem State.keeps.splicesDue (h : s.keeps t) : s.keeps t.splicesDue := h.frame

theorem State.keeps.clearDue (h : s.keeps t) : s.keeps t.clearDue := h.announce.ite h

theorem State.keeps.restored {x : Announce} (h : s.keeps t) : s.keeps (t.restored x) :=
  ((h.wr.ite h).wr.ite (h.wr.ite h)).frame

theorem State.keeps.masterEffects {c : Nat} (h : s.keeps t) : s.keeps (t.masterEffects c) :=
  h.frame.foldl fun _ _ g => g.frame.restored.ite g

theorem State.keeps.spliceUp {p : RingPort} (h : s.keeps t) : s.keeps (t.spliceUp p) := h.setLink.ite h

theorem State.keeps.parkOff {p : RingPort} (h : s.keeps t) : s.keeps (t.parkOff p) := h.setLink.setPort.ite h

theorem State.keeps.leaveRing (h : s.keeps t) : s.keeps t.leaveRing := h.endTimeMaster.frame.wr.wr.wr.parkOff.parkOff

theorem State.keeps.parkTowards {n : Nat} (h : s.keeps t) : s.keeps (t.parkTowards n) :=
  have k := h.parkOff.ite h
  k.parkOff.ite k

theorem State.keeps.linkEffects {c : Nat} (h : s.keeps t) : s.keeps (t.linkEffects c) := by
  unfold State.linkEffects
  dsimp only
  split
  · exact ((h.frame.spliceUp.ite h).frame.spliceUp.ite (h.frame.spliceUp.ite h)).ite (((h.frame.spliceUp.ite
      h).frame.spliceUp.ite (h.frame.spliceUp.ite h)).leaveRing.ite ((h.frame.spliceUp.ite h).frame.spliceUp.ite
      (h.frame.spliceUp.ite h)).parkTowards.frame.vacate)
  · exact ((h.frame.spliceUp.ite h).frame.spliceUp.ite (h.frame.spliceUp.ite h))

/-! ### Trace -/

theorem State.keeps.windowClose {unit page code aux : Nat} (h : s.keeps t) :
    s.keeps (t.windowClose unit page code aux) := h.frame.placeOffers

theorem State.keeps.gapOwn (h : s.keeps t) : s.keeps t.gapOwn := h.frame.ite h

theorem State.keeps.gapLost {l : List (Nat × LostCount)} (h : s.keeps t) : s.keeps (t.gapLost l) := by
  induction l generalizing t with
  | nil => exact h
  | cons e l ih => exact (ih h.frame).ite (ih h)

theorem State.keeps.bufferWrite (h : s.keeps t) : s.keeps t.bufferWrite := by
  unfold State.bufferWrite
  dsimp only
  split
  · exact h
  · exact h.ite (h.raise.ite (have k := h.frame.enginePut.wr; (k.raise.ite (k.raise.ite k)).placeOffers))

theorem State.keeps.traceMsg {room : Nat} (h : s.keeps t) : s.keeps (t.traceMsg room).1 :=
  h.iteFst h.frame.placeOffers

theorem State.keeps.seqSeen {n seq : Nat} (h : s.keeps t) : s.keeps (t.seqSeen n seq) :=
  h.frame.ite h.frame.frame.bumpBy.statusCount

theorem State.keeps.collectRec {src : Nat} {r : TraceRec} (h : s.keeps t) : s.keeps (t.collectRec src r) :=
  h.seqSeen.alarmOf.ite h.seqSeen.queueRec

theorem State.keeps.collect {src : Nat} {body : List Byte} (h : s.keeps t) : s.keeps (t.collect src body) :=
  (h.foldl fun _ _ g => g.collectRec.ite g).ite h

theorem State.keeps.swData {who : Initiator} {k : Nat} {v : Word} (h : s.keeps t) : s.keeps (t.swData who k v).s :=
  h.iteRes h.frame

theorem State.keeps.swClear {st : Nat} (h : s.keeps t) : s.keeps (t.swClear st) := h.frame

theorem State.keeps.swAlarm {st : Nat} (h : s.keeps t) : s.keeps (t.swAlarm st) := h.bump.statusCount.alarmOf

theorem State.keeps.swRec {st cls : Nat} (h : s.keeps t) : s.keeps (t.swRec st cls) := h.queueRec

theorem State.keeps.swCommit {who : Initiator} {cls : Nat} (h : s.keeps t) : s.keeps (t.swCommit who cls).s := by
  refine h.iteRes (h.swClear.iteRes ?_)
  split
  · exact h.swAlarm.swClear
  · exact h.swRec.swClear.iteRes h
  · exact h.swRec.swClear.iteRes h
  · exact h.swRec.swClear.iteRes h

/-! ### RingCycle -/

theorem State.keeps.gwWrite {src dest : Nat} {p : Half} {det : Nat} (h : s.keeps t) :
    s.keeps (t.gwWrite src dest p det) := h.writeLocal.ite h.writeLive

theorem State.keeps.gwEntries {pts : List Half} {det : Nat} {l : List RxEntry} (h : s.keeps t) :
    s.keeps (t.gwEntries pts det l) := by
  induction l generalizing t with
  | nil => exact h
  | cons r l ih =>
    unfold State.gwEntries
    split
    · exact ih h.gwWrite
    · exact ih h

theorem State.keeps.fieldUpdate {w : Nat} {pts : List Half} {det : Nat} (h : s.keeps t) :
    s.keeps (t.fieldUpdate w pts det) := h.gwEntries.frame.postAll

theorem State.keeps.mcRequest {n : Nat} (h : s.keeps t) : s.keeps (t.mcRequest n) :=
  h.wr.ite ((h.wr.wr.ite h.wr.wr.wr).ite ((h.wr.wr.ite h.wr.wr.wr).ite ((h.wr.wr.ite h.wr.wr.wr).ite ((h.wr.wr.ite
      h.wr.wr.wr).ite h.wr.frame.wr))))

theorem State.keeps.mcCtrl {v : Word} (h : s.keeps t) : s.keeps (t.mcCtrl v) := h.mcRequest.ite h.wr

theorem State.keeps.mcBegin (h : s.keeps t) : s.keeps t.mcBegin := h.frame.wr.ite h

theorem State.keeps.mcSent {go abort : Bool} (h : s.keeps t) : s.keeps (t.mcSent go abort) :=
  h.frame.wr.ite (h.frame.wr.wr.ite h)

theorem State.keeps.mcEvaluate {l : List Byte} (h : s.keeps t) : s.keeps (t.mcEvaluate l) := h.frame.wr.wr.wr.ite h

theorem State.keeps.launch (h : s.keeps t) : s.keeps t.launch := by
  refine have k := h.splicesDue.clearDue.mcBegin; State.keeps.mcSent ?_
  split
  · exact k.sendBoth.carried.actOn
  · exact k.sendBoth

theorem State.keeps.countFrame {id : FrameId} (h : s.keeps t) : s.keeps (t.countFrame id) :=
  h.bump.statusCount.ite (h.bump.statusCount.ite h)

theorem State.keeps.countCopies (h : s.keeps t) : s.keeps t.countCopies := h.foldl fun _ _ g => g.countFrame

theorem State.keeps.silenceStep (h : s.keeps t) : s.keeps t.silenceStep :=
  ((h.frame.wr.event.ite h.frame).ite h.frame).ite (h.enterSilence.ite h)

theorem State.keeps.portCycle {p : RingPort} (h : s.keeps t) : s.keeps (t.portCycle p) := h.setPort

theorem State.keeps.bridgeAge (h : s.keeps t) : s.keeps t.bridgeAge := h.frame

theorem State.keeps.endCycle (h : s.keeps t) : s.keeps t.endCycle :=
  have k := h.countCopies.silenceStep.countHoldover.portCycle.portCycle
  k.bridgeAge.beatCycle.ite k.bridgeAge

theorem State.keeps.mcBoundary (h : s.keeps t) : s.keeps t.mcBoundary := by
  unfold State.mcBoundary
  dsimp only
  split
  · exact h.frame.frame.activateSet
  · exact h.frame.frame.frame.wr.ite h.frame.frame

theorem State.keeps.roleStep (h : s.keeps t) : s.keeps t.roleStep :=
  h.endTimeMaster.frame.ite (h.ite (h.ite ((h.becomeTimeMaster.ite h).ite (h.frame.becomeTimeMaster.ite h))))

theorem State.keeps.allocateOwn {c : Nat} (h : s.keeps t) : s.keeps (t.allocateOwn c) :=
  have k := h.frame.bump.ite h.frame
  k.bump.ite k

theorem State.keeps.freshCycle (h : s.keeps t) : s.keeps t.freshCycle := h.frame

theorem State.keeps.blocksBoundary (h : s.keeps t) : s.keeps t.blocksBoundary :=
  h.stagesSubst.gclBoundary.boundaryClear

theorem State.keeps.epochStep (h : s.keeps t) : s.keeps t.epochStep :=
  h.frame.wr.fetchKeys.ite (h.frame.wr.askKeys.ite h.frame.wr)

theorem State.keeps.followEpoch {e : Nat} (h : s.keeps t) : s.keeps (t.followEpoch e) := h.ite h.frame.wr.fetchKeys

theorem State.keeps.cycleTimes {first : Bool} (h : s.keeps t) : s.keeps (t.cycleTimes first) := h.frame

theorem State.keeps.boundary (h : s.keeps t) : s.keeps t.boundary :=
  have k := (h.ite h.endCycle).holdAll.snapFreeze.mcBoundary.roleStep.cycleTimes
  have k1 := k.wr.commitPoint.wr.masterEffects.linkEffects.allocateOwn.freshCycle.blocksBoundary.epochStep
  h.ite (k1.launch.ite k1).parkedStep.parkedStep.postAll.syncRing

theorem State.keeps.outCheck {a : Nat} (h : s.keeps t) : s.keeps (t.outCheck a).1 := h.ptCheck.iteFst h.liveCheck

theorem State.keeps.pointsOut {l : List Nat} (h : s.keeps t) : s.keeps (t.pointsOut l).1 := by
  induction l generalizing t with
  | nil => exact h
  | cons a l ih => exact ih h.outCheck

theorem State.keeps.readField (h : s.keeps t) : s.keeps t.readField := by
  unfold State.readField
  split
  · exact h
  · exact h.pointsOut.frame

theorem State.keeps.passThru {p : RingPort} {orig m : List Byte} (h : s.keeps t) : s.keeps (t.passThru p orig m) :=
  (h.readField.ite h).forward

theorem State.keeps.measureThru {p : RingPort} {l : List Byte} {n : Nat} (h : s.keeps t) :
    s.keeps (t.measureThru p l n) := h.ite ((h.frame.measure.ite h.frame).ite (h.ite (h.ite h.frame)))

theorem State.keeps.takeFields {b : List Byte} {l : List Field} (h : s.keeps t) : s.keeps (t.takeFields b l) := by
  induction l generalizing t with
  | nil => exact h
  | cons f l ih => exact (ih h.fieldUpdate).ite (ih h)

theorem State.keeps.mcFollow {l : List Byte} (h : s.keeps t) : s.keeps (t.mcFollow l) :=
  ((h.frame.ite h.frame).ite (h.frame.ite h.frame)).ite h

theorem State.keeps.adoptSet {l : List Byte} (h : s.keeps t) : s.keeps (t.adoptSet l) := h.ite (h.frame.ite h)

theorem State.keeps.joinCycle {l : List Byte} (h : s.keeps t) : s.keeps (t.joinCycle l) := h.frame

theorem State.keeps.thruFirst {l : List Byte} (h : s.keeps t) : s.keeps (t.thruFirst l) :=
  have k := ((h.wr.ite h).wr.ite (h.wr.ite h).wr.wr.joinCycle).frame.followEpoch.mcFollow.adoptSet
  have k1 := k.actOn.endTimeMaster.frame.ite k.actOn
  k1.sawReference.ite k1

theorem State.keeps.thruValid {p : RingPort} {l : List Byte} {n : Nat} (h : s.keeps t) :
    s.keeps (t.thruValid p l n) :=
  have k := (h.ite h.thruFirst).measureThru.takeFields
  k.frame.ite k.frame

theorem State.keeps.thruBack {valid : Bool} {l : List Byte} (h : s.keeps t) : s.keeps (t.thruBack valid l) :=
  h.ite h.mcEvaluate.frame.takeFields

theorem State.keeps.openParked {p : RingPort} (h : s.keeps t) : s.keeps (t.openParked p) :=
  (h.setLink.setLink.ite h.setLink).ite h

theorem State.keeps.rivalFrame {p : RingPort} {m : List Byte} (h : s.keeps t) : s.keeps (t.rivalFrame p m) :=
  h.frame.forward.ite h.alarm

theorem State.keeps.thruArrive {p : RingPort} {l : List Byte} {n : Nat} (h : s.keeps t) :
    s.keeps (t.thruArrive p l n) :=
  h.ite (h.openParked.checkCopy.thruBack.ite (h.openParked.checkCopy.rivalFrame.ite (have k :=
      h.openParked.checkCopy.passThru.cutIfDown
k.thruValid.ite k))).askFor.syncRing

theorem State.keeps.staticReadStep {k : Nat} (h : s.keeps t) : s.keeps (t.staticReadStep k) := by
  unfold State.staticReadStep
  split
  · exact h
  · exact h.pointsOut.frame

theorem State.keeps.staticSend {k : Nat} (h : s.keeps t) : s.keeps (t.staticSend k) := by
  unfold State.staticSend
  split
  · exact h.ite h.sendBoth.frame
  · exact h

theorem State.keeps.staticPoints {l : List Byte} {det : Nat} (h : s.keeps t) : s.keeps (t.staticPoints l det) :=
  have k := h.gwEntries.postSources
  k.fieldUpdate.ite k

theorem State.keeps.countEdge {d : Int} (h : s.keeps t) : s.keeps (t.countEdge d) :=
  h.bump.statusCount.ite (h.bump.statusCount.ite h)

theorem State.keeps.staticAccept {p : RingPort} {l : List Byte} {d : Int} (h : s.keeps t) :
    s.keeps (t.staticAccept p l d) :=
  have k := h.frame.staticPoints
  (k.measure.ite k).sawReference.ite k

theorem State.keeps.staticArrive {p : RingPort} {l : List Byte} {ns : Nat} (h : s.keeps t) :
    s.keeps (t.staticArrive p l ns) := by
  refine h.ite (h.checkCopy.ite ?_)
  extract_lets m
  split
  rename_i u _ e
  have k : s.keeps u := h.forward.checkCopy.ofFst e
  extract_lets
  split
  · exact k
  · exact k.countEdge.ite (k.countEdge.frame.ite k.countEdge.staticAccept.syncRing)

theorem State.keeps.holdLimit (h : s.keeps t) : s.keeps t.holdLimit := h.enterSilence.frame

/-! ### Steep -/

theorem State.keeps.setPair {lo hi : Fld} {n : Nat} (h : s.keeps t) : s.keeps (t.setPair lo hi n) := h.wr.ite h.wr

theorem State.keeps.steepInt (h : s.keeps t) : s.keeps t.steepInt := h.raiseBits.ite h

theorem State.keeps.steepAction {n : Nat} (h : s.keeps t) : s.keeps (t.steepAction u n) := by
  unfold State.steepAction
  dsimp only
  split
  · exact h.foldl fun _ _ g => g.outLatch
  · exact h.foldl fun _ _ g => g.inLatch
  · exact h.foldl fun _ _ g => g.peStart
  · exact h.foldl fun _ _ g => g.peRestart
  · exact h.post
  · exact h.mcRequest.ite h
  · exact h.event
  · exact h

theorem State.keeps.steepSpent {n : Nat} (h : s.keeps t) : s.keeps (t.steepSpent n) := h.frame.ite h.frame.wr

theorem State.keeps.steepEnabled {n : Nat} (h : s.keeps t) : s.keeps (t.steepEnabled u n) := h.frame.ite h

theorem State.keeps.steepTrigger {n : Nat} (h : s.keeps t) : s.keeps (t.steepTrigger n) := h.frame

theorem State.keeps.steepFire {n : Nat} (h : s.keeps t) : s.keeps (t.steepFire n) :=
  h.ite (h.bump.steepSpent.ite (have k := h.steepAction.setPair
(k.setPair.ite k).steepSpent.steepTrigger.steepInt))

/-! ### RegRead -/

theorem State.keeps.readPlain {p off : Nat} {d : RegDesc} (h : s.keeps t) : s.keeps (t.readPlain p off d).s :=
  h.setReg

theorem State.keeps.shows {v : Nat} (h : s.keeps t) : s.keepsSome RegRes.s (t.shows v) := .some h

theorem State.keeps.showsReg {p off : Nat} {d : RegDesc} (h : s.keeps t) :
    s.keepsSome RegRes.s (t.showsReg p off d) := .some h.readPlain

theorem State.keeps.readKeeper {off : Nat} {d : RegDesc} (h : s.keeps t) :
    s.keepsSome RegRes.s (t.readKeeper off d) :=
  .ite h.wr.wr.showsReg (.ite h.shows (.ite h.shows (.ite h.shows (.ite h.shows (.ite (.ite (.some h) h.shows)
      .none)))))

theorem State.keeps.readTrace {off : Nat} (h : s.keeps t) : s.keepsSome RegRes.s (t.readTrace off) :=
  .ite h.shows .none

theorem State.keeps.readPcie {off : Nat} (h : s.keeps t) : s.keepsSome RegRes.s (t.readPcie off) := .ite h.shows .none

theorem State.keeps.hnextPop (h : s.keeps t) : s.keeps (t.hnextPop).s := by
  unfold State.hnextPop
  split
  · exact h.setSrc
  · exact h

theorem State.keeps.readLocalBus {who : Initiator} {off : Nat} (h : s.keeps t) :
    s.keepsSome RegRes.s (t.readLocalBus who off) := .ite h.shows (.ite (.some h.hnextPop) (.ite (.some h) .none))

theorem State.keeps.readSnapStatus (h : s.keeps t) : s.keeps (t.readSnapStatus).s := h.frame.iteRes h

theorem State.keeps.readCaddy {off : Nat} {d : RegDesc} (h : s.keeps t) :
    s.keepsSome RegRes.s (t.readCaddy off d) :=
  .ite (.some h.readSnapStatus) (.ite h.shows (.ite h.shows (.ite h.shows (.ite (.some h.popPage) (.ite h.shows (.ite
      (.some h.popCell) (.ite h.shows (.ite h.wr.showsReg .none))))))))

theorem State.keeps.readPour {off : Nat} (h : s.keeps t) : s.keepsSome RegRes.s (t.readPour off) :=
  .ite h.shows (.ite h.shows (.ite h.shows (.ite h.shows (.ite h.shows (.ite h.shows .none)))))

theorem State.keeps.readMailbox {who : Initiator} {off : Nat} {d : RegDesc} (h : s.keeps t) :
    s.keepsSome RegRes.s (t.readMailbox who off d) := by
  refine .ite .none ?_
  split
  · exact h.wr.showsReg
  · exact h.shows
  · exact h.shows
  · exact .some h.mbxPop
  · exact .none

theorem State.keeps.readIcShared {off : Nat} (h : s.keeps t) : s.keepsSome RegRes.s (t.readIcShared off) :=
  .ite h.shows (.ite h.shows .none)

theorem State.keeps.readMover {m off : Nat} (h : s.keeps t) : s.keepsSome RegRes.s (t.readMover m off) :=
  .ite h.shows .none

theorem State.keeps.readBridge {who : Initiator} {off : Nat} (h : s.keeps t) :
    s.keepsSome RegRes.s (t.readBridge who off) := by
  refine .ite (.ite h.shows ?_) .none
  split
  · exact .some (h.semPop.ofFst ‹_›)
  · exact .some h

theorem State.keeps.readSwitch {off : Nat} {d : RegDesc} (h : s.keeps t) :
    s.keepsSome RegRes.s (t.readSwitch off d) := .ite h.wr.showsReg .none

theorem State.keeps.readStrainer {off : Nat} (h : s.keeps t) : s.keepsSome RegRes.s (t.readStrainer off) :=
  .ite h.shows (.ite (.some h.strNext) .none)

theorem State.keeps.readMac {m off : Nat} (h : s.keeps t) : s.keepsSome RegRes.s (t.readMac m off) :=
  .ite h.shows (.ite h.shows (.ite h.shows (.ite h.shows (.ite (.some h.txtsPop) .none))))

theorem State.keeps.readCore {c off : Nat} {d : RegDesc} (h : s.keeps t) :
    s.keepsSome RegRes.s (t.readCore c off d) := .ite h.wr.wr.showsReg (.ite (.some h.coreRam) .none)

theorem State.keeps.readIcCore {c off : Nat} (h : s.keeps t) : s.keepsSome RegRes.s (t.readIcCore c off) :=
  .ite h.shows (.ite h.shows (.ite h.shows (.ite h.shows (.ite h.shows (.ite (.some h.icPop) (.ite h.shows (.ite
      (.some h.icPop) .none)))))))

theorem State.keeps.readEngine {e off : Nat} (h : s.keeps t) : s.keepsSome RegRes.s (t.readEngine e off) :=
  .ite h.shows (.ite (.some h.peRxPop) .none)

theorem State.keeps.readGroup {g off : Nat} (h : s.keeps t) : s.keepsSome RegRes.s (t.readGroup g off) :=
  .ite h.shows .none

theorem State.keeps.readSpecial {who : Initiator} {ty : PageType} {inst off : Nat} {d : RegDesc} (h : s.keeps t) :
    s.keepsSome RegRes.s (t.readSpecial who ty inst off d) := by
  unfold State.readSpecial
  split
  · exact h.readKeeper
  · exact h.readTrace
  · exact h.readPcie
  · exact h.readLocalBus
  · exact h.readCaddy
  · exact h.readPour
  · exact h.readMailbox
  · exact h.readIcShared
  · exact h.readMover
  · exact h.readBridge
  · exact h.readSwitch
  · exact h.readStrainer
  · exact h.readMac
  · exact h.readCore
  · exact h.readIcCore
  · exact h.readEngine
  · exact h.readGroup
  · exact .ite h.wr.wr.showsReg .none
  · exact .none

theorem State.keeps.regRead {who : Initiator} {p off : Nat} (h : s.keeps t) : s.keeps (t.regRead who p off).s := by
  unfold State.regRead
  split
  · exact h
  · split
    · exact h
    · split
      · exact h
      · split
        · exact h.readSpecial.of ‹_›
        · exact h.readPlain

/-! ### RegWrite -/

theorem State.keeps.wrote (h : s.keeps t) : s.keepsSome RegRes.s (t.wrote) := .some h

theorem State.keeps.refuses (h : s.keeps t) : s.keepsSome RegRes.s (t.refuses) := .some h

theorem State.keeps.judged {x : State × Bool} (hx : s.keeps x.1) : s.keepsSome RegRes.s (State.judged x) :=
  .some (hx.iteRes hx)

theorem State.keeps.writePlain {p off : Nat} {d : RegDesc} {v : Word} (h : s.keeps t) :
    s.keeps (t.writePlain p off d v) := h.setReg

theorem State.keeps.clearPage {p : Nat} (h : s.keeps t) : s.keeps (t.clearPage p) :=
  h.withRegs (SMap.wf_filter _ _ _)

theorem State.keeps.movHold {m : Nat} {hold : Bool} (h : s.keeps t) : s.keeps (t.movHold m hold) :=
  (h.wr.movStop.abortNode.ite h.wr).discard.ite h.wr

theorem State.keeps.engineReset {e : Nat} (h : s.keeps t) : s.keeps (t.engineReset e) := h.clearPage.frame

theorem State.keeps.cutSending {m : Nat} (h : s.keeps t) : s.keeps (t.cutSending m) := by
  unfold State.cutSending
  split
  · exact h
  · dsimp only
    split
    · exact h.setSending.ite h.setSending.copyDone
    · exact h.setSending

theorem State.keeps.dropOwn {m : Nat} (h : s.keeps t) : s.keeps (t.dropOwn m) :=
  h.frame.wr.foldl fun _ _ g => g.setQueue

theorem State.keeps.macReset {m : Nat} (h : s.keeps t) : s.keeps (t.macReset m) :=
  have k := h.cutSending.clearPage.dropOwn
  (k.raise.ite k).setMac.macPointers.foldl fun _ _ g => g.completeNode

theorem State.keeps.blockReset {p : Nat} (h : s.keeps t) : s.keeps (t.blockReset p) := by
  unfold State.blockReset
  split
  · exact h
  · dsimp only
    split
    · exact h.movHold.clearPage
    · exact h.engineReset
    · exact (h.foldl fun _ _ g => g.engineReset).clearPage
    · exact h.macReset
    · exact h.clearPage.frame
    · exact h

theorem State.keeps.pageCtrl {p : Nat} {row : PageRow} {lock srst en : Bool} (h : s.keeps t) :
    s.keeps (t.pageCtrl p row lock srst en).s :=
  h.iteRes (((h.wr.ite h).wr.blockReset.wr.iteRes ((h.wr.ite h).wr.blockReset.iteRes (h.wr.ite h).wr)).iteRes
      (h.wr.ite h))

theorem State.keeps.clearCapture {p : Nat} (h : s.keeps t) : s.keeps (t.clearCapture p) := h.wr.wr.wr.syncPage

theorem State.keeps.intClear {p : Nat} {ty : PageType} {v : Nat} (h : s.keeps t) : s.keeps (t.intClear p ty v) :=
  (h.clearCapture.ite h).ite (h.wr.syncPage.steepInt.ite h.wr.syncPage)

theorem State.keeps.intForce {p : Nat} {ty : PageType} {v : Nat} (h : s.keeps t) : s.keeps (t.intForce p ty v) :=
  (h.setReg.setReg.syncPage.ite h).ite h.raiseBits

theorem State.keeps.writeKettle {off : Nat} {v : Word} (h : s.keeps t) :
    s.keepsSome RegRes.s (t.writeKettle off v) :=
  .ite h.ketCtrl.judged (.ite (.ite h.stateReq.judged h.wrote) (.ite h.ketRst.wrote (.ite h.wdogWrite.wrote .none)))

theorem State.keeps.writeWake {who : Initiator} {off : Nat} {d : RegDesc} {v : Word} (h : s.keeps t) :
    s.keepsSome RegRes.s (t.writeWake who off d v) :=
  .ite h.writePlain.vetoCheck.wrote (.ite h.writePlain.wr.vetoCheck.wrote (.ite h.kaOr.wrote (.ite h.tokenWrite.wrote
      .none)))

theorem State.keeps.writeKeeper {off : Nat} {d : RegDesc} {v : Word} (h : s.keeps t) :
    s.keepsSome RegRes.s (t.writeKeeper off d v) := .ite h.writePlain.hostImage.wrote .none

theorem State.keeps.traceGet {i : Nat} (h : s.keeps t) : s.keeps (t.traceGet i).1 := h.wr.iteFst h

theorem State.keeps.writeTrace {who : Initiator} {off : Nat} {v : Word} (h : s.keeps t) :
    s.keepsSome RegRes.s (t.writeTrace who off v) :=
  .ite h.refuses (.ite h.refuses (.ite h.traceGet.judged (.ite (.some h.swData) (.ite (.some h.swCommit) .none))))

theorem State.keeps.writeRing {who : Initiator} {r o : Nat} {en : Bool} {v : Word} (h : s.keeps t) :
    s.keepsSome RegRes.s (t.writeRing who r o en v) := by
  unfold State.writeRing
  dsimp only
  split
  · exact .ite h.refuses .none
  · exact .ite h.refuses .none
  · exact .ite (.ite h.putTail.wrote h.refuses) (.ite h.putGet.wrote h.refuses)
  · exact .none

theorem State.keeps.writePcie {who : Initiator} {off : Nat} {v : Word} (h : s.keeps t) :
    s.keepsSome RegRes.s (t.writePcie who off v) := .ite h.writeRing .none

theorem State.keeps.flashStart {v : Word} (h : s.keeps t) : s.keeps (t.flashStart v) := h.setReg.wr.emit

theorem State.keeps.writeLocalBus {who : Initiator} {off : Nat} {v : Word} (h : s.keeps t) :
    s.keepsSome RegRes.s (t.writeLocalBus who off v) := .ite (.ite h.refuses (.ite h.flashStart.wrote .none)) .none

theorem State.keeps.carveBase {n : Nat} {v : Word} (h : s.keeps t) : s.keeps (t.carveBase n v) :=
  h.wr.wr.wr.wr.ite h.wr.wr.wr.carveAttr

theorem State.keeps.carvePages {n pages : Nat} (h : s.keeps t) : s.keeps (t.carvePages n pages).1 :=
  h.carveRelease.iteFst h.carveCreate

theorem State.keeps.writeSram {off : Nat} {d : RegDesc} {v : Word} (h : s.keeps t) :
    s.keepsSome RegRes.s (t.writeSram off d v) := .ite h.writePlain.wr.wrote .none

theorem State.keeps.writeCaddy {off : Nat} {v : Word} (h : s.keeps t) : s.keepsSome RegRes.s (t.writeCaddy off v) :=
  .ite h.imgCtrlWrite.judged (.ite h.genFree.judged (.ite h.cellFree.judged (.ite (.ite h.carveBase.wrote
      h.carvePages.judged) .none)))

theorem State.keeps.channelPost {c : Nat} {v : Word} (h : s.keeps t) : s.keeps (t.channelPost c v) := h.postAndWait.wr

theorem State.keeps.writePour {off : Nat} {v : Word} (h : s.keeps t) :
    s.keepsSome RegRes.s (t.writePour off v) := by
  refine .ite h.pourCtrl.wrote (.ite h.nodeCtrl.wrote (.ite (.ite h.channelPost.wrote .none) (.ite ?_ .none)))
  split
  · exact (h.ctxWinWrite.ofId ‹_›).wrote
  · exact h.refuses

theorem State.keeps.writeMailbox {who : Initiator} {off : Nat} {v : Word} (h : s.keeps t) :
    s.keepsSome RegRes.s (t.writeMailbox who off v) := by
  refine .ite .none ?_
  split
  · exact .ite h.refuses .none
  · exact .some h.mbxLo
  · exact .some h.mbxHi
  · exact .none

theorem State.keeps.writeIcShared {off : Nat} {v : Word} (h : s.keeps t) :
    s.keepsSome RegRes.s (t.writeIcShared off v) :=
  .ite h.icStrig.wrote (.ite h.icSeoi.wrote (.ite (.some h.icRoute) .none))

theorem State.keeps.writeBridge {who : Initiator} {off : Nat} {v : Word} (h : s.keeps t) :
    s.keepsSome RegRes.s (t.writeBridge who off v) := by
  refine .ite (.ite h.refuses (.ite ?_ h.wrote)) .none
  split
  · exact (h.semRelease.ofId ‹_›).wrote
  · exact h.refuses

theorem State.keeps.writeGateway {off : Nat} {d : RegDesc} {v : Word} (h : s.keeps t) :
    s.keepsSome RegRes.s (t.writeGateway off d v) :=
  .ite (h.writePlain.ite h.writePlain.frame).wrote (.ite (h.heartbeat.ite h).wrote (.ite h.forceWrite.wrote .none))

theorem State.keeps.writeTime {off : Nat} {v : Word} (h : s.keeps t) : s.keepsSome RegRes.s (t.writeTime off v) :=
  .ite h.tbCtrlWrite.wrote (.ite h.capturedTime.wrote (.ite h.setRate.wrote (.ite (.some h.stepWrite) .none)))

theorem State.keeps.writeSteep {off : Nat} {d : RegDesc} {v : Word} (h : s.keeps t) :
    s.keepsSome RegRes.s (t.writeSteep off d v) :=
  .ite (have k := h.steepKeep.writePlain
.ite k.steepEnabled.wrote (.ite h.refuses k.wrote)) (.ite h.writePlain.steepInt.wrote .none)

theorem State.keeps.writeSwitch {who : Initiator} {off : Nat} {x : RegDesc} {v : Word} (h : s.keeps t) :
    s.keepsSome RegRes.s (t.writeSwitch who off x v) := .ite h.fdbSel.judged (.ite h.writeRing .none)

theorem State.keeps.macCtrl {m : Nat} {d : RegDesc} {v : Word} (h : s.keeps t) : s.keeps (t.macCtrl m d v).1 :=
  h.iteFst h.writePlain.linkByCtrl

theorem State.keeps.writeMac {who : Initiator} {m off : Nat} {d : RegDesc} {v : Word} (h : s.keeps t) :
    s.keepsSome RegRes.s (t.writeMac who m off d v) :=
  .ite h.macCtrl.judged (.ite h.writePlain.macPointers.wrote (.ite h.gclCtrl.wrote (.ite h.refuses (.ite h.writeRing
      .none))))

theorem State.keeps.writeCan {who : Initiator} {c off : Nat} {v : Word} (h : s.keeps t) :
    s.keepsSome RegRes.s (t.writeCan who c off v) :=
  .ite h.canCtrl.judged (.ite h.refuses (.ite h.rxAck.judged (.ite h.rxAck.judged (.ite h.canRequest.wrote (.ite
      h.canAbort.wrote (.ite (h.wr.wr.ite h).wrote .none))))))

theorem State.keeps.writeCore {who : Initiator} {c off : Nat} {v : Word} (h : s.keeps t) :
    s.keepsSome RegRes.s (t.writeCore who c off v) := .ite h.coreCtrl.judged (.ite (.some h.coreRam) .none)

theorem State.keeps.writeIcCore {c off : Nat} {d : RegDesc} {v : Word} (h : s.keeps t) :
    s.keepsSome RegRes.s (t.writeIcCore c off d v) :=
  .ite h.icPtrig.wrote (.ite h.icEoi.wrote (.ite h.dbClear.wrote (.ite h.dbSet.wrote (.ite
      h.writePlain.syncDoorbells.wrote .none))))

theorem State.keeps.writeEngine {e off : Nat} {v : Word} (h : s.keeps t) :
    s.keepsSome RegRes.s (t.writeEngine e off v) :=
  .ite h.ectrl.wrote (.ite h.refuses (.ite h.refuses (.ite (.some h.peTxPush) (.ite h.peStage.wrote (.ite
      h.keepZero.wr.wrote .none)))))

theorem State.keeps.writeGroup {g off : Nat} {v : Word} (h : s.keeps t) :
    s.keepsSome RegRes.s (t.writeGroup g off v) :=
  .ite h.groupStart.wrote (.ite h.groupRestart.wrote (.ite (have k := h.inLatch.ite h
(k.outLatch.ite k).wrote) .none))

theorem State.keeps.writeSpecial {who : Initiator} {ty : PageType} {inst off : Nat} {d : RegDesc} {v : Word}
    (h : s.keeps t) :
    s.keepsSome RegRes.s (t.writeSpecial who ty inst off d v) := by
  unfold State.writeSpecial
  split
  · exact h.writeKettle
  · exact h.writeWake
  · exact h.writeKeeper
  · exact h.writeTrace
  · exact h.writePcie
  · exact h.writeLocalBus
  · exact h.writeSram
  · exact h.writeCaddy
  · exact h.writePour
  · exact h.writeMailbox
  · exact h.writeIcShared
  · exact .ite h.movHold.wrote .none
  · exact .ite h.lnkCtrl.wrote (.ite h.coldCtrl.wrote .none)
  · exact .ite h.tsWrite.wrote (.ite h.mcCtrl.wrote .none)
  · exact h.writeBridge
  · exact h.writeGateway
  · exact h.writeTime
  · exact h.writeSteep
  · exact h.writeSwitch
  · exact .ite h.strLo.wrote (.ite h.strHi.wrote .none)
  · exact h.writeMac
  · exact h.writeCan
  · exact h.writeCore
  · exact h.writeIcCore
  · exact h.writeEngine
  · exact h.writeGroup
  · exact .none

theorem State.keeps.writeBlock {who : Initiator} {p off : Nat} {row : PageRow} {d : RegDesc} {v : Word}
    (h : s.keeps t) :
    s.keeps (t.writeBlock who p off row d v).s := by
  refine h.iteRes (h.iteRes ?_)
  split
  · exact h.writeSpecial.of ‹_›
  · exact h.writePlain

theorem State.keeps.writeCommon {who : Initiator} {p off : Nat} {row : PageRow} {v : Word} (h : s.keeps t) :
    s.keeps (t.writeCommon who p off row v).s :=
  (h.iteRes h.pageCtrl).iteRes (h.intClear.iteRes (h.wr.syncPage.iteRes (h.intForce.iteRes ((h.clearCapture.ite
      h).iteRes h))))

theorem State.keeps.regWrite {who : Initiator} {p off : Nat} {v : Word} (h : s.keeps t) :
    s.keeps (t.regWrite who p off v).s := by
  unfold State.regWrite
  split
  · exact h
  · split
    · exact h
    · exact h.iteRes (h.writeCommon.iteRes h.writeBlock)

/-! ### Bus -/

theorem State.keeps.localWriteAll {w : Writer} {i v n : Nat} (h : s.keeps t) : s.keeps (t.localWriteAll w i v n) := by
  induction n generalizing t i v with
  | zero => exact h
  | succ n ih => exact ih h.acceptPt

theorem State.keeps.liveWriteAll {w : Writer} {a v n : Nat} (h : s.keeps t) : s.keeps (t.liveWriteAll w a v n) := by
  induction n generalizing t a v with
  | zero => exact h
  | succ n ih => exact ih h.writeLive

theorem State.keeps.busErr {who : Initiator} {dflt : Nat} {write : Bool} {size cause a : Nat} (h : s.keeps t) :
    s.keeps (t.busErr who dflt write size cause a).1 := h.accessError

theorem State.keeps.regAnswer {r : RegRes} {who : Initiator} {write : Bool} {a : Nat} (hr : s.keeps r.s) :
    s.keeps (State.regAnswer r who write a).1 := by
  unfold State.regAnswer
  split
  · exact hr
  · exact hr.busErr

theorem State.keeps.readRange {who : Initiator} {r : Range} {a n : Nat} (h : s.keeps t) :
    s.keeps (t.readRange who r a n).1 := by
  unfold State.readRange
  dsimp only
  split
  · split
    · exact h.busErr
    · split
      · exact h.rawRead.ofFst ‹_›
      · exact (h.rawRead.ofFst ‹_›).busErr
  · refine h.busErr.iteFst ?_
    split
    · exact h.sramRead.ofFst ‹_›
    · exact (h.sramRead.ofFst ‹_›).busErr
  · exact h
  · split
    · exact h.liveCheck.ofFst ‹_›
    · exact (h.liveCheck.ofFst ‹_›).busErr
  · exact h.snapCheck
  · split
    · exact h.localCheck.ofFst ‹_›
    · exact (h.localCheck.ofFst ‹_›).busErr
  · split
    · split <;> exact h.coreRead.ofFst ‹_›
    · exact h.busErr

theorem State.keeps.busRead {who : Initiator} {a n : Nat} {stall : Bool} (h : s.keeps t) :
    s.keeps (t.busRead who a n stall).1 := by
  unfold State.busRead
  split
  · exact h.busErr
  · exact h.remoteWait.iteFst h.bridgeIssue
  · exact h.busErr.iteFst (h.busErr.iteFst ((h.iteFst h.regRead.regAnswer).iteFst h.readRange))

theorem State.keeps.writeRange {who : Initiator} {r : Range} {a n v : Nat} (h : s.keeps t) :
    s.keeps (t.writeRange who r a n v).1 := by
  unfold State.writeRange
  dsimp only
  split
  · split
    · exact h.busErr
    · exact h.rawWrite
  · exact h.busErr.iteFst h.sramWrite
  · split
    · exact (h.rejectPt.ite h).busErr
    · exact h.liveWriteAll
  · exact h.localWriteAll.iteFst h.rejectPt.busErr
  · split
    · exact h.coreWrite
    · exact h.busErr
  · split
    · exact h.coreWrite
    · exact h.busErr
  · exact h.busErr

theorem State.keeps.busWrite {who : Initiator} {a n v : Nat} {stall : Bool} (h : s.keeps t) :
    s.keeps (t.busWrite who a n v stall).1 := by
  unfold State.busWrite
  split
  · exact h.busErr
  · exact h.remoteWait.iteFst h.bridgeIssue
  · exact h.busErr.iteFst (h.busErr.iteFst ((h.iteFst (h.requestDom.iteFst h.regWrite.regAnswer)).iteFst
      h.writeRange))

theorem State.keeps.answered {r : State × AccRes} (hr : s.keeps r.1) : s.keeps (answered r) := by
  unfold Machine.answered
  split
  · exact hr.ok
  · exact hr.err
  · exact hr

theorem State.keeps.readReg {who : Initiator} {a : Nat} (h : s.keeps t) : s.keeps (t.readReg who a) :=
  h.busRead.answered

theorem State.keeps.writeReg {who : Initiator} {a : Nat} {v : Word} (h : s.keeps t) :
    s.keeps (t.writeReg who a v) := h.busWrite.answered

/-! ### CoreOps -/

theorem State.keeps.updCore {c : Nat} {f : CoreState → CoreState} (h : s.keeps t) : s.keeps (t.updCore c f) :=
  h.setCore

theorem State.keeps.retireTo {c : Nat} {target : Word} (h : s.keeps t) : s.keeps (t.retireTo c target) := h.wr.updCore

theorem State.keeps.begin {c : Nat} (h : s.keeps t) : s.keeps (t.begin c) := h.updCore

theorem State.keeps.retire {c len : Nat} (h : s.keeps t) : s.keeps (t.retire c len) := h.retireTo

theorem State.keeps.lockup {c : Nat} {epc addr cause : Word} (h : s.keeps t) :
    s.keeps (t.lockup c epc addr cause) :=
  have k := h.updCore.wr.wr.wr.wr.pulse.alarm
  k.resetNow.ite k

theorem State.keeps.fault {c v : Nat} {epc : Word} {addr : Option Word} {impr ecc : Bool} (h : s.keeps t) :
    s.keeps (t.fault c v epc addr impr ecc) := h.lockup.ite h.updCore.bump.statusCount

theorem State.keeps.faultHere {c v : Nat} {addr : Option Word} {ecc : Bool} (h : s.keeps t) :
    s.keeps (t.faultHere c v addr ecc) := h.fault

theorem State.keeps.fetch {c : Nat} {l : List Word} (h : s.keeps t) : s.keeps (t.fetch c l).1 := by
  induction l generalizing t with
  | nil => exact h
  | cons a l ih =>
    unfold State.fetch
    refine State.keeps.iteFst ?_ h
    split
    · exact ih (h.coreCheck.ofFst ‹_›)
    · exact h.coreCheck.ofFst ‹_›

theorem State.keeps.vectorFetch {c : Nat} (h : s.keeps t) : s.keeps (t.vectorFetch c) := by
  unfold State.vectorFetch
  dsimp only
  split
  · exact h.fetch.ofFst ‹_›
  · exact (h.fetch.ofFst ‹_›).updCore.fault

theorem State.keeps.enter {c : Nat} {urgent : Bool} (h : s.keeps t) : s.keeps (t.enter c urgent) :=
  h.updCore.vectorFetch

theorem State.keeps.entryEnd {c : Nat} (h : s.keeps t) : s.keeps (t.entryEnd c) := by
  unfold State.entryEnd
  split
  · exact h
  · exact h.updCore.ite (h.updCore.bump.ite h.updCore.bump)

theorem State.keeps.takeStoreError {c : Nat} (h : s.keeps t) : s.keeps (t.takeStoreError c) := by
  unfold State.takeStoreError
  dsimp only
  split
  · exact h.ite h.updCore.fault
  · exact h

theorem State.keeps.taken {c : Nat} (h : s.keeps t) : s.keepsSome id (t.taken c) := by
  refine .ite (.ite (.some h.takeStoreError) ?_) .none
  rintro u e
  obtain ⟨l, -, rfl⟩ := Option.map_eq_some_iff.mp e
  exact h.enter

theorem State.keeps.execute {k : Head} {len : Nat} {defined : Bool} {f : State → State}
    (h : s.keeps t) (hf : ∀ u, s.keeps u → s.keeps (f u)) :
    s.keeps (t.execute k len defined f) := by
  unfold State.execute
  split
  · exact (h.fetch.ofFst ‹_›).fault
  · exact (h.fetch.ofFst ‹_›).faultHere.ite ((hf _ (h.fetch.ofFst ‹_›)).ite (h.fetch.ofFst ‹_›).retire)

theorem State.keeps.instr {k : Head} {len : Nat} {defined : Bool} {f : State → State} (h : s.keeps t)
    (hf : ∀ u, s.keeps u → s.keeps (f u)) : s.keepsNext (t.instr k len defined f) :=
  h.powered ((h.entryEnd.taken.getD (h.entryEnd.execute hf)).ite h)

theorem State.keeps.regInstr {k : Head} {len : Nat} {f : CoreState → CoreState} (h : s.keeps t) :
    s.keepsNext (t.regInstr k len f) := h.instr (fun _ g => g.updCore.retire)

theorem State.keeps.load {c a n : Nat} {align : Bool} {f : State → Nat → State}
    (h : s.keeps t) (hf : ∀ u a, s.keeps u → s.keeps (f u a)) :
    s.keeps (t.load c a n align f) := by
  refine h.faultHere.ite (h.begin.ite ?_)
  split
  · exact hf _ _ (h.busRead.ofFst ‹_›)
  · exact (h.busRead.ofFst ‹_›).faultHere
  · exact (h.busRead.ofFst ‹_›).begin

theorem State.keeps.store {c len a n v : Nat} (h : s.keeps t) : s.keeps (t.store c len a n v) := by
  refine h.faultHere.ite (h.begin.ite (h.frame.retire.ite ?_))
  split
  · exact (h.busWrite.ofFst ‹_›).retire.ite (h.busWrite.ofFst ‹_›)
  · exact (h.busWrite.ofFst ‹_›).faultHere.ite (h.busWrite.ofFst ‹_›).storeFailed.retire
  · exact (h.busWrite.ofFst ‹_›).retire.ite (h.busWrite.ofFst ‹_›).frame.retire

theorem State.keeps.storesTick (h : s.keeps t) : s.keeps t.storesTick := by
  unfold State.storesTick
  split
  · exact h
  · dsimp only
    split
    · exact h.frame.busWrite.ofFst ‹_›
    · exact (h.frame.busWrite.ofFst ‹_›).ite (h.frame.busWrite.ofFst ‹_›).storeFailed
    · exact (h.frame.busWrite.ofFst ‹_›).updReq.ite (h.frame.busWrite.ofFst ‹_›).frame

/-! ### Alu -/

theorem State.keeps.aluInstr {k : Head} {o : AluForm} {op : Flags → Word → Word → Word × Flags} (h : s.keeps t) :
    s.keepsNext (t.aluInstr k o op) := h.regInstr

/-! ### Branch -/

theorem State.keeps.jump {k : Head} {len : Nat} {target : CoreState → Word} {f : CoreState → CoreState}
    (h : s.keeps t) :
    s.keepsNext (t.jump k len target f) := h.instr (fun _ g => g.updCore.retireTo)

theorem State.keeps.putWords {c a : Nat} {l : List Word} (h : s.keeps t) : s.keeps (t.putWords c a l) := by
  induction l generalizing t a with
  | nil => exact h
  | cons w l ih => exact ih h.coreWrite

theorem State.keeps.getWords {c a n : Nat} (h : s.keeps t) : s.keeps (t.getWords c a n).1 := by
  induction n generalizing t a with
  | zero => exact h
  | succ n ih =>
    unfold State.getWords
    split
    · exact h.coreRead.ofFst ‹_›
    · exact ih (h.coreRead.ofFst ‹_›)

theorem State.keeps.call {c : Nat} {o : CallForm} (h : s.keeps t) : s.keeps (t.call c o) :=
  h.faultHere.ite (h.putWords.updCore.retireTo.ite h.faultHere)

theorem State.keeps.unframe {c sp mask : Nat} (h : s.keeps t) : s.keeps (t.unframe c sp mask) := by
  unfold State.unframe
  dsimp only
  split
  · exact (h.getWords.ofFst ‹_›).updCore.retireTo
  · exact (h.getWords.ofFst ‹_›).faultHere

theorem State.keeps.ret {c : Nat} (h : s.keeps t) : s.keeps (t.ret c) := by
  refine h.faultHere.ite (h.faultHere.ite ?_)
  split
  · exact (h.coreRead.ofFst ‹_›).faultHere
  · exact (h.coreRead.ofFst ‹_›).unframe.ite (h.coreRead.ofFst ‹_›).faultHere

/-! ### RegRows -/

theorem State.keeps.rowWrite {who : Initiator} {f : Fld} {v inst idx : Nat} (h : s.keeps t) :
    s.keeps (t.rowWrite who f v inst idx) := h.writeReg.ite h

theorem State.keeps.rowRead {who : Initiator} {f : Fld} {inst idx : Nat} (h : s.keeps t) :
    s.keeps (t.rowRead who f inst idx) := h.readReg.ite h

theorem State.keeps.pageWrite {who : Initiator} {p off v : Nat} (h : s.keeps t) :
    s.keeps (t.pageWrite who p off v) := h.writeReg.ite h

/-! ### MemRows -/

theorem State.keeps.execCcRamAccess {who : Initiator} {core : Nat} {value : Option Word} (h : s.keeps t) :
    s.keepsNext (execCcRamAccess who core value t) := by
  refine h.powered ?_
  split
  · exact h.rowRead
  · exact h.rowWrite

theorem State.keeps.execBridgeAccess {who : Initiator} {addr size : Nat} {value : Option Nat} (h : s.keeps t) :
    s.keepsNext (execBridgeAccess who addr size value t) := by
  refine h.powered ((State.keeps.answered ?_).ite h)
  split
  · exact h.busRead
  · exact h.busWrite

/-! ### Movers -/

theorem State.keeps.issued {m : Nat} {err : Bool} (h : s.keeps t) : s.keeps (t.issued m err) := h.setMov

theorem State.keeps.issueReads {m : Nat} {l : List MovRead} (h : s.keeps t) : s.keeps (t.issueReads m l) := by
  induction l generalizing t with
  | nil => exact h.issued
  | cons r l ih =>
    refine h.ite ?_
    split
    · exact ih h.setMov
    · split
      · exact ih (h.busRead.ofFst ‹_›).setMov
      · exact (h.busRead.ofFst ‹_›).issued
      · exact (h.busRead.ofFst ‹_›).setMov

theorem State.keeps.pointIssue {m : Nat} (h : s.keeps t) : s.keeps (t.pointIssue m) := h.issueReads.ite h

theorem State.keeps.pointWrites {m done : Nat} {l : List MovWrite} (h : s.keeps t) :
    s.keeps (t.pointWrites m done l).1 := by
  induction l generalizing t done with
  | nil => exact h
  | cons w l ih =>
    unfold State.pointWrites
    dsimp only
    split
    · exact ih (h.busWrite.ofFst ‹_›)
    · exact h.busWrite.ofFst ‹_›
    · exact h.busWrite.ofFst ‹_›

theorem State.keeps.pointCount {m : Nat} {p : PipePoint} {good : Bool} (h : s.keeps t) :
    s.keeps (t.pointCount m p good) :=
  have k := h.bump.bump.statusCount.ite h.bump
  have k1 := k.bump.ite k
  have k2 := k1.ite k1.bump.statusCount
  k2.setMov.ite k2

theorem State.keeps.lateReads {m : Nat} {p : PipePoint} {l : List MovRead} (h : s.keeps t) :
    s.keeps (t.lateReads m p l).1 := by
  induction l generalizing t p with
  | nil => exact h
  | cons r l ih =>
    unfold State.lateReads
    split
    split
    · exact ih (h.busRead.ofFst ‹_›)
    · exact h.busRead.ofFst ‹_›
    · exact h.busRead.ofFst ‹_›

theorem State.keeps.pointWrite {m : Nat} {collide : Bool} (h : s.keeps t) : s.keeps (t.pointWrite m collide) := by
  unfold State.pointWrite
  split
  · exact h
  · split
    rename_i u p _ e
    have k : s.keeps u := h.lateReads.ofFst e
    extract_lets
    refine k.setMov.ite (k.setMov.pointCount.ite ?_)
    extract_lets
    split
    rename_i v r _ e1
    have kv : s.keeps v := k.setMov.pointWrites.ofFst e1
    extract_lets _ v1 _ w
    have kw : s.keeps w := State.keeps.setMov (kv.bump.ite kv)
    split
    · exact kw.setMov
    · exact kw.setMov.pointCount

theorem State.keeps.loadSlot {k : Nat} (h : s.keeps t) : s.keeps (t.loadSlot k) := h.setSlot.ite h.setSlot

theorem State.keeps.moverTake {m : Nat} (h : s.keeps t) : s.keeps (t.moverTake m) :=
  have k := h.takeSlot.setMov
  k.ite k.bump.capture

theorem State.keeps.moverComplete {m : Nat} (h : s.keeps t) : s.keeps (t.moverComplete m) :=
  h.setMov.completeNode.ite h

/-! ### SysInstr -/

theorem State.keeps.endOp {c : Nat} (h : s.keeps t) : s.keeps (t.endOp c) := (h.ite h.writeBack).updCore.bump

theorem State.keeps.detachNode {n ctx : Nat} (h : s.keeps t) : s.keeps (t.detachNode n ctx) := h.setNodeState.frame

theorem State.keeps.handOver {n ctx : Nat} (h : s.keeps t) : s.keeps (t.handOver n ctx) := by
  unfold State.handOver
  dsimp only
  split
  · exact h.detachNode.setMac.macDetachEnd
  · exact h.detachNode.setCan.canDetachEnd
  · exact h.completeNode

theorem State.keeps.finish {c len : Nat} {fin : State → State}
    (h : s.keeps t) (hfin : ∀ u, s.keeps u → s.keeps (fin u)) :
    s.keeps (t.finish c len fin) := h.faultHere.ite (h.begin.ite (h.takeStoreError.ite (hfin _ h.retire.endOp)))

theorem State.keeps.rete {c : Nat} (h : s.keeps t) : s.keeps (t.rete c) := h.faultHere.ite h.retireTo.updCore

theorem State.keeps.coreWait {c len : Nat} (h : s.keeps t) : s.keeps (t.coreWait c len) :=
  h.retire.updCore.ite h.faultHere

theorem State.keeps.trapAfter {c len v : Nat} {addr : Option Word} (h : s.keeps t) :
    s.keeps (t.trapAfter c len v addr) := h.retire.faultHere

theorem State.keeps.coreBreak {c len : Nat} (h : s.keeps t) : s.keeps (t.coreBreak c len) :=
  h.retire.updCore.ite h.trapAfter

theorem State.keeps.execMfs {k : Head} {rd sr : Nat} (h : s.keeps t) : s.keepsNext (execMfs k rd sr t) := by
  refine h.instr (fun _ g => ?_)
  split
  · exact g.updCore.retire
  · exact g.faultHere

theorem State.keeps.execMts {k : Head} {rd sr : Nat} (h : s.keeps t) : s.keepsNext (execMts k rd sr t) := by
  refine h.instr (fun _ g => ?_)
  split
  · exact g.setCore.retire
  · exact g.faultHere

/-! ### CoreEvents -/

theorem State.keeps.execUndefinedEncoding {core : Nat} {h0 h1 : Half} (h : s.keeps t) :
    s.keepsNext (execUndefinedEncoding core h0 h1 t) := by
  unfold Machine.execUndefinedEncoding
  split
  · exact h.instr (fun _ g => g)
  · exact .next h

theorem State.keeps.execInterruptTake {core : Nat} {urgent : Bool} (h : s.keeps t) :
    s.keepsNext (execInterruptTake core urgent t) := by
  refine h.powered (h.ite ((h.wakeCore.ite h).ite (h.entryEnd.ite ?_)))
  split
  · exact h.entryEnd
  · exact h.entryEnd.enter.ite h

theorem State.keeps.freshBinding {ctx : Nat} (h : s.keeps t) : s.keeps (t.freshBinding ctx) :=
  (h.foldl fun _ _ g => g.setMac).foldl fun _ _ g1 => g1.setCan

theorem State.keeps.coreTake {c : Nat} (h : s.keeps t) : s.keeps (t.coreTake c) := h.takeSlot.freshBinding.updCore

/-! ### Host -/

theorem State.keeps.noTarget {who : Initiator} {write : Bool} {size : Nat} (h : s.keeps t) :
    s.keeps (t.noTarget who write size) := h.free.accessError

theorem State.keeps.readPiece {who : Initiator} {f : Mapping} {lead : Nat} {en : List Bool} {p : Piece}
    (h : s.keeps t) :
    s.keeps (t.readPiece who f lead en p).1 := by
  unfold State.readPiece
  dsimp only
  split
  · exact h.noTarget
  · refine h.accessError.iteFst ?_
    split <;> exact h.busRead.ofFst ‹_›

theorem State.keeps.readPieces {who : Initiator} {f : Mapping} {lead : Nat} {en : List Bool} {l : List Piece}
    (h : s.keeps t) : s.keeps (t.readPieces who f lead en l).1 := by
  induction l generalizing t with
  | nil => exact h
  | cons p l ih => exact ih h.readPiece

theorem State.keeps.writePieces {who : Initiator} {f : Mapping} {byte : Nat → Byte} {l : List Piece}
    (h : s.keeps t) : s.keeps (t.writePieces who f byte l) := by
  induction l generalizing t with
  | nil => exact h
  | cons p l ih =>
    refine ih ?_
    split
    · exact h.noTarget
    · exact h.accessError.ite h.busWrite

theorem State.keeps.startRead {r : HostRead} (h : s.keeps t) : s.keeps (t.startRead r) := h.frame.hostFlush

theorem State.keeps.hostAssert {which : Nat} (h : s.keeps t) : s.keeps (t.hostAssert which) := by
  unfold State.hostAssert
  split
  · exact h.free.wakeSeen
  · exact h
  · exact h.wakeSeen

theorem State.keeps.pcieEnd {status : Nat} (h : s.keeps t) : s.keeps (t.pcieEnd status) := h.emit

theorem State.keeps.putRuns {l : List (List (Nat × Byte))} (h : s.keeps t) : s.keeps (t.putRuns l) := h.frame

theorem State.keeps.startRun {a : Nat} (h : s.keeps t) : s.keeps (t.startRun a) := h.putRuns.ite h

theorem State.keeps.pcieRead {bar off : Nat} {en : List Bool} (h : s.keeps t) :
    s.keeps (t.pcieRead bar off en) := by
  unfold State.pcieRead
  dsimp only
  split
  · exact h.startRead
  · refine have k := h.readPieces.startRead; State.keeps.ite ?_ k
    split
    · exact k.startRun
    · exact k

theorem State.keeps.pcieWrite {bar off : Nat} {data : List (Option Byte)} (h : s.keeps t) :
    s.keeps (t.pcieWrite bar off data) := h.writePieces

theorem State.keeps.header {n : Nat} (h : s.keeps t) : s.keeps (t.header n).1 := h.free

theorem State.keeps.pcieServe {r : PcieReq} (h : s.keeps t) : s.keeps (t.pcieServe r) := by
  unfold State.pcieServe
  split
  · exact h.pcieRead.ite h.pcieEnd
  · exact h.pcieWrite.ite h.pcieEnd
  · exact h.pcieEnd
  · exact h.pcieEnd
  · exact h.pcieEnd
  · next n => exact (h.header (n := n)).emit
  · exact h.wr.pcieEnd
  · exact h.wr.wr.pcieEnd
  · exact h.wr.pcieEnd
  · exact h.frame.pcieEnd

theorem State.keeps.endpointReset (h : s.keeps t) : s.keeps t.endpointReset :=
  h.withRegs fun g => SMap.wf_erase _ _ _ (SMap.wf_filter _ _ _ g)

theorem State.keeps.perstLow (h : s.keeps t) : s.keeps t.perstLow := h.linkLost.endpointReset.frame

theorem State.keeps.linkIn {low : Bool} {lanes rate : Nat} (h : s.keeps t) : s.keeps (t.linkIn low lanes rate) :=
  h.ite h.wr.wr.linkUp.frame

theorem State.keeps.execPcieLinkChange {link : PcieLink} {lanes rate : Nat} (h : s.keeps t) :
    s.keepsNext (execPcieLinkChange link lanes rate t) := by
  refine h.powered ?_
  split
  · exact h.linkLost
  · exact h.linkIn
  · exact h.linkIn
  · exact h.linkIn

theorem State.keeps.msixSend (h : s.keeps t) : s.keeps t.msixSend := by
  unfold State.msixSend
  split
  · exact h
  · exact h.emit.setSrc

theorem State.keeps.spiBegin (h : s.keeps t) : s.keeps t.spiBegin := h.frame.hostAssert.emit

theorem State.keeps.spiMisaligned {write : Bool} {size a : Nat} (h : s.keeps t) :
    s.keeps (t.spiMisaligned write size a) := h.accessError

theorem State.keeps.spiElements {a n k : Nat} (h : s.keeps t) : s.keeps (t.spiElements a n k).1 := by
  induction k generalizing t a with
  | zero => exact h
  | succ k ih => exact ih h.readPieces

theorem State.keeps.spiFetch {a n count : Nat} (h : s.keeps t) : s.keeps (t.spiFetch a n count) :=
  h.spiElements.startRead

theorem State.keeps.spiPut {a n : Nat} {l : List (List Byte)} (h : s.keeps t) : s.keeps (t.spiPut a n l) := by
  induction l generalizing t a with
  | nil => exact h
  | cons e l ih => exact ih h.writePieces

theorem State.keeps.lbError (h : s.keeps t) : s.keeps t.lbError := h.bump.raise

theorem State.keeps.gw {f : HostState → HostState} (h : s.keeps t) : s.keeps (t.gw f) := h.frame

theorem State.keeps.gwOut {v : Nat} (h : s.keeps t) : s.keeps (t.gwOut v) := h.emit

theorem State.keeps.gwHold (h : s.keeps t) : s.keeps t.gwHold := h.emit

theorem State.keeps.gwNext (h : s.keeps t) : s.keeps t.gwNext := h.gw.ite h

theorem State.keeps.gwFetch (h : s.keeps t) : s.keeps t.gwFetch := by
  refine have k := State.keeps.startRead ?_; k.ite k.gwHold
  split <;> exact h.busRead.ofFst ‹_›

theorem State.keeps.gwDo {op : GwOp} (h : s.keeps t) : s.keeps (t.gwDo op) := by
  unfold State.gwDo
  split
  · exact h.gwOut
  · exact h.gw
  · exact h.gwOut
  · exact h.gw
  · exact h.gwFetch
  · exact h.gw
  · exact h.gwOut.gwNext
  · exact h.busWrite.gwNext
  · exact h.gwOut.gw
  · exact h.gw
  · exact h.gwOut
  · exact h

theorem State.keeps.hostTake {r : HostReq} (h : s.keeps t) : s.keeps (t.hostTake r) := by
  unfold State.hostTake
  split
  · exact h.pcieServe
  · exact h.spiFetch
  · exact h.spiPut
  · exact h.gwDo

theorem State.keeps.hostServe {stuck : List Initiator} {l : List HostReq} (h : s.keeps t) :
    s.keeps (t.hostServe stuck l).1 := by
  induction l generalizing t stuck with
  | nil => exact h
  | cons r l ih =>
    unfold State.hostServe
    split
    · exact ih (h.requestDom.ite h)
    · exact ih h.hostTake

theorem State.keeps.hostDrain (h : s.keeps t) : s.keeps t.hostDrain := h.hostServe.frame

theorem State.keeps.hostOffer {r : HostReq} (h : s.keeps t) : s.keeps (t.hostOffer r) := h.frame.hostDrain

theorem State.keeps.spiRead {size count a : Nat} (h : s.keeps t) : s.keeps (t.spiRead size count a) :=
  h.ite (h.spiBegin.spiMisaligned.emit.ite h.spiBegin.hostOffer)

theorem State.keeps.spiWrite {size count a : Nat} {data : List Byte} (h : s.keeps t) :
    s.keeps (t.spiWrite size count a data) := h.ite (h.spiBegin.spiMisaligned.ite h.spiBegin.hostOffer.frame)

theorem State.keeps.spiStatus (h : s.keeps t) : s.keeps t.spiStatus := h.ite h.spiBegin.frame.emit

theorem State.keeps.spiRise (h : s.keeps t) : s.keeps t.spiRise := h.frame.dropReads.dropWaits.emit

theorem State.keeps.lbRead {a be : Nat} {collide : Bool} (h : s.keeps t) : s.keeps (t.lbRead a be collide) := by
  refine h.free.bump.emit.ite ?_
  split
  · exact (h.sramRead.ofFst ‹_›).emit
  · exact (h.sramRead.ofFst ‹_›).capture.lbError.emit

theorem State.keeps.lbWrite {a be : Nat} {v : Half} {collide : Bool} (h : s.keeps t) :
    s.keeps (t.lbWrite a be v collide) := by
  unfold State.lbWrite
  dsimp only
  split
  · exact (h.bump.ite h).sramWrite
  · exact (h.bump.ite h).sramWrite
  · exact (h.bump.ite h).sramWrite
  · exact (h.bump.ite h)

theorem State.keeps.lbAccess {a be : Nat} {oe : Bool} {data : Option Half} {collide : Bool} (h : s.keeps t) :
    s.keeps (t.lbAccess a be oe data collide) := by
  refine h.ite ?_
  split
  · exact h.lbRead
  · exact h.lbWrite
  · exact h

theorem State.keeps.gwCycle {full : Bool} {op : GwOp} (h : s.keeps t) : s.keeps (t.gwCycle full op) :=
  h.ite ((h.hostOffer.gwHold.ite h.hostOffer).ite h.gw.lbError)

theorem State.keeps.gwRow {full : Bool} {op : GwOp} (h : s.keeps t) : s.keepsNext (t.gwRow full op) :=
  .next (h.hostAssert.gwCycle.ite h.hostAssert)

theorem State.keeps.dualSelect (h : s.keeps t) : s.keeps t.dualSelect := h.ite h.dropReads.dropWaits.lbError

theorem State.keeps.flashFill {data : List Byte} (h : s.keeps t) : s.keeps (t.flashFill data) :=
  h.foldl fun _ _ g => g.setReg

/-! ### LoadStore -/

theorem State.keeps.loadInstr {k : Head} {o : MemForm} {n : Nat} {ext : Nat → Word} (h : s.keeps t) :
    s.keepsNext (t.loadInstr k o n ext) := h.instr (fun _ g => g.load (fun _ _ g1 => g1.updCore.retire))

theorem State.keeps.storeInstr {k : Head} {o : MemForm} {n : Nat} (h : s.keeps t) :
    s.keepsNext (t.storeInstr k o n) := h.instr (fun _ g => g.store)

/-! ### RingDyn -/

theorem State.keeps.bridgeAnswer {n tag status data : Nat} {reg : Bool} (h : s.keeps t) :
    s.keeps (t.bridgeAnswer n tag status data reg) := h.queueMsg

theorem State.keeps.perform {v : Nat} {m : DynMsg} (h : s.keeps t) : s.keeps (t.perform v m) := by
  unfold State.perform
  extract_lets who a n
  split
  rename_i u r e
  have k : s.keeps u := State.keeps.ofFst (h.busErr.iteFst (h.busWrite.iteFst h.busRead)) e
  split
  · exact k.bridgeAnswer
  · exact k.bridgeAnswer
  · exact k

theorem State.keeps.ethAsk {m : DynMsg} (h : s.keeps t) : s.keeps (t.ethAsk m) := h.requestDom.ite h

theorem State.keeps.answerRetry {n tag : Nat} {reg : Bool} (h : s.keeps t) : s.keeps (t.answerRetry n tag reg) :=
  h.bridgeAnswer.ite h.frame

theorem State.keeps.flushRetries (h : s.keeps t) : s.keeps t.flushRetries := h.frame.foldl fun _ _ g => g.answerRetry

theorem State.keeps.regTake {n : Nat} {m : DynMsg} (h : s.keeps t) : s.keeps (t.regTake n m) :=
  h.perform.ite (h.frame.ite h.answerRetry)

theorem State.keeps.regFirst {n : Nat} {m : DynMsg} (h : s.keeps t) : s.keeps (t.regFirst n m) :=
  h.perform.ite (h.foldl fun _ _ g => g.answerRetry).frame

theorem State.keeps.regRequest {n : Nat} {m : DynMsg} (h : s.keeps t) : s.keeps (t.regRequest n m) := by
  unfold State.regRequest
  split
  · exact h.withdraw.regFirst.ite h.answerRetry
  · exact h.regTake

theorem State.keeps.serveReg (h : s.keeps t) : s.keeps t.serveReg := by
  unfold State.serveReg
  split
  · exact h.frame.regRequest.ite (h.frame.perform.ite h.ethAsk)
  · exact h

theorem State.keeps.serveData (h : s.keeps t) : s.keeps t.serveData := by
  unfold State.serveData
  split
  · exact h.frame.perform.ite h
  · exact h

theorem State.keeps.serveIn (h : s.keeps t) : s.keeps t.serveIn :=
  h.flushRetries.serveReg.serveData.serveData.serveData.serveData

theorem State.keeps.dataRequest {n : Nat} {m : DynMsg} (h : s.keeps t) : s.keeps (t.dataRequest n m) :=
  h.perform.ite (h.frame.ite h.answerRetry)

theorem State.keeps.dynSend (h : s.keeps t) : s.keeps t.dynSend := by
  unfold State.dynSend
  split
  · exact h
  · exact h.ite (h.frame.ite h.frame.traceMsg.sendBoth.sentCopies.serveIn)

theorem State.keeps.switchMsg {src : Nat} {m : DynMsg} (h : s.keeps t) : s.keeps (t.switchMsg src m) := h.ingress

theorem State.keeps.consume {src : Nat} {m : DynMsg} (h : s.keeps t) : s.keeps (t.consume src m) := by
  refine h.ite ?_
  split
  · exact h.hearReport
  · exact h.regRequest.ite h.dataRequest
  · exact h.bridgeCpl
  · exact h.switchMsg
  · exact h.collect
  · exact h

theorem State.keeps.dynArrive {p : RingPort} {l : List Byte} {n : Nat} (h : s.keeps t) :
    s.keeps (t.dynArrive p l n) :=
  h.ite (h.checkCopy.ite (h.forward.checkCopy.ite (h.forward.checkCopy.bump.statusCount.ite
      (h.forward.checkCopy.frame.ite (h.forward.checkCopy.frame.foldl fun _ _ g => g.consume).serveIn.syncRing))))

/-! ### Tick -/

theorem State.keeps.cyclesTick (h : s.keeps t) : s.keeps t.cyclesTick := h.foldl fun _ _ g => g.ite g.setCore

theorem State.keeps.presentedTick (h : s.keeps t) : s.keeps t.presentedTick := h.foldl fun _ _ g => g.wakeCore.ite g

theorem State.keeps.entriesTick (h : s.keeps t) : s.keeps t.entriesTick := by
  refine h.foldl fun _ _ g => ?_
  split
  · exact g.entryEnd.ite g
  · exact g

theorem State.keeps.clockTick (h : s.keeps t) : s.keeps t.clockTick :=
  have k := h.steepLines.frame.timeTick.timersTick.endingsTick.idleTick
  k.cyclesTick.presentedTick.entriesTick.storesTick.hostDrain.flagsTick.frameTick.ite h

/-! ### Commands and steps -/

/-- Every command keeps them: its row's operations do. -/
theorem State.keeps.exec (h : s.keeps t) (i : Instr) : s.keepsNext (exec i t) := by
  cases i <;> dsimp only [Machine.exec]
  case registerWrite => exact h.powered h.writeReg
  case rclRead => exact h.powered h.readReg
  case holdTimeEnd => exact .ite (h.powered h.holdOne) (.next h)
  case livePointStale => exact .ite (h.powered h.liveOne) (.next h)
  case hostPointHeld => exact .ite (h.powered h.holdOne) (.next h)
  case hostLossTimeout => exact .ite (h.powered h.holdOne) (.next h)
  case hostLinkLoss => exact h.powered h.linkLost
  case hostWdExpire => exact .ite (h.powered h.declareHostLoss) (.next h)
  case hostbeat => exact h.powered h.rowWrite
  case forceSet => exact h.powered h.rowWrite
  case forceRelease => exact h.powered h.rowWrite
  case snapReq => exact h.powered h.rowWrite
  case snapRel => exact h.powered h.rowWrite
  case resultRegisterRead => exact h.powered h.readReg
  case linkSignalDetect => exact h.powered h.signalDetect
  case linkLock => exact h.powered h.linkLock
  case rateAttemptTimeout => exact h.powered h.attemptTimeout
  case hello => exact h.powered h.helloDone
  case aliveSend => exact .ite (h.powered h.transmit) (.next h)
  case aliveTimeout => exact h.powered h.portFail
  case syncHeaderErrors => exact h.powered h.portFail
  case retrainE => exact h.powered h.rowWrite
  case retrainW => exact h.powered h.rowWrite
  case probeSend => exact h.powered h.probeSend
  case probeReq => exact h.powered h.probeAnswer
  case probeRsp => exact h.powered h.probeBack
  case estimateUnknownLimit => exact h.powered h.unknownLimit
  case listenEnd => exact h.powered h.listenEnd
  case coldstart => exact h.powered h.coldArrive
  case coldstartTimeout => exact .ite (h.powered h.coldSend) (.next h)
  case rateOrder => exact h.powered h.orderFallback
  case restart => exact h.powered h.rowWrite
  case enumPassStart => exact h.powered h.enumNext
  case enum => exact h.powered h.enumArrive
  case enumPassTimeout => exact h.powered h.enumTimeout
  case joinEnumSend => exact h.powered h.joinSend
  case linkDetach => exact h.powered h.rowWrite
  case bridgeAccess => exact h.execBridgeAccess
  case bridgeTimeout => exact h.powered h.bridgeTimeout.serveIn
  case bridgeReissue => exact h.powered h.bridgeReissue.serveIn
  case cycleBoundary => exact h.powered h.boundary
  case throughFrameReceive => exact h.powered h.thruArrive
  case staticFrameRead => exact h.powered h.staticReadStep
  case staticFrameSend => exact h.powered h.staticSend
  case staticFrameReceive => exact h.powered h.staticArrive
  case staticSegmentEnd => exact .ite (h.powered h.wr.postAll) (.next h)
  case dynamicFrameSend => exact h.powered h.dynSend
  case dynamicFrameReceive => exact h.powered h.dynArrive
  case tsLoad => exact h.powered h.rowWrite
  case tsLoadComplete => exact .ite (h.powered h.tsComplete) (.next h)
  case tsDrop => exact h.powered h.rowWrite
  case mcStart => exact h.powered h.rowWrite
  case referenceCheck => exact .ite (.next h) (h.powered h.measureOther.referenceCheck.wr.syncTb)
  case holdoverLimit => exact .ite (h.powered h.holdLimit.syncRing) (.next h)
  case tbCapture => exact h.powered h.rowWrite
  case tbStep => exact h.powered h.rowWrite
  case tbRefWrite => exact h.powered h.rowWrite
  case steepFire => exact .ite (h.powered (h.steepFire.ite h)) (.next h)
  case tokenPostApply => exact h.powered h.applyFirst
  case postRetry => exact h.execPostRetry
  case pourPost => exact h.powered h.rowWrite
  case dispatch => exact h.powered h.dispatch
  case slotLoaded => exact .ite (h.powered h.loadSlot) (.next h)
  case operationTake => exact h.powered ((h.moverTake.ite (h.coreTake.ite h)).ite h)
  case operationComplete => exact h.powered h.moverComplete
  case detachedComplete => exact .ite (h.powered h.stopWaiting.completeNode) (.next h)
  case pourHold => exact h.powered h.rowWrite
  case setEn => exact h.powered h.rowWrite
  case clrEn => exact h.powered h.rowWrite
  case contextTimerExpire => exact .ite (h.powered h.timerExpire) (.next h)
  case moverPointIssue => exact h.powered h.pointIssue
  case moverPointWrite => exact h.powered (h.pointWrite.ite h)
  case movHold => exact h.powered h.rowWrite
  case mov => exact h.regInstr
  case add => exact h.aluInstr
  case adc => exact h.regInstr
  case sub => exact h.aluInstr
  case sbc => exact h.regInstr
  case and => exact h.aluInstr
  case or => exact h.aluInstr
  case xor => exact h.aluInstr
  case bic => exact h.regInstr
  case cmp => exact h.regInstr
  case tst => exact h.regInstr
  case movi => exact h.regInstr
  case addi => exact h.regInstr
  case subi => exact h.regInstr
  case cmpi => exact h.regInstr
  case andi => exact h.regInstr
  case ori => exact h.regInstr
  case xori => exact h.regInstr
  case setl => exact h.regInstr
  case seth => exact h.regInstr
  case lsli => exact h.regInstr
  case lsri => exact h.regInstr
  case asri => exact h.regInstr
  case lsl => exact h.aluInstr
  case lsr => exact h.aluInstr
  case asr => exact h.aluInstr
  case ror => exact h.regInstr
  case shi => exact h.regInstr
  case btst => exact h.regInstr
  case neg => exact h.regInstr
  case not => exact h.regInstr
  case sxtb => exact h.regInstr
  case sxth => exact h.regInstr
  case zxtb => exact h.regInstr
  case zxth => exact h.regInstr
  case mul => exact h.aluInstr
  case mulhs => exact h.regInstr
  case mulhu => exact h.regInstr
  case satp => exact h.regInstr
  case satps => exact h.regInstr
  case qprec => exact h.regInstr
  case pcond => exact h.regInstr
  case pclr => exact h.regInstr
  case pset => exact h.regInstr
  case pinv => exact h.regInstr
  case ldw => exact h.loadInstr
  case ldh => exact h.loadInstr
  case ldhs => exact h.loadInstr
  case ldb => exact h.loadInstr
  case ldbs => exact h.loadInstr
  case stw => exact h.storeInstr
  case sth => exact h.storeInstr
  case stb => exact h.storeInstr
  case ldp => exact h.instr (fun _ g => g.load (fun _ _ g1 => g1.updCore.retire))
  case stp => exact h.instr (fun _ g => g.store)
  case ldx => exact h.instr (fun _ g => g.updCore.retire.ite g.faultHere)
  case stx => exact h.instr (fun _ g => g.updCore.retire.ite g.faultHere)
  case b => exact h.jump
  case bl => exact h.jump
  case jmp => exact h.jump
  case jl => exact h.jump
  case call => exact h.instr (fun _ g => g.call)
  case ret => exact h.instr (fun _ g => g.ret)
  case mfs => exact h.execMfs
  case mts => exact h.execMts
  case nop => exact h.regInstr
  case wait => exact h.instr (fun _ g => g.coreWait)
  case done => exact h.instr (fun _ g => g.finish (fun _ g1 => g1.completeNode))
  case detach => exact h.instr (fun _ g => g.finish (fun _ g1 => g1.handOver))
  case rete => exact h.instr (fun _ g => g.rete)
  case brk => exact h.instr (fun _ g => g.coreBreak)
  case fence => exact h.instr (fun _ g => g.begin.ite g.retire.takeStoreError)
  case trap => exact h.instr (fun _ g => g.trapAfter)
  case post => exact h.instr (fun _ g => g.postAndWait.updCore.retire)
  case undefinedEncoding => exact h.execUndefinedEncoding
  case storeBufferError => exact h.powered (h.entryEnd.takeStoreError.ite h)
  case coreReset => exact h.powered h.rowWrite
  case coreRelease => exact h.powered h.rowWrite
  case ccRamAccess => exact h.execCcRamAccess
  case sourceAssert => exact h.powered ((h.pulse.ite h).ite h.syncSource)
  case sourceDeassert => exact h.powered (h.syncSource.ite h)
  case interruptTake => exact h.execInterruptTake
  case icNnextPop => exact h.powered h.rowRead
  case icUnextPop => exact h.powered h.rowRead
  case icEoi => exact h.powered h.rowWrite
  case icSeoi => exact h.powered h.rowWrite
  case ptrigTrigger => exact h.powered h.rowWrite
  case ptrigClear => exact h.powered h.rowWrite
  case strigTrigger => exact h.powered h.rowWrite
  case strigClear => exact h.powered h.rowWrite
  case icRouteWrite => exact h.powered (h.rowWrite.ite h)
  case doorbellSet => exact h.powered h.rowWrite
  case mbxTxLo => exact h.powered h.rowWrite
  case mbxTxHi => exact h.powered h.rowWrite
  case mbxPopHi => exact h.powered h.rowRead
  case mbxStageExpire => exact h.powered h.setStagedLo
  case engineTick => exact .ite (h.powered h.seePins.peDivided) (.next h)
  case peGstart => exact h.powered h.seePins.rowWrite
  case peGrestart => exact h.powered h.rowWrite
  case stop => exact h.powered h.rowWrite
  case arm => exact h.powered h.rowWrite
  case disarm => exact h.powered h.rowWrite
  case inlatch => exact h.powered h.seePins.rowWrite
  case outlatch => exact h.powered h.rowWrite
  case peTxPush => exact h.powered h.rowWrite
  case peRxPop => exact h.powered h.rowRead
  case peStageWrite => exact h.powered h.rowWrite
  case canModeInit => exact h.powered h.rowWrite
  case canInitEffect => exact h.canRow (h.canInit.vetoCheck.ite h)
  case canModeNormal => exact h.powered h.rowWrite
  case canModeListen => exact h.powered h.rowWrite
  case canModeLoopback => exact h.powered h.rowWrite
  case canModeSleep => exact h.powered h.rowWrite
  case canSleepEffect => exact h.canRow (h.wr.wr.wr.setCan.ite h)
  case canBusIntegrated => exact h.canRow (h.wr.ite h)
  case canFrameValid => exact h.canRow (h.canValid.ite h)
  case strainerSearch => exact h.canRow (h.frame.strSearch.ite h)
  case canRxfAck => exact h.powered h.rowWrite
  case canTxreq => exact h.powered h.rowWrite
  case canTxabort => exact h.powered h.rowWrite
  case canArbitration => exact h.canRow (h.canArbitrate.ite h)
  case canTxEnd => exact h.canRow (h.canTxEnd.ite h)
  case canBusError => exact h.canRow (h.canError.ite h)
  case recover => exact h.powered h.rowWrite
  case canRecoveryEnd => exact h.execCanRecoveryEnd
  case canWake => exact h.canRow (h.canWakeEvent.ite h)
  case canLoopRestart => exact h.powered h.rowWrite
  case strDataLoWrite => exact h.powered h.rowWrite
  case strDataHiWrite => exact h.powered h.rowWrite
  case strDataHiRead => exact h.powered h.rowRead
  case wakeNSeen => exact .ite (.next h) (.next h.wakeSeen)
  case wkupSeen => exact .ite (.next h.wakeSeen) (.next h)
  case ringDetect => exact .ite (.next h.wakeSeen) (.next h)
  case hostWake => exact .ite (.next h.wakeSeen) (.next h)
  case wakeTimerExpire => exact .ite (.next h.wakeSeen) (.next h)
  case wakePulseEnd => exact .next h.frame
  case maxawakeExpire => exact .ite (.next h.wr.raise.alarm) (.next h)
  case kaSend => exact .next h.kaSendStep
  case kaSet => exact h.powered h.rowWrite
  case kaIntervalEnd => exact .next h.kaInterval
  case wkTokenWrite => exact h.powered h.rowWrite
  case tokenForward => exact .next h.tokenForward
  case commitPoint => exact h.powered h.commitPoint
  case powerDownAbort => exact h.powered (h.abortOps.ite h)
  case powerDownComplete => exact h.powered (h.powerDownEnd.ite h)
  case dwellEnd => exact .ite (.next h.dwellOver) (.next h)
  case napExitComplete => exact .next (h.napExit.ite h)
  case macRxFilter => exact .ite (h.powered h.rxFilter) (.next h)
  case macRxEnd => exact h.powered h.rxEnd
  case macLinkChange => exact .ite (h.powered h.linkChange) (.next h)
  case macRxrGet => exact h.powered h.rowWrite
  case macTxrTail => exact h.powered h.rowWrite
  case lsoSegmentEnqueue => exact .ite (h.powered h.segStep) (.next h)
  case macTxStart => exact .ite (h.powered h.txStart) (.next h)
  case macTxEnd => exact .ite (h.powered h.txEnd) (.next h)
  case macTxtsPop => exact h.powered h.rowRead
  case gclEntryStart => exact .ite (h.powered h.gclEntry) (.next h)
  case gclCycleStart => exact .ite (h.powered h.gclStart) (.next h)
  case gclArm => exact h.powered h.rowWrite
  case gclDisarm => exact h.powered h.rowWrite
  case macEnable => exact h.powered h.rowWrite
  case switchLookup => exact h.powered h.lookup
  case switchEnqueue => exact h.powered h.enqueueAll
  case cellAllocate => exact h.powered h.allocCell
  case pushOut => exact h.powered h.pushStep
  case switchFrameEnd => exact h.powered h.frameEnd
  case switchEgress => exact h.powered h.egress
  case switchDeliver => exact h.powered h.deliver
  case cellFree => exact h.powered h.freeCells
  case ageTick => exact h.powered h.ageStep
  case fdbRead => exact h.powered h.rowWrite
  case fdbWrite => exact h.powered h.rowWrite
  case fdbFlush => exact h.powered h.rowWrite
  case swTxrTail => exact h.powered h.rowWrite
  case eccWriteback => exact h.powered h.eccWriteback
  case btRegionStart => exact h.powered h.btStart
  case btRestore => exact h.powered h.btRestore
  case zeroFillPage => exact h.powered h.zeroFill
  case scrubRead => exact h.powered h.scrub
  case cadPagePop => exact h.powered h.rowRead
  case cadCellPop => exact h.powered h.rowRead
  case cadPageFree => exact h.powered h.rowWrite
  case cadCellFree => exact h.powered h.rowWrite
  case carveCreate => exact h.powered h.rowWrite
  case carveRelease => exact h.powered h.rowWrite
  case msixSend => exact h.powered (h.msixSend.ite h)
  case lbHnextPop => exact h.powered h.rowRead
  case pcieRequest => exact h.powered (h.hostOffer.ite h)
  case pciePerst => exact .next (h.perstLow.ite (h.frame.hostAssert.ite h.frame))
  case pcieLinkChange => exact h.execPcieLinkChange
  case spiRead => exact h.powered h.spiRead
  case spiWrite => exact h.powered h.spiWrite
  case spiStatus => exact h.powered h.spiStatus
  case spiUnknownCommand => exact h.powered (h.ite h.spiBegin.bump.raise)
  case spiCsRise => exact h.powered h.spiRise
  case lbCycle => exact .next (h.hostAssert.lbAccess.ite h.hostAssert)
  case addrLo => exact h.gwRow
  case addrHi => exact h.gwRow
  case dataLoRead => exact h.gwRow
  case dataLoWrite => exact h.gwRow
  case dataHiRead => exact h.gwRow
  case dataHiWrite => exact h.gwRow
  case statRead => exact h.gwRow
  case statWrite => exact h.gwRow
  case lbDualSelect => exact .next (h.hostAssert.dualSelect.ite h.hostAssert)
  case flashTransaction => exact h.powered h.rowWrite
  case flashDone => exact h.powered ((h.ite h.flashFill).wr.raise.ite h)
  case semPop => exact h.powered h.rowRead
  case semRelease => exact h.powered h.rowWrite
  case suppliesValid => exact .next h.releaseHold
  case powerOnReset => exact h.execPowerOnReset
  case brownout => exact .next (h.ite h.cause.enterReset)
  case pinReset => exact .next h.cause.enterReset
  case ketRst => exact h.powered (h.frame.ite h).rowWrite
  case clkloss => exact .next h.cause.enterReset
  case thermalReset => exact .next h.cause.enterReset
  case ringRefclkLoss => exact h.execRingRefclkLoss
  case wdogKick => exact h.powered h.rowWrite
  case wdogExpire => exact h.powered (h.resetNow.ite h)
  case kettleGrant => exact h.powered h.grant
  case kettleEvaluate => exact h.powered h.newTemp.regrant
  case domainRampDone => exact h.powered (h.rampEnd.ite h)
  case dozeStop => exact h.powered (h.setDom.ite h)
  case clusterGate => exact h.powered h.gateCluster
  case ketStateReq => exact h.powered h.rowWrite
  case deepExit => exact .next (h.cause.startUp.timeResume.wr.ite h)
  case refclkReturn => exact .next h.releaseHold
  case ringRefclkReturn => exact .next h.frame
  case thermalResetRelease => exact .next h.releaseHold
  case resetNRelease => exact .next h.releaseHold
  case thermalWarn => exact h.powered h.newTemp
  case lfxtalTakeover => exact .next h.wr
  case random => exact h.powered (h.keeperServe (fun _ _ _ g => g.svcRandom))
  case derive => exact h.powered (h.keeperServe (fun _ _ _ g => g.svcDerive))
  case ringKeys => exact h.powered (h.keeperServe (fun _ _ _ g => g.svcRingKeys))
  case lcRequest => exact h.execLcRequest
  case debugOpen => exact h.powered (h.keeperServe (fun _ _ _ g => g.svcDebugOpen))
  case otpProgram => exact h.powered (h.keeperServe (fun _ _ _ g => g.svcOtpProgram))
  case svnCommit => exact h.powered (h.keeperServe (fun _ _ _ g => g.svcSvnCommit))
  case selftest => exact h.powered (h.keeperServe (fun _ _ _ g => g.svcSelfTest))
  case keeperBadService => exact h.powered (h.keeperServe (fun _ _ _ g => g))
  case secHostImg => exact h.powered h.rowWrite
  case rbgHealthFail => exact h.powered h.wr.raise.alarm
  case alarmWindowClose => exact h.powered h.windowClose
  case gap => exact h.powered h.gapOwn.gapLost
  case traceBufferWrite => exact h.powered h.bufferWrite
  case trcSwCommit => exact h.powered h.rowWrite
  case srst => exact h.powered h.pageWrite
  case softResetEnd => exact h.powered (h.wr.ite h)
  case pageEnWrite => exact h.powered h.pageWrite
  case lock => exact h.powered h.pageWrite
  case intForce => exact h.powered h.pageWrite
  case errCaptureClear => exact h.powered h.pageWrite
  case bankRailClassDetect => exact .next (h.ite (h.frame.ite (h.frame.ite h)))

theorem State.keeps.step (h : s.keeps t) : s.keepsNext (step t) := by
  unfold Machine.step
  split
  · exact .next h.clockTick
  · exact h.frame.exec _

end
/-! ### The canonical form -/

/-- Settles O59: a step keeps the canonical form, since every operation that a command is made of keeps it. -/
theorem everyStepKeepsTheCanonicalForm : Obligations.EveryStepKeepsTheCanonicalForm := by
  intro s t hm hr e
  obtain ⟨keepsMem, keepsRegs, _⟩ := s.keeps_refl.step t e
  exact ⟨keepsMem hm, keepsRegs hr⟩

end Sys2Proof.Machine
end

section
/-! PROOFS. Register writes: the obligation O9 fails. -/

namespace Sys2Proof.Machine

/-- A reset chip whose page 5, the page of the PCI Express block, is locked. -/
def pciePageLocked : State := State.reset.wr R.PAGE_CTRL.LOCK 1 5

/-- A host's write to the locked page gets an error response, and WRERR of the page counts it (spec/16 R532). -/
theorem hostWriteRefused_counted :
    ∃ t, exec (.registerWrite .pcie (regAt 5 0x40) 0) pciePageLocked = .next t ∧
      t.reg (R.PCIE_ERRCNT.WRERR.addr 0 0) ≠ pciePageLocked.reg (R.PCIE_ERRCNT.WRERR.addr 0 0) :=
  ⟨_, rfl, by decide⟩

/-- Refutes O9 in its clause of refused writes, which lets no register of the page change but its error capture: a
write of the host to its own block's page that LOCK refuses is also counted in the page's PCIE_ERRCNT. -/
theorem not_registerWritesFollowAccessCodes : ¬ Obligations.RegisterWritesFollowAccessCodes := by
  unfold Obligations.RegisterWritesFollowAccessCodes
  rintro ⟨_, _, _, refused, _⟩
  have hrow : pageRow 5 = some ⟨.pcie, 5, 1, 5, some 309, false, true⟩ := by decide
  obtain ⟨d, hd⟩ : ∃ d, findReg .pcie 0x40 = some d ∧ d.hasRw = true := by decide
  have hlocked : pciePageLocked.on R.PAGE_CTRL.LOCK 5 = true := by decide
  obtain ⟨t, ht, _, _, unchanged⟩ := refused pciePageLocked .pcie 5 0x40 0 _ d (by decide) hrow hd.1 (by decide)
    (by decide) (by decide) (by decide) (by decide) (by decide) (by decide) (.inr (.inl (by simp [hlocked, hd.2])))
  obtain ⟨t', ht', counted⟩ := hostWriteRefused_counted
  obtain rfl : t = t' := Host.Outcome.next.inj (ht.symm.trans ht')
  exact counted (unchanged _ (by decide) (by decide))

end Sys2Proof.Machine
end

section
/-! PROOFS. Register reads: a read of a block-specific register is one `RegRes` of the model, and a plain read changes
the RCL fields of its register and nothing else. -/

namespace Sys2Proof.Machine

/-! ### Fields of a word -/

/-- A field of a word is 0 just when all its bits are clear. -/
theorem getBits_eq_zero_iff (v : Word) (hi lo : Nat) :
    getBits v hi lo = 0 ↔ ∀ i < hi + 1 - lo, v.toNat.testBit (lo + i) = false := by
  constructor
  · intro h i hi'
    have := bitsOf_testBit v.toNat hi lo i
    simpa [show bitsOf v.toNat hi lo = 0 from h, hi'] using this.symm
  · intro h
    refine Nat.eq_of_testBit_eq fun i => ?_
    by_cases hi' : i < hi + 1 - lo <;> simp [getBits, bitsOf_testBit, hi', h]

/-- Clearing bits of a word leaves a field that is 0 as it is. -/
theorem getBits_putBits_zero (v : Word) (hi lo hi' lo' : Nat) (hw : hi < 32) (h : getBits v hi lo = 0) :
    getBits (putBits v hi' lo' 0) hi lo = 0 := by
  rw [getBits_eq_zero_iff] at h ⊢
  intro i hlt
  have put := putBits_getLsbD v hi' lo' 0 (lo + i) (by omega)
  simp only [BitVec.getLsbD, h i hlt, Nat.zero_testBit, ite_self] at put
  exact put

/-- A field takes the low bits of what is put into it. -/
theorem getBits_putBits_mod (v : Word) (hi lo x : Nat) (h : hi < 32) (hl : lo ≤ hi) :
    getBits (putBits v hi lo x) hi lo = x % 2 ^ (hi + 1 - lo) := by
  refine Nat.eq_of_testBit_eq fun i => ?_
  rw [getBits, bitsOf_testBit, Nat.testBit_mod_two_pow]
  by_cases hlt : i < hi + 1 - lo
  · have put := putBits_getLsbD v hi lo x (lo + i) (by omega)
    rw [if_pos (by omega), Nat.add_sub_cancel_left] at put
    simpa [hlt, BitVec.getLsbD] using put
  · simp [hlt]

/-- A register's contents, as the data of an answer. -/
theorem toNat_ofNat_word (w : Word) : (BitVec.ofNat 64 w.toNat).toNat = w.toNat := by
  rw [BitVec.toNat_ofNat, Nat.mod_eq_of_lt (by have := w.isLt; omega)]

/-! ### What a read shows and what it clears -/

/-- A word whose fields of one access code are cleared. -/
def clearFields (c : Acc) (l : List Fld) (w : Word) : Word :=
  l.foldl (fun w f => if f.acc = c then putBits w f.hi f.lo 0 else w) w

/-- Where no field has the access code, nothing is cleared. -/
theorem clearFields_eq_self {c : Acc} {l : List Fld} (h : ∀ f ∈ l, f.acc ≠ c) (w : Word) : clearFields c l w = w := by
  induction l with
  | nil => rfl
  | cons f l ih =>
    obtain ⟨hf, hl⟩ := List.forall_mem_cons.1 h
    simpa [clearFields, hf] using ih hl

/-- A field that reads 0 still reads 0 when fields are cleared. -/
theorem getBits_clearFields_of_zero {c : Acc} {hi lo : Nat} (hw : hi < 32) (l : List Fld) (w : Word)
    (h : getBits w hi lo = 0) : getBits (clearFields c l w) hi lo = 0 := by
  induction l generalizing w with
  | nil => exact h
  | cons f l ih =>
    by_cases hf : f.acc = c
    · simpa [clearFields, hf] using ih _ (getBits_putBits_zero w hi lo f.hi f.lo hw h)
    · simpa [clearFields, hf] using ih w h

/-- Each field of the access code reads 0 afterwards. -/
theorem getBits_clearFields {c : Acc} {f : Fld} {l : List Fld} (hm : f ∈ l) (hc : f.acc = c) (hw : f.hi < 32)
    (hl : f.lo ≤ f.hi) (w : Word) : getBits (clearFields c l w) f.hi f.lo = 0 := by
  induction l generalizing w with
  | nil => cases hm
  | cons g l ih =>
    rcases List.mem_cons.1 hm with rfl | hm
    · have cleared := getBits_putBits_same w f.hi f.lo 0 hw hl (Nat.two_pow_pos _)
      simpa [clearFields, hc] using getBits_clearFields_of_zero (c := c) hw l _ cleared
    · exact ih hm _

/-- A register without WO fields is shown as it is. -/
theorem RegDesc.shown_eq_self {d : RegDesc} (h : ∀ f ∈ d.fields, f.acc ≠ .wo) (w : Word) : d.shown w = w :=
  clearFields_eq_self h w

/-- An RCL field reads 0 once it has been read. -/
theorem RegDesc.getBits_afterRead_rcl {d : RegDesc} {f : Fld} (hm : f ∈ d.fields) (hc : f.acc = .rcl) (hw : f.hi < 32)
    (hl : f.lo ≤ f.hi) (w : Word) : getBits (d.afterRead w) f.hi f.lo = 0 := getBits_clearFields hm hc hw hl w

/-! ### A read of a register page -/

/-- The two commands that read any register are one read of the bus. -/
theorem exec_registerReads {s : State} (who : Initiator) (a : Nat) (h : s.awake = true) :
    exec (.rclRead who a) s = .next (s.readReg who a) ∧
      exec (.resultRegisterRead who a) s = .next (s.readReg who a) :=
  ⟨State.powered_awake s _ h, State.powered_awake s _ h⟩

/-- A read at an address of no range is refused. -/
theorem State.readReg_rangeless (s : State) (who : Initiator) (a : Nat) (h : rangeOf a = none) :
    (s.readReg who a).answer.error = true := by
  simp [State.readReg, State.busRead, h, State.busErr, answered, State.err]

/-- A read of a page in soft reset waits. -/
theorem State.readReg_resetting (s : State) (who : Initiator) {p off : Nat} (hp : p < 1024)
    (h : s.resetting p = true) (hb : 0x40 ≤ off) (ho : off < 0x1000) (h4 : off % 4 = 0) :
    s.readReg who (regAt p off) = s := by
  have aligned : regAt p off % 4 = 0 := by unfold regAt; omega
  have sees : seesRange who .regs = true := by cases who <;> rfl
  have waits : s.regWaits (regAt p off) = true := by
    simp [State.regWaits, isReg, rangeOf_regAt p off hp ho, pageOf_regAt p off hp ho, offOf_regAt p off ho, h, hb]
  simp [State.readReg, State.busRead, rangeOf_regAt p off hp ho, sees, widthOk, aligned, waits, answered]

/-- A read of a common register does not wait for its page. -/
theorem State.readReg_common (s : State) (who : Initiator) {p off v : Nat} {row : PageRow} {d : RegDesc}
    (hr : pageRow p = some row) (hf : findReg row.ty off = some d) (ho : off < 0x40) (h4 : off % 4 = 0)
    (hv : s.readCommon p row off = some v) : s.readReg who (regAt p off) = s.ok v := by
  have hp := pageRow_lt hr
  have aligned : regAt p off % 4 = 0 := by unfold regAt; omega
  have sees : seesRange who .regs = true := by cases who <;> rfl
  have goes : s.regWaits (regAt p off) = false := by
    have : ¬ 0x40 ≤ off := by omega
    simp [State.regWaits, offOf_regAt p off (by omega), this]
  have value : s.regRead who p off = { s := s, data := v } := by simp [State.regRead, hr, hf, hv]
  simp [State.readReg, State.busRead, rangeOf_regAt p off hp (by omega), sees, widthOk, aligned, goes,
    pageOf_regAt p off hp (by omega), offOf_regAt p off (by omega), value, State.regAnswer, answered]

/-- Page p answers, and d is its block-specific register at an offset. -/
structure State.HoldsReg (s : State) (p off : Nat) (row : PageRow) (d : RegDesc) : Prop where
  answers : s.answers p = true
  pageRow : pageRow p = some row
  findReg : findReg row.ty off = some d
  block : 0x40 ≤ off
  inPage : off < 0x1000
  aligned : off % 4 = 0

/-- What a read of a block-specific register does: what its chapter gives it, or the register as it stands. -/
def State.blockRead (s : State) (who : Initiator) (p off : Nat) (row : PageRow) (d : RegDesc) : RegRes :=
  (s.readSpecial who row.ty (p - row.first) off d).getD (s.readPlain p off d)

section
variable {s : State} {who : Initiator} {p off : Nat} {row : PageRow} {d : RegDesc}

theorem State.HoldsReg.readReg (h : s.HoldsReg p off row d) :
    s.readReg who (regAt p off) = answered (State.regAnswer (s.blockRead who p off row d) who false (regAt p off)) := by
  have value : s.regRead who p off = s.blockRead who p off row d := by
    simp only [State.regRead, h.pageRow, h.findReg, State.readCommon_block s p row off h.block, State.blockRead]
    cases s.readSpecial who row.ty (p - row.first) off d <;> rfl
  rw [State.readReg, State.busRead_regAt s who p off false (pageRow_lt h.pageRow) h.inPage h.aligned
    (State.answers_running h.answers), value]

/-- A read that succeeds is answered with its data. -/
theorem State.HoldsReg.exec_ok (h : s.HoldsReg p off row d) {r : RegRes} (hr : s.blockRead who p off row d = r)
    (hc : r.cause = none) :
    exec (.rclRead who (regAt p off)) s = .next (r.s.ok r.data) ∧
      exec (.resultRegisterRead who (regAt p off)) s = .next (r.s.ok r.data) := by
  have answer : s.readReg who (regAt p off) = r.s.ok r.data := by
    simp [h.readReg, hr, State.regAnswer, hc, answered]
  simpa [answer] using exec_registerReads who (regAt p off) (State.answers_awake h.answers)

/-- A read that its chapter refuses is answered with an error. -/
theorem State.HoldsReg.exec_refused (h : s.HoldsReg p off row d) {r : RegRes} {c : Nat}
    (hr : s.blockRead who p off row d = r) (hc : r.cause = some c) :
    (∃ t, exec (.rclRead who (regAt p off)) s = .next t ∧ t.answer.error = true) ∧
      (∃ t, exec (.resultRegisterRead who (regAt p off)) s = .next t ∧ t.answer.error = true) := by
  have refused : (s.readReg who (regAt p off)).answer.error = true := by
    simp [h.readReg, hr, State.regAnswer, hc, State.busErr, answered, State.err]
  obtain ⟨rcl, result⟩ := exec_registerReads who (regAt p off) (State.answers_awake h.answers)
  exact ⟨⟨_, rcl, refused⟩, ⟨_, result, refused⟩⟩

end

/-! ### A register as it stands -/

/-- State t is s after a read of register d at address a, which shows the word w: w is answered, its RCL fields
clear, and nothing else changes. -/
structure ReadsAs (s t : State) (d : RegDesc) (a : Nat) (w : Word) : Prop where
  answer : t.answer = ⟨BitVec.ofNat 64 (d.shown w).toNat, false⟩
  reg : t.reg a = d.afterRead w
  others : ∀ b, b ≠ a → t.reg b = s.reg b
  frame : { t with regs := s.regs, answer := s.answer } = s

/-- A plain read of register d in a state u that differs from s in this register only. -/
theorem State.readPlain_readsAs {s u : State} {p off : Nat} (d : RegDesc)
    (others : ∀ b, b ≠ regAt p off → u.reg b = s.reg b) (frame : { u with regs := s.regs } = s) :
    ReadsAs s ((u.readPlain p off d).s.ok (u.readPlain p off d).data) d (regAt p off) (u.reg (regAt p off)) where
  answer := rfl
  reg := (u.reg_setReg (regAt p off) _ _).trans (if_pos rfl)
  others b hb := ((u.reg_setReg (regAt p off) b _).trans (if_neg hb)).trans (others b hb)
  frame := congrArg (fun x : State => { x with answer := s.answer }) frame

section
variable {s t : State} {d : RegDesc} {a : Nat} {w : Word}

/-- The data of an answer without WO fields. -/
theorem ReadsAs.data_toNat (h : ReadsAs s t d a w) (hd : ∀ f ∈ d.fields, f.acc ≠ .wo) :
    t.answer.data.toNat = w.toNat := by
  rw [h.answer, RegDesc.shown_eq_self hd]; exact toNat_ofNat_word w

theorem ReadsAs.error (h : ReadsAs s t d a w) : t.answer.error = false := by rw [h.answer]

/-- An RCL field of the register reads 0 after the read. -/
theorem ReadsAs.rd_rcl {f : Fld} {i j : Nat} (h : ReadsAs s t d (f.addr i j) w) (hm : f ∈ d.fields)
    (hc : f.acc = .rcl) (hw : f.hi < 32) (hl : f.lo ≤ f.hi) : t.rd f i j = 0 := by
  rw [State.rd, h.reg]; exact RegDesc.getBits_afterRead_rcl hm hc hw hl w

end

section
variable {s : State} {who : Initiator} {p off : Nat} {row : PageRow} {d : RegDesc}

/-- Where the chapter shows its register in a state u, which differs from s in this register only, RCL_READ reads the
register as it stands in u. -/
theorem State.HoldsReg.exec_rclRead_shown (h : s.HoldsReg p off row d) (u : State) {a : Nat} (ha : a = regAt p off)
    (hr : s.readSpecial who row.ty (p - row.first) off d = u.showsReg p off d) {w : Word} (hw : u.reg a = w)
    (others : ∀ b, b ≠ a → u.reg b = s.reg b) (frame : { u with regs := s.regs } = s) :
    ∃ t, exec (.rclRead who a) s = .next t ∧ ReadsAs s t d a w := by
  subst ha hw
  have shown : s.blockRead who p off row d = u.readPlain p off d := by rw [State.blockRead, hr]; rfl
  exact ⟨_, (h.exec_ok shown rfl).1, State.readPlain_readsAs d others frame⟩

/-- Without an effect of its own, the register is read as it stands, by either command. -/
theorem State.HoldsReg.blockRead_plain (h : s.readSpecial who row.ty (p - row.first) off d = none) :
    s.blockRead who p off row d = s.readPlain p off d := by rw [State.blockRead, h]; rfl

end

/-- What a read does to each field, by its access code. -/
theorem RegDesc.read_by_access (d : RegDesc) (f : Fld) (w : Word) (hw : f.hi < 32) (hl : f.lo ≤ f.hi) :
    (f.acc = .rcl → getBits (RegDesc.afterRead { d with fields := [f] } w) f.hi f.lo = 0) ∧
    (f.acc ≠ .rcl → RegDesc.afterRead { d with fields := [f] } w = w) ∧
    (f.acc = .wo → getBits (RegDesc.shown { d with fields := [f] } w) f.hi f.lo = 0) ∧
    (f.acc ≠ .wo → RegDesc.shown { d with fields := [f] } w = w) :=
  have mem : f ∈ [f] := List.mem_singleton.2 rfl
  ⟨fun c => getBits_clearFields mem c hw hl w, fun c => clearFields_eq_self (List.forall_mem_singleton.2 c) w,
    fun c => getBits_clearFields mem c hw hl w, fun c => clearFields_eq_self (List.forall_mem_singleton.2 c) w⟩

/-- Putting a field writes its register. -/
theorem State.reg_wr_same (s : State) (f : Fld) (v i j : Nat) :
    (s.wr f v i j).reg (f.addr i j) = putBits (s.reg (f.addr i j)) f.hi f.lo v := by
  rw [State.wr, State.reg_setReg, if_pos rfl]

/-! ### Registers whose fields show what stands elsewhere -/

/-- RCL_READ of the status register of a mailbox channel shows its count of messages. -/
theorem State.exec_rclRead_mbxStatus (s : State) (who : Initiator) (n : Nat) (h : s.answers 10 = true) (hn : n < 64) :
    ∃ t, exec (.rclRead who (R.MBX_STATUSn.all.addr 0 n)) s = .next t ∧
      ReadsAs s t R.MBX_STATUSn.desc (R.MBX_STATUSn.all.addr 0 n)
        (putBits (s.reg (R.MBX_STATUSn.all.addr 0 n)) 2 0 (s.chan n).length) := by
  have found : ∀ n < 64, findReg .mailbox (0x104 + 32 * n) = some R.MBX_STATUSn.desc := by decide
  have holds : s.HoldsReg 10 (0x104 + 32 * n) ⟨.mailbox, 10, 1, 0x0A, none, false, true⟩ R.MBX_STATUSn.desc :=
    ⟨h, by decide, found n hn, by omega, by omega, by omega⟩
  have at_addr : R.MBX_STATUSn.all.addr 0 n = regAt 10 (0x104 + 32 * n) := by simp [Fld.addr, regAt]; omega
  have special : s.readSpecial who .mailbox 0 (0x104 + 32 * n) R.MBX_STATUSn.desc =
      (s.wr R.MBX_STATUSn.COUNT (s.chan n).length 0 n).showsReg 10 (0x104 + 32 * n) R.MBX_STATUSn.desc := by
    have chan : (0x104 + 32 * n - 0x100) / 32 = n := by omega
    have which : (0x104 + 32 * n) % 32 = 4 := by omega
    have above : ¬ 0x104 + 32 * n < 0x100 := by omega
    simp only [State.readSpecial, State.readMailbox, above, if_false, chan, which]
  exact holds.exec_rclRead_shown _ at_addr special (s.reg_wr_same R.MBX_STATUSn.COUNT _ 0 n)
    (fun b hb => s.reg_wr_other R.MBX_STATUSn.COUNT _ 0 n b hb) rfl

/-- RCL_READ of the status register of the forwarding table shows its used entries. -/
theorem State.exec_rclRead_fdbStatus (s : State) (who : Initiator) (h : s.answers 22 = true) :
    ∃ t, exec (.rclRead who (R.SW_FDB_STATUS.all.addr 0 0)) s = .next t ∧
      ReadsAs s t R.SW_FDB_STATUS.desc (R.SW_FDB_STATUS.all.addr 0 0)
        (putBits (s.reg (R.SW_FDB_STATUS.all.addr 0 0)) 10 0 s.fdbUsed) := by
  have holds : s.HoldsReg 22 0x064 ⟨.switchCore, 22, 1, 0x13, some 301, false, true⟩ R.SW_FDB_STATUS.desc :=
    ⟨h, by decide, by decide, by decide, by decide, by decide⟩
  exact holds.exec_rclRead_shown (s.wr R.SW_FDB_STATUS.USED s.fdbUsed) rfl rfl (s.reg_wr_same R.SW_FDB_STATUS.USED _ 0 0)
    (fun b hb => s.reg_wr_other R.SW_FDB_STATUS.USED _ 0 0 b hb) rfl

/-- RCL_READ of the status register of a core shows the core's state and level. -/
theorem State.exec_rclRead_coreStatus (s : State) (who : Initiator) (c : Nat) (h : s.answers (64 + c) = true)
    (hc : c < 18) :
    ∃ t, exec (.rclRead who (R.CC_STATUS.all.addr c 0)) s = .next t ∧
      ReadsAs s t R.CC_STATUS.desc (R.CC_STATUS.all.addr c 0)
        (putBits (putBits (s.reg (R.CC_STATUS.all.addr c 0)) 31 29 (s.coreStatus c)) 28 27 (s.core c).level.code) := by
  have rows : ∀ c < 18, pageRow (64 + c) = some ⟨.core, 64, 18, 0x17, none, false, false⟩ := by decide
  have holds : s.HoldsReg (64 + c) 0x044 ⟨.core, 64, 18, 0x17, none, false, false⟩ R.CC_STATUS.desc :=
    ⟨h, rows c hc, by decide, by decide, by decide, by decide⟩
  have special : s.readSpecial who .core (64 + c - 64) 0x044 R.CC_STATUS.desc =
      ((s.wr R.CC_STATUS.STATE (s.coreStatus c) c).wr R.CC_STATUS.LEVEL (s.core c).level.code c).showsReg (64 + c)
        0x044 R.CC_STATUS.desc := by
    rw [Nat.add_sub_cancel_left]; rfl
  have shown := State.reg_wr_same (s.wr R.CC_STATUS.STATE (s.coreStatus c) c) R.CC_STATUS.LEVEL (s.core c).level.code c 0
  have others : ∀ b, b ≠ R.CC_STATUS.all.addr c 0 → _ = s.reg b := fun b hb =>
    (State.reg_wr_other _ R.CC_STATUS.LEVEL (s.core c).level.code c 0 b hb).trans
      (s.reg_wr_other R.CC_STATUS.STATE (s.coreStatus c) c 0 b hb)
  exact holds.exec_rclRead_shown _ rfl special
    (shown.trans (congrArg (putBits · 28 27 _) (s.reg_wr_same R.CC_STATUS.STATE _ c 0))) others rfl

/-- A word is the sum of the fields that it is cut into. -/
theorem word_eq_sum_bitsOf (w : Word) : w.toNat = getBits w 31 24 * 2 ^ 24 + getBits w 23 16 * 2 ^ 16 +
    getBits w 15 8 * 2 ^ 8 + getBits w 7 3 * 8 + getBits w 2 0 := by
  have := w.isLt
  simp only [getBits, bitsOf, Nat.shiftRight_eq_div_pow]
  omega

/-- A core's status code and level code fit their fields. -/
theorem State.coreStatus_lt (s : State) (c : Nat) : s.coreStatus c < 8 := by
  unfold State.coreStatus
  dsimp only
  split
  case h_2 => split <;> decide
  case h_3 => split <;> decide
  all_goals decide

theorem Level.code_lt (l : Level) : l.code < 4 := by cases l <;> decide

/-! ### The result of a snapshot -/

/-- RESULT_REGISTER_READ of CAD_SNAP_STATUS is answered with the register and its reread mark. -/
theorem State.exec_resultRegisterRead_snapStatus (s : State) (who : Initiator) (h : s.answers 8 = true) :
    exec (.resultRegisterRead who (R.CAD_SNAP_STATUS.all.addr 0 0)) s =
      .next (s.readSnapStatus.s.ok s.readSnapStatus.data) := by
  have holds : s.HoldsReg 8 0x044 ⟨.caddy, 8, 1, 0x08, some 302, false, true⟩ R.CAD_SNAP_STATUS.desc :=
    ⟨h, by decide, by decide, by decide, by decide, by decide⟩
  have unrefused : s.readSnapStatus.cause = none := by unfold State.readSnapStatus; split <;> rfl
  exact (holds.exec_ok (who := who) (r := s.readSnapStatus) rfl unrefused).2

/-! ### The obligation -/

/-- Settles O10. A read of a block-specific register is what its chapter gives it or a plain read, and a register that
shows what stands elsewhere is read as it stands once that has been put into it. -/
theorem registerReadsFollowAccessCodes : Obligations.RegisterReadsFollowAccessCodes := by
  refine ⟨?plain, ?special, ?common, ?result, ?rangeless, ?resetting, ?mailbox, ?fdb, ?core, ?held, ?unheld⟩
  case plain =>
    intro s who p off row d ha hr hf hb ho h4 hs
    have holds : s.HoldsReg p off row d := ⟨ha, hr, hf, hb, ho, h4⟩
    have read := s.readPlain_readsAs (p := p) (off := off) d (fun _ _ => rfl) rfl
    exact ⟨_, (holds.exec_ok (State.HoldsReg.blockRead_plain hs) rfl).1, read.answer, read.reg, read.others, read.frame,
      fun f _ w hw hl => d.read_by_access f w hw hl⟩
  case special =>
    intro s who p off row d r ha hr hf hb ho h4 hs
    have holds : s.HoldsReg p off row d := ⟨ha, hr, hf, hb, ho, h4⟩
    have result : s.blockRead who p off row d = r := by rw [State.blockRead, hs]; rfl
    exact ⟨holds.exec_ok result, fun _ => holds.exec_refused result⟩
  case common =>
    intro s who p off v row d hw hr hf ho h4 hv
    simpa [s.readReg_common who hr hf ho h4 hv] using exec_registerReads who (regAt p off) hw
  case result =>
    intro s who p off row d ha hr hf hb ho h4 hs
    have holds : s.HoldsReg p off row d := ⟨ha, hr, hf, hb, ho, h4⟩
    obtain ⟨rcl, result⟩ := holds.exec_ok (who := who) (State.HoldsReg.blockRead_plain hs) rfl
    exact result.trans rcl.symm
  case rangeless =>
    intro s who a hw hr
    obtain ⟨rcl, result⟩ := exec_registerReads who a hw
    exact ⟨⟨_, rcl, s.readReg_rangeless who a hr⟩, ⟨_, result, s.readReg_rangeless who a hr⟩⟩
  case resetting =>
    intro s who p off hw hp hh hb ho h4
    simpa [s.readReg_resetting who hp hh hb ho h4] using exec_registerReads who (regAt p off) hw
  case mailbox =>
    intro s who n ha hn
    obtain ⟨t, run, read⟩ := s.exec_rclRead_mbxStatus who n ha hn
    refine ⟨t, run, read.error, ?_, read.rd_rcl (f := R.MBX_STATUSn.OVERFLOW) (by decide) rfl (by decide) (by decide),
      read.rd_rcl (f := R.MBX_STATUSn.UNDERRUN) (by decide) rfl (by decide) (by decide),
      read.rd_rcl (f := R.MBX_STATUSn.NOSENDER) (by decide) rfl (by decide) (by decide), read.others, read.frame⟩
    rw [read.data_toNat (by decide), word_eq_sum_bitsOf, getBits_putBits_other _ _ _ _ 31 24 (by decide) (by decide),
      getBits_putBits_other _ _ _ _ 23 16 (by decide) (by decide),
      getBits_putBits_other _ _ _ _ 15 8 (by decide) (by decide),
      getBits_putBits_other _ _ _ _ 7 3 (by decide) (by decide), getBits_putBits_mod _ 2 0 _ (by decide) (by decide)]
    rfl
  case fdb =>
    intro s who ha
    obtain ⟨t, run, read⟩ := s.exec_rclRead_fdbStatus who ha
    refine ⟨t, run, read.error, ?_, ?_,
      read.rd_rcl (f := R.SW_FDB_STATUS.LEARN_FULL) (by decide) rfl (by decide) (by decide), read.others, read.frame⟩
    · rw [read.data_toNat (by decide)]
      exact getBits_putBits_other _ 10 0 _ 31 16 (by decide) (by decide)
    · rw [read.data_toNat (by decide)]
      exact getBits_putBits_mod _ 10 0 _ (by decide) (by decide)
  case core =>
    intro s who c ha hc
    obtain ⟨t, run, read⟩ := s.exec_rclRead_coreStatus who c ha hc
    refine ⟨t, run, read.error, ?_, ?_, ?_,
      read.rd_rcl (f := R.CC_STATUS.FAULTS) (by decide) rfl (by decide) (by decide), read.others, read.frame⟩
    · rw [read.data_toNat (by decide)]
      exact (getBits_putBits_other _ 28 27 _ 31 29 (by decide) (by decide)).trans
        (getBits_putBits_same _ 31 29 _ (by decide) (by decide) (s.coreStatus_lt c))
    · rw [read.data_toNat (by decide)]
      exact getBits_putBits_same _ 28 27 _ (by decide) (by decide) (Level.code_lt _)
    · rw [read.data_toNat (by decide)]
      exact (getBits_putBits_other _ 28 27 _ 7 0 (by decide) (by decide)).trans
        (getBits_putBits_other _ 31 29 _ 7 0 (by decide) (by decide))
  case held =>
    intro s who ha hv
    have run := s.exec_resultRegisterRead_snapStatus who ha
    rw [State.readSnapStatus, if_pos hv] at run
    refine ⟨_, run, ?_, rfl, rfl⟩
    cases hr : s.pt.snapRead <;> simp [State.ok, ofBool]
  case unheld =>
    intro s who ha hv
    have run := s.exec_resultRegisterRead_snapStatus who ha
    rw [State.readSnapStatus, if_neg (by simp [hv])] at run
    exact ⟨_, run, rfl, rfl⟩

end Sys2Proof.Machine
end

section
/-! PROOFS. The architecture: reset is in canonical form, and every command has a next state. No arm of `exec` answers
anything but a next state, whatever the state meets, so that only the arms with a case distinction of their own need an
argument. -/

namespace Sys2Proof.Machine

/-! ### Every command has a next state -/

/-- A row that asks for its premise first answers a next state in both cases (log 9). -/
theorem exists_next_ite {c : Prop} {dec : Decidable c} (t u : State) :
    ∃ v, (if c then .next t else .next u : Host.Outcome State Fault Refusal) = .next v := by
  split <;> exact ⟨_, rfl⟩

theorem execPostRetry_next (n : Nat) (s : State) : ∃ t, execPostRetry n s = .next t := by
  unfold execPostRetry
  cases s.pour.retry[n]? with
  | none => exact ⟨s, rfl⟩
  | some p => exact ⟨_, rfl⟩

theorem execUndefinedEncoding_next (core : Nat) (h0 h1 : Half) (s : State) :
    ∃ t, execUndefinedEncoding core h0 h1 s = .next t := by
  unfold execUndefinedEncoding
  cases decodeClalo core h0 h1 with
  | none => exact ⟨_, rfl⟩
  | some i => exact ⟨s, rfl⟩

/-- The rows fall into three kinds: two distinguish cases by a match, those named after them ask for a premise, and each
other row is `.next` of one state by its definition: an access, an instruction of a core (`State.instr`), or an event
whose case distinctions stand inside its state (`State.powered`, `State.canRow`, `State.gwRow`). -/
theorem exec_next (c : Instr) (s : State) : ∃ t, exec c s = .next t := by
  cases c
  case postRetry n => exact execPostRetry_next n s
  case undefinedEncoding core h0 h1 => exact execUndefinedEncoding_next core h0 h1 s
  case holdTimeEnd | livePointStale | hostPointHeld | hostLossTimeout | hostWdExpire | aliveSend | coldstartTimeout |
      staticSegmentEnd | tsLoadComplete | referenceCheck | holdoverLimit | steepFire | slotLoaded | detachedComplete |
      contextTimerExpire | engineTick | wakeNSeen | wkupSeen | ringDetect | hostWake | wakeTimerExpire |
      maxawakeExpire | dwellEnd | macRxFilter | macLinkChange | lsoSegmentEnqueue | macTxStart | macTxEnd |
      gclEntryStart | gclCycleStart => exact exists_next_ite _ _
  all_goals exact ⟨_, rfl⟩

theorem step_next (s : State) : ∃ t, step s = .next t := by
  unfold step
  cases s.pending with
  | nil => exact ⟨s.clockTick, rfl⟩
  | cons c rest => exact exec_next c { s with pending := rest }

/-- Settles O5: every row's meaning is a next state, and a step is a command's meaning or a tick. -/
theorem everyCommandCompletes : Obligations.EveryCommandCompletes := ⟨exec_next, step_next⟩

/-! ### The reset state -/

/-- Settles O4: the reset memories list nothing, and the four registers that the reset state lists rise in address and
differ from their reset values. -/
theorem resetIsCanonical : Obligations.ResetIsCanonical := ⟨rfl, by decide⟩

end Sys2Proof.Machine
end
